-- ==== Sys2Proof/Word.lean ====
section
/-! DEFINITION. The byte and the plain little-endian arithmetic every chapter of the spec shares (R4, R5). -/
namespace Sys2Proof

/-- One byte. -/
abbrev Byte := BitVec 8

/-- A sparse table: index and value pairs in one canonical form (indexes strictly rising, no value equal to the default). -/
abbrev Tbl (α : Type) := List (Nat × α)

/-- Bits `lo + w - 1 : lo` of a number (R5). -/
def bits (x lo w : Nat) : Nat := (x >>> lo) % 2 ^ w

/-- Bit `i` of a number. -/
def bit (x i : Nat) : Bool := x.testBit i

/-- A Bool as one bit. -/
def b2n (b : Bool) : Nat := if b then 1 else 0

/-- The number a byte string spells, least significant byte first (R4). -/
def leNat : List Byte → Nat
  | [] => 0
  | b :: bs => b.toNat + 256 * leNat bs

/-- The `n` bytes of a number, least significant first (R4). -/
def leBytes : Nat → Nat → List Byte
  | 0, _ => []
  | n + 1, x => BitVec.ofNat 8 x :: leBytes n (x / 256)

/-- `n` bytes of a byte string from offset `o`, missing ones as zero. -/
def sliceBytes (bs : List Byte) (o n : Nat) : List Byte :=
  (List.range n).map fun i => bs.getD (o + i) 0

/-- The little-endian number of `n` bytes at offset `o`. -/
def leAt (bs : List Byte) (o n : Nat) : Nat := leNat (sliceBytes bs o n)

/-- A counter of `w` bits that holds at its largest value (R44, R129). -/
def satAdd (w a b : Nat) : Nat := min (a + b) (2 ^ w - 1)

/-- A counter of `w` bits that wraps. -/
def wrapAdd (w a b : Nat) : Nat := (a + b) % 2 ^ w

/-- Two's complement reading of the low `w` bits. -/
def toSigned (w x : Nat) : Int :=
  let y := x % 2 ^ w
  if y < 2 ^ (w - 1) then (y : Int) else (y : Int) - (2 ^ w : Nat)

/-- The `w`-bit two's complement code of an integer. -/
def ofSigned (w : Nat) (x : Int) : Nat := (x % ((2 ^ w : Nat) : Int)).toNat

/-- Ceiling division. -/
def ceilDiv (a b : Nat) : Nat := (a + b - 1) / b

end Sys2Proof
end

