-- ==== Sys2Proof/Syntax.lean ====
section
/-! DEFINITION. The commands the block takes: one constructor per row of the operation table, with what the sender or the surroundings supply (log entry 1). -/
namespace Sys2Proof

/-- What a read of host memory answered (R303, R546): the bytes, an error or abort status, nothing within the completion timeout, or a translation that the host refused. -/
inductive HostRead where
  | ok (bytes : List Byte)
  | error
  | timeout
  | refused
  deriving DecidableEq, Repr

/-- A mailbox command as R567 lays it out: the issuing function and queue, the tag, the cookie, the fence bit, parameter bytes 0 to 47, and what the host memory it names reads as. -/
structure Mbx where
  func : Nat
  queue : Nat
  tag : Nat
  cookie : Nat
  fence : Bool
  params : List Byte
  host : HostRead
  deriving DecidableEq, Repr

/-- A fabric packet: four header words of 64 bits (R502) and the payload. -/
structure Packet where
  w0 : BitVec 64
  w1 : BitVec 64
  w2 : BitVec 64
  w3 : BitVec 64
  payload : List Byte
  deriving DecidableEq, Repr

/-- A debug access to a field's scratchpad: SP_DBG_CTRL as written (R235), or a compare-and-count (R208): kind 0 CC_EQ, 1 CC_LT, 2 CC_INS; key of 4 or 8 bytes. -/
inductive SpDbgOp where
  | row (ctrl : Nat)
  | cc (kind size key row : Nat)
  deriving DecidableEq, Repr

/-- What the error code finds in one 64-byte word of a scratchpad row (R196, R197): corrected, or not. Word 10 is the row's tag, whose parity is wrong (R200). -/
structure EccHit where
  field : Nat
  row : Nat
  word : Nat
  corrected : Bool
  deriving DecidableEq, Repr

/-- What the surroundings supply to the reads of a command: the host memory it reads, what the scratchpad's code finds in the rows, and the tier blocks (tier, number) whose code corrects a single bit (R285). -/
structure ReadIn where
  host : HostRead
  ecc : List EccHit
  blocks : List (Nat × Nat)
  deriving DecidableEq, Repr

/-- A debug access (R236) and what the code finds in its row. -/
structure DbgAccess where
  op : SpDbgOp
  ecc : List EccHit
  deriving DecidableEq, Repr

/-- A read of so many bytes and what it meets. -/
structure LenRead where
  len : Nat
  found : ReadIn
  deriving DecidableEq, Repr

/-- A PCIe configuration request (R546, R548, R549, R557): the identity, the command, power and ATS fields a driver writes, or another read. -/
inductive CfgReq where
  | readId
  | readOther (reg : Nat)
  | setBme (on : Bool)
  | setD3hot (on : Bool)
  | setVf (enable : Bool) (numVfs : Nat)
  | setAts (on : Bool)
  deriving DecidableEq, Repr

/-- The moments of R549 at which a function becomes disabled. -/
inductive DisableCause where
  | busMaster | d3hot | vfEnable | portDown
  deriving DecidableEq, Repr

/-- A PLDM message (R613): discovery, a sensor read, the power cap or a gating threshold (Type 2), a firmware image or its activation (Type 5). -/
inductive PldmReq where
  | discovery (req : List Byte)
  | readSensor (sensor : Nat)
  | setCap (watts : Nat)
  | setThreshold (sensor : Nat) (value : Int)
  | fwUpdate (image : List Byte)
  | fwActivate
  deriving DecidableEq, Repr

/-- Where a register write lands (R6, R18): BAR0 of a function, or chip control space written by firmware or the island. -/
inductive RegTarget where
  | bar0 (func : Nat)
  | control
  deriving DecidableEq, Repr

/-- The commands of the block, in the table's order. -/
inductive Instr where
  /-- STEP_TICK (R27). -/
  | stepTick
  /-- ROUTE_APPLY_UNSTEPPED (R516). -/
  | routeApplyUnstepped
  /-- SEGMENT_START (R31). -/
  | segmentStart
  /-- PROGRAM_END (R262). -/
  | programEnd
  /-- RACKSYNC_EDGE (R23). -/
  | racksyncEdge
  /-- RACKREF_LOSS (R25). -/
  | rackrefLoss
  /-- STEP_COMMIT (R43). -/
  | stepCommit
  /-- STEP_RUN_CONTROL (R43). -/
  | stepRunControl (run : Bool)
  /-- BUNDLE_ISSUE (R252). -/
  | bundleIssue (ecc : List EccHit)
  /-- HORIZON (R170). -/
  | horizon
  /-- BLOCKED_ACCESS_RETRY (R204). -/
  | blockedAccessRetry (ecc : List EccHit)
  /-- HITCH_WAIT_PROCEED (R463). -/
  | hitchWaitProceed
  /-- SEQ_HALT (R280). -/
  | seqHalt (halt : Bool)
  /-- SEQ_SINGLE_STEP (R280). -/
  | seqSingleStep
  /-- SP_DEBUG_ACCESS (R236). -/
  | spDebugAccess (field : Nat) (access : DbgAccess)
  /-- SCRATCHPAD_PATROL (R199). -/
  | scratchpadPatrol (ecc : EccHit)
  /-- CC_INS_WRITE (R209). -/
  | ccInsWrite (field row : Nat)
  /-- CACHE_FILL (R215). -/
  | cacheFill (region line : Nat)
  /-- STREAM_CHAIN_START (R306). -/
  | streamChainStart (engine : Nat)
  /-- STREAM_COPY (R312). -/
  | streamCopy (engine : Nat) (found : ReadIn)
  /-- EXPAND_TILE (R313). -/
  | expandTile (engine : Nat) (found : ReadIn)
  /-- PACK_T5P (R315). -/
  | packT5p (engine : Nat) (found : ReadIn)
  /-- QUANT (R314). -/
  | quant (engine : Nat) (found : ReadIn)
  /-- NARROW (R316). -/
  | narrow (engine : Nat) (found : ReadIn)
  /-- WIDEN (R312). -/
  | widen (engine : Nat) (found : ReadIn)
  /-- MX_IN (R76). -/
  | mxIn (engine : Nat) (found : ReadIn)
  /-- FRC_ENC (R74). -/
  | frcEnc (engine : Nat) (found : ReadIn)
  /-- FRC_DEC (R73). -/
  | frcDec (engine : Nat) (found : ReadIn)
  /-- PLANE (R390). -/
  | plane (engine : Nat) (found : ReadIn)
  /-- FILL (R312). -/
  | fill (engine : Nat) (found : ReadIn)
  /-- DESCRIPTOR_COMPLETE (R308). -/
  | descriptorComplete (engine : Nat)
  /-- DESCRIPTOR_FAIL (R321). -/
  | descriptorFail (engine status : Nat)
  /-- TIER_READ_RETRY (R286). -/
  | tierReadRetry (tier block : Nat) (clean : Bool)
  /-- WCB_LINE_WRITE (R291). -/
  | wcbLineWrite (tier line : Nat)
  /-- TIER_PATROL (R288). -/
  | tierPatrol (tier block : Nat) (corrected : Bool)
  /-- BAR2_READ (R554). -/
  | bar2Read (func off : Nat) (read : LenRead)
  /-- BAR2_WRITE (R555). -/
  | bar2Write (func off : Nat) (data : List Byte)
  /-- SHARD_ARRIVED (R338). -/
  | shardArrived (handle shard : Nat) (data : List Byte)
  /-- SHARD_TRANSFER_FAIL (R343). -/
  | shardTransferFail (handle shard status : Nat)
  /-- MODEL_DEADLINE_EXPIRY (R345). -/
  | modelDeadlineExpiry (handle : Nat)
  /-- LAYER_STAGED (R354). -/
  | layerStaged (handle layer : Nat)
  /-- COW_COPY_COMPLETE (R385). -/
  | cowCopyComplete (slot : Nat)
  /-- GRANULE_ZERO_COMPLETE (R608). -/
  | granuleZeroComplete (tier granule : Nat)
  /-- INPUT_COPY_COMPLETE (R416). -/
  | inputCopyComplete (slot : Nat) (data : HostRead)
  /-- BATCH_CUTOFF (R417). -/
  | batchCutoff (part : Nat)
  /-- BATCH_FINALISE (R419). -/
  | batchFinalise (part : Nat)
  /-- OUTPUT_DELIVERY (R426). -/
  | outputDelivery (slot : Nat)
  /-- PARK_MOVE_COMPLETE (R437). -/
  | parkMoveComplete (slot : Nat)
  /-- UNPARK_COMPLETE (R414). -/
  | unparkComplete (slot : Nat) (data : HostRead)
  /-- PARK_EXPIRY (R440). -/
  | parkExpiry (slot : Nat)
  /-- GATHER_WAVE (R447). -/
  | gatherWave
  /-- BAG_POOL (R451). -/
  | bagPool (bag : Nat)
  /-- WRITE_PACKET_RECEIVED (R476). -/
  | writePacketReceived (port : Nat) (p : Packet)
  /-- REMOTE_TRANSFER_COMPLETE (R467). -/
  | remoteTransferComplete (chip tag : Nat)
  /-- TRANSFER_ABANDON (R469). -/
  | transferAbandon (chip tag : Nat)
  /-- DONE_RECEIVED (R508). -/
  | doneReceived (p : Packet)
  /-- NAK_RECEIVED (R508). -/
  | nakReceived (p : Packet)
  /-- BUSY_RESEND (R468). -/
  | busyResend (tag : Nat)
  /-- SENDER_TIMEOUT (R508). -/
  | senderTimeout (tag : Nat)
  /-- ROUTER_FORWARD (R514). -/
  | routerForward (port : Nat) (p : Packet)
  /-- BAR_ENTRY_RECEIVED (R484). -/
  | barEntryReceived (p : Packet)
  /-- BAR_RELEASE_RECEIVED (R696). -/
  | barReleaseReceived (p : Packet)
  /-- FLIT_CRC_ERROR (R496). -/
  | flitCrcError (port : Nat)
  /-- PORT_RETRAIN (R497). -/
  | portRetrain (port : Nat)
  /-- LANE_TRAINING_DONE (R504). -/
  | laneTrainingDone (port : Nat) (ok : Bool) (lanes : Nat)
  /-- LINK_ID_SEND (R504). -/
  | linkIdSend (port : Nat)
  /-- LINK_ID_RECEIVED (R518). -/
  | linkIdReceived (port : Nat) (p : Packet)
  /-- HEARTBEAT_SEND (R520). -/
  | heartbeatSend
  /-- HEARTBEAT_RECEIVED (R520). -/
  | heartbeatReceived (p : Packet)
  /-- HEARTBEAT_TIMEOUT (R521). -/
  | heartbeatTimeout (chip : Nat)
  /-- LEAVE_RECEIVED (R520). -/
  | leaveReceived (p : Packet)
  /-- TIME_EXCHANGE_SEND (R524). -/
  | timeExchangeSend (port : Nat)
  /-- TIME_RECEIVED (R525). -/
  | timeReceived (port : Nat) (p : Packet)
  /-- FABRIC_IDENTITY_ASSIGN (R510). -/
  | fabricIdentityAssign (rack sled slot chip systemId : Nat)
  /-- KNOT_SEND (R531). -/
  | knotSend (engine : Nat) (src : ReadIn)
  /-- KNOT_COMBINE (R533). -/
  | knotCombine (engine : Nat) (src dst : ReadIn)
  /-- KNOT_COPY (R531). -/
  | knotCopy (engine : Nat) (src : ReadIn)
  /-- KNOT_WAIT (R531). -/
  | knotWait (engine : Nat)
  /-- KNOT_INC (R531). -/
  | knotInc (engine : Nat)
  /-- KNOT_BARRIER (R531). -/
  | knotBarrier (engine : Nat)
  /-- KNOT_SETREG (R531). -/
  | knotSetreg (engine : Nat)
  /-- KNOT_ADVREG (R531). -/
  | knotAdvreg (engine : Nat)
  /-- KNOT_LOOP (R531). -/
  | knotLoop (engine : Nat)
  /-- KNOT_END (R531). -/
  | knotEnd (engine : Nat)
  /-- SQ_DOORBELL (R560). -/
  | sqDoorbell (func queue tail : Nat)
  /-- CQ_DOORBELL (R563). -/
  | cqDoorbell (func queue head : Nat)
  /-- EQ_DOORBELL (R572). -/
  | eqDoorbell (func head : Nat)
  /-- QUEUE_ENABLE (R559). -/
  | queueEnable (func queue ctrl : Nat)
  /-- QUEUE_DISABLE (R559). -/
  | queueDisable (func queue : Nat)
  /-- EVENT_RING_ENABLE (R572). -/
  | eventRingEnable (func ctrl : Nat)
  /-- COMMAND_READ (R569). -/
  | commandRead (func queue : Nat) (desc host : HostRead)
  /-- INTERRUPT_COALESCE_TIMER (R577). -/
  | interruptCoalesceTimer (func ring : Nat)
  /-- MSIX_VECTOR_UNMASK (R578). -/
  | msixVectorUnmask (func vector : Nat)
  /-- PF_DEBUG_WINDOW_ACCESS (R586). -/
  | pfDebugWindowAccess (func off width : Nat) (write : Option Nat)
  /-- CONFIG_REQUEST (R557). -/
  | configRequest (func : Nat) (req : CfgReq)
  /-- ATS_INVALIDATION (R546). -/
  | atsInvalidation (port base len : Nat)
  /-- FUNCTION_DISABLE (R599). -/
  | functionDisable (func : Nat) (cause : DisableCause)
  /-- FUNCTION_LEVEL_RESET (R550). -/
  | functionLevelReset (func : Nat)
  /-- PCIE_LINK_UP (R581). -/
  | pcieLinkUp (port : Nat)
  /-- PCIE_LINK_DOWN (R581). -/
  | pcieLinkDown (port : Nat)
  /-- PERST_ASSERT (R557). -/
  | perstAssert (port : Nat)
  /-- PERST_DEASSERT (R680). -/
  | perstDeassert (port : Nat)
  /-- PRIMARY_ROLE_TIMEOUT (R580). -/
  | primaryRoleTimeout
  /-- DEV_IDENTIFY (R584). -/
  | devIdentify (m : Mbx)
  /-- DEV_STEP_CONFIG (R584). -/
  | devStepConfig (m : Mbx)
  /-- DEV_STEP_RUN (R584). -/
  | devStepRun (m : Mbx)
  /-- DEV_TIME_SET (R584). -/
  | devTimeSet (m : Mbx)
  /-- DEV_CLOCK (R691). -/
  | devClock (m : Mbx)
  /-- DEV_PRIMARY (R580). -/
  | devPrimary (m : Mbx)
  /-- DEV_EVENT_MASK (R576). -/
  | devEventMask (m : Mbx)
  /-- DEV_NOP (R584). -/
  | devNop (m : Mbx)
  /-- DEV_BAR2_MAP (R554). -/
  | devBar2Map (m : Mbx)
  /-- PART_CREATE (R587). -/
  | partCreate (m : Mbx)
  /-- PART_DESTROY (R609). -/
  | partDestroy (m : Mbx)
  /-- PART_FUNC (R609). -/
  | partFunc (m : Mbx)
  /-- PART_QOS (R595). -/
  | partQos (m : Mbx)
  /-- PART_RESET (R602). -/
  | partReset (m : Mbx)
  /-- PART_RESUME (R609). -/
  | partResume (m : Mbx)
  /-- PART_QUERY (R609). -/
  | partQuery (m : Mbx)
  /-- MODEL_LOAD (R338). -/
  | modelLoad (m : Mbx)
  /-- MODEL_UNLOAD (R351). -/
  | modelUnload (m : Mbx)
  /-- MODEL_RELOAD_LAYERS (R347). -/
  | modelReloadLayers (m : Mbx)
  /-- MODEL_SWAP (R352). -/
  | modelSwap (m : Mbx)
  /-- MODEL_SWAP_RESUME (R363). -/
  | modelSwapResume (m : Mbx)
  /-- MODEL_SWAP_REVERT (R363). -/
  | modelSwapRevert (m : Mbx)
  /-- MODEL_UPDATE (R369). -/
  | modelUpdate (m : Mbx)
  /-- MODEL_CHECKPOINT (R370). -/
  | modelCheckpoint (m : Mbx)
  /-- MODEL_QUERY (R372). -/
  | modelQuery (m : Mbx)
  /-- NP_CONFIG (R186). -/
  | npConfig (m : Mbx)
  /-- PROG_LOAD (R277). -/
  | progLoad (m : Mbx)
  /-- PROG_ACTIVATE (R277). -/
  | progActivate (m : Mbx)
  /-- PROG_UNLOAD (R277). -/
  | progUnload (m : Mbx)
  /-- PROG_GET_REPORT (R279). -/
  | progGetReport (m : Mbx)
  /-- PROG_SET_COUNTS (R274). -/
  | progSetCounts (m : Mbx)
  /-- PROG_DEACTIVATE (R278). -/
  | progDeactivate (m : Mbx)
  /-- SRV_CONFIG (R455). -/
  | srvConfig (m : Mbx)
  /-- SRV_CLASS (R427). -/
  | srvClass (m : Mbx)
  /-- SRV_SUBMIT (R416). -/
  | srvSubmit (m : Mbx)
  /-- SRV_CANCEL (R431). -/
  | srvCancel (m : Mbx)
  /-- SRV_PARK (R436). -/
  | srvPark (m : Mbx)
  /-- SRV_PREFIX_CREATE (R433). -/
  | srvPrefixCreate (m : Mbx)
  /-- SRV_PREFIX_RELEASE (R435). -/
  | srvPrefixRelease (m : Mbx)
  /-- SRV_QUERY (R456). -/
  | srvQuery (m : Mbx)
  /-- MEM_COPY (R327). -/
  | memCopy (m : Mbx)
  /-- MEM_RETIRE (R323). -/
  | memRetire (m : Mbx)
  /-- MEM_RETIRE_READ (R327). -/
  | memRetireRead (m : Mbx)
  /-- MEM_T3_MAP (R300). -/
  | memT3Map (m : Mbx)
  /-- MEM_T3_UNMAP (R327). -/
  | memT3Unmap (m : Mbx)
  /-- MEM_MODE (R295). -/
  | memMode (m : Mbx)
  /-- MEM_LOCK (R298). -/
  | memLock (m : Mbx)
  /-- SP_CACHE_CONFIG (R233). -/
  | spCacheConfig (m : Mbx)
  /-- SP_RETIRE_ROW (R234). -/
  | spRetireRow (m : Mbx)
  /-- KV_POOL_CONFIG (R408). -/
  | kvPoolConfig (m : Mbx)
  /-- KV_SEQ_QUERY (R407). -/
  | kvSeqQuery (m : Mbx)
  /-- KV_POOL_STATUS (R407). -/
  | kvPoolStatus (m : Mbx)
  /-- KV_DROP (R407). -/
  | kvDrop (m : Mbx)
  /-- FAB_ROUTE_LOAD (R516). -/
  | fabRouteLoad (m : Mbx)
  /-- FAB_BOND (R500). -/
  | fabBond (m : Mbx)
  /-- FAB_PORT_CTRL (R540). -/
  | fabPortCtrl (m : Mbx)
  /-- FAB_TIME_CFG (R522). -/
  | fabTimeCfg (m : Mbx)
  /-- KNOT_LOAD (R529). -/
  | knotLoad (m : Mbx)
  /-- KNOT_UNLOAD (R540). -/
  | knotUnload (m : Mbx)
  /-- KNOT_ABORT (R540). -/
  | knotAbort (m : Mbx)
  /-- FAB_INJECT (R539). -/
  | fabInject (m : Mbx)
  /-- FAB_QUERY (R540). -/
  | fabQuery (m : Mbx)
  /-- HITCH_CONFIG (R492). -/
  | hitchConfig (m : Mbx)
  /-- HITCH_READ (R492). -/
  | hitchRead (m : Mbx)
  /-- HITCH_SET (R473). -/
  | hitchSet (m : Mbx)
  /-- WIN_OPEN (R475). -/
  | winOpen (m : Mbx)
  /-- WIN_CLOSE (R478). -/
  | winClose (m : Mbx)
  /-- WIN_BIND (R481). -/
  | winBind (m : Mbx)
  /-- BAR_CONFIG (R482). -/
  | barConfig (m : Mbx)
  /-- BAR_FREE (R492). -/
  | barFree (m : Mbx)
  /-- BAR_FORCE (R492). -/
  | barForce (m : Mbx)
  /-- SEC_IDENTITY (R642). -/
  | secIdentity (m : Mbx)
  /-- SEC_ATTEST (R633). -/
  | secAttest (m : Mbx)
  /-- SEC_CHALLENGE (R639). -/
  | secChallenge (m : Mbx)
  /-- SEC_LC_STATUS (R642). -/
  | secLcStatus (m : Mbx)
  /-- SEC_LC_TRANSITION (R635). -/
  | secLcTransition (m : Mbx)
  /-- SEC_OWNER_KEYS (R628). -/
  | secOwnerKeys (m : Mbx)
  /-- SEC_TOKEN (R640). -/
  | secToken (m : Mbx)
  /-- SEC_FW_UPDATE (R626). -/
  | secFwUpdate (m : Mbx)
  /-- SEC_FW_ACTIVATE (R626). -/
  | secFwActivate (m : Mbx)
  /-- SEC_SVN_COMMIT (R625). -/
  | secSvnCommit (m : Mbx)
  /-- SEC_POWER_CFG (R623). -/
  | secPowerCfg (m : Mbx)
  /-- ERR_COUNTER_CLEAR (R664). -/
  | errCounterClear (m : Mbx)
  /-- ERR_LOG_READ (R664). -/
  | errLogRead (m : Mbx)
  /-- ERR_HANG_READ (R664). -/
  | errHangRead (m : Mbx)
  /-- ERR_HANG_CAPTURE (R657). -/
  | errHangCapture (m : Mbx)
  /-- ERR_CFG_SET (R664). -/
  | errCfgSet (m : Mbx)
  /-- LL_TELEMETRY (R615), code 0x01; the row also carries a message whose code the lifeline table does not hold, which is malformed (R616). -/
  | llTelemetry (code seq : Nat) (req : List Byte)
  /-- LL_POWER_OFF (R615). -/
  | llPowerOff (seq : Nat) (req : List Byte)
  /-- LL_COLD_RESET (R679). -/
  | llColdReset (seq : Nat) (req : List Byte)
  /-- LL_HANG_RECORD (R615). -/
  | llHangRecord (seq : Nat) (req : List Byte)
  /-- LL_LC_STATUS (R615). -/
  | llLcStatus (seq : Nat) (req : List Byte)
  /-- LL_HITCH_SET (R474). -/
  | llHitchSet (seq : Nat) (req : List Byte)
  /-- SEC_REQUEST (R643). -/
  | secRequest (seq : Nat) (req : List Byte)
  /-- SEC_READ (R643). -/
  | secRead (seq chunk : Nat)
  /-- PLDM_REQUEST (R613). -/
  | pldmRequest (req : PldmReq)
  /-- SENSOR_SAMPLE (R619). -/
  | sensorSample (sensor : Nat) (value : Int)
  /-- GATE_RECOMPUTE (R621). -/
  | gateRecompute (watts : Nat)
  /-- WATCHDOG_REFRESH (R660). -/
  | watchdogRefresh (core pc : Nat)
  /-- WATCHDOG_EXPIRY (R660). -/
  | watchdogExpiry (core : Nat)
  /-- HANG_STALL_TIMEOUT (R657). -/
  | hangStallTimeout
  /-- TOKEN_EXPIRY (R641). -/
  | tokenExpiry
  /-- RETURN_ERASE_COMPLETE (R637). -/
  | returnEraseComplete
  /-- VIN_RISE (R678). -/
  | vinRise
  /-- ISLAND_SUPPLY_GOOD (R624). -/
  | islandSupplyGood (slotAOk slotBOk : Bool)
  /-- ISLAND_READY (R678). -/
  | islandReady (mgtAddr : Nat)
  /-- PWR_EN_RISE (R678). -/
  | pwrEnRise
  /-- RAIL_POWER_GOOD (R677). -/
  | railPowerGood
  /-- RAIL_GOOD_TIMEOUT (R677). -/
  | railGoodTimeout
  /-- DIE_RESET_RELEASE (R678). -/
  | dieResetRelease
  /-- SELF_TEST_COMPLETE (R681). -/
  | selfTestComplete (failedRows : List (Nat × Nat)) (ok avporOk : Bool)
  /-- MEMORY_TRAINING_COMPLETE (R682). -/
  | memoryTrainingComplete (t1Ok t2Ok : Bool)
  /-- PWR_EN_FALL (R683). -/
  | pwrEnFall
  /-- POWER_DOWN_COMPLETE (R684). -/
  | powerDownComplete
  /-- POWER_UP_RESTART (R684). -/
  | powerUpRestart
  /-- SUPPLY_FAULT (R676). -/
  | supplyFault (kind : Nat)
  /-- ISLAND_SUPPLY_LOSS (R676). -/
  | islandSupplyLoss
  /-- REGISTER_WRITE (R6). -/
  | registerWrite (target : RegTarget) (off width value : Nat)
  /-- RACKREF_ARRIVAL (R25). -/
  | rackrefArrival
  /-- STEP_CONFIG_TAKES_EFFECT (R34). -/
  | stepConfigTakesEffect
  /-- VERIFICATION_COMPLETE (R271). -/
  | verificationComplete (handle : Nat)
  /-- SUPPLY_STABLE (R684). -/
  | supplyStable
  /-- LOW_MARGIN_CHANGE (R676). -/
  | lowMarginChange (vin : Nat)
  deriving DecidableEq, Repr

end Sys2Proof
end

