-- ==== Sys2Proof/Decode.lean ====
section
/-! DEFINITION. The commands a word spells. -/
namespace Sys2Proof

/-- No row of the operation table gives its command any bits, so no word spells a command. -/
def decodeTableWord (_nbits _w : Nat) : Option Instr := none

end Sys2Proof
end

