-- ==== Sys2Proof/Config.lean ====
section
/-! DEFINITION. What one implementation fixes and the values the spec leaves open: constants without a body, so that no proof can see one; each names its log entry. -/
namespace Sys2Proof.Config

/-- A fresh free value for each argument; the machine applies it to its own counter (log entry 6). -/
opaque freeNat : Nat → Nat

/-- G of R180: the 32-bit draw for key, token and value index; the spec calls it only 'a fixed mixing function' (log entry 7). -/
opaque mixG : Nat → Nat → Nat → Nat

/-- The key of R182 from NP_SEED, STEP_COUNT, field, generator and window index; the derivation is not given (log entry 7). -/
opaque deriveKey : Nat → Nat → Nat → Nat → Nat → Nat

/-- The hash of source chip and tag of R514, not given (log entry 8). -/
opaque routeHash : Nat → Nat → Nat

/-- One draw of the injection generator of R537, by seed and draw number (log entry 8). -/
opaque injectDraw : Nat → Nat → Nat

/-- SHA-384 of R2 as a function of bytes: named by a standard outside the spec (log entry 9). -/
opaque sha384 : List Byte → Nat

/-- ECDSA on brainpoolP384r1 (R2): key bytes, digest, signature bytes (log entry 9). -/
opaque ecdsaVerify : List Byte → Nat → List Byte → Bool

/-- The public key of a vendor slot, whose digest the fuses hold (R628; log entry 9). -/
opaque vendorKey : Nat → List Byte

/-- The alias-key signature of R633: by the device secret and measurements 0 and 1 that the key derives from (R631), of a digest (log entry 9). -/
opaque aliasSign : Nat → Nat → Nat → Nat → List Byte

/-- The identity certificate of a device ID, DER (R630; log entry 9). -/
opaque identityCert : Nat → List Byte

/-- The alias certificate of a secret and measurements 0 and 1, DER (R631; log entry 9). -/
opaque aliasCert : Nat → Nat → Nat → List Byte

/-- A challenge's 32 bytes, by fresh number (R639; log entry 9). -/
opaque challenge : Nat → List Byte

/-- What a flash slot holds when the module leaves manufacture: digests of its island and Avpor images, firmware version, security version (R624; log entry 5). -/
opaque factoryFlash : Nat → Nat × Nat × Nat × Nat

/-- A firmware image, whose layout the spec does not give: its island and Avpor images, version, security version, and a signature of each (R624, R626; log entry 9). -/
opaque fwImage : List Byte → List Byte × List Byte × Nat × Nat × List Byte × List Byte

/-- Free placement: which free object of a kind firmware picks, by kind and fresh number; used only when it names a free one (log entry 10). -/
opaque pick : Nat → Nat → Nat

/-- Granules of a tier (0 T1, 1 T2) that firmware keeps for itself, such as the error log's (R590, R648), whose number the spec does not give (log entry 20). -/
opaque reservedGranules : Nat → Nat

/-- The sign and payload of a quiet NaN that an operation on two binary32 codes gives, which R65 leaves to IEEE 754 and IEEE 754 leaves open (log entry 14). -/
opaque nanBits : Nat → Nat → Nat

/-- Which operand FMAX or FMIN gives when one is not a number or the two are equal zeros, which R65 leaves to IEEE 754 and its editions differ on (log entry 14). -/
opaque pickFirst : Nat → Nat → Bool

/-- What an LNS16 division by zero gives, by dividend; R62 states no result (log entry 14). -/
opaque lnsByZero : Nat → Nat

/-- The mantissa a unit reads from a block that breaks R57, by mantissas, exponent, flag and element; the spec says only that the unit faults (log entry 14). -/
opaque badElem : List Int → Nat → Nat → Nat → Int

/-- The word SP_ECC_RECORD names for a row whose tag parity is wrong; R200 gives it none (log entry 33). -/
opaque tagErrorWord : Nat → Nat

/-- What the scratchpad's code finds in the rows that a SEQ_SINGLE_STEP or a GATHER_WAVE reads, which no operand of theirs says; the machine applies it to its own counter (log entry 6). -/
opaque eccFound : Nat → List EccHit

/-- The tier blocks whose code corrects a bit while a GATHER_WAVE reads them, likewise (log entry 6). -/
opaque blocksFound : Nat → List (Nat × Nat)

/-- Which leaf of FREDUCE's fixed tree holds lane `i`; R152 does not draw the tree (log entry 14). -/
opaque reduceLeaf : Nat → Nat

/-- The layout of a query buffer the spec does not lay out, by command opcode and the words to report (R372, R407, R456, R609; log entry 11). -/
opaque queryImage : Nat → List Nat → List Byte

/-- The bag records in a submitted input, whose layout the spec does not give: table, operation, ids (R413, R416; log entry 11). -/
opaque bagRecords : List Byte → List (Nat × Nat × List Nat)

/-- The verifier's own choice of formula terms for an image (R273): knees, then coefficient, a, b (0xFF none) (log entry 12). -/
opaque verifierFormula : List Byte → List Nat × List (Nat × Nat × Nat)

/-- What the verifier knows of a compressed window whose weights are not resident when it verifies: by image, bundle and window, whether it passes the test of R116 (log entry 12). -/
opaque podTest : List Byte → Nat → Nat → Bool

/-- Whether the accesses of a bundle whose cycles the spec does not give (those of EPILOGUE, SPLICE and PREDMASK parts and of the sprout unit) find their slots (R194), by image, counts and bundle (log entry 12). -/
opaque slotsHold : List Byte → List Nat → Nat → Bool

/-- Whether the transfers of a bundle to other chips, whose rate R289 does not give, have read their rows by the end of the program (R225), by image, counts and bundle (log entry 12). -/
opaque sendsDone : List Byte → List Nat → Nat → Bool

/-- A PLDM answer to a discovery message or a sensor read (R613), whose bytes its own standard gives (log entry 11). -/
opaque pldmReply : List Byte → List Nat → List Byte

/-- How long after PERST_x_N a port's configuration space becomes ready, by port; R557 gives only the most, 500 ms (log entry 37). -/
opaque cfgReadyNs : Nat → Nat

/-- What a configuration register reads as: by function and register; the PCIe specification gives it, not the spec (R543, R548; log entry 37). -/
opaque cfgValue : Nat → Nat → Nat

/-- Where in the host interface's block of control space the registers of a function's BAR0 stand: by offset, the function and the offset in its BAR0; R12 names the block and no layout (log entry 37). -/
opaque hifPlace : Nat → Option (Nat × Nat)

end Sys2Proof.Config
end

