-- ==== Sys2Proof/Machine/State.lean ====
section
/-! DEFINITION. Everything the spec gives the module: its registers by block, the objects behind them, and the machine right after reset. Plain data throughout; numbers are kept within the widths named, and tables are sparse with the default their reset gives. -/
namespace Sys2Proof.Machine

/-! ### Clock and step (01_architecture_and_step.md) -/

/-- One STEP_SEG entry (R43). -/
structure SegEntry where
  valid : Bool
  partition : Nat
  budget : Nat
  deriving DecidableEq, Repr

/-- A step configuration in force or staged (R34, R584); `origin` is E. -/
structure StepCfg where
  period : Nat
  origin : Nat
  segs : List SegEntry
  overrunLimit : Nat
  lateEvents : Bool
  deriving DecidableEq, Repr

/-- A command firmware has started and not completed: its descriptor, opcode, the number it was read under, the epoch of its queue (R559), the partition it acts for. -/
structure Cmd where
  id : Nat
  op : Nat
  m : Mbx
  epoch : Nat
  part : Option Nat
  deriving DecidableEq, Repr

/-- The step that runs: its segment table, which segment comes next, the ACLK cycle reached since the tick, the scheduled start of the next segment and the actual one of the last, which partitions had a late segment and which of them one that counts towards overrun_limit (R29 to R41). -/
structure StepRun where
  segs : List SegEntry
  next : Nat
  cycle : Nat
  scheduled : Nat
  actual : Nat
  inSeg : Bool
  late : List Nat
  blamed : List Nat
  skipped : List Nat
  segSlack : Tbl Nat
  missedHere : Bool
  deriving DecidableEq, Repr

structure StepSt where
  overrunLimit : Nat
  lateEvents : Bool
  run : Bool
  periodNs : Nat
  origin : Nat
  rackTime : BitVec 64
  syncLoad : Nat
  topCause : Nat
  segment : Nat
  inSegment : Bool
  inReserve : Bool
  holdover : Bool
  timeLocked : Bool
  suspended : Nat
  count : Nat
  missed : Nat
  spread : Nat
  segRegs : Tbl Nat
  partLate : Tbl Nat
  partOverrun : Tbl Nat
  active : Option StepCfg
  staged : Option StepCfg
  nextTick : Nat
  lastTick : Option Nat
  lastGrid : Nat × Nat
  running : Option StepRun
  streak : Tbl Nat
  spreadNow : Nat
  spreadPending : Bool
  rackref : Bool
  rackrefEver : Bool
  lastSync : Option Nat
  deriving DecidableEq, Repr

/-! ### Sequencer and bundle store (07_bundles_and_verifier.md) -/

/-- A cost formula (R273): knees, then terms coefficient, a, b; 0xFF marks an unused variable. -/
structure Formula where
  knees : List Nat
  terms : List (Nat × Nat × Nat)
  exact : Bool
  deriving DecidableEq, Repr

/-- A loaded or verifying program (R239, R277). -/
structure Prog where
  part : Nat
  base : Nat
  image : List Byte
  unverified : Bool
  verified : Bool
  formula : Formula
  report : List Byte
  hostCounts : List Nat
  cmd : Option Cmd
  deriving DecidableEq, Repr

/-- A nominal home relocated to its actual home while a program is active (R341). -/
structure Reloc where
  nominal : Nat
  length : Nat
  actual : Nat
  deriving DecidableEq, Repr

/-- The program a partition has active, its binding, and the counts committed per segment entry (R240, R257, R341). -/
structure ActiveProg where
  handle : Nat
  relocs : List Reloc
  counts : Tbl (List Nat)
  deriving DecidableEq, Repr

structure ProgSt where
  progs : Tbl (Option Prog)
  active : Tbl (Option ActiveProg)
  deriving DecidableEq, Repr

/-- Why the instruction stream is stalled (R36, R204, R269): the first blocked access, a kick whose queue is full, the object waited on, or the transfers a replay waits for (R171). -/
inductive Stall where
  | blocked (field row : Nat) (spool fill : Bool)
  | queueFull (kick : Nat)
  | hitch (virtual : Nat)
  | barrier (index : Nat)
  | replay
  deriving DecidableEq, Repr

/-- A part that occupies a unit class of the fields of its mask until a count of non-stalled cycles (R258). -/
structure PartRun where
  kind : Nat
  mask : Nat
  endWork : Nat
  deriving DecidableEq, Repr

/-- Where a program stands (R240, R252 to R256): `pc` is the offset of the bundle among the bundle bytes, `left` the issues still to make of it once it is entered, `jumped` that a loop's jump back reached it. -/
structure Pos where
  pc : Nat
  left : Option Nat
  jumped : Bool
  loops : List Nat
  loopOn : List Bool
  base : List Nat
  ended : Bool
  deriving DecidableEq, Repr

/-- What MARK saves (R169, R171): the position, the statistics, the window indices, which rows were full, the page lists' positions, the fault so far. -/
structure Mark where
  pos : Pos
  stats : Tbl (Nat × Nat × Nat × Nat)
  windows : Tbl Nat
  full : List Nat
  kvNext : Tbl Nat
  fault : Option Nat
  faultRec : Nat × Nat × Nat
  deriving DecidableEq, Repr

/-- A part at work in one field (R91, R93, R204, R258): its word, the offset of its bundle, the base registers of its issue, the cycle of that issue and of its next step. A BRAID part keeps which unit (tile, plane or window) is in the lanes and when its tile came there, whether the next unit stands in the other spool buffer and when its load ends, and which tiles of both an elastic span skips (R265); `rows` are operand rows read once, `key` the generator key at its start (R264), `last` that its drain supplies a vector's last value (R149). -/
structure Flight where
  word : Nat
  field : Nat
  bundle : Nat
  base : List Nat
  inSpan : Bool
  start : Nat
  due : Nat
  step : Nat
  unit : Nat
  tileAt : Nat
  loaded : Bool
  loadEnd : Nat
  idle : List Bool
  idleNext : List Bool
  gated : Bool
  poison : Bool
  skips : List Nat
  chans : List Nat
  rows : List (List (List Byte))
  key : Nat
  last : Bool
  deriving DecidableEq, Repr

/-- An add on its way to the accumulator store (R91, R143): the cycle it is issued in, the token's place, its contributions by row as integers in units of the reference exponent or as binary32 codes in order. -/
structure Landing where
  due : Nat
  field : Nat
  fmt : Nat
  eRef : Nat
  line : Nat
  token : Nat
  bundle : Nat
  preload : Bool
  poison : Bool
  ints : List (Nat × Int)
  codes : List (Nat × List Nat)
  deriving DecidableEq, Repr

/-- The program that runs in the current segment (R240, R252 to R265). `work` counts the non-stalled cycles reached, `ready` those at which the next issue is due, `goal` those up to which the parts run, `resume` those at which a rerun began; `flights` are the parts at work, `adds` their adds under way, `ahead` the fields whose warm part's first tile stands loaded (R260), `masks` the predicted layer of each row a PREDMASK part has written, by field × 32,768 + row (R177). -/
structure SeqRun where
  part : Nat
  handle : Nat
  pos : Pos
  counts : List Nat
  work : Nat
  ready : Nat
  resume : Nat
  parts : List PartRun
  flights : List Flight
  adds : List Landing
  goal : Nat
  ahead : List Nat
  masks : Tbl (Option Nat)
  inSpan : Bool
  stall : Option Stall
  waitHorizon : Bool
  mark : Option Mark
  kvNext : Tbl Nat
  fault : Option Nat
  faultRec : Nat × Nat × Nat
  hitchEntry : Tbl Nat
  deriving DecidableEq, Repr

/-- The sequencer's registers and what runs (R280); `stallSince` is when slack was last charged in the present stall, `stallNs` its length up to then without halts, `hangNoted` that a hang record was captured in it (R657). -/
structure SeqSt where
  partition : Nat
  cause : Nat
  stalled : Bool
  inSpan : Bool
  loopDepth : Nat
  loopActive : Bool
  ended : Bool
  issuing : Bool
  halt : Bool
  pc : Nat
  issued : Nat
  stallCause : Nat
  stallField : Nat
  stallBank : Nat
  stallRow : Nat
  loopRegs : Tbl Nat
  countRegs : Tbl Nat
  baseRegs : Tbl Nat
  slack : Tbl Nat
  stepSlack : Tbl Nat
  partSlack : Tbl Nat
  cur : Option SeqRun
  stallSince : Nat
  stallNs : Nat
  hangNoted : Bool
  deriving DecidableEq, Repr

/-! ### The sixteen fields (03, 04, 06) -/

/-- A resident range (R219, R235). -/
structure ResRange where
  valid : Bool
  readOnly : Bool
  partitions : Nat
  count : Nat
  first : Nat
  deriving DecidableEq, Repr

/-- An accumulator line's tag (R134) and the poison bit beside it (R649). -/
structure LineTag where
  opened : Bool
  format : Nat
  eRef : Nat
  poison : Bool
  deriving DecidableEq, Repr

/-- One output row in a spool buffer (R80, R95, R115): the weight bytes its lanes hold with the group each one serves, its zero map and plane exponent, and the entries of its partner row that its pod holds. -/
structure SpoolRow where
  lanes : List (Nat × Byte)
  zmap : Nat
  pexp : Nat
  pod : List (Nat × Byte)
  deriving DecidableEq, Repr

/-- A spool buffer with its side-store (R80): one list of rows, whether a row loaded into it was poisoned, whether its load found a fault. -/
structure SpoolBuf where
  rows : List SpoolRow
  poison : Bool
  faulty : Bool
  deriving DecidableEq, Repr

/-- The registers of one field: braid engine (R128), accumulator and LVU (R157), scratchpad (R235). `tables` are the tables in the table buffer (R80, R84), `ccPending` the insertions that wait for their bank's slot 7, by row, key size, index and key (R209), `dbgWaits` the debug access that waits, `blockedAt` the turn last counted in SP_TAG_BLOCKS (R207), `pwrReady` the time 20 µs after each bank group's last power-up (R228), `retiredAt` names the SP_RETIRED entries of the retired rows as far as a register write has placed them. -/
structure FieldSt where
  brdMode : Nat
  spoolBuf : Bool
  wide : Bool
  predicted : Bool
  spool : Tbl SpoolBuf
  tables : List (List Int)
  brdFaultValid : Bool
  brdFaultCause : Nat
  brdFaultRow : Nat
  brdFaultLane : Nat
  brdFaultBundle : Nat
  activeCycles : Nat
  laneGated : Nat
  rowSkips : Nat
  tblSat : Nat
  metaFaults : Nat
  podPeak : Nat
  accFaultValid : Bool
  accFaultCause : Nat
  accNamedFmt : Nat
  accTagFmt : Nat
  accFaultLine : Nat
  accFaultBundle : Nat
  accSat : Nat
  formatFaults : Nat
  debugHalf : Bool
  linesDrained : Nat
  preloadLines : Nat
  lvuActive : Nat
  lnsSat : Nat
  lnsFlush : Nat
  lvuNan : Nat
  fpOvf : Nat
  splices : Nat
  pwrOn : Nat
  spStalled : Bool
  patrolEn : Bool
  autoPwr : Bool
  eccCorrected : Nat
  eccUncorrected : Nat
  eccRecValid : Bool
  eccRecWord : Nat
  eccRecRow : Nat
  tagBlocks : Nat
  isoViol : Nat
  downAccess : Nat
  ccOps : Nat
  cacheHits : Nat
  cacheMisses : Nat
  resRanges : Tbl (Option ResRange)
  retired : List Nat
  retiredAt : List Nat
  dbgWrite : Bool
  dbgSetTag : Bool
  dbgTag : Nat
  dbgRow : Nat
  dbgData : Tbl Byte
  ccPending : List (Nat × Nat × Nat × Nat)
  dbgWaits : Option SpDbgOp
  blockedAt : Option (Nat × Nat × Nat)
  pwrReady : Tbl Nat
  genWindow : Tbl Nat
  genKey : Tbl Nat
  deriving DecidableEq, Repr

/-- A cache region (R217, R235). -/
structure Region where
  gen : Nat
  partitions : Nat
  length : Nat
  base : Nat
  deriving DecidableEq, Repr

/-- The scratchpad's chip-wide objects: row tags by field × 32,768 + row (R200), uncorrectable rows, cache mode (R211 to R218). The LRU list of a set holds ways, least recent first; `poisonReads` the resident rows whose reads delivered poison since firmware last looked, `scrubEnd` the time to which the last scrub runs (R223, R235). -/
structure SpSt where
  tags : Tbl Nat
  cacheCfg : Nat
  cacheBanks : Nat
  cachePending : Option Nat
  regions : Tbl (Option Region)
  lru : Tbl (List Nat)
  fills : List (Nat × Nat)
  poisonReads : List Nat
  scrubEnd : Nat
  deriving DecidableEq, Repr

/-- The accumulator stores: bytes by field × 4 MiB + line × 2,048 + byte, tags by field × 2,048 + line (R130, R134). -/
structure AccSt where
  bytes : Tbl Byte
  tags : Tbl LineTag
  deriving DecidableEq, Repr

/-! ### Narrow precision (05) -/

structure NpLayerCfg where
  replayEn : Bool
  clipThresh : Nat
  nullThresh : Nat
  deriving DecidableEq, Repr

structure NpPredCfg where
  layer : Nat
  auditShift : Nat
  skipCap : Nat
  deriving DecidableEq, Repr

/-- The layer table a partition's models give it (R342), with the overrides and seed that stay with the partition (R176, R186). -/
structure NpPart where
  cfg : Tbl (Option NpLayerCfg)
  pred : Tbl (Option NpPredCfg)
  exps : Tbl (Option Nat)
  seed : Nat
  deriving DecidableEq, Repr

structure NpSt where
  firstLayer : Nat
  replayedBit : Bool
  breach : Bool
  inReplay : Bool
  inRegion : Bool
  recValid : Bool
  recReason : Nat
  recKind : Nat
  recPartition : Nat
  recLayer : Nat
  recNewE : Nat
  recOpen : Bool
  predAudits : Nat
  predMisses : Nat
  predMissMax : Nat
  sproutAdds : Nat
  partReplays : Tbl Nat
  partUnreplayed : Tbl Nat
  predCfg : Tbl (Option NpPredCfg)
  layerCfg : Tbl (Option NpLayerCfg)
  stats : Tbl (Nat × Nat × Nat × Nat)
  layerExp : Tbl (Option Nat)
  seed : Nat
  parts : Tbl (Option NpPart)
  breaches : List (Nat × Nat × Bool × Nat)
  usedExp : Tbl (Option Nat)
  replayedParts : List Nat
  deriving DecidableEq, Repr

/-! ### Tiers and stream engines (08) -/

/-- A line of the write-combining buffer (R291): 2 KiB extent, a bit for each covered byte, time of the last write. -/
structure WcbLine where
  extent : Nat
  covered : Nat
  last : Nat
  deriving DecidableEq, Repr

/-- A line of the hint cache (R296): extent, hint, last use, and what the tier held before the line's unwritten writes. -/
structure HintLine where
  extent : Nat
  hint : Nat
  last : Nat
  dirty : Option (List Byte)
  deriving DecidableEq, Repr

structure TierSt where
  patrol : Bool
  offline : Bool
  wcbFull : Bool
  trained : Bool
  mode : Nat
  eccCorrected : Nat
  eccRetries : Nat
  eccUncorrected : Nat
  recValid : Bool
  recChannel : Nat
  recOffset : Nat
  bytesRead : Nat
  bytesWritten : Nat
  wcbMerges : Nat
  hintHits : Nat
  retiredAccess : Nat
  credit : Tbl Nat
  lock : Tbl Nat
  lockPeriod : Tbl Nat
  retired : List Nat
  retiredAt : List Nat
  wcb : List WcbLine
  hints : List HintLine
  poison : List Nat
  coded : List Nat
  owner : Tbl Nat
  claims : Tbl Nat
  zeroing : List Nat
  quarantine : List Nat
  deriving DecidableEq, Repr

/-- A stream descriptor (R310). A kick of a KV append slot sends its rows from a number on to an address of the sink page (R387). -/
structure Desc where
  src : Nat
  dst : Nat
  length : Nat
  rows : Nat
  fmt : Nat
  op : Nat
  srcStride : Nat
  dstStride : Nat
  flags : Nat
  regs : Nat
  binding : Nat
  hitch : Nat
  increment : Nat
  next : Nat
  fixedE : Nat
  layer : Nat
  aux : Nat
  reserved : Bool
  sink : Option (Nat × Nat)
  deriving DecidableEq, Repr

/-- A descriptor chain handed to an engine: its table, where it starts, the base registers of the kick (R311), whom it serves, the program image whose layer table it names (R316), and what a background chain had reached when it made way (R304). -/
structure Chain where
  table : List Desc
  first : Nat
  base : List Nat
  part : Option Nat
  background : Bool
  image : List Byte
  seen : Nat
  poisoned : Bool
  cmd : Option Cmd
  deriving DecidableEq, Repr

/-- The chain an engine runs: the descriptor it is on, how many it has reached, whether its data have moved, the outcome so far. -/
structure ChainRun where
  chain : Chain
  idx : Nat
  seen : Nat
  moved : Bool
  failed : Option Nat
  poisoned : Bool
  tag : Option Nat
  awaiting : List Nat
  deriving DecidableEq, Repr

structure Engine where
  queue : List Chain
  back : List Chain
  cur : Option ChainRun
  deriving DecidableEq, Repr

/-- A T3 window (R300). -/
structure T3Win where
  func : Nat
  pasid : Option Nat
  base : Nat
  host : Nat
  length : Nat
  deriving DecidableEq, Repr

/-- The stream engines and T3 windows; `poisonReads` are the tier blocks whose reads delivered poison since firmware last looked (R364, R405). -/
structure StrSt where
  engines : Tbl Engine
  faultValid : Bool
  faultPart : Nat
  faultCause : Nat
  faultEngine : Nat
  faultDesc : Nat
  faultBack : Bool
  bytes : Nat
  descs : Nat
  failed : Nat
  poisonRows : Nat
  windows : Tbl (Option T3Win)
  unmapping : List (Nat × Cmd)
  poisonReads : List (Nat × Nat)
  deriving DecidableEq, Repr

/-! ### Weight images (09) -/

/-- Where one tensor stands: nominal and actual home, bytes, resident rows (first, count, field mask). -/
structure Home where
  tensor : Nat
  tier : Nat
  nominal : Nat
  actual : Nat
  bytes : Nat
  rows : Nat
  mask : Nat
  deriving DecidableEq, Repr

/-- One layer of an image: its homes, which shards have arrived, its state (0 placing, 1 active, 2 failed, 3 staged), and the stored form of its resident tensors until it stands in its rows, by tensor × 2^34 + byte. -/
structure LayerSt where
  homes : List Home
  arrived : List Nat
  status : Nat
  rowData : Tbl Byte
  deriving DecidableEq, Repr

/-- A weight image in the module (R338, R349). -/
structure Image where
  manifest : List Byte
  digest : Nat
  layers : Tbl (Option LayerSt)
  shareMask : Nat
  loader : Nat
  deriving DecidableEq, Repr

/-- A swap (kind 0), update (1), repair (2), resume (3) or revert (4) under way (R352 to R369): the image its layers go to, what is staged, which layers it flips in which order and how many it has, and how it ends. -/
structure Swap where
  kind : Nat
  image : Nat
  staged : Tbl (Option LayerSt)
  flipped : Nat
  first : Nat
  total : Nat
  descending : Bool
  flush : Bool
  window : Nat
  retries : Tbl Nat
  retryLimit : Nat
  deadline : Option Nat
  func : Nat
  source : Nat
  zeroed : Nat
  kept : Nat
  cmd : Option Cmd
  deriving DecidableEq, Repr

/-- A model binding (R348, R349). States: 0 LOADING, 1 INCOMPLETE, 2 READY, 3 SWAPPING, 4 MIXED, 5 REPAIRING. `layerImage` names the image whose version each layer runs where it is not `image`; `journal` the new image, the old one and how many layers are new (R360); `repair` the layers whose tier homes, and `rowRepair` those whose resident rows, were read poisoned (R364); `placed` the layers the load or reload under way has placed (R346). -/
structure Binding where
  part : Nat
  image : Nat
  layerImage : Tbl Nat
  state : Nat
  held : Bool
  retries : Tbl Nat
  retryLimit : Nat
  deadline : Option Nat
  swap : Option Swap
  journal : Option (Nat × Nat × Nat)
  repair : List Nat
  rowRepair : List Nat
  placed : List Nat
  cmd : Option Cmd
  deriving DecidableEq, Repr

structure ModelSt where
  images : Tbl (Option Image)
  bindings : Tbl (Option Binding)
  deriving DecidableEq, Repr

/-! ### Paged key-value cache (10) -/

/-- A second-level entry (R384): state 0 absent, 1 resident, 2 dropped, 3 parked. -/
structure PageEntry where
  state : Nat
  shared : Bool
  tentative : Bool
  poisoned : Bool
  fill : Nat
  page : Nat
  deriving DecidableEq, Repr

/-- A KV slot of a binding (R386, R408). -/
structure KvSlot where
  desc : Nat
  append : Bool
  vRegion : Bool
  layer : Nat
  deriving DecidableEq, Repr

/-- A page pool with its arena and areas (R378 to R391, R408). Counts are the 16-bit reference counts; `tables` the arena tables in use. -/
structure Pool where
  tier : Nat
  kvFmt : Nat
  heads : Nat
  dim : Nat
  shift : Nat
  layers : Nat
  pages : Nat
  base : Nat
  arenaBase : Nat
  arenaTables : Nat
  maskBands : Nat
  maskBase : Nat
  listBase : Nat
  listBytes : Nat
  windows : Tbl (Option Nat)
  slots : List KvSlot
  counts : Tbl Nat
  tables : Tbl Bool
  lists : Tbl (List Nat)
  parkUsed : Tbl Bool
  park3Used : Tbl Bool
  deriving DecidableEq, Repr

/-- A sequence's paging state (R381 to R385, R397): its directory, top tables by layer, second-level tables by layer × 512 + top index, watermark, the position its appends have reached, entries by layer × 2^18 + page number, pages allocated for the committed step, copies under way. -/
structure SeqPages where
  binding : Nat
  directory : Option Nat
  tops : Tbl (Option Nat)
  seconds : Tbl (Option Nat)
  watermark : Nat
  written : Nat
  entries : Tbl (Option PageEntry)
  fresh : Tbl (Option Nat)
  copying : List (Nat × Nat)
  deriving DecidableEq, Repr

structure KvSt where
  pools : Tbl (Option Pool)
  seqs : Tbl (Option SeqPages)
  deriving DecidableEq, Repr

/-! ### Serving and gather (11) -/

/-- A bag of the gather list: table, operation, ids. -/
structure Bag where
  table : Nat
  op : Nat
  ids : List Nat
  deriving DecidableEq, Repr

/-- The states of R414. -/
inductive ReqState where
  | free | waiting | prefill | decode | idle | parking | parked | unparking | ending
  deriving DecidableEq, Repr

/-- One request slot (R410 to R415, R428, R436, R444). `moves` pairs the entries that are being parked or restored with their park index or page; `moved` that their data have moved; `wantUnpark` that a submission waits for pages. -/
structure Request where
  state : ReqState
  gen : Nat
  expired : Bool
  func : Nat
  turnFunc : Nat
  part : Nat
  binding : Nat
  cls : Nat
  keep : Bool
  spec : Bool
  progress : Bool
  admitted : Nat
  order : Nat
  lastRun : Nat
  inputs : Nat
  prefilled : Nat
  copied : Bool
  record : List Byte
  granules : List Nat
  inputAddr : Nat
  bags : List Bag
  outAddr : Nat
  outBytes : Nat
  outUsed : Nat
  maxNew : Nat
  outputs : Nat
  endStatus : Nat
  deliveries : List (List Byte × Nat)
  delivered : Nat
  lastDelivery : Option Nat
  ttft : Nat
  maxTbt : Nat
  lateTtft : Bool
  lateTbt : Bool
  specOff : Bool
  specHist : List (Nat × Nat)
  specProbe : Nat
  parkDest : Nat
  parkStart : Nat
  parkTtl : Nat
  moves : List (Nat × Nat)
  moved : Bool
  wantUnpark : Bool
  firstStep : Bool
  deriving DecidableEq, Repr

/-- Class settings (R427). -/
structure ClassCfg where
  priority : Nat
  ttftGoal : Nat
  tbtGoal : Nat
  risk : Nat
  policy : Nat
  prefillChunk : Nat
  specDepth : Nat
  specFloor : Nat
  specWindow : Nat
  specProbe : Nat
  deriving DecidableEq, Repr

/-- Class statistics (R458). -/
structure ClassStat where
  tbtMissed : Nat
  tbtAtRisk : Nat
  ttftMissed : Nat
  ttftAtRisk : Nat
  turns : Nat
  maxTbt : Nat
  maxTtft : Nat
  specOff : Nat
  deriving DecidableEq, Repr

/-- A prefix handle's object (R432, R433). -/
structure Prefix where
  gen : Nat
  live : Bool
  part : Nat
  binding : Nat
  positions : Nat
  pages : List (Nat × Nat)
  record : List Byte
  poisoned : Bool
  flushed : Bool
  deriving DecidableEq, Repr

/-- A serving configuration (R455), as its block. -/
structure SrvCfg where
  block : List Byte
  deriving DecidableEq, Repr

/-- One slot of a batch (R425). Kinds: 0 prefill, 1 decode, 2 single-shot, 3 void. -/
structure BatchSlot where
  req : Nat
  gen : Nat
  kind : Nat
  k : Nat
  positions : Nat
  lastChunk : Bool
  first : Nat
  bag0 : Nat
  bags : Nat
  deriving DecidableEq, Repr

/-- The batch of one segment: its binding, slots, counts, whether finalised, its gather list, whether it has run, what it ended with, each slot's result record and output bytes, and the slots whose gathered rows were poisoned. -/
structure Batch where
  binding : Nat
  seg : Nat
  slots : List BatchSlot
  counts : List Nat
  finalised : Bool
  bags : List Bag
  ran : Bool
  status : Option Nat
  results : List (List Byte × List Byte × Bool)
  poisoned : List Nat
  deriving DecidableEq, Repr

structure SrvSt where
  admitted : Nat
  rejected : Nat
  cancelled : Nat
  expired : Nat
  kvDeferred : Nat
  preempted : Nat
  finalLate : Nat
  droppedOutputs : Nat
  specOff : Nat
  classStat : Tbl (Option ClassStat)
  requests : Tbl (Option Request)
  orderNext : Nat
  classes : Tbl (Option ClassCfg)
  configs : Tbl (Option SrvCfg)
  prefixes : Tbl (Option Prefix)
  nextBatches : Tbl (List Batch)
  curBatches : Tbl (List Batch)
  deriving DecidableEq, Repr

/-- A running gather job (R445). -/
structure GthJob where
  part : Nat
  binding : Nat
  bags : List Bag
  wave : Nat
  next : Nat
  buffer : Tbl (List Byte × Bool)
  ready : List (Nat × List Nat)
  deriving DecidableEq, Repr

structure GthSt where
  busy : Bool
  partition : Nat
  wave : Nat
  ids : Nat
  unique : Nat
  waves : Nat
  nodedup : Nat
  invalidIds : Nat
  poison : Nat
  job : Option GthJob
  deriving DecidableEq, Repr

/-! ### Synchronisation (12) -/

/-- An inbound window (R475, R493). -/
structure Win where
  opened : Bool
  fwOwned : Bool
  partition : Nat
  anySender : Bool
  sender : Nat
  gen : Nat
  length : Nat
  base : Nat
  inUse : Bool
  closedAt : Option Nat
  dropped : Nat
  arrivals : Nat
  deriving DecidableEq, Repr

/-- An outbound binding (R481). -/
structure OutBind where
  stale : Bool
  chip : Nat
  window : Nat
  gen : Nat
  partition : Nat
  fwOwned : Bool
  deriving DecidableEq, Repr

/-- A participant slot of a home barrier (R482, R484): kind, chip, current and next bit. -/
structure PSlot where
  kind : Nat
  chip : Nat
  cur : Bool
  next : Bool
  deriving DecidableEq, Repr

/-- A barrier (R482 to R489, R696): home or proxy. `waiters` lists the local waiters by kind (0 stream, 1 to 4 engines) and the generation joined; `outstanding` the entries a proxy has forwarded. -/
structure Barrier where
  proxy : Bool
  homeChip : Nat
  homeBar : Nat
  partIndex : Nat
  broken : Bool
  partition : Nat
  slots : List PSlot
  slotBase : Nat
  epoch : Nat
  gen : Nat
  waiters : List (Nat × Nat)
  outstanding : Nat
  deriving DecidableEq, Repr

/-- An incomplete inbound transfer (R467 to R469); `dropped` when a packet of it was dropped (R477). -/
structure Inbound where
  chip : Nat
  tag : Nat
  window : Nat
  gen : Nat
  accepted : Nat
  total : Option Nat
  increment : Nat
  hitch : Nat
  dropped : Bool
  lastAt : Nat
  awaiting : List Nat
  deriving DecidableEq, Repr

structure SyncSt where
  onBarrier : Bool
  waiting : Bool
  partition : Nat
  object : Nat
  faultValid : Bool
  faultKind : Nat
  faultPart : Nat
  faultStatus : Nat
  faultChip : Nat
  faultObject : Nat
  overflows : Nat
  manualSets : Nat
  trackFull : Nat
  abandoned : Nat
  barOverruns : Nat
  barStale : Nat
  badEntry : Nat
  remoteIncs : Nat
  partImbalance : Tbl Nat
  wins : Tbl (Option Win)
  outs : Tbl (Option OutBind)
  bars : Tbl (Option Barrier)
  barEpoch : Tbl Nat
  hitchVal : Tbl Nat
  hitchTgt : Tbl Nat
  inbound : List Inbound
  released : List (Nat × Bool)
  deriving DecidableEq, Repr

/-! ### Fabric (13) -/

/-- A port (R494 to R504, R541). States: 0 down, 1 training, 2 up-isolated, 3 up, 4 held down. -/
structure Port where
  state : Nat
  peerChip : Nat
  peerPort : Nat
  lanesUp : Nat
  retrains : Nat
  replays : Nat
  injected : Nat
  sinceProgress : Nat
  trainFails : Nat
  peerAssigned : Bool
  wasUp : Bool
  timeHops : Option Nat
  lastLinkId : Option Nat
  lastTime : Option Nat
  t1 : Option Nat
  held : List (Nat × Packet)
  draws : Nat
  lock : Option Nat
  deriving DecidableEq, Repr

/-- FAB_INJ (R537, R541). -/
structure Inject where
  enable : Bool
  ctl : Bool
  afterCrc : Bool
  depth : Nat
  partitions : Nat
  seed : Nat
  dropRate : Nat
  corruptRate : Nat
  reorderRate : Nat
  deriving DecidableEq, Repr

/-- A route entry (R541). -/
structure Route where
  valid : Bool
  loc : Bool
  spread : Bool
  alternate : Nat
  primary : Nat
  deriving DecidableEq, Repr

/-- A knot in the store (R529). -/
structure KnotImg where
  part : Nat
  image : List Byte
  deriving DecidableEq, Repr

/-- A running knot (R531, R532). -/
structure KnotRun where
  knot : Nat
  part : Nat
  op : Nat
  regs : List (Nat × Nat)
  counters : List Nat
  tags : List Nat
  waiting : Bool
  failed : Option Nat
  deriving DecidableEq, Repr

structure FabEng where
  queue : List (Nat × Nat)
  cur : Option KnotRun
  busy : Bool
  failed : Bool
  partition : Nat
  status : Nat
  knot : Nat
  op : Nat
  deriving DecidableEq, Repr

/-- An outgoing transfer (R505, R508): which engine or knot sent it, its packets, when the last left. -/
structure Outbound where
  tag : Nat
  knot : Bool
  engine : Nat
  packets : List Packet
  lastAt : Nat
  resend : List (Packet × Nat)
  binding : Nat
  part : Option Nat
  deriving DecidableEq, Repr

structure FabSt where
  timeSet : Bool
  timeRoot : Bool
  rootChip : Nat
  timeRef : Bool
  assigned : Bool
  rack : Nat
  sled : Nat
  slot : Nat
  chip : Nat
  systemId : Nat
  timeOffset : Int
  slewRest : Int
  pktsTx : Nat
  pktsRx : Nat
  dropsAge : Nat
  dropsHops : Nat
  dropsNoRoute : Nat
  badPkt : Nat
  knotBad : Nat
  ports : Tbl (Option Port)
  bonds : Tbl Nat
  degraded : List Nat
  engines : Tbl (Option FabEng)
  credit : Tbl Nat
  inject : Tbl (Option Inject)
  routes : Tbl (Option Route)
  stagedRoutes : Tbl (Option Route)
  stagedE : Option Nat
  robin : Tbl Nat
  knots : Tbl (Option KnotImg)
  outbound : List Outbound
  nextTag : Nat
  joined : Tbl (Option Nat)
  lastHeartbeat : Option Nat
  deriving DecidableEq, Repr

/-! ### Host interface (14) -/

/-- A command queue or an event ring (R558 to R566, R572, R577). -/
structure Ring where
  sqBase : Nat
  cqBase : Nat
  enable : Bool
  sizeLog2 : Nat
  coalUs : Nat
  coalCount : Nat
  irqEn : Bool
  vector : Nat
  error : Bool
  errCause : Nat
  phase : Bool
  head : Nat
  tail : Nat
  sqTail : Nat
  cqHead : Nat
  unreturned : Nat
  inflight : Nat
  waiting : List (List Byte)
  unreported : Nat
  oldest : Nat
  epoch : Nat
  deriving DecidableEq, Repr

/-- An MSI-X table entry. -/
structure Msix where
  addr : Nat
  data : Nat
  masked : Bool
  deriving DecidableEq, Repr

/-- One PCIe function (R547 to R586). -/
structure Func where
  cmds : Nat
  cplDropped : Nat
  eventLost : Nat
  doorbellIgnored : Nat
  mirrorSel : Nat
  dbgSel : Nat
  queues : Tbl (Option Ring)
  eq : Ring
  msix : Tbl (Option Msix)
  pba : Nat
  bme : Bool
  d3hot : Bool
  vfEnable : Bool
  numVfs : Nat
  ats : Bool
  disabled : Bool
  suppressed : List Nat
  lost : Bool
  eventSeq : Nat
  bar2 : Option (Nat × Nat)
  deriving DecidableEq, Repr

/-- A PCIe port (R543, R546, R557, R579 to R581); `atc` holds function and 4 KiB page of the translations cached, latest first. -/
structure HostPort where
  linkUp : Bool
  perst : Bool
  readyAt : Option Nat
  downSince : Option Nat
  upSince : Option Nat
  atc : List (Nat × Nat)
  deriving DecidableEq, Repr

structure HostSt where
  state : Nat
  failCause : Nat
  fwVersion : Nat
  funcs : Tbl (Option Func)
  ports : Tbl (Option HostPort)
  primary : Option Nat
  cmds : List Cmd
  nextId : Nat
  deriving DecidableEq, Repr

/-! ### Partitions (15) -/

/-- A partition (R587, R610). `draining` lists the functions whose disabling it waits to handle. -/
structure Part where
  draining : Bool
  drainFuncs : List Nat
  resetPend : Option Nat
  primA : Option Nat
  primB : Option Nat
  t1Limit : Nat
  t2Limit : Nat
  t1Used : Nat
  t2Used : Nat
  reqLimit : Nat
  resRows : Nat
  deriving DecidableEq, Repr

/-- The partition block (R610); `destroys` the PART_DESTROY commands that wait, with the granules still to be zeroed (R608), `resetFuncs` the functions whose reset ends their requests in the next reserve (R603). -/
structure PartSt where
  parts : Tbl (Option Part)
  funcs : Tbl (Option (Nat × Bool))
  resets : Tbl Nat
  fenced : Tbl Nat
  eventsLost : Tbl Nat
  destroys : List (Cmd × List (Nat × Nat))
  resetFuncs : List Nat
  deriving DecidableEq, Repr

/-! ### Management island (16), errors (17), supply (18) -/

/-- A debug token in force (R639, R645). -/
structure Token where
  signer : Nat
  scope : Nat
  hitchParts : Nat
  injectParts : Nat
  injectPorts : Nat
  lifetime : Nat
  since : Nat
  digest : Nat
  deriving DecidableEq, Repr

/-- A slot of the island flash (R624): digests of its two images and their versions. -/
structure Flash where
  islandDigest : Nat
  avporDigest : Nat
  version : Nat
  svn : Nat
  deriving DecidableEq, Repr

structure IslSt where
  tripCause : Nat
  erasing : Bool
  slot : Nat
  fallback : Bool
  lc : Nat
  erasePending : Bool
  ownerKeys : Tbl (Option (List Byte))
  vendorRevoked : Nat
  fwSvn : Nat
  runningSvn : Nat
  deviceId : Nat
  secret : Nat
  flash : Tbl (Option Flash)
  activeSlot : Nat
  nextSlot : Option Nat
  token : Option Token
  powerAvg : Nat
  vinReg : Nat
  cap : Nat
  gate : Nat
  gateReason : Nat
  turnsInWindow : Nat
  alert : Nat
  gatedTurns : Nat
  challenge : Option (List Byte × Nat)
  challengeReg : List Byte
  temps : Tbl Nat
  thresholds : Tbl (Option Nat)
  meas : Tbl Nat
  secOut : List Byte
  lcEvent : Option (Nat × Nat)
  coreRefresh : Tbl (Nat × Nat)
  coreMissed : List Nat
  deriving DecidableEq, Repr

/-- An error log entry (R648), as its 64 bytes. -/
structure LogEntry where
  seq : Nat
  bytes : List Byte
  deriving DecidableEq, Repr

/-- The hang record the island holds (R657 to R659). -/
structure HangRec where
  cause : Nat
  at_ : Nat
  bytes : List Byte
  deriving DecidableEq, Repr

structure ErrSt where
  hangMs : Nat
  logSeq : Nat
  logOverwritten : Nat
  hangCaptures : Nat
  classCount : Tbl Nat
  segFaults : Tbl Nat
  log : List LogEntry
  hang : Option HangRec
  deriving DecidableEq, Repr

/-- The bring-up position (R678) and the supply (R676 to R690). Phases: 0 unpowered, 1 input charged, 2 island booting, 3 island ready with the die off, 4 rails rising, 5 rails good, 6 die reset released, 7 self-test done, 8 in service, 9 falling gracefully. `downCause`: 1 PWR_EN, 2 LL_POWER_OFF, 3 thermal trip, 4 supply fault. `railAt` is when the last rail was started from, `restartDue` that PWR_EN was high again when the power-down it caused completed, `heldStart` a start held back by a trip or fault, `heldReset` a lifeline cold reset held (R684, R685). Voltages are in 10 mV. -/
structure PwrSt where
  phase : Nat
  rails : Nat
  vin : Nat
  pwrEn : Bool
  pwrEnSince : Nat
  pgOut : Bool
  pgOutAt : Nat
  railAt : Nat
  thermTrip : Bool
  mgtAddr : Nat
  lastFault : Nat
  lowMargin : Bool
  faults : Nat
  downCause : Nat
  offAt : Nat
  restartDue : Bool
  supplyHold : Bool
  tripHold : Bool
  heldStart : Bool
  heldReset : Bool
  deriving DecidableEq, Repr

/-! ### What leaves the module, and the whole -/

/-- Something the module has sent outside: completions and events written to host memory, interrupts, writes and read answers on the ports, packets on the links, answers and alerts on the management bus. -/
inductive Out where
  | completion (func queue index : Nat) (bytes : List Byte)
  | event (func index : Nat) (bytes : List Byte)
  | msix (func vector : Nat)
  | hostWrite (port : Nat) (pasid : Option Nat) (addr : Nat) (bytes : List Byte) (poisoned : Bool)
  | bar2Data (func : Nat) (bytes : List Byte) (ep : Bool)
  | unsupported (func : Nat)
  | advisory (func : Nat)
  | cfg (func : Nat) (value : Nat)
  | cfgRetry (func : Nat)
  | reg (func : Nat) (off value : Nat)
  | packet (port channel : Nat) (p : Packet)
  | loopback (p : Packet)
  | mgmt (code seq : Nat) (bytes : List Byte)
  | pldm (bytes : List Byte)
  | alertN
  deriving DecidableEq, Repr

/-- Why a step stops the machine. No rule of the spec stops it: every fault of the spec is an effect on the state, so nothing raises this; safe. -/
inductive Fault where
  /-- Raised by nobody; the interface asks for a type with a name. Safe. -/
  | none
  deriving DecidableEq, Repr

/-- Why the model gives a command no meaning. -/
inductive Refusal where
  /-- Raised by Dispatch for a command that has no meaning yet. Safe: nothing can be proved of a run through it. -/
  | notModelled (mnemonic : String)
  deriving DecidableEq, Repr

/-- The module. `mem` holds the scratchpad window, T1 and T2 by local address (R11); an unlisted byte reads as zero (log entry 3). `shadow` holds, by offset in control space, what software last wrote into a register whose valid bit is clear (R6). -/
structure State where
  now : Nat
  mem : List Host.Cell
  step : StepSt
  prog : ProgSt
  seq : SeqSt
  fields : Tbl (Option FieldSt)
  sp : SpSt
  acc : AccSt
  np : NpSt
  t1 : TierSt
  t2 : TierSt
  str : StrSt
  mdl : ModelSt
  kv : KvSt
  srv : SrvSt
  gth : GthSt
  hch : SyncSt
  fab : FabSt
  host : HostSt
  part : PartSt
  isl : IslSt
  err : ErrSt
  pwr : PwrSt
  out : List Out
  freeCount : Nat
  shadow : Tbl Nat
  pending : List Instr
  deriving DecidableEq, Repr

/-! ### Right after reset -/

/-- The step block after reset (R43, R25): holdover, no configuration in force. -/
def StepSt.reset : StepSt :=
  { overrunLimit := 8, lateEvents := false, run := false, periodNs := 0, origin := 0, rackTime := 0, syncLoad := 0,
    topCause := 0, segment := 0, inSegment := false, inReserve := false, holdover := true, timeLocked := false,
    suspended := 0, count := 0, missed := 0, spread := 0, segRegs := [], partLate := [], partOverrun := [],
    active := none, staged := none, nextTick := 0, lastTick := none, lastGrid := (0, 0), running := none, streak := [], spreadNow := 0,
    spreadPending := false, rackref := false, rackrefEver := false, lastSync := none }

/-- No program loaded. -/
def ProgSt.reset : ProgSt :=
  { progs := [], active := [] }

/-- The sequencer after reset (R280). -/
def SeqSt.reset : SeqSt :=
  { partition := 0, cause := 0, stalled := false, inSpan := false, loopDepth := 0, loopActive := false,
    ended := false, issuing := false, halt := false, pc := 0, issued := 0, stallCause := 0, stallField := 0,
    stallBank := 0, stallRow := 0, loopRegs := [], countRegs := [], baseRegs := [], slack := [], stepSlack := [],
    partSlack := [], cur := none, stallSince := 0, stallNs := 0, hangNoted := false }

/-- A field after reset (R128, R157, R235): all subbanks powered, patrol and power management on, no tile in the spool (log entry 4). -/
def FieldSt.reset : FieldSt :=
  { brdMode := 0, spoolBuf := false, wide := false, predicted := false, spool := [], tables := [], brdFaultValid := false,
    brdFaultCause := 0, brdFaultRow := 0, brdFaultLane := 0, brdFaultBundle := 0, activeCycles := 0, laneGated := 0,
    rowSkips := 0, tblSat := 0, metaFaults := 0, podPeak := 0, accFaultValid := false, accFaultCause := 0,
    accNamedFmt := 0, accTagFmt := 0, accFaultLine := 0, accFaultBundle := 0, accSat := 0, formatFaults := 0,
    debugHalf := false, linesDrained := 0, preloadLines := 0, lvuActive := 0, lnsSat := 0, lnsFlush := 0, lvuNan := 0,
    fpOvf := 0, splices := 0, pwrOn := 0xFF, spStalled := false, patrolEn := true, autoPwr := true, eccCorrected := 0,
    eccUncorrected := 0, eccRecValid := false, eccRecWord := 0, eccRecRow := 0, tagBlocks := 0, isoViol := 0,
    downAccess := 0, ccOps := 0, cacheHits := 0, cacheMisses := 0, resRanges := [], retired := [], retiredAt := [], dbgWrite := false,
    dbgSetTag := false, dbgTag := 0, dbgRow := 0, dbgData := [], ccPending := [], dbgWaits := none, blockedAt := none, pwrReady := [], genWindow := [], genKey := [] }

/-- Every row empty and clean (R200), no cache (R235). -/
def SpSt.reset : SpSt :=
  { tags := [], cacheCfg := 0, cacheBanks := 0, cachePending := none, regions := [], lru := [], fills := [], poisonReads := [], scrubEnd := 0 }

/-- Every accumulator line empty (R134). -/
def AccSt.reset : AccSt :=
  { bytes := [], tags := [] }

/-- NP_LAYER_CFG after reset (R185). -/
def NpLayerCfg.reset : NpLayerCfg :=
  { replayEn := false, clipThresh := 0, nullThresh := 0 }

/-- NP_PRED_CFG after reset (R185). -/
def NpPredCfg.reset : NpPredCfg :=
  { layer := 0, auditShift := 6, skipCap := 0x1C0 }

/-- Narrow-precision registers after reset (R185); the seed zero. -/
def NpSt.reset : NpSt :=
  { firstLayer := 0, replayedBit := false, breach := false, inReplay := false, inRegion := false, recValid := false,
    recReason := 0, recKind := 0, recPartition := 0, recLayer := 0, recNewE := 0, recOpen := false, predAudits := 0, predMisses := 0,
    predMissMax := 0, sproutAdds := 0, partReplays := [], partUnreplayed := [], predCfg := [], layerCfg := [],
    stats := [], layerExp := [], seed := 0, parts := [], breaches := [], usedExp := [], replayedParts := [] }

/-- A memory controller after reset (R328); `locks` are the initial lock groups, all ones in one register. -/
def TierSt.reset (locks : Tbl Nat) : TierSt :=
  { patrol := false, offline := false, wcbFull := false, trained := false, mode := 1, eccCorrected := 0,
    eccRetries := 0, eccUncorrected := 0, recValid := false, recChannel := 0, recOffset := 0, bytesRead := 0,
    bytesWritten := 0, wcbMerges := 0, hintHits := 0, retiredAccess := 0, credit := [], lock := locks,
    lockPeriod := [], retired := [], retiredAt := [], wcb := [], hints := [], poison := [], coded := [], owner := [], claims := [], zeroing := [],
    quarantine := [] }

/-- An idle engine. -/
def Engine.reset : Engine :=
  { queue := [], back := [], cur := none }

/-- Stream engines idle (R329). -/
def StrSt.reset : StrSt :=
  { engines := [], faultValid := false, faultPart := 0, faultCause := 0, faultEngine := 0, faultDesc := 0,
    faultBack := false, bytes := 0, descs := 0, failed := 0, poisonRows := 0, windows := [], unmapping := [],
    poisonReads := [] }

/-- No image, no binding. -/
def ModelSt.reset : ModelSt :=
  { images := [], bindings := [] }

/-- No pool, no sequence. -/
def KvSt.reset : KvSt :=
  { pools := [], seqs := [] }

/-- The defaults of R427. -/
def ClassCfg.reset : ClassCfg :=
  { priority := 0, ttftGoal := 0, tbtGoal := 0, risk := 80, policy := 0, prefillChunk := 2048, specDepth := 0,
    specFloor := 10, specWindow := 16, specProbe := 256 }

/-- Nothing counted (R458). -/
def ClassStat.reset : ClassStat :=
  { tbtMissed := 0, tbtAtRisk := 0, ttftMissed := 0, ttftAtRisk := 0, turns := 0, maxTbt := 0, maxTtft := 0,
    specOff := 0 }

/-- A slot that holds no request. -/
def Request.reset : Request :=
  { state := .free, gen := 0, expired := false, func := 0, turnFunc := 0, part := 0, binding := 0, cls := 0,
    keep := false, spec := false, progress := false, admitted := 0, order := 0, lastRun := 0, inputs := 0,
    prefilled := 0, copied := false, record := [], granules := [], inputAddr := 0, bags := [], outAddr := 0,
    outBytes := 0, outUsed := 0, maxNew := 0, outputs := 0, endStatus := 0, deliveries := [], delivered := 0,
    lastDelivery := none, ttft := 0, maxTbt := 0, lateTtft := false, lateTbt := false, specOff := false,
    specHist := [], specProbe := 0, parkDest := 0, parkStart := 0, parkTtl := 0, moves := [], moved := false,
    wantUnpark := false, firstStep := false }

/-- No request, classes at the defaults of R427 (R458). -/
def SrvSt.reset : SrvSt :=
  { admitted := 0, rejected := 0, cancelled := 0, expired := 0, kvDeferred := 0, preempted := 0, finalLate := 0,
    droppedOutputs := 0, specOff := 0, classStat := [], requests := [], orderNext := 0, classes := [], configs := [],
    prefixes := [], nextBatches := [], curBatches := [] }

/-- The gather engine after reset (R458). -/
def GthSt.reset : GthSt :=
  { busy := false, partition := 0, wave := 0, ids := 0, unique := 0, waves := 0, nodedup := 0, invalidIds := 0,
    poison := 0, job := none }

/-- Hitches, windows, bindings and barriers after reset (R493). -/
def SyncSt.reset : SyncSt :=
  { onBarrier := false, waiting := false, partition := 0, object := 0, faultValid := false, faultKind := 0,
    faultPart := 0, faultStatus := 0, faultChip := 0, faultObject := 0, overflows := 0, manualSets := 0,
    trackFull := 0, abandoned := 0, barOverruns := 0, barStale := 0, badEntry := 0, remoteIncs := 0,
    partImbalance := [], wins := [], outs := [], bars := [], barEpoch := [], hitchVal := [], hitchTgt := [],
    inbound := [], released := [] }

/-- A port after reset: down (R541). -/
def Port.reset : Port :=
  { state := 0, peerChip := 0, peerPort := 0, lanesUp := 0, retrains := 0, replays := 0, injected := 0,
    sinceProgress := 0, trainFails := 0, peerAssigned := false, wasUp := false, timeHops := none, lastLinkId := none,
    lastTime := none, t1 := none, held := [], draws := 0, lock := none }

/-- Injection off (R541). -/
def Inject.reset : Inject :=
  { enable := false, ctl := false, afterCrc := false, depth := 0, partitions := 0, seed := 0, dropRate := 0,
    corruptRate := 0, reorderRate := 0 }

/-- A fabric engine after reset (R541). -/
def FabEng.reset : FabEng :=
  { queue := [], cur := none, busy := false, failed := false, partition := 0, status := 0, knot := 0, op := 0 }

/-- The fabric after reset (R541): no identity. -/
def FabSt.reset : FabSt :=
  { timeSet := false, timeRoot := false, rootChip := 0, timeRef := false, assigned := false, rack := 0, sled := 0, slot := 0, chip := 0,
    systemId := 0, timeOffset := 0, slewRest := 0, pktsTx := 0, pktsRx := 0, dropsAge := 0, dropsHops := 0,
    dropsNoRoute := 0, badPkt := 0, knotBad := 0, ports := [], bonds := [], degraded := [], engines := [],
    credit := [], inject := [], routes := [], stagedRoutes := [], stagedE := none, robin := [], knots := [],
    outbound := [], nextTag := 0, joined := [], lastHeartbeat := none }

/-- A queue or ring after reset (R585). -/
def Ring.reset : Ring :=
  { sqBase := 0, cqBase := 0, enable := false, sizeLog2 := 0, coalUs := 0, coalCount := 0, irqEn := false,
    vector := 0, error := false, errCause := 0, phase := false, head := 0, tail := 0, sqTail := 0, cqHead := 0,
    unreturned := 0, inflight := 0, waiting := [], unreported := 0, oldest := 0, epoch := 0 }

/-- A function after reset (R585); its vectors are masked (log entry 13). -/
def Func.reset : Func :=
  { cmds := 0, cplDropped := 0, eventLost := 0, doorbellIgnored := 0, mirrorSel := 0, dbgSel := 0, queues := [],
    eq := Ring.reset, msix := [], pba := 0, bme := false, d3hot := false, vfEnable := false, numVfs := 0,
    ats := false, disabled := false, suppressed := [], lost := false, eventSeq := 0, bar2 := none }

/-- A PCIe port after reset: link down, its PERST_x_N held asserted by the pull-down of R673. -/
def HostPort.reset : HostPort :=
  { linkUp := false, perst := true, readyAt := none, downSince := none, upSince := none, atc := [] }

/-- The host interface after reset (R585). -/
def HostSt.reset : HostSt :=
  { state := 0, failCause := 0, fwVersion := 0, funcs := [], ports := [], primary := none, cmds := [], nextId := 0 }

/-- No partition (R610). -/
def PartSt.reset : PartSt :=
  { parts := [], funcs := [], resets := [], fenced := [], eventsLost := [], destroys := [], resetFuncs := [] }

/-- The island after its first power-up (R645): fuses and storage as no owner has touched them (log entry 5). -/
def IslSt.reset : IslSt :=
  { tripCause := 0, erasing := false, slot := 0, fallback := false, lc := 0, erasePending := false, ownerKeys := [],
    vendorRevoked := 0, fwSvn := 0, runningSvn := 0, deviceId := 0, secret := 0, flash := [], activeSlot := 0,
    nextSlot := none, token := none, powerAvg := 0, vinReg := 0, cap := 750, gate := 0, gateReason := 0,
    turnsInWindow := 0, alert := 0, gatedTurns := 0, challenge := none, challengeReg := [], temps := [],
    thresholds := [], meas := [], secOut := [], lcEvent := none, coreRefresh := [], coreMissed := [] }

/-- The error block after reset (R666). -/
def ErrSt.reset : ErrSt :=
  { hangMs := 1000, logSeq := 0, logOverwritten := 0, hangCaptures := 0, classCount := [], segFaults := [], log := [],
    hang := none }

/-- No input voltage (R678, R690). -/
def PwrSt.reset : PwrSt :=
  { phase := 0, rails := 0, vin := 0, pwrEn := false, pwrEnSince := 0, pgOut := false, pgOutAt := 0, railAt := 0,
    thermTrip := false, mgtAddr := 0, lastFault := 0, lowMargin := false, faults := 0, downCause := 0, offAt := 0,
    restartDue := false, supplyHold := false, tripHold := false, heldStart := false, heldReset := false }

/-- The module right after reset: without input voltage, every register at the value its table gives, nothing in memory, the queue empty (log entries 2 to 5). -/
def State.reset : State :=
  { now := 0, mem := [], step := StepSt.reset, prog := ProgSt.reset, seq := SeqSt.reset, fields := [],
    sp := SpSt.reset, acc := AccSt.reset, np := NpSt.reset, t1 := .reset [(0, 0xFFFFFFFFFFFFFFFF)],
    t2 := .reset [(1, 0xFFFFFFFFFFFFFFFF)], str := StrSt.reset, mdl := ModelSt.reset, kv := KvSt.reset,
    srv := SrvSt.reset, gth := GthSt.reset, hch := SyncSt.reset, fab := FabSt.reset, host := HostSt.reset,
    part := PartSt.reset, isl := IslSt.reset, err := ErrSt.reset, pwr := PwrSt.reset, out := [], freeCount := 0,
    shadow := [], pending := [] }

end Sys2Proof.Machine
end

