-- ==== Sys2Proof/Machine/Flags.lean ====
section
/-! DEFINITION. The codes the device reports: completion statuses (R16), event codes (R575, R598, R644, R665) and slack causes (R36). -/
namespace Sys2Proof.Machine

/-! ### Completion statuses (R16) -/

/-- OK. -/
abbrev stOk : Nat := 0x00
/-- REFUSED_CAPACITY. -/
abbrev stRefusedCapacity : Nat := 0x01
/-- REFUSED_SCHEDULE. -/
abbrev stRefusedSchedule : Nat := 0x02
/-- REFUSED_FORMAT. -/
abbrev stRefusedFormat : Nat := 0x03
/-- REFUSED_GENERATOR. -/
abbrev stRefusedGenerator : Nat := 0x04
/-- BAD_SIGNATURE. -/
abbrev stBadSignature : Nat := 0x05
/-- NOT_PERMITTED. -/
abbrev stNotPermitted : Nat := 0x06
/-- NO_RESOURCE. -/
abbrev stNoResource : Nat := 0x07
/-- ABORTED_RESET. -/
abbrev stAbortedReset : Nat := 0x08
/-- ABORTED_CANCEL. -/
abbrev stAbortedCancel : Nat := 0x09
/-- ABORTED_DISABLE. -/
abbrev stAbortedDisable : Nat := 0x0A
/-- POISONED. -/
abbrev stPoisoned : Nat := 0x0B
/-- TIMEOUT. -/
abbrev stTimeout : Nat := 0x0C
/-- SHARD_FAILED. -/
abbrev stShardFailed : Nat := 0x0D
/-- WINDOW_CLOSED. -/
abbrev stWindowClosed : Nat := 0x0E
/-- BARRIER_OVERRUN. -/
abbrev stBarrierOverrun : Nat := 0x0F
/-- FORMAT_FAULT. -/
abbrev stFormatFault : Nat := 0x10
/-- METADATA_FAULT. -/
abbrev stMetadataFault : Nat := 0x11
/-- EXPIRED. -/
abbrev stExpired : Nat := 0x12
/-- LENGTH_LIMIT. -/
abbrev stLengthLimit : Nat := 0x13
/-- MODEL_MIXED. -/
abbrev stModelMixed : Nat := 0x14
/-- BUSY. -/
abbrev stBusy : Nat := 0x15
/-- BAD_COMMAND. -/
abbrev stBadCommand : Nat := 0x16

/-! ### Event codes -/

/-- DEVICE_STATE. -/
abbrev evDeviceState : Nat := 0x0101
/-- HOST_LINK_UP. -/
abbrev evHostLinkUp : Nat := 0x0102
/-- HOST_LINK_DOWN. -/
abbrev evHostLinkDown : Nat := 0x0103
/-- PRIMARY_CHANGED. -/
abbrev evPrimaryChanged : Nat := 0x0104
/-- QUEUE_ERROR. -/
abbrev evQueueError : Nat := 0x0105
/-- TIME_UNLOCKED. -/
abbrev evTimeUnlocked : Nat := 0x0106
/-- TIME_LOCKED. -/
abbrev evTimeLocked : Nat := 0x0107
/-- TIME_CORRECTED. -/
abbrev evTimeCorrected : Nat := 0x0108
/-- SEGMENT_LATE. -/
abbrev evSegmentLate : Nat := 0x0109
/-- STEP_OVERRUN. -/
abbrev evStepOverrun : Nat := 0x010A
/-- PARTITION_SUSPENDED. -/
abbrev evPartitionSuspended : Nat := 0x0201
/-- PARTITION_RESET. -/
abbrev evPartitionReset : Nat := 0x0202
/-- PARTITION_DRAINING. -/
abbrev evPartitionDraining : Nat := 0x0203
/-- PARTITION_DRAINED. -/
abbrev evPartitionDrained : Nat := 0x0204
/-- PARTITION_RESUMED. -/
abbrev evPartitionResumed : Nat := 0x0205
/-- MODEL_READY. -/
abbrev evModelReady : Nat := 0x0301
/-- LAYER_FAILED. -/
abbrev evLayerFailed : Nat := 0x0302
/-- SWAP_DONE. -/
abbrev evSwapDone : Nat := 0x0303
/-- MODEL_MIXED. -/
abbrev evModelMixed : Nat := 0x0304
/-- WEIGHT_POISONED. -/
abbrev evWeightPoisoned : Nat := 0x0305
/-- MODEL_HELD. -/
abbrev evModelHeld : Nat := 0x0306
/-- MODEL_RELEASED. -/
abbrev evModelReleased : Nat := 0x0307
/-- QUARANTINE_FULL. -/
abbrev evQuarantineFull : Nat := 0x0308
/-- NP_BREACH. -/
abbrev evNpBreach : Nat := 0x0309
/-- NP_REPLAY. -/
abbrev evNpReplay : Nat := 0x030A
/-- REQ_DONE. -/
abbrev evReqDone : Nat := 0x0501
/-- REQ_PROGRESS. -/
abbrev evReqProgress : Nat := 0x0502
/-- REQ_LATE. -/
abbrev evReqLate : Nat := 0x0503
/-- BATCH_SKIPPED. -/
abbrev evBatchSkipped : Nat := 0x0504
/-- KV_DROPPED. -/
abbrev evKvDropped : Nat := 0x0505
/-- KV_POOL_SHORT. -/
abbrev evKvPoolShort : Nat := 0x0506
/-- TIER_POISON. -/
abbrev evTierPoison : Nat := 0x0601
/-- STREAM_FAILED. -/
abbrev evStreamFailed : Nat := 0x0602
/-- GRANULE_RETIRED. -/
abbrev evGranuleRetired : Nat := 0x0603
/-- RETIRE_TABLE_FULL. -/
abbrev evRetireTableFull : Nat := 0x0604
/-- ROW_RETIRED. -/
abbrev evRowRetired : Nat := 0x0605
/-- PORT_DEGRADED. -/
abbrev evPortDegraded : Nat := 0x0701
/-- PEER_FOREIGN. -/
abbrev evPeerForeign : Nat := 0x0702
/-- CHIP_CONFLICT. -/
abbrev evChipConflict : Nat := 0x0703
/-- PEER_JOINED. -/
abbrev evPeerJoined : Nat := 0x0704
/-- PEER_DEPARTED. -/
abbrev evPeerDeparted : Nat := 0x0705
/-- CHIP_JOINED. -/
abbrev evChipJoined : Nat := 0x0706
/-- CHIP_DEPARTED. -/
abbrev evChipDeparted : Nat := 0x0707
/-- ROUTE_APPLIED. -/
abbrev evRouteApplied : Nat := 0x0708
/-- KNOT_FAILED. -/
abbrev evKnotFailed : Nat := 0x0709
/-- HITCH_OVERFLOW. -/
abbrev evHitchOverflow : Nat := 0x0801
/-- TRANSFER_ABANDONED. -/
abbrev evTransferAbandoned : Nat := 0x0802
/-- HITCH_IMBALANCE. -/
abbrev evHitchImbalance : Nat := 0x0803
/-- HITCH_SET_BY_HAND. -/
abbrev evHitchSetByHand : Nat := 0x0804
/-- BARRIER_OVERRUN. -/
abbrev evBarrierOverrun : Nat := 0x0805
/-- BARRIER_BROKEN. -/
abbrev evBarrierBroken : Nat := 0x0806
/-- LC_CHANGED. -/
abbrev evLcChanged : Nat := 0x0901
/-- TOKEN_IN_FORCE. -/
abbrev evTokenInForce : Nat := 0x0902
/-- TOKEN_ENDED. -/
abbrev evTokenEnded : Nat := 0x0903
/-- THERMAL_GATING. -/
abbrev evThermalGating : Nat := 0x0904
/-- POWER_GATING. -/
abbrev evPowerGating : Nat := 0x0905
/-- FW_STAGED. -/
abbrev evFwStaged : Nat := 0x0906
/-- HANG_CAPTURED. -/
abbrev evHangCaptured : Nat := 0x0A01
/-- SEGMENT_FAULT. -/
abbrev evSegmentFault : Nat := 0x0A02
/-- CORE_WATCHDOG. -/
abbrev evCoreWatchdog : Nat := 0x0A03

/-- Every event code of R575, R598, R644 and R665. -/
def eventCodes : List Nat :=
  [0x0101, 0x0102, 0x0103, 0x0104, 0x0105, 0x0106, 0x0107, 0x0108, 0x0109, 0x010A, 0x0201, 0x0202,
   0x0203, 0x0204, 0x0205, 0x0301, 0x0302, 0x0303, 0x0304, 0x0305, 0x0306, 0x0307, 0x0308, 0x0309,
   0x030A, 0x0501, 0x0502, 0x0503, 0x0504, 0x0505, 0x0506, 0x0601, 0x0602, 0x0603, 0x0604, 0x0605,
   0x0701, 0x0702, 0x0703, 0x0704, 0x0705, 0x0706, 0x0707, 0x0708, 0x0709, 0x0801, 0x0802, 0x0803,
   0x0804, 0x0805, 0x0806, 0x0901, 0x0902, 0x0903, 0x0904, 0x0905, 0x0906, 0x0A01, 0x0A02, 0x0A03]

/-! ### Slack causes (R36) -/

/-- TA_LATE. -/
abbrev slTaLate : Nat := 0x1
/-- TB_LATE. -/
abbrev slTbLate : Nat := 0x2
/-- HOST_LATE. -/
abbrev slHostLate : Nat := 0x3
/-- FABRIC_LATE. -/
abbrev slFabricLate : Nat := 0x4
/-- TAG_WAIT. -/
abbrev slTagWait : Nat := 0x5
/-- HITCH_WAIT. -/
abbrev slHitchWait : Nat := 0x6
/-- DRAM_ECC_RETRY. -/
abbrev slDramEccRetry : Nat := 0x7
/-- THERMAL. -/
abbrev slThermal : Nat := 0x8
/-- POWER_CAP. -/
abbrev slPowerCap : Nat := 0x9
/-- REPLAY. -/
abbrev slReplay : Nat := 0xA
/-- DEBUG_HALT. -/
abbrev slDebugHalt : Nat := 0xB

end Sys2Proof.Machine
end

