-- ==== Sys2Proof/Machine/Tbl.lean ====
section
/-! DEFINITION. Sparse tables in canonical form, and memory as one of them (R11). -/
namespace Sys2Proof.Machine

/-- The value at an index; an unlisted index holds the default. -/
def Tbl.get (d : α) : Tbl α → Nat → α
  | [], _ => d
  | (i, v) :: t, k => if i = k then v else Tbl.get d t k

/-- Write a value, keeping indexes rising and dropping an entry equal to the default. -/
def Tbl.set [DecidableEq α] (d : α) : Tbl α → Nat → α → Tbl α
  | [], k, v => if v = d then [] else [(k, v)]
  | (i, w) :: t, k, v =>
    if k < i then (if v = d then (i, w) :: t else (k, v) :: (i, w) :: t)
    else if k = i then (if v = d then t else (k, v) :: t)
    else (i, w) :: Tbl.set d t k v

/-- Indexes strictly rising and no entry equal to the default. -/
def Tbl.wf [DecidableEq α] (d : α) : Tbl α → Bool
  | [] => true
  | [(_, v)] => !decide (v = d)
  | (i, v) :: (j, w) :: t => !decide (v = d) && decide (i < j) && Tbl.wf d ((j, w) :: t)

/-- The value of an optional entry, or what it is at reset. -/
def Tbl.opt (r : α) (t : Tbl (Option α)) (k : Nat) : α := (Tbl.get none t k).getD r

/-- The indexes listed. -/
def Tbl.keys (t : Tbl α) : List Nat := t.map Prod.fst

/-- The least index below `n` that holds no object. -/
def Tbl.free (t : Tbl (Option α)) (n : Nat) : Option Nat :=
  (List.range n).find? fun k => (Tbl.get none t k).isNone

/-- Add one to a saturating counter of an array. -/
def Tbl.inc (w : Nat) (t : Tbl Nat) (k : Nat) (n : Nat := 1) : Tbl Nat :=
  Tbl.set 0 t k (satAdd w (Tbl.get 0 t k) n)

/-- The canonical form of memory. -/
abbrev Memory.wf (m : List Host.Cell) : Bool := Tbl.wf (0 : Byte) m

/-- One byte of memory at a local address; an unlisted byte reads as zero (log entry 3). -/
def rdByte (s : State) (a : Nat) : Byte := Tbl.get 0 s.mem a

/-- `n` bytes from a local address. -/
def rdBytes (s : State) (a n : Nat) : List Byte := (List.range n).map fun i => rdByte s (a + i)

/-- Write bytes at rising addresses of a table. -/
def putBytes (t : Tbl Byte) : Nat → List Byte → Tbl Byte
  | _, [] => t
  | a, b :: bs => putBytes (Tbl.set 0 t a b) (a + 1) bs

/-- Write bytes to memory. -/
def wrBytes (a : Nat) (bs : List Byte) (s : State) : State := { s with mem := putBytes s.mem a bs }

/-- The little-endian number of `n` bytes of memory (R4). -/
def rdNum (s : State) (a n : Nat) : Nat := leNat (rdBytes s a n)

/-- Drop every listed byte of a range. -/
def clearRange (t : Tbl α) (a n : Nat) : Tbl α := t.filter fun p => !(decide (a ≤ p.1) && decide (p.1 < a + n))

/-- Zero a range of memory. -/
def zeroMem (a n : Nat) (s : State) : State := { s with mem := clearRange s.mem a n }

end Sys2Proof.Machine
end

