-- ==== Sys2Proof/Machine/Ops.lean ====
section
/-! DEFINITION. The operations every family shares: updates of one block, time, errors and events, rings and interrupts, completions. -/
namespace Sys2Proof.Machine

/-! ### One block at a time -/

def modStep (f : StepSt → StepSt) (s : State) : State := { s with step := f s.step }
def modProg (f : ProgSt → ProgSt) (s : State) : State := { s with prog := f s.prog }
def modSeq (f : SeqSt → SeqSt) (s : State) : State := { s with seq := f s.seq }
def modSp (f : SpSt → SpSt) (s : State) : State := { s with sp := f s.sp }
def modAcc (f : AccSt → AccSt) (s : State) : State := { s with acc := f s.acc }
def modNp (f : NpSt → NpSt) (s : State) : State := { s with np := f s.np }
def modStr (f : StrSt → StrSt) (s : State) : State := { s with str := f s.str }
def modMdl (f : ModelSt → ModelSt) (s : State) : State := { s with mdl := f s.mdl }
def modKv (f : KvSt → KvSt) (s : State) : State := { s with kv := f s.kv }
def modSrv (f : SrvSt → SrvSt) (s : State) : State := { s with srv := f s.srv }
def modGth (f : GthSt → GthSt) (s : State) : State := { s with gth := f s.gth }
def modHch (f : SyncSt → SyncSt) (s : State) : State := { s with hch := f s.hch }
def modFab (f : FabSt → FabSt) (s : State) : State := { s with fab := f s.fab }
def modHost (f : HostSt → HostSt) (s : State) : State := { s with host := f s.host }
def modPart (f : PartSt → PartSt) (s : State) : State := { s with part := f s.part }
def modIsl (f : IslSt → IslSt) (s : State) : State := { s with isl := f s.isl }
def modErr (f : ErrSt → ErrSt) (s : State) : State := { s with err := f s.err }
def modPwr (f : PwrSt → PwrSt) (s : State) : State := { s with pwr := f s.pwr }

/-- Do something only where a test holds. -/
def onlyIf (c : Bool) (f : State → State) (s : State) : State := if c then f s else s

/-- A field's registers. -/
def fld (s : State) (f : Nat) : FieldSt := Tbl.opt .reset s.fields f
def modFld (f : Nat) (g : FieldSt → FieldSt) (s : State) : State :=
  { s with fields := Tbl.set none s.fields f (some (g (fld s f))) }

/-- A memory controller: 0 is T1, 1 is T2. -/
def tier (s : State) (t : Nat) : TierSt := if t = 0 then s.t1 else s.t2
def modTier (t : Nat) (g : TierSt → TierSt) (s : State) : State :=
  if t = 0 then { s with t1 := g s.t1 } else { s with t2 := g s.t2 }

def func (s : State) (f : Nat) : Func := Tbl.opt .reset s.host.funcs f
def modFunc (f : Nat) (g : Func → Func) (s : State) : State :=
  modHost (fun h => { h with funcs := Tbl.set none h.funcs f (some (g (func s f))) }) s

def hostPort (s : State) (p : Nat) : HostPort := Tbl.opt .reset s.host.ports p
def modHostPort (p : Nat) (g : HostPort → HostPort) (s : State) : State :=
  modHost (fun h => { h with ports := Tbl.set none h.ports p (some (g (hostPort s p))) }) s

def part? (s : State) (p : Nat) : Option Part := Tbl.get none s.part.parts p
def modPartn (p : Nat) (g : Part → Part) (s : State) : State :=
  match part? s p with
  | some x => modPart (fun ps => { ps with parts := Tbl.set none ps.parts p (some (g x)) }) s
  | none => s

/-- Ring `k` of a function: 0 to 15 its command queues, 16 its event ring. -/
def ring (s : State) (f k : Nat) : Ring :=
  if k < 16 then Tbl.opt .reset (func s f).queues k else (func s f).eq
def modRing (f k : Nat) (g : Ring → Ring) (s : State) : State :=
  modFunc f (fun x => if k < 16 then { x with queues := Tbl.set none x.queues k (some (g (ring s f k))) }
    else { x with eq := g x.eq }) s

/-- Send something outside. -/
def emit (o : Out) (s : State) : State := { s with out := s.out ++ [o] }

/-- A value the spec leaves open: a free value (log entry 6). -/
def freshFree (s : State) : Nat × State := (Config.freeNat s.freeCount, { s with freeCount := s.freeCount + 1 })

/-- What the reads of a command that names no findings meet: free values (R196, R285; log entry 6). -/
def freeFinds (s : State) : ReadIn × State :=
  ({ host := .ok [], ecc := Config.eccFound s.freeCount, blocks := Config.blocksFound s.freeCount }, { s with freeCount := s.freeCount + 1 })

/-- A token in force signed by the owner (signers 0x10 to 0x13), or by the vendor (0x00, 0x01) (R638, R639). -/
def ownerToken (s : State) : Option Token := s.isl.token.filter fun t => decide (0x10 ≤ t.signer)
def vendorToken (s : State) : Bool := s.isl.token.any fun t => decide (t.signer < 0x10)

/-! ### Time (R19) -/

/-- The die runs: its reset is released. -/
def dieOn (s : State) : Bool := decide (6 ≤ s.pwr.phase) && decide (s.pwr.phase ≤ 8)

/-- Rack time as a number of nanoseconds. -/
def rack (s : State) : Nat := s.step.rackTime.toNat

/-- How far a slewed time base moves while the island's clock runs from `a` to `b` ns: at most 100 ppm towards the rest of the offset (R527). -/
def slewStep (a b : Nat) (rest : Int) : Int :=
  let k : Int := ((b / 10000 - a / 10000 : Nat) : Int)
  max (-k) (min k rest)

/-- Time passes: the island's clock, and rack time while the die runs (R19, R612), slewed where the fabric corrects it (R527). -/
def passTime (ns : Nat) (s : State) : State :=
  let d := slewStep s.now (s.now + ns) s.fab.slewRest
  onlyIf (dieOn s) (fun s => modFab (fun f => { f with slewRest := f.slewRest - d })
    (modStep (fun t => { t with rackTime := t.rackTime + BitVec.ofNat 64 ns + BitVec.ofInt 64 d }) s))
    { s with now := s.now + ns }

/-! ### Partitions and functions -/

/-- The partition a function belongs to, and whether it is primary there (R588, R610). -/
def funcPart (s : State) (f : Nat) : Option Nat := (Tbl.get none s.part.funcs f).map Prod.fst

/-- The device primary PF (R579). -/
def primaryPf (s : State) : Option Nat := s.host.primary.map (32 * ·)

/-- The conditions of R549 under which a function is disabled. -/
def disableCond (s : State) (f : Nat) : Bool :=
  let x := func s f
  let pf := func s (f / 32 * 32)
  let p := hostPort s (f / 32)
  !p.linkUp || p.perst || !x.bme || x.d3hot || (decide (f % 32 ≠ 0) && (!pf.vfEnable || decide (pf.numVfs < f % 32)))

/-- A function is enabled: none of the conditions holds, and its queues have been configured since one last did (R549). -/
def enabled (s : State) (f : Nat) : Bool := !(func s f).disabled && !disableCond s f

/-- The primary functions of a partition (R589). -/
def primaries (s : State) (p : Nat) : List Nat :=
  match part? s p with
  | none => []
  | some x => x.primA.toList ++ (x.primB.toList.map (32 + ·))

/-- The functions of a partition. -/
def functionsOf (s : State) (p : Nat) : List Nat := (List.range 64).filter fun f => funcPart s f == some p

/-! ### Interrupts (R577, R578) -/

/-- Send a vector's message, or hold it pending while the vector is masked. -/
def sendVector (f v : Nat) (s : State) : State :=
  if (Tbl.get none (func s f).msix v).elim true Msix.masked
  then modFunc f (fun x => { x with pba := x.pba ||| 2 ^ v }) s
  else emit (.msix f v) s

/-- A ring's entries are all reported by one message. -/
def reportRing (f k : Nat) (s : State) : State :=
  let v := (ring s f k).vector
  sendVector f v (modRing f k (fun r => { r with unreported := 0 }) s)

/-- The message is due once the ring holds max(coal_count, 1) unreported entries. -/
def checkReport (f k : Nat) (s : State) : State :=
  let r := ring s f k
  onlyIf (r.irqEn && decide (max r.coalCount 1 ≤ r.unreported)) (reportRing f k) s

/-! ### Rings (R559, R563, R564, R574) -/

def Ring.size (r : Ring) : Nat := 2 ^ r.sizeLog2

/-- A ring takes entries: enabled and not stopped by an error. -/
def Ring.live (r : Ring) : Bool := r.enable && !r.error

/-- One entry written at the tail: the tail advances, the phase inverts at the wrap. -/
def Ring.wrote (now : Nat) (r : Ring) : Ring :=
  let t := (r.tail + 1) % r.size
  { r with tail := t, phase := if t = 0 then !r.phase else r.phase, unreturned := r.unreturned + 1,
           oldest := if r.unreported = 0 then now else r.oldest, unreported := r.unreported + 1 }

/-! ### Errors (R646 to R648) -/

/-- Count an error of a class. -/
def countError (cls : Nat) (s : State) : State :=
  modErr (fun e => { e with classCount := Tbl.inc 32 e.classCount cls }) s

/-- A byte string of `n` bytes: cut, or padded with zeros. -/
def padTo (n : Nat) (bs : List Byte) : List Byte := (bs ++ List.replicate n 0).take n

/-- Append an entry to the chip error log; the oldest goes when 4,096 are held (R648). -/
def logError (code cls part : Nat) (payload : List Byte) (s : State) : State :=
  let bytes := leBytes 2 code ++ [BitVec.ofNat 8 cls, BitVec.ofNat 8 part] ++ leBytes 4 s.err.logSeq ++
    leBytes 8 (rack s) ++ padTo 48 payload
  modErr (fun e =>
    let full := decide (4096 ≤ e.log.length)
    { e with log := (if full then e.log.drop 1 else e.log) ++ [{ seq := e.logSeq, bytes := bytes }],
             logSeq := e.logSeq + 1,
             logOverwritten := if full then satAdd 32 e.logOverwritten 1 else e.logOverwritten }) s

/-! ### Events (R566, R572 to R576, R596, R692) -/

/-- Who receives an event. -/
inductive Recip where
  | func (f : Nat)
  | pfs
  | prims (p : Nat)
  | primaryPf
  deriving DecidableEq, Repr

/-- Write an event to one function's ring, or lose it (R566, R574, R576). -/
def writeEvent (code part : Nat) (payload : List Byte) (f : Nat) (s : State) : State :=
  let x := func s f
  let r := x.eq
  if x.suppressed.contains code then s
  else if !enabled s f || !r.live || decide (r.size ≤ r.unreturned) then
    modFunc f (fun x => { x with eventLost := satAdd 32 x.eventLost 1, lost := true }) (countError 8 s)
  else
    let sq := (x.eventSeq + 1) % 2 ^ 32
    let bytes := leBytes 2 code ++ [BitVec.ofNat 8 (b2n r.phase + 2 * b2n x.lost), BitVec.ofNat 8 part] ++
      leBytes 4 sq ++ leBytes 8 (rack s) ++ padTo 112 payload
    checkReport f 16 (modFunc f (fun x => { x with eq := x.eq.wrote s.now, eventSeq := sq, lost := false })
      (emit (.event f r.tail bytes) s))

/-- The functions a recipient stands for; `none` among a partition's primaries counts as an event lost (R596). -/
def recipFuncs (s : State) : Recip → List Nat
  | .func f => [f]
  | .pfs => [0, 32].filter fun f => (hostPort s (f / 32)).linkUp
  | .prims p => (primaries s p).filter (enabled s)
  | .primaryPf => (primaryPf s).toList

/-- Count a partition's event that no enabled primary function can receive (R596). -/
def countUnheard (s : State) : Recip → State
  | .prims p => onlyIf ((part? s p).isSome && (recipFuncs s (.prims p)).isEmpty)
      (modPart fun ps => { ps with eventsLost := Tbl.inc 32 ps.eventsLost p }) s
  | _ => s

/-- Raise an event to recipients; a function named twice receives it once. `part` 0xFF is none. -/
def raiseTo (code part : Nat) (whom : List Recip) (payload : List Byte) (s : State) : State :=
  ((whom.flatMap (recipFuncs s)).eraseDups).foldl (fun s f => writeEvent code part payload f s)
    (whom.foldl countUnheard s)

/-- Raise the event of an error: counted in its class, logged, and written (R647). -/
def raiseError (cls code part : Nat) (whom : List Recip) (payload : List Byte) (s : State) : State :=
  raiseTo code part whom payload (logError code cls part payload (countError cls s))

/-- Payload fields of four bytes each (R573). -/
def fields4 (xs : List Nat) : List Byte := xs.flatMap (leBytes 4)

/-- The device enters a state and tells both PFs (R556). -/
def setDeviceState (st cause : Nat) (s : State) : State :=
  if s.host.state = st ∧ s.host.failCause = cause then s
  else raiseTo evDeviceState 0xFF [.pfs] []
    (modHost (fun h => { h with state := st, failCause := cause }) s)

/-! ### Queue errors and completions (R559 to R568) -/

/-- Stop a ring on an error (R565): commands it waits to complete are dropped. Ring 16 is the event ring. -/
def queueError (f k cause : Nat) (s : State) : State :=
  let n := (ring s f k).waiting.length
  let s := modRing f k (fun r =>
    { r with error := true, errCause := cause, epoch := r.epoch + 1, waiting := [], inflight := 0 }) s
  let s := modFunc f (fun x => { x with cplDropped := satAdd 32 x.cplDropped n }) s
  raiseError 8 evQueueError ((funcPart s f).getD 0xFF) [.func f] (fields4 [k, cause]) s

/-- Write the completions that wait, as far as entries have been returned (R563, R564). -/
def flushCompletions (f q : Nat) : List (List Byte) → State → State
  | [], s => modRing f q (fun r => { r with waiting := [] }) s
  | e :: es, s =>
    let r := ring s f q
    if r.size ≤ r.unreturned then modRing f q (fun r => { r with waiting := e :: es }) s
    else
      let bytes := e.set 3 (BitVec.ofNat 8 (b2n r.phase))
      flushCompletions f q es (checkReport f q (modRing f q (fun r => r.wrote s.now)
        (emit (.completion f q r.tail bytes) s)))

/-- The 32 bytes of a completion, its phase still zero (R568). -/
def completionBytes (m : Mbx) (status detail : Nat) (results : List Byte) : List Byte :=
  leBytes 2 m.tag ++ [BitVec.ofNat 8 status, 0] ++ leBytes 2 detail ++ [0, 0] ++ leBytes 8 m.cookie ++
    padTo 16 results

/-- A command is still incomplete. -/
def cmdLive (s : State) (c : Cmd) : Bool := s.host.cmds.any fun x => x.id == c.id

/-- Complete a command: drop it from the incomplete ones and write, hold or drop its completion (R559, R563, R564, R566). A command already abandoned completes no more. -/
def complete (c : Cmd) (status detail : Nat) (results : List Byte) (s : State) : State :=
  if !cmdLive s c then s else
  let f := c.m.func
  let q := c.m.queue
  let s := modHost (fun h => { h with cmds := h.cmds.filter fun x => x.id != c.id }) s
  let s := modFunc f (fun x => { x with cmds := satAdd 64 x.cmds 1 }) s
  let r := ring s f q
  let s := onlyIf (r.epoch == c.epoch) (modRing f q fun r => { r with inflight := r.inflight - 1 }) s
  if r.epoch ≠ c.epoch ∨ !enabled s f ∨ !r.live then
    modFunc f (fun x => { x with cplDropped := satAdd 32 x.cplDropped 1 }) (countError 8 s)
  else flushCompletions f q (r.waiting ++ [completionBytes c.m status detail results]) s

/-- Complete with OK and no results. -/
def completeOk (c : Cmd) (s : State) : State := complete c stOk 0 [] s

/-- Abandon commands without a completion (R550, R583). -/
def abandonCmds (p : Cmd → Bool) (s : State) : State :=
  modHost (fun h => { h with cmds := h.cmds.filter fun c => !p c }) s

/-- Complete every incomplete command that a test names with one status. -/
def completeAll (p : Cmd → Bool) (status : Nat) (s : State) : State :=
  (s.host.cmds.filter p).foldl (fun s c => complete c status 0 [] s) s

end Sys2Proof.Machine
end

