-- ==== Sys2Proof/Machine/Operands.lean ====
section
/-! DEFINITION. What a mailbox command brings: its parameter bytes, its reserved bits, the host memory it names, who may send it, and how it starts (R561, R562, R567 to R571). -/
namespace Sys2Proof.Machine

/-! ### Parameters (R567) -/

/-- The number of `n` parameter bytes from byte `i`. -/
def pNum (c : Cmd) (i n : Nat) : Nat := leAt c.m.params i n

/-- Parameter byte `i`. -/
def pByte (c : Cmd) (i : Nat) : Nat := (c.m.params.getD i 0).toNat

/-- Bit `b` of parameter byte `i`. -/
def pBit (c : Cmd) (i b : Nat) : Bool := (pByte c i).testBit b

/-- The bits of byte `i` that a list of (first byte, last byte, mask) allows. -/
def allowedBits (allow : List (Nat × Nat × Nat)) (i : Nat) : Nat :=
  allow.foldl (fun m r => if r.1 ≤ i ∧ i ≤ r.2.1 then m ||| r.2.2 else m) 0

/-- The first byte with a bit set that is not allowed (R9). -/
def firstReserved (allow : List (Nat × Nat × Nat)) (n : Nat) (bs : List Byte) : Option Nat :=
  (List.range n).find? fun i => (bs.getD i 0).toNat &&& (255 - allowedBits allow i) != 0

/-- A structure read from host memory has no bit set outside those allowed (R9). -/
def cleanBytes (allow : List (Nat × Nat × Nat)) (n : Nat) (bs : List Byte) : Bool :=
  (firstReserved allow n bs).isNone

/-! ### Host memory (R300, R301, R303, R570) -/

/-- The T3 window of a function that holds a whole extent. -/
def windowOf (s : State) (f addr len : Nat) : Option Nat :=
  (s.str.windows.find? fun p => match p.2 with
    | some w => decide (w.func = f) && decide (w.base ≤ addr) && decide (addr + len ≤ w.base + w.length)
    | none => false).map Prod.fst

/-- A host address of a command lies, with its extent, in a window of the issuing function (R570). -/
def hostOk (s : State) (c : Cmd) (addr len : Nat) : Bool := (windowOf s c.m.func addr len).isSome

/-- The port, PASID and host bus address behind a T3 local address. -/
def busAddr (s : State) (f addr len : Nat) : Option (Nat × Option Nat × Nat) :=
  (windowOf s f addr len).bind fun k => (Tbl.get none s.str.windows k).map fun w => (k / 256, w.pasid, w.host + (addr - w.base))

/-- Why a read of host memory failed (R303, R546). -/
def hostStatus : HostRead → Option Nat
  | .ok _ => none
  | .error => some stPoisoned
  | .timeout => some stTimeout
  | .refused => some stNotPermitted

/-- A read of host memory that ended with an error status is an error of class 2 (R646). -/
def countRead (status : Nat) (s : State) : State := onlyIf (status == stPoisoned) (countError 2) s

/-- An access of a function with ATS enabled leaves its translations in the port's cache of 512 entries (R546). -/
def noteAts (f addr len : Nat) (s : State) : State :=
  if !(func s f).ats || len == 0 then s else
  let ps := (List.range ((addr + len - 1) / 4096 - addr / 4096 + 1)).map fun i => (f, addr / 4096 + i)
  modHostPort (f / 32) (fun p => { p with atc := (ps ++ p.atc.filter fun e => !ps.contains e).take 512 }) s

/-- Write to host memory through a function's window; fenced while the function is disabled (R599). -/
def writeHost (f addr : Nat) (bs : List Byte) (poisoned : Bool) (s : State) : State :=
  match busAddr s f addr bs.length with
  | none => s
  | some (port, pasid, bus) =>
    if enabled s f then emit (.hostWrite port pasid bus bs poisoned) (noteAts f bus bs.length s)
    else match funcPart s f with
      | some p => modPart (fun ps => { ps with fenced := Tbl.inc 32 ps.fenced p }) s
      | none => s

/-! ### Starting a command (R556, R561, R562, R569, R588) -/

/-- What a command's meaning answers: complete now, or later. -/
inductive Ans where
  | done (status detail : Nat) (results : List Byte)
  | wait
  deriving DecidableEq, Repr

/-- A mailbox command: its opcode, the parameter bits it uses, who may issue it, and its effect. -/
structure CmdSpec where
  op : Nat
  allow : List (Nat × Nat × Nat)
  perm : State → Cmd → Bool
  body : Cmd → State → State × Ans

/-- Complete with a status and nothing else done. -/
def refuse (status : Nat) (s : State) : State × Ans := (s, .done status 0 [])

/-- Complete with OK. -/
def done (s : State) : State × Ans := (s, .done stOk 0 [])

/-- Complete with OK and results. -/
def doneWith (results : List Byte) (s : State) : State × Ans := (s, .done stOk 0 results)

/-- Read the host memory a command names: outside the function's windows NOT_PERMITTED, a failed read its status (R301, R303, R570). -/
def withHost (c : Cmd) (addr len : Nat) (s : State) (k : List Byte → State × Ans) : State × Ans :=
  if !hostOk s c addr len then refuse stNotPermitted s
  else if !enabled s c.m.func then refuse stAbortedDisable s
  else match c.m.host with
    | .ok bs => let a := k (padTo len bs)
      (noteAts c.m.func (((busAddr s c.m.func addr len).map fun b => b.2.2).getD 0) len a.1, a.2)
    | r => refuse ((hostStatus r).getD stOk) (countRead ((hostStatus r).getD stOk) s)

/-- Answer into a host buffer of `len` bytes: NOT_PERMITTED outside the function's windows (R570). -/
def intoHost (c : Cmd) (addr len : Nat) (bs : List Byte) (s : State) : State × Ans :=
  if !hostOk s c addr len then refuse stNotPermitted s
  else done (writeHost c.m.func addr (padTo len bs) false s)

/-- Complete later. -/
def later (s : State) : State × Ans := (s, .wait)

/-- Any function may issue it. -/
def byAny (_ : State) (_ : Cmd) : Bool := true
/-- A PF only. -/
def byPf (_ : State) (c : Cmd) : Bool := decide (c.m.func % 32 = 0)
/-- The device primary PF only. -/
def byPrimary (s : State) (c : Cmd) : Bool := primaryPf s == some c.m.func
/-- The device primary PF, or a primary function of the partition that parameter byte 0 names (R609). -/
def byPartPrimary (s : State) (c : Cmd) : Bool :=
  byPrimary s c || (primaries s (pByte c 0)).contains c.m.func

/-- A function of no partition issues only groups 0x01, 0x09 and 0x0A and the PF commands of group 0x02 (R588). -/
def groupOk (s : State) (c : Cmd) (op : Nat) : Bool :=
  let g := op / 256
  (funcPart s c.m.func).isSome || g == 1 || g == 9 || g == 10 || (g == 2 && decide (c.m.func % 32 = 0))

/-- The device state accepts the command (R556); while the return erase runs none but the island's is (R637). -/
def stateOk (s : State) (op : Nat) : Bool :=
  let g := op / 256
  match s.host.state with
  | 1 => g == 1 || g == 9 || g == 10
  | 2 => true
  | 3 => op == 0x0101
  | _ => false

/-- The refusal of R569, if one applies: status and detail. -/
def refusal (sp : CmdSpec) (c : Cmd) (s : State) : Option (Nat × Nat) :=
  match firstReserved sp.allow 48 c.m.params with
  | some i => some (stBadCommand, 0x8010 + i)
  | none =>
    if !(groupOk s c sp.op && sp.perm s c) then some (stNotPermitted, 0)
    else if !stateOk s sp.op then some (stBusy, 0)
    else none

/-- Firmware may start a command of this queue: it runs, fewer than 64 are incomplete, no completion waits, and a fenced one has none before it (R556, R561, R562, R564). -/
def canStart (s : State) (m : Mbx) : Bool :=
  let r := ring s m.func m.queue
  s.host.state != 0 && decide (m.func < 64) && decide (m.queue < 16) && decide (r.inflight < 64) &&
    r.waiting.isEmpty && (!m.fence || r.inflight == 0)

/-- The command as firmware holds it from now on. -/
def newCmd (s : State) (op : Nat) (m : Mbx) : Cmd :=
  { id := s.host.nextId, op := op, m := m, epoch := (ring s m.func m.queue).epoch, part := funcPart s m.func }

/-- Count the command among the incomplete ones. -/
def takeCmd (c : Cmd) (s : State) : State :=
  modRing c.m.func c.m.queue (fun r => { r with inflight := r.inflight + 1 })
    (modHost (fun h => { h with cmds := h.cmds ++ [c], nextId := h.nextId + 1 }) s)

/-- Act on a meaning's answer. -/
def answer (c : Cmd) : State × Ans → State
  | (s, .done st det res) => complete c st det res s
  | (s, .wait) => s

/-- A mailbox command from its start to its completion, or to the point at which it waits. -/
def runCmd (sp : CmdSpec) (m : Mbx) (s : State) : State :=
  if !canStart s m then s else
  let c := newCmd s sp.op m
  let s := takeCmd c s
  match refusal sp c s with
  | some (st, det) => complete c st det [] s
  | none => answer c (sp.body c s)

/-- The partition a command acts for (R588); every command that uses it passed `groupOk`. -/
def cmdPart (c : Cmd) : Nat := c.part.getD 0

/-- Stepping runs, or its last step does: a command's later point is still to come (R698, log entry 41). -/
def stepping (s : State) : Bool := s.step.run || s.step.running.isSome

/-- The live commands of one opcode, oldest first. -/
def waitingCmds (s : State) (op : Nat) : List Cmd := s.host.cmds.filter fun c => c.op == op

/-- Apply the commands of an opcode that wait for this point, oldest first, and complete them (R698). -/
def applyWaiting (op : Nat) (f : Cmd → State → State × Ans) (s : State) : State :=
  (waitingCmds s op).foldl (fun s c => if cmdLive s c then answer c (f c s) else s) s

end Sys2Proof.Machine
end

