-- ==== Sys2Proof/Machine/Keys.lean ====
section
/-! DEFINITION. Which keys sign what (R627 to R629). -/
namespace Sys2Proof.Machine

/-- A vendor key that is not revoked signed a digest. -/
def vendorSigned (s : State) (digest : Nat) (sig : List Byte) : Bool :=
  (List.range 2).any fun k => !bit s.isl.vendorRevoked k && Config.ecdsaVerify (Config.vendorKey k) digest sig

/-- The owner key of a slot signed a digest. -/
def slotSigned (s : State) (k digest : Nat) (sig : List Byte) : Bool :=
  (Tbl.get none s.isl.ownerKeys k).any fun key => Config.ecdsaVerify key digest sig

/-- An owner key signed a digest. -/
def ownerSigned (s : State) (digest : Nat) (sig : List Byte) : Bool := (List.range 4).any fun k => slotSigned s k digest sig

/-- A program image or a manifest is signed by a key the life cycle accepts for it. -/
def imageSigned (s : State) (body sig : List Byte) : Bool :=
  let d := Config.sha384 body
  match s.isl.lc with
  | 0 => vendorSigned s d sig || ownerSigned s d sig
  | 1 | 2 => ownerSigned s d sig
  | _ => vendorSigned s d sig

end Sys2Proof.Machine
end

