-- ==== Sys2Proof/Machine/Manifest.lean ====
section
/-! DEFINITION. The weight-image manifest as bit fields (R330 to R332). -/
namespace Sys2Proof.Machine

namespace Mf
def magic (m : List Byte) : Nat := leAt m 0 4
def format (m : List Byte) : Nat := leAt m 4 2
def flags (m : List Byte) : Nat := leAt m 6 2
def shareable (m : List Byte) : Bool := bit (flags m) 0
def trainable (m : List Byte) : Bool := bit (flags m) 1
def modelId (m : List Byte) : Nat := leAt m 8 8
def version (m : List Byte) : Nat := leAt m 16 4
def layers (m : List Byte) : Nat := leAt m 20 2
def tensors (m : List Byte) : Nat := leAt m 22 2
def shards (m : List Byte) : Nat := leAt m 24 4
def pageShift (m : List Byte) : Nat := leAt m 28 1
def layerOff (m : List Byte) : Nat := leAt m 32 4
def tensorOff (m : List Byte) : Nat := leAt m 36 4
def shardOff (m : List Byte) : Nat := leAt m 40 4
def length (m : List Byte) : Nat := leAt m 44 4
/-- The bytes the signature covers, and the signature. -/
def signed (m : List Byte) : List Byte := m.take (m.length - 96)
def signature (m : List Byte) : List Byte := m.drop (m.length - 96)

/-- The 32 bytes of layer record `l`. -/
def layer (m : List Byte) (l : Nat) : List Byte := sliceBytes m (layerOff m + 32 * l) 32
/-- The 64 bytes of tensor record `t`. -/
def tensor (m : List Byte) (t : Nat) : List Byte := sliceBytes m (tensorOff m + 64 * t) 64
/-- The 32 bytes of shard record `h`. -/
def shard (m : List Byte) (h : Nat) : List Byte := sliceBytes m (shardOff m + 32 * h) 32
/-- The tensors of a layer. -/
def layerTensors (m : List Byte) (l : Nat) : List Nat := (List.range (leAt (layer m l) 2 1)).map (leAt (layer m l) 0 2 + ·)
/-- The layer of a tensor. -/
def layerOf (m : List Byte) (t : Nat) : Nat := ((List.range (layers m)).find? fun l => (layerTensors m l).contains t).getD 0
/-- The shards of a layer. -/
def layerShards (m : List Byte) (l : Nat) : List Nat :=
  (List.range (shards m)).filter fun h => (layerTensors m l).contains (leAt (shard m h) 0 2)
end Mf

/-! Layer record (R331). -/
namespace Ly
def replayEn (r : List Byte) : Bool := bit (leAt r 3 1) 0
def predicted (r : List Byte) : Bool := bit (leAt r 3 1) 1
def monitor (r : List Byte) : Nat := leAt r 4 1
def auditShift (r : List Byte) : Nat := leAt r 5 1
def skipCap (r : List Byte) : Nat := leAt r 6 2
def nullThresh (r : List Byte) : Nat := leAt r 8 3
def clipThresh (r : List Byte) : Nat := leAt r 11 3
end Ly

/-! Tensor record (R331). -/
namespace Ts
def role (r : List Byte) : Nat := leAt r 0 1
def format (r : List Byte) : Nat := leAt r 1 1
def layout (r : List Byte) : Nat := leAt r 2 1
def masked (r : List Byte) : Bool := bit (leAt r 3 1) 0
def resident (r : List Byte) : Bool := bit (leAt r 3 1) 1
def m (r : List Byte) : Nat := leAt r 4 4
def k (r : List Byte) : Nat := leAt r 8 4
def rows (r : List Byte) : Nat := leAt r 12 4
def home (r : List Byte) : Nat := leAt r 16 8
def firstRow (r : List Byte) : Nat := bits (home r) 0 15
def mask (r : List Byte) : Nat := bits (home r) 16 16
def stored (r : List Byte) : Nat := leAt r 24 8
end Ts

/-! Shard record (R332). -/
namespace Sh
def tensor (r : List Byte) : Nat := leAt r 0 2
def encoding (r : List Byte) : Nat := leAt r 2 1
def source (r : List Byte) : Nat := leAt r 3 1
def peer (r : List Byte) : Nat := leAt r 4 2 % 4096
def src (r : List Byte) : Nat := leAt r 8 8
def dst (r : List Byte) : Nat := leAt r 16 8
def length (r : List Byte) : Nat := leAt r 24 4
end Sh

end Sys2Proof.Machine
end

