-- ==== Sys2Proof/Machine/Fabric.lean ====
section
/-! DEFINITION. Fabric: packets, ports, routing, injection, identity, rack time (13_fabric.md, R494 to R528, R537 to R539). -/
namespace Sys2Proof.Machine

/-! ### Packets (R502, R503) -/

namespace Pk

def field (w : BitVec 64) (lo n : Nat) : Nat := bits w.toNat lo n
def type (p : Packet) : Nat := field p.w0 60 4
def dst (p : Packet) : Nat := field p.w0 48 12
def src (p : Packet) : Nat := field p.w0 36 12
def poison (p : Packet) : Bool := bit p.w0.toNat 33
def last (p : Packet) : Bool := bit p.w0.toNat 32
def tag (p : Packet) : Nat := field p.w0 16 16
def gen (p : Packet) : Nat := field p.w0 0 16
def window (p : Packet) : Nat := field p.w1 56 8
def hops (p : Packet) : Nat := field p.w1 52 4
def addr (p : Packet) : Nat := field p.w1 0 48
def birth (p : Packet) : Nat := field p.w2 40 24
def length (p : Packet) : Nat := field p.w2 29 11
def arg (p : Packet) : Nat := field p.w2 0 29
def count (p : Packet) : Nat := field p.w3 32 32
def increment (p : Packet) : Nat := field p.w3 16 16
def hitch (p : Packet) : Nat := field p.w3 0 12
/-- Coordinates in word 1: rack, sled, slot. -/
def coords (p : Packet) : Nat × Nat × Nat := (field p.w1 0 8, field p.w1 8 6, field p.w1 14 4)
/-- The virtual channel a packet travels on (R498): data channel h of its hops for a WRITE, channel 4 for control. -/
def channel (p : Packet) : Nat := if type p = 1 then hops p % 4 else 4
/-- The packet with one more link crossed. -/
def hop (p : Packet) : Packet := { p with w1 := p.w1 + 0x0010000000000000#64 }

end Pk

/-- Rack time in µs as a packet carries it. -/
def birthNow (s : State) : Nat := rack s / 1000 % 2 ^ 24

/-- A packet of this chip: its type, destination, low half of word 0, window and word 1, control arguments, word 3, payload. -/
def mkPacket (s : State) (type dst low window w1 arg w3 : Nat) (payload : List Byte) : Packet :=
  { w0 := BitVec.ofNat 64 (type % 16 * 2 ^ 60 + dst % 4096 * 2 ^ 48 + (if s.fab.assigned then s.fab.chip % 4096 else 0) * 2 ^ 36 + low % 2 ^ 34)
    w1 := BitVec.ofNat 64 (window % 256 * 2 ^ 56 + w1 % 2 ^ 48)
    w2 := BitVec.ofNat 64 (birthNow s * 2 ^ 40 + payload.length % 2048 * 2 ^ 29 + arg % 2 ^ 29)
    w3 := BitVec.ofNat 64 w3
    payload := payload }

/-- The packet as it leaves again: a new birth (R508). -/
def reborn (s : State) (p : Packet) : Packet :=
  { p with w2 := BitVec.ofNat 64 (birthNow s * 2 ^ 40 + p.w2.toNat % 2 ^ 40) }

/-- This chip's coordinates as word 1 carries them. -/
def ownCoords (s : State) : Nat := s.fab.rack % 256 + s.fab.sled % 64 * 256 + s.fab.slot % 16 * 2 ^ 14

/-- The 32-byte payload with the system identifier. -/
def identPayload (s : State) : List Byte := leBytes 8 s.fab.systemId ++ List.replicate 24 0

/-! ### Ports -/

def port (s : State) (n : Nat) : Port := Tbl.opt .reset s.fab.ports n
def modPort (n : Nat) (g : Port → Port) (s : State) : State :=
  modFab (fun f => { f with ports := Tbl.set none f.ports n (some (g (port s n))) }) s

def portUp (s : State) (n : Nat) : Bool := decide (n < 12) && decide ((port s n).state = 3)

/-- The bonded group of a port (R500): its number and members. -/
def bondOf (s : State) (n : Nat) : Option (Nat × Nat) := s.fab.bonds.find? fun b => bit b.2 n

/-- The members of a group that are up and reach the peer of its lowest up member (R500, R501). -/
def bondUp (s : State) (mask : Nat) : List Nat :=
  let up := (List.range 12).filter fun n => bit mask n && portUp s n
  match up.head? with
  | none => []
  | some n => up.filter fun k => (port s k).peerChip = (port s n).peerChip

/-- Raise PORT_DEGRADED for each bonded member newly down or reaching another peer (R500, R501). -/
def checkBonds (s : State) : State :=
  let bad := s.fab.bonds.flatMap fun b =>
    (List.range 12).filter fun n => bit b.2 n && !(bondUp s b.2).contains n
  let new := bad.filter fun n => !s.fab.degraded.contains n
  let s := modFab (fun f => { f with degraded := bad }) s
  new.foldl (fun s _ => raiseError 6 evPortDegraded 0xFF [.pfs] [] s) s

/-- A port leaves the up state for good: its peer has departed (R519). -/
def portLost (n : Nat) (s : State) : State :=
  if (port s n).wasUp then raiseError 6 evPeerDeparted 0xFF [.pfs] [] (modPort n (fun p => { p with wasUp := false }) s) else s

/-- A port goes down or is held down. -/
def portDown (n st : Nat) (s : State) : State :=
  checkBonds (portLost n (modPort n (fun p =>
    { p with state := st, lanesUp := 0, sinceProgress := 0, trainFails := 0, timeHops := none, lastLinkId := none }) s))

/-- A port trains its lanes again (R497). -/
def portTrain (n : Nat) (s : State) : State :=
  checkBonds (modPort n (fun p =>
    { p with state := 1, retrains := satAdd 16 p.retrains 1, lanesUp := 0, sinceProgress := 0, timeHops := none, lastLinkId := none, peerAssigned := false }) s)

/-! ### Sending: injection (R537, R538) -/

/-- Send a packet on a port's wire, on its virtual channel; packets held back behind it come nearer their turn. The flits that carry the packets, their numbers and acknowledgements, and the credits of a channel are out of scope (log entry 47). -/
def putWire (n : Nat) (p : Packet) (s : State) : State :=
  let held := (port s n).held.map fun h => (h.1 - 1, h.2)
  let due := held.filter fun h => h.1 = 0
  let s := modFab (fun f => { f with pktsTx := satAdd 64 f.pktsTx (1 + due.length) })
    (modPort n (fun q => { q with held := held.filter fun h => h.1 ≠ 0 }) s)
  due.foldl (fun s h => emit (.packet n (Pk.channel h.2) h.2) s) (emit (.packet n (Pk.channel p) p) s)

/-- Flip one payload bit and mark the packet injected (R502, R537). -/
def corrupt (k : Nat) (p : Packet) : Packet :=
  if p.payload.isEmpty then p else
    let b := k % (8 * p.payload.length)
    { p with w0 := p.w0 ||| 0x0000000400000000#64,
             payload := p.payload.set (b / 8) (p.payload.getD (b / 8) 0 ^^^ BitVec.ofNat 8 (2 ^ (b % 8))) }

/-- Whether injection on a port applies to a packet; `part` is the partition whose data it carries, where this chip knows it. -/
def injects (s : State) (n : Nat) (part : Option Nat) (p : Packet) : Bool :=
  let j := Tbl.opt .reset s.fab.inject n
  j.enable && (if Pk.type p = 1 then part.any (bit j.partitions) else j.ctl)

/-- Send a packet on a port, through its fault injection. Packets of other chips carry no partition, so only their control packets are injected. -/
def transmit (n : Nat) (part : Option Nat) (p : Packet) (s : State) : State :=
  if !injects s n part p then putWire n p s else
  let j := Tbl.opt .reset s.fab.inject n
  let k := (port s n).draws
  let draw := fun i => Config.injectDraw j.seed (k + i)
  let s := modPort n (fun q => { q with draws := q.draws + 4 }) s
  let hit := fun s => modPort n (fun q => { q with injected := satAdd 32 q.injected 1 }) s
  if draw 0 % 65536 < j.dropRate then hit s
  else if draw 1 % 65536 < j.corruptRate then
    if j.afterCrc then putWire n (corrupt (draw 3) p) (hit s)
    else putWire n p (countError 1 (modPort n (fun q => { q with replays := satAdd 32 q.replays 1 }) (hit s)))
  else if j.depth ≠ 0 ∧ draw 2 % 65536 < j.reorderRate then
    modPort n (fun q => { q with held := q.held ++ [(j.depth, p)] }) (hit s)
  else putWire n p s

/-! ### Routing (R512 to R515) -/

def Route.none : Route := { valid := false, loc := false, spread := false, alternate := 0, primary := 0 }
def route (s : State) (c : Nat) : Route := Tbl.opt Route.none s.fab.routes c

/-- The ports a route offers now. -/
def routePorts (s : State) (r : Route) : List Nat :=
  let up := fun m => (List.range 12).filter fun n => bit m n && portUp s n
  if (up r.primary).isEmpty then up r.alternate else up r.primary

/-- Take the next of several ports in turn; the counter is keyed by destination, or by 4,096 + group. -/
def turn (key : Nat) (ps : List Nat) (s : State) : Nat × State :=
  let i := Tbl.get 0 s.fab.robin key
  (ps.getD (i % max 1 ps.length) 0, modFab (fun f => { f with robin := Tbl.set 0 f.robin key ((i + 1) % (max 1 ps.length)) }) s)

/-- The port for a packet (R514). -/
def choosePort (p : Packet) (s : State) : Option Nat × State :=
  let r := route s (Pk.dst p)
  let ps := routePorts s r
  if !r.valid || ps.isEmpty then (none, s)
  else if r.spread then
    let t := turn (Pk.dst p) ps s
    (some t.1, t.2)
  else
    let n := ps.getD (Config.routeHash (Pk.src p) (Pk.tag p) % ps.length) 0
    match bondOf s n with
    | none => (some n, s)
    | some (g, m) =>
      let members := (bondUp s m).filter ps.contains
      if members.isEmpty then (some n, s) else
        let t := turn (4096 + g) members s
        (some t.1, t.2)

/-- Route a packet to another chip, or to this chip's own receiver; `lost` acts where no port offers. -/
def routeTo (part : Option Nat) (lost : Packet → State → State) (p : Packet) (s : State) : State :=
  if s.fab.assigned && decide (Pk.dst p = s.fab.chip) then emit (.loopback p) s
  else match choosePort p s with
    | (some n, s) => transmit n part p s
    | (none, s) => lost p (modFab (fun f => { f with dropsNoRoute := satAdd 32 f.dropsNoRoute 1 }) (countError 4 s))

/-- The NAK that refuses a packet (R503). -/
def nakOf (s : State) (p : Packet) (status : Nat) : Packet :=
  mkPacket s 3 (Pk.src p) (Pk.tag p * 65536 + Pk.gen p) 0 (Pk.addr p) (status + Pk.window p * 256) 0 []

/-- Refuse a packet to its sender. -/
def sendNak (p : Packet) (status : Nat) (s : State) : State :=
  routeTo none (fun _ s => s) (nakOf s p status) s

/-- Route a packet; without a route the sender hears NO_RESOURCE, unless the packet is itself an answer (R515). -/
def routePacket (part : Option Nat) (p : Packet) (s : State) : State :=
  routeTo part (fun p s => if Pk.type p = 2 ∨ Pk.type p = 3 then s else sendNak p stNoResource s) p s

/-- Send a packet of this chip's own; an unassigned chip sends none (R511). -/
def sendPacket (part : Option Nat) (p : Packet) (s : State) : State :=
  if s.fab.assigned then routePacket part p s else s

/-! ### Receiving: what every packet passes (R503, R509, R511) -/

/-- A packet is older than its lifetime. -/
def tooOld (s : State) (p : Packet) : Bool := decide (1000000 < (birthNow s + 2 ^ 24 - Pk.birth p) % 2 ^ 24)

def badPacket (s : State) : State := modFab (fun f => { f with badPkt := satAdd 32 f.badPkt 1 }) s

/-- Count a packet received on a port; it is progress on the link. -/
def gotPacket (n : Nat) (s : State) : State :=
  if 12 ≤ n then s else
    modFab (fun f => { f with pktsRx := satAdd 64 f.pktsRx 1 }) (modPort n (fun p => { p with sinceProgress := 0 }) s)

/-- Pass a received packet of one of the given types on: dropped when its type is unknown, when it is too old, or when this chip has no identity. -/
def receive (types : List Nat) (p : Packet) (k : State → State) (s : State) : State :=
  if !dieOn s then s
  else if Pk.type p = 0 ∨ 10 ≤ Pk.type p then badPacket s
  else if !types.contains (Pk.type p) then s
  else if tooOld s p then modFab (fun f => { f with dropsAge := satAdd 32 f.dropsAge 1 }) s
  else if !s.fab.assigned && decide (Pk.type p ≠ 6) && decide (Pk.type p ≠ 9) then badPacket s
  else k s

/-- ROUTER_FORWARD (R514, R515): a packet for another chip crosses one more link, never a fifth; one for this chip goes to its own receiver. -/
def execRouterForward (n : Nat) (p : Packet) (s : State) : Host.Outcome State Fault Refusal :=
  .next (if !portUp s n then s else
    receive [1, 2, 3, 4, 5, 7, 8] p (fun s =>
      if Pk.dst p = s.fab.chip then emit (.loopback p) s
      else if 3 ≤ Pk.hops p then modFab (fun f => { f with dropsHops := satAdd 32 f.dropsHops 1 }) s
      else routePacket none (Pk.hop p) s) (gotPacket n s))

/-! ### The link (R496, R497, R504, R518, R519) -/

/-- FLIT_CRC_ERROR (R496): the flit is discarded and the sender replays. -/
def execFlitCrcError (n : Nat) (s : State) : Host.Outcome State Fault Refusal :=
  .next (if !dieOn s || !decide (n < 12) || !(decide (1 ≤ (port s n).state) && decide ((port s n).state ≤ 3)) then s else
    countError 1 (modPort n (fun p => { p with replays := satAdd 32 p.replays 1, sinceProgress := p.sinceProgress + 1 }) s))

/-- PORT_RETRAIN (R497): after eight replays without progress. -/
def execPortRetrain (n : Nat) (s : State) : Host.Outcome State Fault Refusal :=
  .next (if dieOn s && decide (n < 12) && decide (8 ≤ (port s n).sinceProgress) &&
      decide (1 ≤ (port s n).state) && decide ((port s n).state ≤ 3) then portTrain n s else s)

/-- LANE_TRAINING_DONE (R497, R504): the lanes are up, or after the third failure in succession the port goes down. -/
def execLaneTrainingDone (n : Nat) (ok : Bool) (lanes : Nat) (s : State) : Host.Outcome State Fault Refusal :=
  .next (if !dieOn s || !decide (n < 12) || decide ((port s n).state ≠ 1) then s
    else if ok then modPort n (fun p => { p with lanesUp := lanes % 16, trainFails := 0, sinceProgress := 0 }) s
    else if 2 ≤ (port s n).trainFails then portDown n 0 s
    else modPort n (fun p => { p with trainFails := p.trainFails + 1 }) s)

/-- The LINK_ID of a port (R503, R504). -/
def linkId (s : State) (n : Nat) : Packet :=
  mkPacket s 9 0 0 0 (ownCoords s) (b2n s.fab.assigned + 2 * (n % 16)) 0 (identPayload s)

/-- Send LINK_ID on a port. -/
def sendLinkId (n : Nat) (s : State) : State :=
  transmit n none (linkId s n) (modPort n (fun p => { p with lastLinkId := some s.now }) s)

/-- LINK_ID_SEND (R504): every millisecond while the port, its lanes trained, stays in training. -/
def execLinkIdSend (n : Nat) (s : State) : Host.Outcome State Fault Refusal :=
  let p := port s n
  .next (if dieOn s && decide (n < 12) && decide (p.state = 1) && decide (p.lanesUp ≠ 0) &&
      p.lastLinkId.all (fun t => decide (t + 1000000 ≤ s.now)) then sendLinkId n s else s)

/-- LINK_ID_RECEIVED (R504, R518): the port enters up or up-isolated once both sides have an identity. -/
def execLinkIdReceived (n : Nat) (p : Packet) (s : State) : Host.Outcome State Fault Refusal :=
  .next (if !decide (n < 12) || decide ((port s n).state ≠ 1) || decide ((port s n).lanesUp = 0) then s else
    receive [9] p (fun s =>
      let pa := bit (Pk.arg p) 0
      let s := modPort n (fun q => { q with peerChip := Pk.src p, peerPort := bits (Pk.arg p) 1 4, peerAssigned := pa }) s
      if !s.fab.assigned || !pa then s
      else if leAt p.payload 0 8 ≠ s.fab.systemId then
        checkBonds (raiseError 6 evPeerForeign 0xFF [.pfs] [] (portLost n (modPort n (fun q => { q with state := 2 }) s)))
      else if Pk.src p = s.fab.chip then
        checkBonds (raiseError 6 evChipConflict 0xFF [.pfs] [] (portLost n (modPort n (fun q => { q with state := 2 }) s)))
      else checkBonds (raiseTo evPeerJoined 0xFF [.pfs] [] (modPort n (fun q => { q with state := 3, wasUp := true }) s)))
      (gotPacket n s))

/-- FABRIC_IDENTITY_ASSIGN (R510): the identity arrives over the management bus; LINK_ID goes out on every port at once (R504), and the chip that FAB_TIME_CFG has named becomes the time root (R522). -/
def execFabricIdentityAssign (rack sled slot chip systemId : Nat) (s : State) : Host.Outcome State Fault Refusal :=
  .next (if !dieOn s then s else
    let s := modFab (fun f =>
      { f with assigned := true, rack := rack % 256, sled := sled % 64, slot := slot % 16, chip := chip % 4096, systemId := systemId % 2 ^ 64,
               timeRoot := f.timeSet && decide (chip % 4096 = f.rootChip) }) s
    ((List.range 12).filter fun n => decide ((port s n).state = 1) && decide ((port s n).lanesUp ≠ 0)).foldl (fun s n => sendLinkId n s) s)

/-! ### Heartbeats (R520) -/

/-- The chips heartbeats go to. -/
def routedChips (s : State) : List Nat :=
  ((Tbl.keys s.fab.routes).filter fun c => (route s c).valid && decide (c ≠ s.fab.chip))

/-- HEARTBEAT_SEND: every 10 ms to each chip with a valid route. -/
def execHeartbeatSend (s : State) : Host.Outcome State Fault Refusal :=
  .next (if dieOn s && s.fab.assigned && s.fab.lastHeartbeat.all (fun t => decide (t + 10000000 ≤ s.now)) then
      (routedChips s).foldl (fun s c => sendPacket none (mkPacket s 7 c 0 0 (ownCoords s) 0 0 (identPayload s)) s)
        (modFab (fun f => { f with lastHeartbeat := some s.now }) s)
    else s)

/-- Tell every chip with a route that this one leaves (R502, R520): cause 1 power-off, 2 reset. -/
def sendLeave (cause : Nat) (s : State) : State :=
  (routedChips s).foldl (fun s c => sendPacket none (mkPacket s 8 c 0 0 (ownCoords s) cause 0 (identPayload s)) s) s

/-- HEARTBEAT_RECEIVED (R520, R521): the first joins the chip; one that claims this chip's number from elsewhere is a conflict. -/
def execHeartbeatReceived (p : Packet) (s : State) : Host.Outcome State Fault Refusal :=
  .next (receive [7] p (fun s =>
    if Pk.src p = s.fab.chip then
      if Pk.coords p = (s.fab.rack, s.fab.sled, s.fab.slot) then s else raiseError 6 evChipConflict 0xFF [.pfs] [] s
    else
      let s' := modFab (fun f => { f with joined := Tbl.set none f.joined (Pk.src p) (some s.now) }) s
      if (Tbl.get none s.fab.joined (Pk.src p)).isSome then s' else raiseTo evChipJoined 0xFF [.pfs] [] s') s)

/-! ### Rack time (R522 to R527) -/

/-- The time parent: the up port with the fewest hops, the lowest among equals (R523). -/
def timeParent (s : State) : Option (Nat × Nat) :=
  let ps := ((List.range 12).filter (portUp s)).filterMap fun n => (port s n).timeHops.map fun h => (h, n)
  match (ps.map Prod.fst).min? with
  | none => none
  | some h => (ps.find? fun p => p.1 = h).map fun p => (p.2, h)

/-- This chip's hops to the root, 0xFF for none. -/
def rootHops (s : State) : Nat :=
  if s.fab.timeRoot then 0 else match timeParent s with
    | some (_, h) => min (h + 1) 0xFF
    | none => 0xFF

/-- TIME_EXCHANGE_SEND (R524): every millisecond on an up port. -/
def execTimeExchangeSend (n : Nat) (s : State) : Host.Outcome State Fault Refusal :=
  let p := port s n
  .next (if dieOn s && decide (n < 12) && (decide (p.state = 3) || (decide (p.state = 1) && decide (p.lanesUp ≠ 0))) &&
      p.lastTime.all (fun t => decide (t + 1000000 ≤ s.now)) then
      transmit n none (mkPacket s 6 0 0 0 0 (2 * rootHops s + s.fab.rootChip % 4096 * 512) 0 (leBytes 8 (rack s) ++ List.replicate 24 0))
        (modPort n (fun q => { q with lastTime := some s.now, t1 := some (rack s) }) s)
    else s)

/-- Set rack time. -/
def setRack (t : Nat) (s : State) : State := modStep (fun x => { x with rackTime := BitVec.ofNat 64 t }) s

/-- The offset of an exchange (R525): t2 - t1 - delay, in whole ns. -/
def timeOffset (t1 t2 t3 t4 : Int) : Int := t2 - t1 - ((t4 - t1) - (t3 - t2)) / 2

/-- Correct the time base of a chip without RACKREF (R527): in one step above 100 µs, else slewed. -/
def correctTime (off : Int) (s : State) : State :=
  if s.step.rackref then s
  else if 100000 < off.natAbs then
    modFab (fun f => { f with slewRest := 0 }) (modStep (fun x => { x with rackTime := x.rackTime + BitVec.ofInt 64 off }) s)
  else modFab (fun f => { f with slewRest := off }) s

/-- TIME_RECEIVED (R525): a request is answered; a reply from the time parent gives the offset. No packet carries the parent's own offset from the root, so beyond the first hop that part is a free value (log entry 19). -/
def execTimeReceived (n : Nat) (p : Packet) (s : State) : Host.Outcome State Fault Refusal :=
  let q := port s n
  .next (if !decide (n < 12) || !(decide (q.state = 3) || (decide (q.state = 1) && decide (q.lanesUp ≠ 0))) then s else
    receive [6] p (fun s =>
      let hops := bits (Pk.arg p) 1 8
      let s := modPort n (fun q => { q with timeHops := if hops ≠ 0xFF ∧ bits (Pk.arg p) 9 12 = s.fab.rootChip then some hops else none }) s
      if !bit (Pk.arg p) 0 then
        transmit n none (mkPacket s 6 0 0 0 0 (1 + 2 * rootHops s + s.fab.rootChip % 4096 * 512) 0
          (sliceBytes p.payload 0 8 ++ leBytes 8 (rack s) ++ leBytes 8 (rack s) ++ List.replicate 8 0)) s
      else if s.fab.timeRoot || (timeParent s).map Prod.fst ≠ some n || (port s n).t1 ≠ some (leAt p.payload 0 8) then s
      else
        let own := timeOffset (leAt p.payload 0 8) (leAt p.payload 8 8) (leAt p.payload 16 8) (rack s)
        let fr := freshFree s
        let off := if hops = 0 then own else own + toSigned 32 fr.1
        let s := modPort n (fun q => { q with t1 := none }) (if hops = 0 then s else fr.2)
        correctTime off (modFab (fun f => { f with timeOffset := toSigned 32 (ofSigned 32 off) }) s)) (gotPacket n s))

/-! ### Commands (R516, R517, R539, R540) -/

/-- A route entry from its 64 bits (R541). -/
def routeOfNat (x : Nat) : Route :=
  { valid := bit x 63, loc := bit x 62, spread := bit x 61, alternate := bits x 16 12, primary := bits x 0 12 }

def routeNat (r : Route) : Nat :=
  b2n r.valid * 2 ^ 63 + b2n r.loc * 2 ^ 62 + b2n r.spread * 2 ^ 61 + r.alternate * 2 ^ 16 + r.primary

/-- A route table with an entry for every chip that has one. -/
def routeTable (bs : List Byte) : Tbl (Option Route) :=
  (List.range 4096).foldr (fun c t => let x := leAt bs (8 * c) 8
    if x = 0 then t else (c, some (routeOfNat x)) :: t) []

/-- The staged table becomes the active one, and both PFs hear of it (R516). -/
def applyRoutes (s : State) : State :=
  match s.fab.stagedE with
  | none => s
  | some _ => raiseTo evRouteApplied 0xFF [.pfs] [] (modFab (fun f => { f with routes := f.stagedRoutes, stagedE := none }) s)

/-- FAB_ROUTE_LOAD's checks on the table (R9, R517): reserved bits, and local for the chip's own entry alone. -/
def routesOk (own : Nat) (bs : List Byte) : Bool :=
  (List.range 4096).all fun c =>
    let x := leAt bs (8 * c) 8
    (bits x 28 33 == 0) && (bits x 12 4 == 0) && (bit x 62 == (c == own))

def fabRouteLoad (c : Cmd) (s : State) : State × Ans :=
  withHost c (pNum c 0 8) 32768 s fun bs =>
    if !routesOk s.fab.chip bs then refuse stBadCommand s
    else if pNum c 8 8 < rack s + 100000 then refuse stRefusedSchedule s
    else done (modFab (fun f => { f with stagedRoutes := routeTable bs, stagedE := some (pNum c 8 8) }) s)

def fabRouteLoadSpec : CmdSpec := { op := 0x0701, allow := [(0, 15, 0xFF)], perm := byPf, body := fabRouteLoad }

/-- FAB_ROUTE_LOAD (R516, R517). -/
def execFabRouteLoad (m : Mbx) (s : State) : Host.Outcome State Fault Refusal := .next (runCmd fabRouteLoadSpec m s)

/-- ROUTE_APPLY_UNSTEPPED (R516): while stepping is not enabled, the staged table takes effect at E. -/
def execRouteApplyUnstepped (s : State) : Host.Outcome State Fault Refusal :=
  .next (if dieOn s && !stepping s && s.fab.stagedE.any (fun e => decide (e ≤ rack s)) then applyRoutes s else s)

/-- Ports of a mask. -/
def maskCount (m : Nat) : Nat := ((List.range 12).filter (bit m)).length

def fabBond (c : Cmd) (s : State) : State × Ans :=
  let g := pByte c 0
  let m := pNum c 2 2
  let others := s.fab.bonds.filter fun b => b.1 ≠ g
  if 5 < g ∨ 4095 < m then refuse stBadCommand s
  else if m ≠ 0 ∧ !([2, 3, 4, 6].contains (maskCount m)) then refuse stBadCommand s
  else if others.any (fun b => b.2 &&& m != 0) then refuse stBadCommand s
  else done (checkBonds (modFab (fun f => { f with bonds := Tbl.set 0 f.bonds g m }) s))

def fabBondSpec : CmdSpec := { op := 0x0702, allow := [(0, 0, 0xFF), (2, 3, 0xFF)], perm := byPf, body := fabBond }

/-- FAB_BOND (R500, R540). -/
def execFabBond (m : Mbx) (s : State) : Host.Outcome State Fault Refusal := .next (runCmd fabBondSpec m s)

def fabPortCtrl (c : Cmd) (s : State) : State × Ans :=
  let n := pByte c 0
  if 11 < n then refuse stBadCommand s
  else match pByte c 1 with
    | 0 => done (portDown n 4 s)
    | 1 => done (if (port s n).state = 4 then modPort n (fun p => { p with state := 1 }) s else s)
    | 2 => done (if (port s n).state = 4 then s else portTrain n s)
    | _ => refuse stBadCommand s

def fabPortCtrlSpec : CmdSpec := { op := 0x0703, allow := [(0, 1, 0xFF)], perm := byPf, body := fabPortCtrl }

/-- FAB_PORT_CTRL (R540). -/
def execFabPortCtrl (m : Mbx) (s : State) : Host.Outcome State Fault Refusal := .next (runCmd fabPortCtrlSpec m s)

def fabTimeCfg (c : Cmd) (s : State) : State × Ans :=
  let r := pNum c 0 2
  if 4095 < r then refuse stBadCommand s
  else done (modFab (fun f => { f with timeSet := true, rootChip := r, timeRoot := f.assigned && decide (f.chip = r), timeRef := pBit c 2 0 }) s)

def fabTimeCfgSpec : CmdSpec := { op := 0x0704, allow := [(0, 1, 0xFF), (2, 2, 1)], perm := byPf, body := fabTimeCfg }

/-- FAB_TIME_CFG (R522, R526). -/
def execFabTimeCfg (m : Mbx) (s : State) : Host.Outcome State Fault Refusal := .next (runCmd fabTimeCfgSpec m s)

/-- FAB_INJ from its 128 bits (R541). -/
def injectOfNat (x : Nat) : Inject :=
  { enable := bit x 127, ctl := bit x 126, afterCrc := bit x 125, depth := bits x 118 4, partitions := bits x 96 16,
    seed := bits x 64 32, dropRate := bits x 48 16, corruptRate := bits x 32 16, reorderRate := bits x 16 16 }

def injectNat (j : Inject) : Nat :=
  b2n j.enable * 2 ^ 127 + b2n j.ctl * 2 ^ 126 + b2n j.afterCrc * 2 ^ 125 + j.depth * 2 ^ 118 + j.partitions * 2 ^ 96 +
    j.seed * 2 ^ 64 + j.dropRate * 2 ^ 48 + j.corruptRate * 2 ^ 32 + j.reorderRate * 2 ^ 16

/-- What the life cycle permits (R473, R539): always, under a token, or within the scope of one. -/
def lcPermits (s : State) (inScope : Token → Bool) : Bool :=
  match s.isl.lc with
  | 0 => true
  | 1 => (ownerToken s).isSome
  | 2 => (ownerToken s).any inScope
  | _ => vendorToken s

def fabInject (c : Cmd) (s : State) : State × Ans :=
  let n := pByte c 0
  let x := pNum c 8 16
  let j := injectOfNat x
  if 11 < n then refuse stBadCommand s
  else if !lcPermits s (fun t => bit t.scope 1 && bit t.injectPorts n && decide (j.partitions &&& t.injectParts = j.partitions)) then refuse stNotPermitted s
  else done (modPort n (fun p => { p with draws := 0, held := [] }) (modFab (fun f => { f with inject := Tbl.set none f.inject n (some j) }) s))

def fabInjectSpec : CmdSpec := { op := 0x0720, allow := [(0, 0, 0xFF), (10, 21, 0xFF), (22, 22, 0xC0), (23, 23, 0xE3)], perm := byAny, body := fabInject }

/-- FAB_INJECT (R537 to R539). -/
def execFabInject (m : Mbx) (s : State) : Host.Outcome State Fault Refusal := .next (runCmd fabInjectSpec m s)

end Sys2Proof.Machine
end

