-- ==== Sys2Proof/Machine/Scratch.lean ====
section
/-! DEFINITION. The field scratchpad: rows, tags, isolation, error correction, compare-and-count, cache mode, debug and patrol (06_field_scratchpad.md). -/
namespace Sys2Proof.Machine

/-! ### Rows and tags (R11, R187, R200) -/

/-- The window address of a row. -/
def rowAddr (f r : Nat) : Nat := f * 0x2000000 + r * 0x400

def readRow (s : State) (f r : Nat) : List Byte := rdBytes s (rowAddr f r) 640

def storeRow (f r : Nat) (bs : List Byte) (s : State) : State := wrBytes (rowAddr f r) (padTo 640 bs) s

def rowTag (s : State) (f r : Nat) : Nat := Tbl.get 0 s.sp.tags (f * 32768 + r)
def setTag (f r t : Nat) (s : State) : State := modSp (fun p => { p with tags := Tbl.set 0 p.tags (f * 32768 + r) t }) s

def rowFull (s : State) (f r : Nat) : Bool := bit (rowTag s f r) 4
def rowPoison (s : State) (f r : Nat) : Bool := bit (rowTag s f r) 5
def rowAwait (s : State) (f r : Nat) : Nat := bits (rowTag s f r) 0 4

/-- A tag from poison, full and await. -/
def mkTag (poison full : Bool) (aw : Nat) : Nat := 32 * b2n poison + 16 * b2n full + aw

/-- Zero a row and clear its tag: a scrub or a power-up (R198, R223, R228). -/
def scrubRow (f r : Nat) (s : State) : State := setTag f r 0 (zeroMem (rowAddr f r) 640 s)

def bankGroup (r : Nat) : Nat := r % 32 / 4

/-- The bank group of a row has power (R229). -/
def powered (s : State) (f r : Nat) : Bool := bit (fld s f).pwrOn (bankGroup r)

/-- A row of a cache-mode bank (R211). -/
def inCacheBank (s : State) (r : Nat) : Bool := decide (32 - s.sp.cacheBanks ≤ r % 32)

/-- The resident range that holds a row (R219). -/
def rangeOf (s : State) (f r : Nat) : Option ResRange :=
  ((fld s f).resRanges.filterMap Prod.snd).find? fun x => x.valid && decide (x.first ≤ r) && decide (r < x.first + x.count)

/-- A row is transient: in no range, no cache bank, no group without power (R220). -/
def transient (s : State) (f r : Nat) : Bool := (rangeOf s f r).isNone && !inCacheBank s r && powered s f r

/-! ### Access (R201, R202, R222, R229) -/

/-- An access by a partition that the scratchpad suppresses: a foreign resident row, or a write or consume read of a read-only one (R222). -/
def suppressed (s : State) (part f r : Nat) (changes : Bool) : Bool :=
  match rangeOf s f r with
  | some x => !bit x.partitions part || (x.readOnly && changes)
  | none => false

/-- A read proceeds: the row is full, has no power, or the read is suppressed (R201, R222, R229); a cache-mode bank serves no such access (R211). -/
def readReady (s : State) (part f r : Nat) (consume : Bool) : Bool :=
  !inCacheBank s r && (!powered s f r || suppressed s part f r consume || rowFull s f r)

/-- A fill write proceeds: the row is empty, has no power, or the write is suppressed (R202, R222, R229); a cache-mode bank serves no such access (R211). -/
def fillReady (s : State) (part f r : Nat) : Bool :=
  !inCacheBank s r && (!powered s f r || suppressed s part f r true || !rowFull s f r)

/-- The 8-cycle turn of the wheel: the step and segment of the running program and its turn since it began, or the turn by time where none runs (R191). -/
def wheelTurn (s : State) : Nat × Nat × Nat :=
  match s.seq.cur with
  | some r => (s.step.count, s.step.segment + 1, (r.work + (((s.step.running.map StepRun.segSlack).getD []).map Prod.snd).sum) / 8)
  | none => (0, 0, s.now * 22388 / 80000)

/-- An access to a field is blocked in this turn: SP_TAG_BLOCKS counts the turn once (R207). -/
def countBlocked (f : Nat) (s : State) : State :=
  modFld f (fun x => if x.blockedAt = some (wheelTurn s) then x else
    { x with blockedAt := some (wheelTurn s), tagBlocks := satAdd 64 x.tagBlocks 1 }) s

/-- An access to a row without power is counted (R229). -/
def countDown (f : Nat) (s : State) : State := modFld f (fun x => { x with downAccess := satAdd 32 x.downAccess 1 }) s

/-- A segment that runs a program for this partition takes a fault: the first status of R653 that applies, with the unit, field and cause that first raised it. -/
def faultSegment (part status unit field cause : Nat) (s : State) : State :=
  modSeq (fun q =>
    { q with cur := q.cur.map fun c =>
        if c.part ≠ part then c else
        let rank := fun x => [stNotPermitted, stMetadataFault, stFormatFault, stBarrierOverrun, stTimeout].idxOf x
        match c.fault with
        | none => { c with fault := some status, faultRec := (unit, field, cause) }
        | some old => if rank status < rank old then { c with fault := some status } else c }) s

/-- Count a suppressed access (R222): the segment is faulted when the stream made it (R653). -/
def countSuppressed (stream : Bool) (part f : Nat) (s : State) : State :=
  onlyIf stream (faultSegment part stNotPermitted 3 f 0)
    (modFld f (fun x => { x with isoViol := satAdd 32 x.isoViol 1 }) (countError 4 s))

/-- Read a row that is ready: its bytes and whether they are poisoned. A cache-mode bank is never ready (R211). -/
def accessRow (stream : Bool) (part f r : Nat) (consume : Bool) (s : State) : (List Byte × Bool) × State :=
  if inCacheBank s r then ((List.replicate 640 0, false), s)
  else if !powered s f r then
    ((List.replicate 640 0, false), countDown f s)
  else if suppressed s part f r consume then ((List.replicate 640 0, true), countSuppressed stream part f s)
  else
    let s' := onlyIf (rowPoison s f r && (rangeOf s f r).isSome) (modSp fun p => { p with poisonReads := p.poisonReads ++ [f * 32768 + r] }) s
    ((readRow s f r, rowPoison s f r),
      if consume then setTag f r (mkTag (rowPoison s f r) false (rowAwait s f r)) s' else s')

/-- Write a row: full, nothing awaited, poisoned as the data are (R198, R202, R222, R229). `full` is cleared only for an epilogue's partial row (R149). -/
def putRow (stream : Bool) (part f r : Nat) (bs : List Byte) (poison full : Bool) (s : State) : State :=
  if inCacheBank s r then s
  else if !powered s f r then countDown f s
  else if suppressed s part f r true then countSuppressed stream part f s
  else setTag f r (mkTag poison full (if full then 0 else rowAwait s f r)) (storeRow f r bs s)

/-- Read several rows in order: their bytes joined and whether any is poisoned. -/
def accessRows (stream : Bool) (part f : Nat) (consume : Bool) : List Nat → State → (List (List Byte) × Bool) × State
  | [], s => (([], false), s)
  | r :: rs, s =>
    let a := accessRow stream part f r consume s
    let b := accessRows stream part f consume rs a.2
    ((a.1.1 :: b.1.1, a.1.2 || b.1.2), b.2)

/-! ### Error correction (R196, R197, R199) -/

/-- The error code finds a word of a row: corrected and counted, or the row is poisoned, counted and recorded; a tag of wrong parity poisons the row too (R196, R197, R200). -/
def eccHit (h : EccHit) (s : State) : State :=
  let f := h.field % 16
  let r := h.row % 32768
  if h.corrected then
    modFld f (fun x => { x with eccCorrected := satAdd 64 x.eccCorrected 1 }) (countError 1 s)
  else
    let s := setTag f r (rowTag s f r ||| 32) (countError 2 s)
    modFld f (fun x =>
      { x with eccUncorrected := satAdd 32 x.eccUncorrected 1, eccRecValid := true,
               eccRecWord := if x.eccRecValid then x.eccRecWord else if h.word = 10 then Config.tagErrorWord r % 10 else h.word % 10,
               eccRecRow := if x.eccRecValid then x.eccRecRow else r }) s

/-- What the reads of a command find, word by word; several bad words of one row are one uncorrectable read with the lowest word recorded (R197). -/
def eccHits (hs : List EccHit) (s : State) : State :=
  let fixed := hs.filter (·.corrected)
  let bad := hs.filter (!·.corrected)
  let rows := (bad.map fun h => (h.field % 16, h.row % 32768)).eraseDups
  let firsts := rows.filterMap fun k =>
    let ws := (bad.filter fun h => h.field % 16 == k.1 && h.row % 32768 == k.2).map EccHit.word
    ws.min?.map fun w => ({ field := k.1, row := k.2, word := w, corrected := false } : EccHit)
  (fixed ++ firsts).foldl (fun s h => eccHit h s) s

/-- What a command's reads find in the rows it has read. -/
def eccIn (rows : List (Nat × Nat)) (hs : List EccHit) (s : State) : State :=
  eccHits (hs.filter fun h => rows.contains (h.field % 16, h.row % 32768)) s

/-- An insertion into a row waits for its bank's next slot 7, which it holds against every other slot-7 access to the row (R209). -/
def insPending (s : State) (f r : Nat) : Bool := (fld s f).ccPending.any fun p => p.1 == r

/-- SCRATCHPAD_PATROL (R199): the patrol reads a resident row; a corrected word is written back, an uncorrectable one poisons the row. -/
def execScratchpadPatrol (ecc : EccHit) (s : State) : Host.Outcome State Fault Refusal :=
  let f := ecc.field % 16
  let r := ecc.row % 32768
  .next (onlyIf (dieOn s && (fld s f).patrolEn && (rangeOf s f r).isSome && !insPending s f r) (eccHit ecc) s)

/-! ### Compare-and-count (R208 to R210) -/

/-- The elements of a row, of 4 or 8 bytes. -/
def ccElems (row : List Byte) (size : Nat) : List Nat := (List.range (640 / size)).map fun i => leAt row (size * i) size

/-- The empty marker (R208). -/
def ccEmpty (size : Nat) : Nat := 256 ^ size - 1

/-- CC_EQ: how many elements equal the key, and the first, 0xFF for none. -/
def ccEq (size key : Nat) (row : List Byte) : Nat × Nat :=
  let es := ccElems row size
  if key = ccEmpty size then (0, 0xFF) else (es.count key, if es.contains key then es.idxOf key else 0xFF)

/-- CC_LT: how many elements lie below the key. -/
def ccLt (size key : Nat) (row : List Byte) : Nat × Nat :=
  if key = ccEmpty size then (0, 0xFF) else (((ccElems row size).filter (· < key)).length, 0xFF)

/-- CC_INS: the index of the key or of the marker it takes, and whether it writes. -/
def ccIns (size key : Nat) (row : List Byte) : Nat × Bool :=
  let es := ccElems row size
  if key = ccEmpty size then (0xFF, false)
  else if es.contains key then (es.idxOf key, false)
  else if es.contains (ccEmpty size) then (es.idxOf (ccEmpty size), true) else (0xFF, false)

/-- Write a key into an element of a row. -/
def ccWrite (f r size idx key : Nat) (s : State) : State := wrBytes (rowAddr f r + size * idx) (leBytes size key) s

/-! ### Debug access (R236) and the CC_INS write (R209) -/

/-- The debug row buffer as bytes. -/
def dbgBuf (x : FieldSt) : List Byte := (List.range 640).map fun i => Tbl.get 0 x.dbgData i

/-- The debug row access: it ignores the tag, and sets it only with set_tag (R236). -/
def dbgRow (f ctrl : Nat) (s : State) : State :=
  let r := bits ctrl 0 15
  let wr := bit ctrl 30
  if !powered s f r then
    modFld f (fun x => { x with dbgData := if wr then x.dbgData else [], dbgTag := if wr then x.dbgTag else 16 }) (countDown f s)
  else if wr then
    let s := storeRow f r (dbgBuf (fld s f)) s
    if bit ctrl 29 then setTag f r (bits ctrl 16 6) s else s
  else
    modFld f (fun x => { x with dbgData := putBytes [] 0 (readRow s f r), dbgTag := rowTag s f r }) s

/-- A compare-and-count from debug access (R208): the answer stands in the first words of the debug buffer; an insertion waits for the bank's next slot 7 (R209). A row without power reads as zero and takes no key (R229). -/
def dbgCc (f kind size key r : Nat) (s : State) : State :=
  let size := if size = 8 then 8 else 4
  let row := if powered s f r then readRow s f r else List.replicate 640 0
  let key := key % 256 ^ size
  let res := match kind with
    | 0 => ccEq size key row
    | 1 => ccLt size key row
    | _ => (0, (ccIns size key row).1)
  let pend := if 2 ≤ kind ∧ (ccIns size key row).2 ∧ powered s f r then [(r, size, (ccIns size key row).1, key)] else []
  modFld f (fun x =>
    { x with ccOps := satAdd 64 x.ccOps 1, dbgData := putBytes x.dbgData 0 (leBytes 4 res.1 ++ leBytes 4 res.2),
             ccPending := x.ccPending ++ pend }) (if powered s f r then s else countDown f s)

/-- The row a debug access names. -/
def dbgRowNo : SpDbgOp → Nat
  | .row c => bits c 0 15
  | .cc _ _ _ r => r % 32768

/-- Slot 7 of a row's bank is held by an insertion, or serves cache mode alone (R209, R211). -/
def dbgHeld (s : State) (f r : Nat) : Bool := inCacheBank s r || insPending s f r

/-- A debug access in its slot: performed, or waiting while the bank holds it; one that comes while another waits is not taken (log entry 33). -/
def dbgAccess (f : Nat) (op : SpDbgOp) (s : State) : State :=
  if (fld s f).dbgWaits.isSome then s
  else if dbgHeld s f (dbgRowNo op) then countBlocked f (modFld f (fun x => { x with dbgWaits := some op }) s)
  else match op with
    | .row ctrl => dbgRow f ctrl s
    | .cc kind size key row => dbgCc f kind size key (row % 32768) s

/-- The debug access that waits is performed once nothing holds it. -/
def releaseDbg (f : Nat) (s : State) : State :=
  match (fld s f).dbgWaits with
  | none => s
  | some op => if dbgHeld s f (dbgRowNo op) then s else dbgAccess f op (modFld f (fun x => { x with dbgWaits := none }) s)

/-- The PF debug window is open: MANUFACTURE, or RETURN with a vendor-signed token in force (R586, R638). -/
def debugOpen (s : State) : Bool :=
  s.isl.lc == 0 || (s.isl.lc == 3 && vendorToken s)

/-- A write of SP_DBG_CTRL: its fields, and the access that go asks for, where the life cycle opens the debug window (R235, R236). -/
def dbgRowAccess (f ctrl : Nat) (s : State) : State :=
  let s := modFld f (fun x => { x with dbgWrite := bit ctrl 30, dbgSetTag := bit ctrl 29, dbgRow := bits ctrl 0 15, dbgTag := bits ctrl 16 6 }) s
  if bit ctrl 31 && debugOpen s then dbgAccess f (.row ctrl) s else s

/-- SP_DEBUG_ACCESS (R236, R208): available only where the life cycle opens the debug window. -/
def execSpDebugAccess (field : Nat) (access : DbgAccess) (s : State) : Host.Outcome State Fault Refusal :=
  let f := field % 16
  .next (if !dieOn s || !debugOpen s then s else
    let r := dbgRowNo access.op
    let s := if (fld s f).dbgWaits.isSome || dbgHeld s f r then s else eccIn [(f, r)] access.ecc s
    match access.op with
    | .row ctrl => dbgRowAccess f ctrl s
    | .cc _ _ _ _ => dbgAccess f access.op s)

/-- CC_INS_WRITE (R209): the insertion that waits is written. -/
def execCcInsWrite (field row : Nat) (s : State) : Host.Outcome State Fault Refusal :=
  let f := field % 16
  .next (match (fld s f).ccPending.find? fun p => p.1 == row with
    | some (r, size, idx, key) =>
      let s := if powered s f r then ccWrite f r size idx key s else countDown f s
      releaseDbg f (modFld f (fun x => { x with ccPending := x.ccPending.filter (· != (r, size, idx, key)) }) s)
    | none => s)

/-! ### Cache mode (R211 to R218) -/

/-- The home of line `a` for `m` cache banks: field, set, bank group and index (R214). -/
def cacheHome (m a : Nat) : Nat × Nat × Nat × Nat :=
  let st := a / 16 % (256 * m)
  (a % 16, st, 8 - m / 4 + st / 1024, st % 1024)

/-- Row of way `w` of a set (R214). -/
def cacheRow (m a w : Nat) : Nat :=
  let h := cacheHome m a
  32 * h.2.2.2 + 4 * h.2.2.1 + w

/-- The tag word of a cache row (R213). -/
def cacheTag (s : State) (f r : Nat) : Nat := rdNum s (rowAddr f r + 512) 8

/-- The region that holds an address and names a partition (R216, R217). -/
def cacheRegion (s : State) (part addr : Nat) : Option Nat :=
  (s.sp.regions.find? fun p => match p.2 with
    | some x => bit x.partitions part && decide (x.base ≤ addr) && decide (addr < x.base + x.length)
    | none => false).map Prod.fst

/-- The way that hits (R216). -/
def cacheHit (s : State) (part addr : Nat) : Option Nat :=
  let a := addr / 512
  let m := s.sp.cacheBanks
  match cacheRegion s part addr with
  | none => none
  | some j =>
    let gen := ((Tbl.get none s.sp.regions j).map Region.gen).getD 0
    if m = 0 then none else
      (List.range 4).find? fun w =>
        let t := cacheTag s (a % 16) (cacheRow m a w)
        bit t 55 && bits t 51 4 == j && bits t 39 12 == gen && bits t 0 39 == a

/-- A set's ways, least recently used first. -/
def lruOf (s : State) (key : Nat) : List Nat :=
  let l := Tbl.get [] s.sp.lru key
  if l.isEmpty then [0, 1, 2, 3] else l

/-- Use a way: it becomes the most recently used. -/
def touchWay (key w : Nat) (s : State) : State :=
  modSp (fun p => { p with lru := Tbl.set [] p.lru key ((lruOf s key).filter (· != w) ++ [w]) }) s

/-- Look an address up for a partition: counted in its home field, a miss asks for a fill (R215). -/
def cacheLookup (part addr : Nat) (s : State) : Bool × State :=
  let a := addr / 512
  let h := cacheHome s.sp.cacheBanks a
  if s.sp.cacheBanks = 0 then (false, s) else
  match cacheRegion s part addr, cacheHit s part addr with
  | none, _ => (false, s)
  | some _, some w =>
    (true, touchWay (h.1 * 65536 + h.2.1) w
      (modFld h.1 (fun x => { x with cacheHits := satAdd 64 x.cacheHits 1 }) s))
  | some j, none =>
    (false, modSp (fun p => { p with fills := if p.fills.contains (j, a) then p.fills else p.fills ++ [(j, a)] })
      (modFld h.1 (fun x => { x with cacheMisses := satAdd 64 x.cacheMisses 1 }) s))

/-- The line that a look-up finds: its bytes, and whether its row is poisoned (R215). -/
def cacheLine (s : State) (part addr : Nat) : Option (List Byte × Bool) :=
  let a := addr / 512
  (cacheHit s part addr).map fun w =>
    let r := cacheRow s.sp.cacheBanks a w
    (rdBytes s (rowAddr (a % 16) r) 512, rowPoison s (a % 16) r)

/-- Invalidate every line of a region (R218): the rows whose tag word's byte with the valid bit is listed are the only ones that hold a line. -/
def invalidateRegion (j : Nat) (s : State) : State :=
  let rows := (Tbl.keys s.mem).filterMap fun a =>
    if a < 0x20000000 ∧ a % 0x400 = 518 then some (a / 0x2000000, a % 0x2000000 / 0x400) else none
  rows.foldl (fun s k =>
    if inCacheBank s k.2 && bit (cacheTag s k.1 k.2) 55 && bits (cacheTag s k.1 k.2) 51 4 == j
    then zeroMem (rowAddr k.1 k.2 + 512) 8 s else s) s

/-- A write into an address range advances the generation of every region it meets; a wrap invalidates the region's lines (R217, R218). -/
def bumpRegions (addr len : Nat) (s : State) : State :=
  s.sp.regions.foldl (fun s p => match p.2 with
    | some x =>
      if decide (addr < x.base + x.length) && decide (x.base < addr + len) then
        let g := (x.gen + 1) % 4096
        let s := modSp (fun q => { q with regions := Tbl.set none q.regions p.1 (some { x with gen := g }) }) s
        if g = 0 then invalidateRegion p.1 s else s
      else s
    | none => s) s

/-- Scrub every row a test on field and row names: zero, empty, clear of poison; a scrub runs for 1,024 cycles, 458 ns at the spread floor (R223). -/
def scrubWhere (p : Nat → Nat → Bool) (s : State) : State :=
  { s with mem := s.mem.filter fun c => !(decide (c.1 < 0x20000000) && p (c.1 / 0x2000000) (c.1 % 0x2000000 / 0x400)),
           sp := { s.sp with tags := s.sp.tags.filter fun c => !p (c.1 / 32768) (c.1 % 32768), scrubEnd := s.now + 458 } }

/-- Power a bank group up: its rows are zero, empty and clear of poison, and what needs it completes 20 µs later at the soonest (R228). -/
def powerUpGroup (f g : Nat) (s : State) : State :=
  if bit (fld s f).pwrOn g then s else
    modFld f (fun x => { x with pwrOn := x.pwrOn ||| 2 ^ g, pwrReady := Tbl.set 0 x.pwrReady g (s.now + 20000) })
      (scrubWhere (fun f' r => f' == f && bankGroup r == g) s)

/-- Power up bank groups that a load needs (R228). -/
def powerGroups (gs : List (Nat × Nat)) (s : State) : State := gs.foldl (fun s x => powerUpGroup x.1 x.2 s) s

/-- All of them have had power for 20 µs, or since before (R228). -/
def groupsReady (gs : List (Nat × Nat)) (s : State) : Bool := gs.all fun x => decide (Tbl.get 0 (fld s x.1).pwrReady x.2 ≤ s.now)

/-- The bank groups of a run of rows of a field. -/
def groupsOfRun (f first n : Nat) : List (Nat × Nat) := ((List.range (min 32 n)).map fun i => (f, bankGroup (first + i))).eraseDups

/-- Apply a staged number of cache banks in a reserve: banks that leave start zero and empty, as do those that enter, whose groups have power; debug accesses to banks that leave go on (R212, R228). -/
def applyCacheBanks (m : Nat) (s : State) : State :=
  let s := scrubWhere (fun _ r => decide (32 - s.sp.cacheBanks ≤ r % 32) != decide (32 - m ≤ r % 32)) s
  let s := (List.range 16).foldl (fun s f => (List.range (m / 4)).foldl (fun s i => powerUpGroup f (7 - i) s) s) s
  (List.range 16).foldl (fun s f => releaseDbg f s) (modSp (fun p => { p with cacheBanks := m, lru := [], fills := [] }) s)

end Sys2Proof.Machine
end

