-- ==== Sys2Proof/Machine/Tiers.lean ====
section
/-! DEFINITION. The lower tiers: address map, allocation, error correction and poison, write-combining buffer, hint cache, retirement, windows to host memory, and the memory commands (08_memory_tiers.md, R282 to R303, R323 to R328). -/
namespace Sys2Proof.Machine

/-! ### Addresses (R11, R282) -/

/-- Bytes of a tier: 0 T1, 1 T2. -/
def tierBytes (t : Nat) : Nat := if t = 0 then 0xBA0000000 else 0xBA00000000
/-- Base of a tier. -/
def tierBase (t : Nat) : Nat := if t = 0 then 0x1000000000 else 0x10000000000
/-- Granules of 64 KiB of a tier. -/
def tierGranules (t : Nat) : Nat := tierBytes t / 65536

/-- What stands at a local address. -/
inductive Place where
  | row (field row : Nat)
  | acc
  | control
  | tier (t off : Nat)
  | host (port : Nat)
  | nowhere
  deriving DecidableEq, Repr

/-- The place of an extent; an extent that leaves its range lies nowhere. -/
def place (a len : Nat) : Place :=
  if a + len ≤ 0x20000000 then .row (a / 0x2000000) (a % 0x2000000 / 0x400)
  else if 0x20000000 ≤ a ∧ a + len ≤ 0x22000000 then .acc
  else if 0x30000000 ≤ a ∧ a + len ≤ 0x40000000 then .control
  else if tierBase 0 ≤ a ∧ a + len ≤ tierBase 0 + tierBytes 0 then .tier 0 (a - tierBase 0)
  else if tierBase 1 ≤ a ∧ a + len ≤ tierBase 1 + tierBytes 1 then .tier 1 (a - tierBase 1)
  else if 0x400000000000 ≤ a ∧ a + len ≤ 0x600000000000 then .host 0
  else if 0x600000000000 ≤ a ∧ a + len ≤ 0x800000000000 then .host 1
  else .nowhere

/-- The granules an extent of a tier touches. -/
def granulesOf (off len : Nat) : List Nat := (List.range (ceilDiv (off + len) 65536 - off / 65536)).map (off / 65536 + ·)

/-- The blocks of 64 bytes an extent touches. -/
def blocksOf (off len : Nat) : List Nat := (List.range (ceilDiv (off + len) 64 - off / 64)).map (off / 64 + ·)

/-- The channel of a byte (R284). -/
def channelOf (off : Nat) : Nat := Nat.xor (bits off 8 6) (bits off 14 6)

/-! ### Allocation (R324, R590, R591, R608) -/

/-- The partition is gone: its PART_DESTROY commands complete. -/
def finishDestroys (s : State) : State :=
  let due := (s.part.destroys.filter fun d => d.2.isEmpty).map Prod.fst
  let s := modPart (fun x => { x with destroys := x.destroys.filter fun d => !d.2.isEmpty }) s
  due.foldl (fun s c => completeOk c (modPart (fun x => { x with parts := Tbl.set none x.parts (pByte c 0) none }) s)) s

/-- A freed granule has been written with zeros: it is free, and no PART_DESTROY waits for it (R608). -/
def zeroGranule (t granule : Nat) (s : State) : State :=
  let s := zeroMem (tierBase t + 65536 * granule) 65536 s
  let s := modTier t (fun x => { x with zeroing := x.zeroing.filter (· != granule), poison := x.poison.filter (· / 1024 != granule), coded := x.coded.filter (· / 1024 != granule) }) s
  finishDestroys (modPart (fun x => { x with destroys := x.destroys.map fun d => (d.1, d.2.filter (· != (t, granule))) }) s)

/-- A command that needs granules still being zeroed completes after the write: they are zeroed first (R608; log entry 45). -/
def zeroNeeded (t : Nat) (gs : List Nat) (s : State) : State := (gs.filter (tier s t).zeroing.contains).foldl (fun s g => zeroGranule t g s) s

/-- Partitions whose allocation holds a granule, as a mask. -/
def ownersOf (s : State) (t g : Nat) : Nat := Tbl.get 0 (tier s t).owner g

/-- A granule may be allocated: unowned, not retired, not being zeroed, not in quarantine, not firmware's. -/
def granuleFree (s : State) (t g : Nat) : Bool :=
  let x := tier s t
  decide (g < tierGranules t - Config.reservedGranules t) && ownersOf s t g == 0 && !x.retired.contains g &&
    !x.zeroing.contains g && !x.quarantine.contains g

/-- The first granule of a free run; firmware may pick any (log entry 10). -/
def findRun (s : State) (t n : Nat) : Option Nat :=
  let x := tier s t
  let ok := fun g => (List.range n).all fun i => granuleFree s t (g + i)
  let pick := Config.pick t s.freeCount
  if ok pick then some pick else
    (0 :: (Tbl.keys x.owner ++ x.retired ++ x.zeroing ++ x.quarantine).map (· + 1)).find? ok

/-- Granules used by a partition in a tier. -/
def quotaUsed (s : State) (p t : Nat) : Nat := match part? s p with
  | some x => if t = 0 then x.t1Used else x.t2Used
  | none => 0
def quotaLimit (s : State) (p t : Nat) : Nat := match part? s p with
  | some x => if t = 0 then x.t1Limit else x.t2Limit
  | none => 0

/-- Charge granules to a partition's quota, or give them back. -/
def charge (p t n : Nat) (s : State) : State :=
  modPartn p (fun x => if t = 0 then { x with t1Used := x.t1Used + n } else { x with t2Used := x.t2Used + n }) s
def uncharge (p t n : Nat) (s : State) : State :=
  modPartn p (fun x => if t = 0 then { x with t1Used := x.t1Used - n } else { x with t2Used := x.t2Used - n }) s

/-- Add a partition to the owners of a run of granules. -/
def ownRun (p t g n : Nat) (s : State) : State :=
  modTier t (fun x => { x with owner := (List.range n).foldl (fun o i => Tbl.set 0 o (g + i) (Tbl.get 0 o (g + i) ||| 2 ^ p)) x.owner }) s

/-- A state in which a free run of granules lies, and its first granule: this state, or where none lies in it, the one whose freed granules are zero. -/
def freeRunOf (t n : Nat) (s : State) : Option (Nat × State) :=
  match findRun s t n with
  | some g => some (g, s)
  | none => let z := zeroNeeded t (tier s t).zeroing s; (findRun z t n).map (·, z)

/-- Allocate a run of granules for a partition against its quota: its first granule (R591). -/
def allocRun (p t n : Nat) (s : State) : Option (Nat × State) :=
  if quotaLimit s p t < quotaUsed s p t + n then none
  else (freeRunOf t n s).map fun x => (x.1, charge p t n (ownRun p t x.1 n { x.2 with freeCount := x.2.freeCount + 1 }))

/-- Take a partition off a run of granules; those with no owner left are zeroed before anyone has them again (R608). -/
def freeRun (p t g n : Nat) (s : State) : State :=
  (List.range n).foldl (fun s i =>
    let o := ownersOf s t (g + i)
    let o' := o - (o &&& 2 ^ p)
    modTier t (fun x =>
      { x with owner := Tbl.set 0 x.owner (g + i) o',
               zeroing := if o' = 0 ∧ o ≠ 0 then x.zeroing ++ [g + i] else x.zeroing }) s) s

/-- How often objects of a partition lie on a granule at an address its host chose (R591). -/
def claimsOf (s : State) (p t g : Nat) : Nat := Tbl.get 0 (tier s t).claims (16 * g + p)
def setClaims (p t g n : Nat) (s : State) : State := modTier t (fun x => { x with claims := Tbl.set 0 x.claims (16 * g + p) n }) s

/-- The granules an area takes. -/
def areaGranules (off len : Nat) : List Nat := if len = 0 then [] else granulesOf off len

/-- Allocate the granules of an area that a host named, against the partition's quota (R591): granules that are free, or that the partition's other areas lie on. -/
def claimArea (p t off len : Nat) (s₀ : State) : Option State :=
  let gs := areaGranules off len
  let s := zeroNeeded t gs s₀
  let new := gs.filter fun g => claimsOf s p t g == 0
  if !(new.all (granuleFree s t)) || decide (quotaLimit s p t < quotaUsed s p t + new.length) then none
  else some (charge p t new.length (gs.foldl (fun s g =>
    setClaims p t g (claimsOf s p t g + 1) (if claimsOf s p t g = 0 then ownRun p t g 1 s else s)) s))

/-- Give an area back. -/
def releaseArea (p t off len : Nat) (s : State) : State :=
  (areaGranules off len).foldl (fun s g =>
    let n := claimsOf s p t g - 1
    let s := setClaims p t g n s
    if n = 0 then uncharge p t 1 (freeRun p t g 1 s) else s) s

/-- Allocate several areas, all or none: tier, offset, length. -/
def claimAreas (p : Nat) : List (Nat × Nat × Nat) → State → Option State
  | [], s => some s
  | x :: xs, s => (claimArea p x.1 x.2.1 x.2.2 s).bind (claimAreas p xs)

/-- Every granule of an extent belongs to a partition (R319). -/
def ownsExtent (s : State) (p t off len : Nat) : Bool := (granulesOf off len).all fun g => bit (ownersOf s t g) p

/-- Two ranges meet. -/
def meets (a la b lb : Nat) : Bool := decide (a < b + lb) && decide (b < a + la)

/-- The homes of shareable images meet a tier extent (R350). -/
def sharedHome (s : State) (t off len : Nat) : Bool :=
  s.mdl.images.any fun p => p.2.any fun im => bit (leAt im.manifest 6 2) 0 && im.layers.any fun l => l.2.any fun x =>
    x.homes.any fun h => h.tier == t && meets (tierBase t + off) len h.actual h.bytes

/-- A partition may write an extent: its own, outside the homes of shareable images (R319, R350). -/
def ownsWritable (s : State) (p t off len : Nat) : Bool := ownsExtent s p t off len && !sharedHome s t off len

/-- A freed retired granule (R325). -/
def deadGranule (s : State) (t g : Nat) : Bool := (tier s t).retired.contains g && ownersOf s t g == 0

/-! ### Access: hint cache and write-combining buffer (R291 to R297) -/

/-- The 2 KiB extents an access touches. -/
def extentsOf (off len : Nat) : List Nat := (List.range (ceilDiv (off + len) 2048 - off / 2048)).map (off / 2048 + ·)

/-- What an extent holds now. -/
def extentBytes (s : State) (t e : Nat) : List Byte := rdBytes s (tierBase t + 2048 * e) 2048

/-- The line the hint cache gives up: stream and discard lines first, the least recently used (R296). -/
def hintVictim (ls : List HintLine) : Option HintLine :=
  let soft := ls.filter fun l => l.hint ≠ 2
  let pool := if soft.isEmpty then ls else soft
  match (pool.map HintLine.last).min? with
  | none => none
  | some m => pool.find? fun l => l.last = m

/-- Touch an extent in the hint cache, allocating as the hint says; a write keeps what the tier held before it. -/
def hintTouch (t hint e : Nat) (write : Bool) (s : State) : State :=
  let old := if write then some (extentBytes s t e) else none
  modTier t (fun x =>
    match x.hints.find? fun l => l.extent = e with
    | some _ =>
      { x with hintHits := satAdd 64 x.hintHits 1,
               hints := x.hints.map fun l => if l.extent ≠ e then l else
                 { l with last := s.now, hint := if hint = 0 then l.hint else hint, dirty := if l.dirty.isSome then l.dirty else old } }
    | none =>
      if hint = 0 then x else
        let ls := if x.hints.length < 2048 then x.hints else match hintVictim x.hints with
          | some v => x.hints.filter fun l => l.extent ≠ v.extent
          | none => x.hints
        { x with hints := ls ++ [{ extent := e, hint := hint, last := s.now, dirty := old }] }) s

/-- Drop the lines of extents that a discard hint named, with the writes they still hold (R296, R297). -/
def discardLines (t : Nat) (es : List Nat) (s : State) : State :=
  es.foldl (fun s e =>
    match (tier s t).hints.find? fun l => l.extent = e && l.hint == 3 with
    | none => s
    | some l =>
      let s := modTier t (fun x => { x with hints := x.hints.filter fun k => k.extent ≠ e }) s
      match l.dirty with
      | some old => wrBytes (tierBase t + 2048 * e) old s
      | none => s) s

/-- A partial write enters the write-combining buffer; a line fully covered leaves it, and the least recently written makes room (R291). -/
def wcbWrite (t e lo hi : Nat) (s : State) : State :=
  modTier t (fun x =>
    if lo = 0 ∧ hi = 2048 then { x with wcb := x.wcb.filter fun l => l.extent ≠ e } else
    let old := x.wcb.find? fun l => l.extent = e
    let cov := (old.elim 0 WcbLine.covered) ||| (2 ^ hi - 2 ^ lo)
    let rest := x.wcb.filter fun l => l.extent ≠ e
    let x := { x with wcbMerges := satAdd 64 x.wcbMerges (b2n old.isSome) }
    if cov = 2 ^ 2048 - 1 then { x with wcb := rest }
    else
      let rest := if rest.length < 128 then rest else rest.drop 1
      { x with wcb := rest ++ [{ extent := e, covered := cov, last := s.now }] }) s

/-- What an access does in the controller before its bytes move. -/
def controllerTouch (t off len hint : Nat) (write : Bool) (s : State) : State :=
  (extentsOf off len).foldl (fun s e =>
    let lo := if 2048 * e < off then off - 2048 * e else 0
    let hi := min 2048 (off + len - 2048 * e)
    if (tier s t).mode = 0 then (if write then wcbWrite t e lo hi s else s) else hintTouch t hint e write s) s

/-- Cut an extent of a tier into runs of bytes that its blocks deliver alike, clean or poisoned: offset in the extent, length, poisoned (R287, R325). -/
def poisonRuns (s : State) (t off len : Nat) : List (Nat × Nat × Bool) :=
  (blocksOf off len).foldl (fun acc b =>
    let a := max off (64 * b)
    let n := min (off + len) (64 * b + 64) - a
    let bad := (tier s t).poison.contains b || deadGranule s t (b / 1024)
    match acc.getLast? with
    | some r => if r.2.2 = bad then acc.dropLast ++ [(r.1, r.2.1 + n, bad)] else acc ++ [(a - off, n, bad)]
    | none => [(a - off, n, bad)]) []

/-- Read an extent of a tier: its bytes and whether they are poisoned; each freed retired granule read is an error of class 2 (R287, R292, R325, R646). -/
def tierRead (t off len hint : Nat) (s : State) : (List Byte × Bool) × State :=
  let dead := (granulesOf off len).filter (deadGranule s t)
  let poison := !dead.isEmpty || (blocksOf off len).any (tier s t).poison.contains
  let s' := modTier t (fun x =>
    { x with bytesRead := satAdd 64 x.bytesRead len, retiredAccess := satAdd 32 x.retiredAccess dead.length }) s
  let bad := (blocksOf off len).filter (tier s t).poison.contains
  ((rdBytes s (tierBase t + off) len, poison), controllerTouch t off len hint false
    (onlyIf (!bad.isEmpty) (modStr fun x => { x with poisonReads := x.poisonReads ++ bad.map fun b => (t, b) })
      (dead.foldl (fun s _ => countError 2 s) s')))

/-- Cut an extent at the boundaries of 512-byte lines. -/
def linePieces (off len : Nat) : List (Nat × Nat) :=
  (List.range (ceilDiv (off + len) 512 - off / 512)).map fun i =>
    let a := max off (512 * (off / 512 + i))
    (a, min (off + len) (512 * (off / 512 + i) + 512) - a)

/-- Read an extent of a tier for a partition's stream engines or the gather engine: line by line through cache mode where a region it may hit holds bytes of it, where a miss reads the tier and asks for a fill (R211, R215, R217). -/
def cachedRead (p t off len hint : Nat) (s : State) : (List Byte × Bool) × State :=
  let a := tierBase t + off
  let here := s.sp.regions.any fun x => x.2.any fun g => bit g.partitions p && decide (a < g.base + g.length) && decide (g.base < a + len)
  if s.sp.cacheBanks = 0 || !here then tierRead t off len hint s else
  (linePieces off len).foldl (fun (acc : (List Byte × Bool) × State) x =>
    let addr := tierBase t + x.1
    let line := cacheLine acc.2 p addr
    let s := (cacheLookup p addr acc.2).2
    let r := match line with
      | some l => ((sliceBytes l.1 (addr % 512) x.2, l.2), s)
      | none => tierRead t x.1 x.2 hint s
    ((acc.1.1 ++ r.1.1, acc.1.2 || r.1.2), r.2)) (([], false), s)

/-- CACHE_FILL (R215): the tier read for a missed line returns; the least recently used way that is not retired takes it (R231), poisoned as its data are (R198). -/
def execCacheFill (region line : Nat) (s : State) : Host.Outcome State Fault Refusal :=
  .next (if !s.sp.fills.contains (region, line) then s else
    let m := s.sp.cacheBanks
    let h := cacheHome m line
    let key := h.1 * 65536 + h.2.1
    let s' := modSp (fun p => { p with fills := p.fills.filter (· != (region, line)) }) s
    match (lruOf s key).find? fun w => !(fld s h.1).retired.contains (cacheRow m line w), Tbl.get none s.sp.regions region with
    | some w, some x =>
      let r := cacheRow m line w
      if !powered s h.1 r then countDown h.1 s' else
      let tag := 2 ^ 55 + (region % 16) * 2 ^ 51 + (x.gen % 4096) * 2 ^ 39 + line % 2 ^ 39
      let poison := match place (512 * line) 512 with
        | .tier t off => (blocksOf off 512).any (tier s t).poison.contains || (granulesOf off 512).any (deadGranule s t)
        | _ => false
      touchWay key w (setTag h.1 r (mkTag poison false 0) (storeRow h.1 r (rdBytes s (512 * line) 512 ++ leBytes 8 tag) s'))
    | _, _ => s')

/-- Blocks whose code corrects a single bit as a command reads them: each is counted (R285). -/
def tierCorrected (bs : List (Nat × Nat)) (s : State) : State :=
  bs.foldl (fun s b => countError 1 (modTier (b.1 % 2) (fun x => { x with eccCorrected := satAdd 64 x.eccCorrected 1 }) s)) s

/-- What the codes find in what a command has read: rows, and extents by local address. -/
def readFinds (rows : List (Nat × Nat)) (xs : List (Nat × Nat)) (found : ReadIn) (s : State) : State :=
  eccIn rows found.ecc (tierCorrected (found.blocks.filter fun b => xs.any fun x => match place x.1 x.2 with
    | .tier t off => t == b.1 && (blocksOf off x.2).contains b.2
    | _ => false) s)

/-- Write an extent of a tier: nothing into freed retired granules; poisoned data store the poison code, and a whole clean block clears it (R287, R325). -/
def tierWrite (t off : Nat) (bs : List Byte) (poison : Bool) (hint : Nat) (s : State) : State :=
  let len := bs.length
  if len = 0 then s else
  let dead := (granulesOf off len).filter (deadGranule s t)
  let s := modTier t (fun x =>
    { x with bytesWritten := satAdd 64 x.bytesWritten len, retiredAccess := satAdd 32 x.retiredAccess dead.length }) s
  let s := controllerTouch t off len hint true s
  let live := bs.mapIdx (fun i b => (off + i, b)) |>.filter fun p => !dead.contains (p.1 / 65536)
  let s := { s with mem := live.foldl (fun m p => Tbl.set 0 m (tierBase t + p.1) p.2) s.mem }
  let blks := (blocksOf off len).filter fun b => !dead.contains (b / 1024)
  let whole := blks.filter fun b => decide (off ≤ 64 * b) && decide (64 * b + 64 ≤ off + len)
  let s := modTier t (fun x =>
    let kept := fun (bs : List Nat) => (if poison then bs ++ blks else bs.filter fun b => !whole.contains b).eraseDups
    { x with poison := kept x.poison, coded := kept x.coded }) s
  bumpRegions (tierBase t + off) len s

/-- Write both buffers back and empty them (R294). -/
def flushTier (t : Nat) (s : State) : State := modTier t (fun x => { x with wcb := [], hints := [], wcbFull := false }) s

/-! ### Error correction (R286, R288) -/

/-- The partitions of a mask. -/
def maskParts (m : Nat) : List Nat := (List.range 16).filter (bit m)

/-- An uncorrectable block is counted and recorded, delivered poisoned, and reported to its owners and both PFs. -/
def tierUncorrectable (t b : Nat) (s : State) : State :=
  let s := modTier t (fun x =>
    { x with eccUncorrected := satAdd 32 x.eccUncorrected 1, recValid := true,
             recChannel := if x.recValid then x.recChannel else channelOf (64 * b),
             recOffset := if x.recValid then x.recOffset else 64 * b,
             poison := if x.poison.contains b then x.poison else x.poison ++ [b] }) s
  raiseError 2 evTierPoison 0xFF ((maskParts (ownersOf s t (b / 1024))).map Recip.prims ++ [.pfs]) [] s

/-- TIER_PATROL (R288): a block visited, and written back when it needed correcting. -/
def execTierPatrol (t block : Nat) (corrected : Bool) (s : State) : Host.Outcome State Fault Refusal :=
  let t := t % 2
  .next (if !dieOn s || !(tier s t).trained || (tier s t).offline || decide (tierBytes t / 64 ≤ block) then s else
    let s := modTier t (fun x => { x with patrol := decide (block + 1 < tierBytes t / 64) }) s
    if corrected then countError 1 (modTier t (fun x => { x with eccCorrected := satAdd 64 x.eccCorrected 1 }) s) else s)

/-- WCB_LINE_WRITE (R291): a line fully covered or idle for 10 µs goes to the tier; a read saw its bytes already (R292). -/
def execWcbLineWrite (t line : Nat) (s : State) : Host.Outcome State Fault Refusal :=
  let t := t % 2
  .next (modTier t (fun x => { x with wcb := x.wcb.filter fun l => !(l.extent == line && decide (l.last + 10000 ≤ s.now)) }) s)

/-! ### Windows to host memory (R300, R301) -/

/-- The window of a port that covers an extent and whose function belongs to a partition (R300, R301). -/
def partWindow (s : State) (p a len : Nat) : Option T3Win :=
  (s.str.windows.filterMap Prod.snd).find? fun w =>
    decide (w.base ≤ a) && decide (a + len ≤ w.base + w.length) && funcPart s w.func == some p

/-- Write to host memory through a window for a partition; fenced while the window's function is disabled (R599). -/
def writeWindow (w : T3Win) (a : Nat) (bs : List Byte) (poison : Bool) (s : State) : State :=
  if enabled s w.func then emit (.hostWrite (w.func / 32) w.pasid (w.host + (a - w.base)) bs poison) (noteAts w.func (w.host + (a - w.base)) bs.length s)
  else match funcPart s w.func with
    | some p => modPart (fun ps => { ps with fenced := Tbl.inc 32 ps.fenced p }) s
    | none => s

/-- A read of host memory through a partition's window leaves its translations cached (R546). -/
def noteRead (p : Nat) (x : Nat × Nat) (s : State) : State :=
  match partWindow s p x.1 x.2 with
  | some w => noteAts w.func (w.host + (x.1 - w.base)) x.2 s
  | none => s

/-! ### Memory commands (R327) -/

/-- Retire a granule: its owners hear of it (R324); one in quarantine leaves it (R365). -/
def retireGranule (t g : Nat) (s : State) : State :=
  raiseTo evGranuleRetired 0xFF ((maskParts (ownersOf s t g)).map Recip.prims) []
    (modTier t (fun x => { x with retired := x.retired ++ [g], quarantine := x.quarantine.filter (· != g) }) s)

def memRetire (c : Cmd) (s : State) : State × Ans :=
  let n := pByte c 0
  let g := pNum c 4 4
  if n ≠ 1 ∧ n ≠ 2 then refuse stBadCommand s
  else if tierGranules (n - 1) ≤ g then refuse stBadCommand s
  else if (tier s (n - 1)).retired.contains g then done s
  else if 4096 ≤ (tier s (n - 1)).retired.length then refuse stNoResource (raiseTo evRetireTableFull 0xFF [.pfs] [] s)
  else done (retireGranule (n - 1) g s)

def memRetireSpec : CmdSpec := { op := 0x0602, allow := [(0, 0, 0xFF), (4, 7, 0xFF)], perm := byPf, body := memRetire }

/-- MEM_RETIRE (R323 to R326). -/
def execMemRetire (m : Mbx) (s : State) : Host.Outcome State Fault Refusal := .next (runCmd memRetireSpec m s)

/-- The retirement table in register form (R328). -/
def retireImage (s : State) (t : Nat) : List Byte :=
  padTo 32768 ((tier s t).retired.flatMap fun g => leBytes 8 (2 ^ 63 + g))

def memRetireRead (c : Cmd) (s : State) : State × Ans :=
  let n := pByte c 0
  if n ≠ 1 ∧ n ≠ 2 then refuse stBadCommand s else intoHost c (pNum c 8 8) 32768 (retireImage s (n - 1)) s

def memRetireReadSpec : CmdSpec :=
  { op := 0x0603, allow := [(0, 0, 0xFF), (8, 15, 0xFF)], perm := byAny, body := memRetireRead }

/-- MEM_RETIRE_READ (R327). -/
def execMemRetireRead (m : Mbx) (s : State) : Host.Outcome State Fault Refusal := .next (runCmd memRetireReadSpec m s)

def memT3Map (c : Cmd) (s : State) : State × Ans :=
  let port := pByte c 0
  let k := 256 * port + pByte c 1
  let f := pNum c 2 2
  let pasid := pNum c 4 4
  let base := pNum c 8 8
  let host := pNum c 16 8
  let len := pNum c 24 8
  if 1 < port ∨ 63 < f ∨ f / 32 ≠ port then refuse stBadCommand s
  else if base % 0x200000 ≠ 0 ∨ len % 0x200000 ≠ 0 ∨ len = 0 ∨ host % 0x1000 ≠ 0 ∨ place base len ≠ .host port then refuse stBadCommand s
  else if funcPart s f ≠ funcPart s c.m.func then refuse stNotPermitted s
  else if (Tbl.get none s.str.windows k).isSome then refuse stBusy s
  else if s.str.windows.any (fun p => decide (p.1 / 256 = port) && p.2.any fun w => meets base len w.base w.length) then refuse stBadCommand s
  else done (modStr (fun x => { x with windows := Tbl.set none x.windows k (some
    { func := f, pasid := if bit pasid 31 then some (pasid % 2 ^ 20) else none, base := base, host := host, length := len }) }) s)

def memT3MapSpec : CmdSpec :=
  { op := 0x0604, allow := [(0, 5, 0xFF), (6, 6, 0x0F), (7, 7, 0x80), (8, 31, 0xFF)], perm := byAny, body := memT3Map }

/-- MEM_T3_MAP (R300, R327). -/
def execMemT3Map (m : Mbx) (s : State) : Host.Outcome State Fault Refusal := .next (runCmd memT3MapSpec m s)

/-- A mode a controller is in before it may serve: any change flushes its buffers (R294, R295). -/
def setTierMode (t mode : Nat) (s : State) : State := modTier t (fun x => { x with mode := mode }) (flushTier t s)

/-- Both controllers are in service before stepping is enabled (R295). -/
def serviceTiers (s : State) : State :=
  [0, 1].foldl (fun s t => if (tier s t).mode = 0 then s else setTierMode t 0 s) s

def memMode (c : Cmd) (s : State) : State × Ans :=
  let mask := pByte c 0
  let mode := pByte c 1
  if mask % 4 = 0 ∨ 3 < mode then refuse stBadCommand s
  else if mode ≠ 0 ∧ stepping s then refuse stBusy s
  else done (onlyIf (bit mask 1) (setTierMode 1 mode) (onlyIf (bit mask 0) (setTierMode 0 mode) s))

def memModeSpec : CmdSpec := { op := 0x0606, allow := [(0, 0, 3), (1, 1, 0xFF)], perm := byPf, body := memMode }

/-- MEM_MODE (R295). -/
def execMemMode (m : Mbx) (s : State) : Host.Outcome State Fault Refusal := .next (runCmd memModeSpec m s)

/-- MEM_LOCK's test: the period in range, no member in another group (R298). -/
def lockOk (c : Cmd) (s : State) : Bool :=
  let g := pByte c 0
  let pns := pNum c 2 2
  let others := (List.range 8).filter (· ≠ g)
  decide (g < 8) && decide (1000 ≤ pns) && decide (pns ≤ 7800) && others.all fun h =>
    Tbl.get 0 s.t1.lock h &&& pNum c 8 8 == 0 && Tbl.get 0 s.t2.lock h &&& pNum c 16 8 == 0 &&
      (List.range 12).all fun n => !(bit (pNum c 24 2) n && (port s n).lock == some h)

/-- Apply a lock group (R298). -/
def applyLock (c : Cmd) (s : State) : State × Ans :=
  if !lockOk c s then refuse stBadCommand s else
  let g := pByte c 0
  let set := fun (m : Nat) (x : TierSt) => { x with lock := Tbl.set 0 x.lock g m, lockPeriod := Tbl.set 3900 x.lockPeriod g (pNum c 2 2) }
  let s := modTier 1 (set (pNum c 16 8)) (modTier 0 (set (pNum c 8 8)) s)
  done ((List.range 12).foldl (fun s n =>
    if bit (pNum c 24 2) n then modPort n (fun p => { p with lock := some g }) s
    else if (port s n).lock = some g then modPort n (fun p => { p with lock := none }) s else s) s)

/-- MEM_LOCK takes effect at the next boundary reserve (R327, R698). -/
def memLock (c : Cmd) (s : State) : State × Ans :=
  if !lockOk c s then refuse stBadCommand s else if stepping s then later s else applyLock c s

def memLockSpec : CmdSpec :=
  { op := 0x0607, allow := [(0, 0, 0xFF), (2, 3, 0xFF), (8, 24, 0xFF), (25, 25, 0x0F)], perm := byPf, body := memLock }

/-- MEM_LOCK (R298). -/
def execMemLock (m : Mbx) (s : State) : Host.Outcome State Fault Refusal := .next (runCmd memLockSpec m s)

end Sys2Proof.Machine
end

