-- ==== Sys2Proof/Machine/Sync.lean ====
section
/-! DEFINITION. The synchronisation unit: hitches, barriers, windows, bindings, and their commands (12_hitches_barriers_windows.md, R460 to R493, R695, R696). -/
namespace Sys2Proof.Machine

/-! ### Faults (R493) -/

/-- Record the first fault in HCH_FAULT. -/
def hchFault (kind part status chip object : Nat) (s : State) : State :=
  modHch (fun h =>
    if h.faultValid then h else
      { h with faultValid := true, faultKind := kind, faultPart := part, faultStatus := status, faultChip := chip, faultObject := object }) s

/-! ### Hitches (R460 to R466) -/

/-- The physical hitch of a virtual one (R460). -/
def hitchOf (part v : Nat) : Nat := 4096 * (part % 16) + v % 4096

def hitchVal (s : State) (h : Nat) : Nat := Tbl.get 0 s.hch.hitchVal h
def hitchTgt (s : State) (h : Nat) : Nat := Tbl.get 1 s.hch.hitchTgt h

/-- Write a hitch's value; the running segment records the value before its first change of a hitch of its partition (R472). -/
def setHitch (h v : Nat) (s : State) : State :=
  let old := hitchVal s h
  let s := modHch (fun x => { x with hitchVal := Tbl.set 0 x.hitchVal h v }) s
  modSeq (fun q =>
    { q with cur := q.cur.map fun c =>
        if c.part = h / 4096 ∧ Tbl.get 0 c.hitchEntry h = 0 then { c with hitchEntry := Tbl.set 0 c.hitchEntry h (old + 1) } else c }) s

def setTarget (h v : Nat) (s : State) : State := modHch (fun x => { x with hitchTgt := Tbl.set 1 x.hitchTgt h v }) s

/-- Increment a hitch; past 0xFFFF_FFFF it stays there, counted, recorded and reported (R464). -/
def incHitch (h n : Nat) (s : State) : State :=
  let v := hitchVal s h + n
  if v ≤ 0xFFFFFFFF then setHitch h v s else
    raiseError 5 evHitchOverflow (h / 4096) [.prims (h / 4096)] []
      (hchFault 1 (h / 4096) stOk 0 h (modHch (fun x => { x with overflows := satAdd 32 x.overflows 1 })
        (setHitch h 0xFFFFFFFF s)))

/-- A wait proceeds when the value has reached the target, which it consumes (R463). -/
def hitchReady (s : State) (h : Nat) : Bool := decide (hitchTgt s h ≤ hitchVal s h)
def takeHitch (h : Nat) (s : State) : State := setHitch h (hitchVal s h - hitchTgt s h) s

/-- A set by hand (R473). -/
def handSet (part v value : Nat) (target : Option Nat) (s : State) : State :=
  let h := hitchOf part v
  let s := setHitch h value s
  let s := match target with
    | some t => setTarget h t s
    | none => s
  raiseTo evHitchSetByHand part [.prims part, .pfs] [] (modHch (fun x => { x with manualSets := satAdd 32 x.manualSets 1 }) s)

/-- The life cycle permits a set by hand for a partition's hitches (R473). -/
def handPermitted (s : State) (part : Nat) : Bool := lcPermits s fun t => bit t.scope 0 && bit t.hitchParts part

/-! ### Barriers (R482 to R490, R695, R696) -/

def bar? (s : State) (b : Nat) : Option Barrier := Tbl.get none s.hch.bars b
def modBar (b : Nat) (g : Barrier → Barrier) (s : State) : State :=
  match bar? s b with
  | some x => modHch (fun h => { h with bars := Tbl.set none h.bars b (some (g x)) }) s
  | none => s

/-- Tell local waiters of their release: 0 is the instruction stream, 1 to 4 the fabric engines. -/
def releaseLocal (kinds : List Nat) (broken : Bool) (s : State) : State :=
  modHch (fun h => { h with released := h.released ++ kinds.map fun k => (k, broken) }) s

/-- A BAR_RELEASE packet (R503). -/
def releasePacket (s : State) (chip b gen : Nat) (broken : Bool) (epoch : Nat) : Packet :=
  mkPacket s 5 chip 0 0 (b % 1024 + gen % 65536 * 2 ^ 10 + b2n broken * 2 ^ 26 + epoch % 256 * 2 ^ 27) 0 0 []

/-- The chips, but this one, that take part in a home barrier. -/
def partChips (s : State) (x : Barrier) : List Nat := ((x.slots.map PSlot.chip).filter (· ≠ s.fab.chip)).eraseDups

/-- Send a home's release to every participant chip (R485, R489). -/
def sendReleases (b : Nat) (x : Barrier) (broken : Bool) (s : State) : State :=
  (partChips s x).foldl (fun s c => sendPacket (some x.partition) (releasePacket s c b x.gen broken x.epoch) s) s

/-- The local waiters that a release ends, and those that move up a round. -/
def firstRound (x : Barrier) : List Nat := (x.waiters.filter fun w => w.2 = 0).map Prod.fst
def laterRounds (x : Barrier) : List (Nat × Nat) := (x.waiters.filter fun w => w.2 ≠ 0).map fun w => (w.1, w.2 - 1)

/-- Release a home when every current bit is set (R485). -/
def tryRelease (b : Nat) (s : State) : State :=
  match bar? s b with
  | none => s
  | some x =>
    if x.proxy || x.slots.isEmpty || !x.slots.all PSlot.cur then s else
      let y : Barrier :=
        { x with gen := (x.gen + 1) % 65536, slots := x.slots.map (fun p => { p with cur := p.next, next := false }), waiters := laterRounds x }
      sendReleases b y false (releaseLocal (firstRound x) false (modBar b (fun _ => y) s))

/-- Break a barrier: every waiter of both rounds is released broken; a home tells the participant chips and reports it (R489). -/
def breakBarrier (b : Nat) (s : State) : State :=
  match bar? s b with
  | none => s
  | some x =>
    let y : Barrier := { x with broken := true, waiters := [], outstanding := 0 }
    let s := releaseLocal (x.waiters.map Prod.fst) true (modBar b (fun _ => y) s)
    if x.proxy then s else raiseError 5 evBarrierBroken x.partition [.prims x.partition] [] (sendReleases b y true s)

/-- The slot of a participant. -/
def slotIndex (x : Barrier) (kind chip : Nat) : Option Nat := x.slots.findIdx? fun p => p.kind == kind && p.chip == chip

/-- An entry at its home (R484, R486, R488): whether it overran; one of another epoch is dropped. -/
def homeEntry (b i epoch chip : Nat) (s : State) : Bool × State :=
  match bar? s b with
  | none => (false, s)
  | some x =>
    if epoch ≠ x.epoch then (false, modHch (fun h => { h with barStale := satAdd 32 h.barStale 1 }) s) else
    let p := x.slots.getD i { kind := 0, chip := 0, cur := false, next := false }
    if p.cur && p.next then
      (true, raiseError 5 evBarrierOverrun x.partition [.prims x.partition] []
        (hchFault 3 x.partition stBarrierOverrun chip b (modHch (fun h => { h with barOverruns := satAdd 32 h.barOverruns 1 }) s)))
    else
      (false, tryRelease b (modBar b (fun y =>
        { y with slots := y.slots.set i (if p.cur then { p with next := true } else { p with cur := true }) }) s))

/-- Count an entry refused under R490 and record it. -/
def badEntry (part status chip b : Nat) (s : State) : State :=
  hchFault 4 part status chip b (modHch (fun h => { h with badEntry := satAdd 32 h.badEntry 1 }) (countError 4 s))

/-- The BAR_ENTRY packet of a proxy (R503). -/
def entryPacket (s : State) (x : Barrier) (kind : Nat) : Packet :=
  mkPacket s 4 x.homeChip 0 0 (x.homeBar % 1024 + x.partIndex % 1024 * 2 ^ 10 + x.epoch % 256 * 2 ^ 20 + kind % 8 * 2 ^ 28) 0 0 []

/-- A local participant enters a barrier: `none` when its release is still to come, else the status that releases it at once (R483, R486, R489, R490). -/
def enterBarrier (part b kind : Nat) (wait : Bool) (s : State) : Option Nat × State :=
  match bar? s b with
  | none => (some stNotPermitted, badEntry part stNotPermitted s.fab.chip b s)
  | some x =>
    if x.partition ≠ part then (some stNotPermitted, badEntry part stNotPermitted s.fab.chip b s)
    else if x.proxy then
      if x.broken then (some stTimeout, s)
      else
        let s := sendPacket (some part) (entryPacket s x kind) s
        if 2 ≤ x.outstanding then (some stBarrierOverrun, s)
        else (none, modBar b (fun y =>
          { y with outstanding := y.outstanding + 1, waiters := if wait then y.waiters ++ [(kind, x.outstanding)] else y.waiters }) s)
    else match slotIndex x kind s.fab.chip with
      | none => (some stNotPermitted, badEntry part stNotPermitted s.fab.chip b s)
      | some i =>
        if x.broken then (some stTimeout, s) else
        let p := x.slots.getD i { kind := 0, chip := 0, cur := false, next := false }
        let s := if wait && !(p.cur && p.next) then modBar b (fun y => { y with waiters := y.waiters ++ [(kind, b2n p.cur)] }) s else s
        let r := homeEntry b i x.epoch s.fab.chip s
        (if r.1 then some stBarrierOverrun else none, r.2)

/-- A waiter's release has come: whether it is broken. -/
def releasedFor (s : State) (kind : Nat) : Option Bool := (s.hch.released.find? fun r => r.1 = kind).map Prod.snd
def takeRelease (kind : Nat) (s : State) : State :=
  modHch (fun h => { h with released := h.released.eraseP fun r => r.1 == kind }) s

/-- BAR_ENTRY_RECEIVED (R484, R488, R695). -/
def execBarEntryReceived (p : Packet) (s : State) : Host.Outcome State Fault Refusal :=
  .next (receive [4] p (fun s =>
    let w := Pk.field p.w1
    let b := w 0 10
    let i := w 10 10
    let epoch := w 20 8
    let kind := w 28 3
    let ok := match bar? s b with
      | none => false
      | some x => !x.proxy && (match x.slots[i]? with
        | some q => decide (q.chip = Pk.src p) && decide (q.kind = kind)
        | none => false)
    if ok then
      (if (bar? s b).any fun x => x.broken && x.epoch == epoch
        then sendPacket none (releasePacket s (Pk.src p) b 0 true epoch) s
        else (homeEntry b i epoch (Pk.src p) s).2)
    else sendPacket none (releasePacket s (Pk.src p) b 0 true epoch)
      (badEntry (((bar? s b).map Barrier.partition).getD 0) stNotPermitted (Pk.src p) b s)) s)

/-- BAR_RELEASE_RECEIVED (R696): the release reaches the proxy of that home and barrier. -/
def execBarReleaseReceived (p : Packet) (s : State) : Host.Outcome State Fault Refusal :=
  .next (receive [5] p (fun s =>
    let w := Pk.field p.w1
    let gen := w 10 16
    let broken := w 26 1 = 1
    let epoch := w 27 8
    match s.hch.bars.find? fun q => q.2.any fun x => x.proxy && x.homeChip == Pk.src p && x.homeBar == w 0 10 with
    | some (b, some x) =>
      if broken && decide (0 < x.outstanding) then
        releaseLocal (x.waiters.map Prod.fst) true (modBar b (fun y => { y with waiters := [], outstanding := 0, broken := true }) s)
      else if broken ∨ epoch ≠ x.epoch ∨ x.outstanding = 0 then modHch (fun h => { h with barStale := satAdd 32 h.barStale 1 }) s
      else releaseLocal (firstRound x) false
        (modBar b (fun y => { y with gen := gen, outstanding := y.outstanding - 1, waiters := laterRounds x }) s)
    | _ => modHch (fun h => { h with barStale := satAdd 32 h.barStale 1 }) s) s)

/-- A chip has departed (R521): its barriers break, its proxies' waiters go broken, bindings to it are stale. -/
def departChip (c : Nat) (s : State) : State :=
  let mine := s.hch.bars.filterMap fun q => q.2.map fun x => (q.1, x)
  let touched := mine.filter fun q => if q.2.proxy then q.2.homeChip == c else q.2.slots.any fun p => p.chip == c
  let parts := touched.map (fun q => q.2.partition) ++
    (s.hch.wins.filterMap Prod.snd).filterMap (fun w => if w.inUse && !w.fwOwned && !w.anySender && w.sender == c then some w.partition else none) ++
    (s.hch.outs.filterMap Prod.snd).filterMap (fun o => if o.chip = c ∧ !o.fwOwned then some o.partition else none)
  let s := modFab (fun f => { f with joined := Tbl.set none f.joined c none }) s
  let s := raiseError 6 evChipDeparted 0xFF ([Recip.pfs] ++ parts.eraseDups.map Recip.prims) [] s
  let s := touched.foldl (fun s q => if q.2.broken then s else breakBarrier q.1 s) s
  modHch (fun h => { h with outs := h.outs.map fun o => (o.1, o.2.map fun x => if x.chip = c then { x with stale := true } else x) }) s

/-- HEARTBEAT_TIMEOUT (R520, R521): no heartbeat for 50 ms. -/
def execHeartbeatTimeout (chip : Nat) (s : State) : Host.Outcome State Fault Refusal :=
  .next (if dieOn s && (Tbl.get none s.fab.joined chip).any (fun t => decide (t + 50000000 ≤ s.now)) then departChip chip s else s)

/-- LEAVE_RECEIVED (R520). -/
def execLeaveReceived (p : Packet) (s : State) : Host.Outcome State Fault Refusal :=
  .next (receive [8] p (fun s => if Pk.src p = s.fab.chip then s else departChip (Pk.src p) s) s)

/-! ### Hitch commands (R492) -/

/-- HITCH_CONFIG's effect. -/
def applyHitchConfig (c : Cmd) (s : State) : State × Ans :=
  done ((List.range (pNum c 2 2)).foldl (fun s i =>
    let h := hitchOf (cmdPart c) (pNum c 0 2 + i)
    setTarget h (pNum c 8 4) (setHitch h (pNum c 4 4) s)) s)

def hitchConfig (c : Cmd) (s : State) : State × Ans :=
  if 4096 < pNum c 0 2 + pNum c 2 2 then refuse stBadCommand s
  else if stepping s then later s else applyHitchConfig c s

def hitchConfigSpec : CmdSpec := { op := 0x0801, allow := [(0, 11, 0xFF)], perm := byAny, body := hitchConfig }

/-- HITCH_CONFIG (R492, R698). -/
def execHitchConfig (m : Mbx) (s : State) : Host.Outcome State Fault Refusal := .next (runCmd hitchConfigSpec m s)

def hitchRead (c : Cmd) (s : State) : State × Ans :=
  let n := pNum c 2 2
  if 4096 < pNum c 0 2 + n then refuse stBadCommand s
  else intoHost c (pNum c 8 8) (8 * n) ((List.range n).flatMap fun i =>
    let h := hitchOf (cmdPart c) (pNum c 0 2 + i)
    leBytes 4 (hitchVal s h) ++ leBytes 4 (hitchTgt s h)) s

def hitchReadSpec : CmdSpec := { op := 0x0802, allow := [(0, 3, 0xFF), (8, 15, 0xFF)], perm := byAny, body := hitchRead }

/-- HITCH_READ (R492). -/
def execHitchRead (m : Mbx) (s : State) : Host.Outcome State Fault Refusal := .next (runCmd hitchReadSpec m s)

/-- A command may name another partition only from a PF (R492). -/
def mayName (c : Cmd) (p : Nat) : Bool := c.part == some p || c.m.func % 32 == 0

def hitchSet (c : Cmd) (s : State) : State × Ans :=
  let p := pByte c 0
  let v := pNum c 2 2
  if 15 < p ∨ 4095 < v then refuse stBadCommand s
  else if !mayName c p || !handPermitted s p then refuse stNotPermitted s
  else done (handSet p v (pNum c 4 4) (if pBit c 1 0 then some (pNum c 8 4) else none) s)

def hitchSetSpec : CmdSpec := { op := 0x0803, allow := [(0, 0, 0xFF), (1, 1, 1), (2, 11, 0xFF)], perm := byAny, body := hitchSet }

/-- HITCH_SET (R473). -/
def execHitchSet (m : Mbx) (s : State) : Host.Outcome State Fault Refusal := .next (runCmd hitchSetSpec m s)

/-! ### Windows and bindings (R475 to R481, R492) -/

/-- A window after reset: closed, at generation 0. -/
def Win.reset : Win :=
  { opened := false, fwOwned := false, partition := 0, anySender := false, sender := 0, gen := 0, length := 0, base := 0,
    inUse := false, closedAt := none, dropped := 0, arrivals := 0 }

def win (s : State) (w : Nat) : Win := Tbl.opt Win.reset s.hch.wins w
def modWin (w : Nat) (g : Win → Win) (s : State) : State :=
  modHch (fun h => { h with wins := Tbl.set none h.wins w (some (g (win s w))) }) s

/-- Abandon an incomplete inbound transfer: its rows awaited are cleared of await, the first is recorded, its window's owner hears of it (R469). -/
def abandonInbound (i : Inbound) (s : State) : State :=
  let w := win s i.window
  let s := modHch (fun h => { h with inbound := h.inbound.filter fun x => !(x.chip == i.chip && x.tag == i.tag), abandoned := satAdd 32 h.abandoned 1 }) s
  let s := i.awaiting.foldl (fun s k => modSp (fun p =>
    { p with tags := Tbl.set 0 p.tags k (Tbl.get 0 p.tags k / 16 * 16) }) s) s
  raiseError 5 evTransferAbandoned (if w.fwOwned then 0xFF else w.partition) [.prims w.partition] []
    (hchFault 5 w.partition stTimeout i.chip i.window s)

/-- Close an open window: its generation advances and its transfers are abandoned (R478). -/
def closeWindow (w : Nat) (s : State) : State :=
  if !(win s w).opened then s else
    let s := modWin w (fun x => { x with opened := false, gen := (x.gen + 1) % 65536, closedAt := some s.now }) s
    (s.hch.inbound.filter fun i => i.window = w).foldl (fun s i => abandonInbound i s) s

/-- A window's range lies in the scratchpad window or in tier bytes that the partition may write (R350, R475, R587). -/
def windowRange (s : State) (p base len : Nat) : Option Nat :=
  if base % 1024 ≠ 0 ∨ len % 1024 ≠ 0 ∨ len = 0 then some stBadCommand
  else match place base len with
    | .row _ _ => none
    | .tier t off => if ownsWritable s p t off len then none else some stNotPermitted
    | _ => some stBadCommand

/-- The lowest window that serves partitions and is unused. -/
def freeWindow (s : State) : Option Nat := (List.range 240).find? fun w => !(win s w).inUse

/-- A WIN_OPEN names a window that was closed less than 20 µs ago, so firmware does not open it yet (R478). -/
def winSoon (m : Mbx) (s : State) : Bool :=
  let c := newCmd s 0x0810 m
  (if pBit c 1 0 then freeWindow s else some (pByte c 0)).any fun w =>
    !(win s w).opened && (win s w).closedAt.any fun t => decide (s.now < t + 20000)

def winOpen (c : Cmd) (s : State) : State × Ans :=
  let p := cmdPart c
  match (if pBit c 1 0 then freeWindow s else some (pByte c 0)) with
  | none => refuse stNoResource s
  | some w =>
    let x := win s w
    if 240 ≤ w ∨ (x.inUse ∧ x.partition ≠ p) then refuse stNotPermitted s
    else if x.opened then refuse stBusy s
    else match windowRange s p (pNum c 8 8) (pNum c 16 8) with
      | some st => refuse st s
      | none =>
        let s := modWin w (fun x =>
          { x with opened := true, inUse := true, partition := p, anySender := pBit c 3 7, sender := pNum c 2 2 % 4096, base := pNum c 8 8, length := pNum c 16 8 }) s
        doneWith ([BitVec.ofNat 8 w, 0] ++ leBytes 2 (win s w).gen) s

def winOpenSpec : CmdSpec :=
  { op := 0x0810, allow := [(0, 0, 0xFF), (1, 1, 1), (2, 2, 0xFF), (3, 3, 0x8F), (8, 23, 0xFF)], perm := byAny, body := winOpen }

/-- WIN_OPEN (R475, R478): not started before the window may be opened again. -/
def execWinOpen (m : Mbx) (s : State) : Host.Outcome State Fault Refusal := .next (if winSoon m s then s else runCmd winOpenSpec m s)

def winClose (c : Cmd) (s : State) : State × Ans :=
  let w := pByte c 0
  if 240 ≤ w ∨ !(win s w).inUse ∨ (win s w).partition ≠ cmdPart c then refuse stNotPermitted s
  else
    let s := closeWindow w s
    let s := if pBit c 1 0 then modWin w (fun x => { x with inUse := false }) s else s
    doneWith ([0, 0] ++ leBytes 2 (win s w).gen) s

def winCloseSpec : CmdSpec := { op := 0x0811, allow := [(0, 0, 0xFF), (1, 1, 1)], perm := byAny, body := winClose }

/-- WIN_CLOSE (R478). -/
def execWinClose (m : Mbx) (s : State) : Host.Outcome State Fault Refusal := .next (runCmd winCloseSpec m s)

def winBind (c : Cmd) (s : State) : State × Ans :=
  let p := cmdPart c
  match (if pBit c 1 0 then Tbl.free s.hch.outs 256 else some (pByte c 0)) with
  | none => refuse stNoResource s
  | some o =>
    if 4095 < pNum c 2 2 then refuse stBadCommand s
    else if (Tbl.get none s.hch.outs o).any (fun x => x.fwOwned || x.partition != p) then refuse stNotPermitted s
    else doneWith [BitVec.ofNat 8 o] (modHch (fun h => { h with outs := Tbl.set none h.outs o (some
      { stale := false, chip := pNum c 2 2, window := pByte c 4, gen := pNum c 6 2, partition := p, fwOwned := false }) }) s)

def winBindSpec : CmdSpec :=
  { op := 0x0812, allow := [(0, 0, 0xFF), (1, 1, 1), (2, 4, 0xFF), (6, 7, 0xFF)], perm := byAny, body := winBind }

/-- WIN_BIND (R481). -/
def execWinBind (m : Mbx) (s : State) : Host.Outcome State Fault Refusal := .next (runCmd winBindSpec m s)

/-! ### Barrier commands (R482, R489, R492) -/

/-- The first of `n` free participant slots in a row. -/
def freeSlots (s : State) (n : Nat) : Option Nat :=
  let used := s.hch.bars.filterMap fun q => q.2.bind fun x => if x.proxy then none else some (x.slotBase, x.slots.length)
  (0 :: used.map fun u => u.1 + u.2).find? fun b => decide (b + n ≤ 65536) && used.all fun u => !meets b n u.1 u.2

/-- A participant list entry is well formed: valid, a known kind, no reserved bit (R493). -/
def pslotOk (x : Nat) : Bool := bit x 31 && decide (bits x 28 3 ≤ 4) && bits x 12 16 == 0

def pslotOf (x : Nat) : PSlot := { kind := bits x 28 3, chip := bits x 0 12, cur := false, next := false }

/-- Some participant waits at a barrier. -/
def barBusy (x : Barrier) : Bool := !x.waiters.isEmpty || x.slots.any PSlot.cur || x.outstanding != 0

/-- Put a configured barrier in place; its epoch stays with its number (R488, R491). -/
def placeBar (b : Nat) (x : Barrier) (s : State) : State :=
  modHch (fun h => { h with bars := Tbl.set none h.bars b (some { x with epoch := Tbl.get 0 h.barEpoch b }) }) s

def barConfig (c : Cmd) (s : State) : State × Ans :=
  let p := cmdPart c
  let n := pNum c 4 2
  match (if pBit c 2 0 then Tbl.free s.hch.bars 1024 else some (pNum c 0 2)) with
  | none => refuse stNoResource s
  | some b =>
    if 1023 < b then refuse stBadCommand s
    else if (bar? s b).any (fun x => x.partition != p) then refuse stNotPermitted s
    else if (bar? s b).any (fun x => barBusy x && !x.broken) then refuse stBusy s
    else if pBit c 2 1 then
      if 4095 < pNum c 6 2 ∨ 1023 < pNum c 8 2 ∨ 1023 < pNum c 10 2 then refuse stBadCommand s
      else done (placeBar b
        { proxy := true, homeChip := pNum c 6 2, homeBar := pNum c 8 2, partIndex := pNum c 10 2, broken := false, partition := p,
          slots := [], slotBase := 0, epoch := 0, gen := 0, waiters := [], outstanding := 0 } s)
    else if n = 0 ∨ 1024 < n then refuse stBadCommand s
    else withHost c (pNum c 16 8) (4 * n) s fun bs =>
      let xs := (List.range n).map fun i => leAt bs (4 * i) 4
      if !xs.all pslotOk then refuse stBadCommand s else
      match freeSlots (modHch (fun h => { h with bars := Tbl.set none h.bars b none }) s) n with
      | none => refuse stNoResource s
      | some base => done (placeBar b
        { proxy := false, homeChip := 0, homeBar := 0, partIndex := 0, broken := false, partition := p,
          slots := xs.map pslotOf, slotBase := base, epoch := 0, gen := 0, waiters := [], outstanding := 0 } s)

def barConfigSpec : CmdSpec :=
  { op := 0x0820, allow := [(0, 1, 0xFF), (2, 2, 3), (4, 11, 0xFF), (16, 23, 0xFF)], perm := byAny, body := barConfig }

/-- BAR_CONFIG (R482). -/
def execBarConfig (m : Mbx) (s : State) : Host.Outcome State Fault Refusal := .next (runCmd barConfigSpec m s)

def barFree (c : Cmd) (s : State) : State × Ans :=
  let b := pNum c 0 2
  match bar? s b with
  | none => if 1023 < b then refuse stBadCommand s else done s
  | some x =>
    if x.partition ≠ cmdPart c then refuse stNotPermitted s
    else if barBusy x && !x.broken then refuse stBusy s
    else done (modHch (fun h => { h with bars := Tbl.set none h.bars b none }) s)

def barFreeSpec : CmdSpec := { op := 0x0821, allow := [(0, 1, 0xFF)], perm := byAny, body := barFree }

/-- BAR_FREE (R492). -/
def execBarFree (m : Mbx) (s : State) : Host.Outcome State Fault Refusal := .next (runCmd barFreeSpec m s)

def barForce (c : Cmd) (s : State) : State × Ans :=
  match bar? s (pNum c 0 2) with
  | none => refuse stBadCommand s
  | some x =>
    if !mayName c x.partition || !handPermitted s x.partition then refuse stNotPermitted s
    else done (breakBarrier (pNum c 0 2) s)

def barForceSpec : CmdSpec := { op := 0x0822, allow := [(0, 1, 0xFF)], perm := byAny, body := barForce }

/-- BAR_FORCE (R489, R492). -/
def execBarForce (m : Mbx) (s : State) : Host.Outcome State Fault Refusal := .next (runCmd barForceSpec m s)

/-- A partition reset's effect on its synchronisation objects (R491). -/
def resetSync (p : Nat) (s : State) : State :=
  let s := modHch (fun h =>
    { h with hitchVal := h.hitchVal.filter (fun x => x.1 / 4096 ≠ p), hitchTgt := h.hitchTgt.filter (fun x => x.1 / 4096 ≠ p) }) s
  let s := modSeq (fun q => { q with cur := q.cur.map fun c => if c.part = p then { c with hitchEntry := [] } else c }) s
  let s := (List.range 240).foldl (fun s w => if (win s w).inUse && (win s w).partition == p
    then closeWindow w s else s) s
  let s := modHch (fun h => { h with outs := h.outs.filter fun o => !o.2.any fun x => x.partition == p && !x.fwOwned }) s
  let homes := s.hch.bars.filterMap fun q => q.2.bind fun x => if x.partition = p then some (q.1, x.proxy) else none
  homes.foldl (fun s q =>
    if q.2 then modHch (fun h => { h with bars := Tbl.set none h.bars q.1 none }) s
    else
      let s := breakBarrier q.1 s
      let s := modHch (fun h => { h with barEpoch := Tbl.set 0 h.barEpoch q.1 ((Tbl.get 0 h.barEpoch q.1 + 1) % 256) }) s
      modBar q.1 (fun x => { x with epoch := (x.epoch + 1) % 256, slots := x.slots.map fun y => { y with cur := false, next := false } }) s) s

end Sys2Proof.Machine
end

