-- ==== Sys2Proof/Machine/Remote.lean ====
section
/-! DEFINITION. Remote transfers: the packets a sender splits a transfer into, and what a receiver and a sender do with packets, acknowledgements and time limits (R467 to R469, R476 to R481, R505 to R508). -/
namespace Sys2Proof.Machine

def engine (s : State) (e : Nat) : Engine := Tbl.get .reset s.str.engines e
def modEngine (e : Nat) (g : Engine → Engine) (s : State) : State :=
  modStr (fun x => { x with engines := Tbl.set .reset x.engines e (g (engine s e)) }) s
/-- Change the chain an engine runs. -/
def modRun (e : Nat) (g : ChainRun → ChainRun) (s : State) : State :=
  modEngine e (fun x => { x with cur := x.cur.map g }) s

def fabEng (s : State) (e : Nat) : FabEng := Tbl.opt .reset s.fab.engines e
def modFabEng (e : Nat) (g : FabEng → FabEng) (s : State) : State :=
  modFab (fun f => { f with engines := Tbl.set none f.engines e (some (g (fabEng s e))) }) s
/-- Change the knot an engine runs. -/
def modKnot (e : Nat) (g : KnotRun → KnotRun) (s : State) : State :=
  modFabEng e (fun x => { x with cur := x.cur.map g }) s

/-! ### Sending (R502, R505, R507, R508) -/

/-- A tag unique among this chip's incomplete transfers; tag 0 stays unused, as answers to control packets carry it (log entry 21). -/
def freshTag (s : State) : Nat :=
  let used := s.fab.outbound.map Outbound.tag
  ((List.range 65535).map fun i => (s.fab.nextTag + i) % 65535 + 1).find? (fun t => !used.contains t) |>.getD 1

/-- A tag is free; with none the sender waits (R542). -/
def tagFree (s : State) : Bool := decide (s.fab.outbound.length < 65535)

/-- Split bytes at a tier address into runs of at most 1,024 that cross no 1,024-byte boundary (R505). -/
def splitRuns : Nat → Nat → List Byte → List (Nat × List Byte)
  | 0, _, _ => []
  | n + 1, a, bs =>
    if bs.isEmpty then [] else
      let k := 1024 - a % 1024
      (a, bs.take k) :: splitRuns n (a + k) (bs.drop k)

/-- The payloads of a transfer: a scratchpad row whole, tier bytes in runs. -/
def payloads (pieces : List (Nat × List Byte × Bool)) : List (Nat × List Byte × Bool) :=
  pieces.flatMap fun x =>
    if x.1 % 2 ^ 48 < 0x20000000 then [(x.1, padTo 640 x.2.1, x.2.2)]
    else (splitRuns (x.2.1.length / 1024 + 2) x.1 x.2.1).map fun r => (r.1, r.2, x.2.2)

/-- The WRITE packets of a transfer; the last carries the count, the increment and the hitch. -/
def writePackets (s : State) (o : OutBind) (tag inc hitch : Nat) (ps : List (Nat × List Byte × Bool)) : List Packet :=
  ps.mapIdx fun i x =>
    let last := decide (i + 1 = ps.length)
    mkPacket s 1 o.chip (tag * 65536 + o.gen % 65536 + b2n x.2.2 * 2 ^ 33 + b2n last * 2 ^ 32) o.window x.1 0
      (if last then ps.length % 2 ^ 32 * 2 ^ 32 + inc % 65536 * 65536 + hitch % 4096 else 0) x.2.1

/-- Why a partition cannot send through a binding to a chip (R481, R511). -/
def bindFault (s : State) (part b chip : Nat) : Option Nat :=
  match Tbl.get none s.hch.outs b with
  | none => some stNotPermitted
  | some o =>
    if o.fwOwned || o.partition != part || o.chip != chip then some stNotPermitted
    else if o.stale then some stWindowClosed
    else if !s.fab.assigned then some stNoResource
    else none

/-- Send a transfer through a binding: its tag, or none where the binding is gone. `engine` 32 stands for none that waits. -/
def sendTransfer (knot : Bool) (engine part b inc hitch : Nat) (pieces : List (Nat × List Byte × Bool)) (s : State) : Nat × State :=
  match Tbl.get none s.hch.outs b with
  | none => (0, s)
  | some o =>
    let tag := freshTag s
    let ps := writePackets s o tag inc hitch (payloads pieces)
    let s := modFab (fun f =>
      { f with nextTag := tag, outbound := f.outbound ++
          [{ tag := tag, knot := knot, engine := engine, packets := ps, lastAt := s.now, resend := [], binding := b, part := some part }] }) s
    (tag, ps.foldl (fun s p => sendPacket (some part) p s) s)

/-- A transfer of this chip is over: whoever waits for it hears its status, `none` for OK. -/
def endTransfer (o : Outbound) (st : Option Nat) (s : State) : State :=
  let s := modFab (fun f => { f with outbound := f.outbound.filter fun x => x.tag != o.tag }) s
  if o.knot then
    modKnot o.engine (fun k => if k.tags.contains o.tag then
      { k with tags := k.tags.filter (· != o.tag), failed := if k.failed.isSome then k.failed else st } else k) s
  else modRun o.engine (fun r => if r.awaiting.contains o.tag then
      { r with awaiting := r.awaiting.filter (· != o.tag), failed := if r.failed.isSome then r.failed else st } else r) s

/-- The transfer an answer names, this chip being its addressee. -/
def outboundOf (s : State) (p : Packet) : Option Outbound :=
  if Pk.dst p = s.fab.chip then s.fab.outbound.find? fun o => o.tag = Pk.tag p else none

/-- DONE_RECEIVED (R508). -/
def execDoneReceived (p : Packet) (s : State) : Host.Outcome State Fault Refusal :=
  .next (receive [2] p (fun s => match outboundOf s p with
    | some o => endTransfer o none s
    | none => s) s)

/-- NAK_RECEIVED (R481, R508): BUSY sends the packet again later; another status fails the descriptor, and a closed window makes its binding stale. -/
def execNakReceived (p : Packet) (s : State) : Host.Outcome State Fault Refusal :=
  .next (receive [3] p (fun s => match outboundOf s p with
    | none => s
    | some o =>
      let st := bits (Pk.arg p) 0 8
      if st = stBusy then
        match o.packets.find? fun q => Pk.addr q = Pk.addr p with
        | some q => modFab (fun f => { f with outbound := f.outbound.map fun x =>
            if x.tag = o.tag then { x with resend := x.resend ++ [(q, s.now)] } else x }) s
        | none => s
      else
        let s := if st = stWindowClosed then modHch (fun h =>
            { h with outs := h.outs.map fun b => if b.1 = o.binding then (b.1, b.2.map fun x => { x with stale := true }) else b }) s
          else s
        endTransfer o (some st) s) s)

/-- BUSY_RESEND (R468, R508): a refused packet goes again after 2 µs. -/
def execBusyResend (tag : Nat) (s : State) : Host.Outcome State Fault Refusal :=
  .next (match s.fab.outbound.find? fun o => o.tag = tag with
    | none => s
    | some o => match o.resend with
      | (p, t) :: rest =>
        if dieOn s && decide (t + 2000 ≤ s.now) then
          sendPacket o.part (reborn s p) (modFab (fun f => { f with outbound := f.outbound.map fun x =>
            if x.tag = tag then { x with resend := rest, lastAt := s.now } else x }) s)
        else s
      | [] => s)

/-- SENDER_TIMEOUT (R508): no DONE 200 ms after the last packet left. -/
def execSenderTimeout (tag : Nat) (s : State) : Host.Outcome State Fault Refusal :=
  .next (match s.fab.outbound.find? fun o => o.tag = tag with
    | none => s
    | some o => if dieOn s && o.resend.isEmpty && decide (o.lastAt + 200000000 ≤ s.now) then endTransfer o (some stTimeout) s else s)

/-! ### Receiving (R467 to R469, R476 to R480, R506, R507) -/

/-- Why a window refuses a packet (R476), or the packet its form (R506). -/
def windowRefusal (x : Win) (p : Packet) : Option Nat :=
  let a := Pk.addr p
  if !x.opened || x.gen != Pk.gen p then some stWindowClosed
  else if !(x.anySender || x.sender == Pk.src p) then some stNotPermitted
  else if !(decide (x.base ≤ a) && decide (a + p.payload.length ≤ x.base + x.length)) then some stNotPermitted
  else if decide (a < 0x20000000) && !(a % 1024 == 0 && p.payload.length == 640) then some stBadCommand
  else none

def inboundOf (s : State) (chip tag : Nat) : Option Inbound := s.hch.inbound.find? fun i => i.chip = chip ∧ i.tag = tag
def modInbound (chip tag : Nat) (g : Inbound → Inbound) (s : State) : State :=
  modHch (fun h => { h with inbound := h.inbound.map fun i => if i.chip = chip ∧ i.tag = tag then g i else i }) s

/-- Drop a packet: counted at its window, recorded, its sender told; its transfer, if tracked, never completes (R476, R477). One whose form is wrong (R506) is no window's drop. -/
def dropPacket (w : Nat) (p : Packet) (st : Nat) (s : State) : State :=
  let s := modInbound (Pk.src p) (Pk.tag p) (fun i => { i with dropped := true }) s
  if st = stBadCommand then sendNak p st (badPacket (countError 4 s)) else
  sendNak p st (hchFault 2 (win s w).partition st (Pk.src p) w
    (modWin w (fun x => { x with dropped := satAdd 32 x.dropped 1 }) (countError 4 s)))

/-- A partition runs its segment's program now (R224). -/
def partRunning (s : State) (p : Nat) : Bool := s.seq.cur.any fun c => c.part == p

/-- A write by a partition into a transient row waits for that partition's program (R224). -/
def transientWaits (s : State) (part : Option Nat) (f r : Nat) : Bool :=
  part.any fun p => transient s f r && !partRunning s p

/-- A write by a partition, or by firmware, waits for that partition's program, or for a bank that leaves cache mode (R211, R224). -/
def rowWaits (s : State) (part : Option Nat) (f r : Nat) : Bool := inCacheBank s r || transientWaits s part f r

/-- The fabric writes an accepted packet's payload for the window's owner (R479, R507). -/
def applyWrite (x : Win) (p : Packet) (s : State) : State :=
  match place (Pk.addr p) (max 1 p.payload.length) with
  | .row f r =>
    if inCacheBank s r then s else
    if x.fwOwned then setTag f r (mkTag (Pk.poison p) true 0) (storeRow f r p.payload s)
    else putRow false x.partition f r p.payload (Pk.poison p) true s
  | .tier t off => tierWrite t off p.payload (Pk.poison p) 0 s
  | _ => s

/-- The tag key of the row a packet writes that must wait, if it must. -/
def waitingKey (s : State) (x : Win) (p : Packet) : Option Nat :=
  match place (Pk.addr p) (max 1 p.payload.length) with
  | .row f r => if rowWaits s (if x.fwOwned then none else some x.partition) f r then some (f * 32768 + r) else none
  | _ => none

/-- An accepted packet: one that writes a transient row of a partition that is not running waits, the row marked with FABRIC_LATE, and comes again; otherwise it is written and counted. -/
def acceptPacket (x : Win) (p : Packet) (s : State) : State :=
  let src := Pk.src p
  match waitingKey s x p with
  | some k =>
    modInbound src (Pk.tag p) (fun i => if i.awaiting.contains k then i else { i with awaiting := i.awaiting ++ [k], lastAt := s.now })
      (countBlocked (k / 32768) (modSp (fun q => { q with tags := Tbl.set 0 q.tags k (Tbl.get 0 q.tags k / 16 * 16 + 4) }) s))
  | none =>
    let key := match place (Pk.addr p) (max 1 p.payload.length) with
      | .row f r => [f * 32768 + r]
      | _ => []
    modInbound src (Pk.tag p) (fun i =>
      { i with accepted := i.accepted + 1, lastAt := s.now, awaiting := i.awaiting.filter fun k => !key.contains k
               total := if Pk.last p then some (Pk.count p) else i.total
               increment := if Pk.last p then Pk.increment p else i.increment
               hitch := if Pk.last p then Pk.hitch p else i.hitch }) (applyWrite x p (onlyIf (Pk.poison p) (countError 2) s))

/-- WRITE_PACKET_RECEIVED (R468, R476, R506): from a port, or from this chip itself (port 12). -/
def execWritePacketReceived (n : Nat) (p : Packet) (s : State) : Host.Outcome State Fault Refusal :=
  .next (if decide (n < 12) && !portUp s n then s else
    receive [1] p (fun s =>
      if Pk.dst p ≠ s.fab.chip then s else
      let w := Pk.window p
      let x := win s w
      match windowRefusal x p with
      | some st => dropPacket w p st s
      | none =>
        match inboundOf s (Pk.src p) (Pk.tag p) with
        | some _ => acceptPacket x p s
        | none =>
          if 4096 ≤ s.hch.inbound.length then
            sendNak p stBusy (modHch (fun h => { h with trackFull := satAdd 32 h.trackFull 1 }) s)
          else acceptPacket x p (modHch (fun h => { h with inbound := h.inbound ++
            [{ chip := Pk.src p, tag := Pk.tag p, window := w, gen := Pk.gen p, accepted := 0, total := none, increment := 0, hitch := 0,
               dropped := false, lastAt := s.now, awaiting := [] }] }) s)) (gotPacket n s))

/-- DONE to the sender of a transfer (R503). -/
def doneOf (s : State) (i : Inbound) : Packet := mkPacket s 2 i.chip (i.tag * 65536) 0 0 stOk 0 []

/-- REMOTE_TRANSFER_COMPLETE (R467, R477, R480): every packet is in and visible, none was dropped; the increment is applied and the sender hears DONE. -/
def execRemoteTransferComplete (chip tag : Nat) (s : State) : Host.Outcome State Fault Refusal :=
  .next (match inboundOf s chip tag with
    | none => s
    | some i =>
      if i.dropped ∨ i.total ≠ some i.accepted ∨ !i.awaiting.isEmpty then s else
      let x := win s i.window
      let s := modHch (fun h => { h with inbound := h.inbound.filter fun y => !(y.chip == chip && y.tag == tag) }) s
      let s := if i.increment = 0 then s
        else if x.fwOwned then modWin i.window (fun y => { y with arrivals := satAdd 32 y.arrivals i.increment }) s
        else incHitch (hitchOf x.partition i.hitch) i.increment (modHch (fun h => { h with remoteIncs := satAdd 64 h.remoteIncs 1 }) s)
      sendPacket none (doneOf s i) s)

/-- TRANSFER_ABANDON (R469): no packet for 100 ms. -/
def execTransferAbandon (chip tag : Nat) (s : State) : Host.Outcome State Fault Refusal :=
  .next (match inboundOf s chip tag with
    | none => s
    | some i => if dieOn s && decide (i.lastAt + 100000000 ≤ s.now) then abandonInbound i s else s)

end Sys2Proof.Machine
end

