-- ==== Sys2Proof/Machine/Num.lean ====
section
/-! DEFINITION. The number formats and their conversions (02_number_formats.md), exact over integers and powers of two. -/
namespace Sys2Proof.Machine

/-! ### Powers of two and rounding -/

/-- A number `m · 2^k`, rounded to an integer to nearest with ties to even. -/
def rneNat (m : Nat) (k : Int) : Nat :=
  if 0 ≤ k then m * 2 ^ k.toNat else
    let n := (-k).toNat
    let q := m / 2 ^ n
    let r := 2 * (m % 2 ^ n)
    if r < 2 ^ n then q else if 2 ^ n < r then q + 1 else q + q % 2

/-- The same for a signed number, symmetric about zero. -/
def rneInt (m : Int) (k : Int) : Int := if m < 0 then -(rneNat m.natAbs k : Int) else (rneNat m.natAbs k : Int)

/-- `m · 2^e ≤ m' · 2^e'`. -/
def dyLe (m : Int) (e : Int) (m' : Int) (e' : Int) : Bool :=
  let b := min e e'
  decide (m * (2 ^ (e - b).toNat : Nat) ≤ m' * (2 ^ (e' - b).toNat : Nat))

/-- Clamp to a range. -/
def clampInt (lo hi x : Int) : Int := max lo (min hi x)

/-! ### Values (R52, R65 to R67) -/

/-- A number as a unit sees it: not a number, an infinity by sign, or `m · 2^e`. -/
inductive Val where
  | nan
  | inf (neg : Bool)
  | fin (m e : Int)
  deriving DecidableEq, Repr

/-- The value of a binary32 code, subnormals flushed (R65). -/
def f32Val (x : Nat) : Val :=
  let e := bits x 23 8
  let m := bits x 0 23
  let sg : Int := if bit x 31 then -1 else 1
  if e = 255 then (if m = 0 then .inf (bit x 31) else .nan)
  else if e = 0 then .fin 0 0
  else .fin (sg * (m + 2 ^ 23 : Nat)) ((e : Int) - 150)

/-- A quiet NaN; its sign and payload are free (log entry 14). -/
def f32Nan (a b : Nat) : Nat :=
  let n := Config.nanBits a b
  (n % 2) * 2 ^ 31 + 0x7FC00000 + (n / 2) % 2 ^ 22

/-- A binary32 infinity. -/
def f32Inf (neg : Bool) : Nat := b2n neg * 2 ^ 31 + 0x7F800000

/-- `± m · 2^e` rounded to binary32: nearest even, overflow to infinity, subnormal results to zero with their sign (R65; log entry 14). -/
def f32Round (neg : Bool) (m : Nat) (e : Int) : Nat :=
  let sg := b2n neg * 2 ^ 31
  if m = 0 then sg else
    let l : Int := Nat.log2 m
    let q := rneNat m (23 - l)
    let ex := if q = 2 ^ 24 then l + e + 1 else l + e
    let q := if q = 2 ^ 24 then 2 ^ 23 else q
    if 127 < ex then f32Inf neg
    else if ex < -126 then sg
    else sg + (ex + 127).toNat * 2 ^ 23 + (q - 2 ^ 23)

/-- A signed number `m · 2^e` as binary32. -/
def f32OfInt (m : Int) (e : Int) : Nat := f32Round (decide (m < 0)) m.natAbs e

/-- The binary32 sum of two codes (R65). -/
def f32Add (a b : Nat) : Nat :=
  match f32Val a, f32Val b with
  | .nan, _ => f32Nan a b
  | _, .nan => f32Nan a b
  | .inf x, .inf y => if x = y then f32Inf x else f32Nan a b
  | .inf x, _ => f32Inf x
  | _, .inf y => f32Inf y
  | .fin m e, .fin n f =>
    let k := min e f
    let t := m * (2 ^ (e - k).toNat : Nat) + n * (2 ^ (f - k).toNat : Nat)
    if t = 0 then b2n (decide (m = 0) && decide (n = 0) && bit a 31 && bit b 31) * 2 ^ 31 else f32OfInt t k

/-- A subnormal operand is flushed to zero, keeping its sign (R65). -/
def f32Flush (a : Nat) : Nat := if bits a 23 8 = 0 then bits a 31 1 * 2 ^ 31 else a % 2 ^ 32

/-- A binary32 code with its sign changed. -/
def f32Neg (a : Nat) : Nat := a ^^^ 2 ^ 31

/-- Order of two binary32 codes that are no NaN: `a ≤ b`. -/
def f32Le (a b : Nat) : Bool :=
  match f32Val a, f32Val b with
  | .fin m e, .fin n f => dyLe m e n f
  | .inf x, .inf y => x || !y
  | .inf x, _ => x
  | _, .inf y => !y
  | _, _ => false

/-- BF16 to binary32, exact (R66). -/
def f32OfBf16 (x : Nat) : Nat := (x % 2 ^ 16) * 2 ^ 16

/-- Binary32 to BF16: nearest even, subnormals to zero (R66, R65). -/
def bf16OfF32 (x : Nat) : Nat :=
  match f32Val x with
  | .nan => f32Nan x 0 / 2 ^ 16
  | .inf n => f32Inf n / 2 ^ 16
  | .fin m e =>
    if m = 0 then bits x 31 1 * 2 ^ 15 else
      let q := rneNat m.natAbs (-16)
      f32Round (bit x 31) q (e + 16) / 2 ^ 16

/-- The value of a BF16 code. -/
def bf16Val (x : Nat) : Val := f32Val (f32OfBf16 x)

/-- A value as BF16, sign kept. -/
def bf16OfVal : Val → Nat
  | .nan => f32Nan 0 0 / 2 ^ 16
  | .inf n => f32Inf n / 2 ^ 16
  | .fin m e => bf16OfF32 (f32OfInt m e)

/-! ### LNS16 (R61 to R64, R67) -/

/-- Zero, whichever the sign bit (R61, R63). -/
def lnsIsZero (x : Nat) : Bool := bits x 0 15 == 0x4000

/-- The log of a code. -/
def lnsLog (x : Nat) : Int := toSigned 15 x

/-- A code from sign and log, with saturation and flush; the flags say which happened (R62, R63). -/
def lnsMake (neg : Bool) (l : Int) : Nat × Bool × Bool :=
  if 16383 < l then (b2n neg * 2 ^ 15 + 0x3FFF, true, false)
  else if l < -16383 then (0x4000, false, true)
  else (b2n neg * 2 ^ 15 + ofSigned 15 l, false, false)

/-- A product (R62). -/
def lnsMul (a b : Nat) : Nat × Bool × Bool :=
  if lnsIsZero a || lnsIsZero b then (0x4000, false, false)
  else lnsMake (bit a 15 != bit b 15) (lnsLog a + lnsLog b)

/-- A quotient (R62): the logs are subtracted; the spec states no result for a zero divisor (DESIGN CHOICE: a free value, log entry 14). -/
def lnsDiv (a b : Nat) : Nat × Bool × Bool :=
  if lnsIsZero b then (Config.lnsByZero a % 2 ^ 16, false, false)
  else if lnsIsZero a then (0x4000, false, false)
  else lnsMake (bit a 15 != bit b 15) (lnsLog a - lnsLog b)

/-- The log of a positive `m · 2^e` in 1/256, to nearest: the largest `L` with `2^(2L-1) ≤ m^512` (R67). No tie can occur. -/
def logOf (m : Nat) (e : Int) : Int := 256 * e + (((Nat.log2 (m ^ 512) + 1) / 2 : Nat) : Int)

/-- A value as LNS16: code, saturated, flushed, invalid (R67). -/
def lnsOfVal : Val → Nat × Bool × Bool × Bool
  | .nan => (0x4000, false, false, true)
  | .inf n => (b2n n * 2 ^ 15 + 0x3FFF, true, false, false)
  | .fin m e =>
    if m = 0 then (0x4000, false, false, false) else
      let r := lnsMake (decide (m < 0)) (logOf m.natAbs e)
      (r.1, r.2.1, r.2.2, false)

/-- The 9-fraction-bit mantissa of 2^(f/256), rounded to nearest, times 512: the largest `T` with `(2T-1)^256 ≤ 2^(2560+f)` (R79). -/
def tolinMant (f : Nat) : Nat :=
  [256, 128, 64, 32, 16, 8, 4, 2, 1].foldl
    (fun a b => if (2 * (a + b) - 1) ^ 256 ≤ 2 ^ (2560 + f) then a + b else a) 512

/-- LNS16 to a linear value (R79). -/
def lnsVal (x : Nat) : Val :=
  if lnsIsZero x then .fin 0 0 else
    let l := lnsLog x
    let m : Int := tolinMant (l % 256).toNat
    .fin (if bit x 15 then -m else m) (l / 256 - 9)

/-- A value as a binary32 code; a zero takes the sign given. -/
def f32OfVal (neg : Bool) : Val → Nat
  | .nan => f32Nan 0 0
  | .inf n => f32Inf n
  | .fin m e => if m = 0 then b2n neg * 2 ^ 31 else f32OfInt m e

/-- LNS16 to binary32. -/
def f32OfLns (x : Nat) : Nat := f32OfVal (bit x 15 && !lnsIsZero x) (lnsVal x)

/-- Multiply a log by `n / d`, to nearest with ties to even (R64). -/
def scaleLog (l n : Int) (d : Nat) : Int :=
  let p := l * n
  let a := p.natAbs
  let q := a / d
  let r := 2 * (a % d)
  let q := if r < d then q else if d < r then q + 1 else q + q % 2
  if p < 0 then -(q : Int) else q

/-! ### Block formats (R52 to R60) -/

/-- Format codes A2 to A8. -/
def isBlockFmt (f : Nat) : Bool := f == 1 || f == 2 || f == 3 || f == 4
/-- Bits per element. -/
def fmtBits (f : Nat) : Nat := if f = 4 then 8 else f + 1
/-- Value bytes per block. -/
def fmtBlockBytes (f : Nat) : Nat := 4 * fmtBits f
/-- Blocks per row. -/
def fmtBlocks (f : Nat) : Nat := 480 / fmtBlockBytes f
/-- The largest mantissa of a block format. -/
def fmtMax (f : Nat) : Int := (2 ^ (fmtBits f - 1) : Nat) - 1
/-- The smallest. -/
def fmtMin (f : Nat) : Int := -((2 ^ (fmtBits f - 1) : Nat) : Int)

/-- Pack elements of `w` bits into a little-endian bit string (R53). -/
def packNat (w : Nat) : List Int → Nat
  | [] => 0
  | x :: xs => ofSigned w x + 2 ^ w * packNat w xs

/-- `n` elements of `w` bits from a number. -/
def unpackInts (w x : Nat) : Nat → List Int
  | 0 => []
  | n + 1 => toSigned w x :: unpackInts w (x / 2 ^ w) n

/-- A block: its 32 mantissas, its exponent, its flag code. -/
structure Blk where
  ms : List Int
  e : Nat
  flag : Nat
  deriving DecidableEq, Repr

/-- The null block. -/
def Blk.null : Blk := { ms := List.replicate 32 0, e := 0, flag := 1 }

/-- The cases of R57. -/
def Blk.bad (b : Blk) : Bool :=
  b.flag == 3 || (b.flag == 1 && b.e != 0) || (b.e == 0 && b.ms.any (· != 0))

/-- The value of an element (R52). -/
def Blk.val (b : Blk) (i : Nat) : Val := if b.e = 0 then .fin 0 0 else .fin (b.ms.getD i 0) ((b.e : Int) - 127)

/-- What a unit other than the braid engine reads from a block that breaks R57: it faults, and the spec states no value (DESIGN CHOICE: a free value, log entry 14). -/
def Blk.read (b : Blk) (i : Nat) : Val :=
  if b.bad then .fin (Config.badElem b.ms b.e b.flag i) ((b.e : Int) - 127) else b.val i

/-- Whether a magnitude is at most `q · 2^(E-127)`. -/
def fitsAt (q : Int) (e : Nat) : Val → Bool
  | .nan => true
  | .inf _ => false
  | .fin m x => dyLe m.natAbs x q ((e : Int) - 127)

/-- The smallest exponent from 1 to 255 at which every value fits, else 255 (R54, R74). -/
def dynExp (q : Int) (xs : List Val) : Nat :=
  (((List.range 255).map (· + 1)).find? fun e => xs.all (fitsAt q e)).getD 255

/-- The rounded mantissa of a value, and whether it saturates, at an exponent; `draw` rounds a number `m · 2^k` to an integer. -/
def mantissa (lo hi : Int) (e : Nat) (round : Int → Int → Int) : Val → Int × Bool
  | .nan => (0, false)
  | .inf n => (if n then lo else hi, true)
  | .fin m x =>
    let r := round m (x - ((e : Int) - 127))
    (clampInt lo hi r, decide (r < lo) || decide (hi < r))

/-- Narrow 32 values at an exponent: the block, and how many values saturated (R54 to R56). `round` rounds element `i`. -/
def narrowAt (f e : Nat) (round : Nat → Int → Int → Int) (xs : List Val) : Blk × Nat :=
  let rs := xs.mapIdx fun i x => mantissa (fmtMin f) (fmtMax f) e (round i) x
  let ms := rs.map Prod.fst
  let sat := (rs.filter Prod.snd).length
  if ms.all (· == 0) then ({ ms := List.replicate 32 0, e := 0, flag := 1 }, sat)
  else ({ ms := ms, e := e, flag := if rs.all Prod.snd then 2 else 0 }, sat)

/-- Narrow in dynamic mode, to nearest. -/
def narrowDyn (f : Nat) (xs : List Val) : Blk × Nat :=
  narrowAt f (dynExp (fmtMax f) xs) (fun _ => rneInt) xs

/-- Block `b` of a row (R59). -/
def rowBlock (f : Nat) (row : List Byte) (b : Nat) : Blk :=
  { ms := unpackInts (fmtBits f) (leAt row (b * fmtBlockBytes f) (fmtBlockBytes f)) 32,
    e := leAt row (480 + b) 1, flag := bits (leAt row (544 + b / 4) 1) (2 * (b % 4)) 2 }

/-- The blocks of a row. -/
def rowBlocks (f : Nat) (row : List Byte) : List Blk := (List.range (fmtBlocks f)).map (rowBlock f row)

/-- Value `i` of a row's blocks. -/
def blksVal (bs : List Blk) (i : Nat) : Int := (bs.getD (i / 32) .null).ms.getD (i % 32) 0

/-- The zero-group map of a row's values (R59). -/
def zeroMap (bs : List Blk) : Nat :=
  (List.range (bs.length * 32 / 5)).foldl
    (fun m g => if (List.range 5).all (fun j => blksVal bs (5 * g + j) == 0) then m ||| 2 ^ g else m) 0

/-- The row form of blocks, with flags and map computed; blocks missing are null (R59, R60). -/
def blockRow (f : Nat) (bs : List Blk) : List Byte :=
  let bs := (bs ++ List.replicate (fmtBlocks f) Blk.null).take (fmtBlocks f)
  bs.flatMap (fun b => leBytes (fmtBlockBytes f) (packNat (fmtBits f) b.ms)) ++
    ((bs.map fun b => BitVec.ofNat 8 b.e) ++ List.replicate (64 - bs.length) 0) ++
    leBytes 16 (bs.mapIdx fun i b => b.flag * 4 ^ i).sum ++
    leBytes 48 (zeroMap bs) ++ List.replicate 32 0

/-- A packed block (R58). -/
def packBlk (f : Nat) (b : Blk) : List Byte :=
  leBytes (fmtBlockBytes f) (packNat (fmtBits f) b.ms) ++ [BitVec.ofNat 8 b.e]

/-- A packed block unpacked: null when its exponent is zero (R58). -/
def unpackBlk (f : Nat) (bs : List Byte) : Blk :=
  let e := leAt bs (fmtBlockBytes f) 1
  { ms := unpackInts (fmtBits f) (leAt bs 0 (fmtBlockBytes f)) 32, e := e, flag := if e = 0 then 1 else 0 }

/-! ### T5P (R48, R49) -/

/-- A valid T5P byte. -/
def t5pOk (b : Byte) : Bool := decide (b.toNat < 243)

/-- The five weights of a byte. -/
def t5pTrits (b : Byte) : List Int :=
  (List.range 5).map fun i =>
    let d : Nat := b.toNat / 3 ^ i % 3
    if d = 2 then -1 else (d : Int)

/-- Five trits as a byte. -/
def t5pByte (ts : List Int) : Byte :=
  BitVec.ofNat 8 (ts.mapIdx fun i t => (if t < 0 then 2 else t.toNat) * 3 ^ i).sum

/-! ### FRC (R71 to R75) -/

/-- Mantissa width by ratio code: 7 bits for FRC-2, 3 for FRC-4. -/
def frcBits (f : Nat) : Nat := if f = 0xC then 7 else 3
/-- Bytes of a compressed block. -/
def frcBytes (f : Nat) : Nat := if f = 0xC then 128 else 64
/-- q_max of R74. -/
def frcMax (f : Nat) : Int := if f = 0xC then 63 else 3

/-- Encode 128 values: the block, and how many saturated (R74). -/
def frcEncode (f : Nat) (xs : List Val) : List Byte :=
  let q := frcMax f
  let isZero : Val → Bool := fun | .nan => true | .inf _ => false | .fin m _ => decide (m = 0)
  let es := (List.range 4).map fun j =>
    let sub := (xs.drop (32 * j)).take 32
    if sub.all isZero then 0 else dynExp q sub
  let ss := (List.range 16).map fun g =>
    let e := es.getD (g / 4) 0
    let grp := (xs.drop (8 * g)).take 8
    let ok := fun (k : Nat) => grp.all fun x => match x with
      | .nan => true
      | .inf _ => false
      | .fin m x => dyLe m.natAbs x q ((e : Int) - 127 - (k : Int))
    if ok 3 then 3 else if ok 2 then 2 else if ok 1 then 1 else 0
  let ms := xs.mapIdx fun i x =>
    let e := es.getD (i / 32) 0
    if e = 0 then 0 else
      match x with
      | .nan => 0
      | .inf n => if n then -q else q
      | .fin m y => clampInt (-q) q (rneInt m (y - ((e : Int) - 127 - (ss.getD (i / 8) 0 : Nat))))
  es.map (BitVec.ofNat 8) ++ leBytes 4 (ss.mapIdx fun i s => s * 4 ^ i).sum ++
    leBytes (16 * frcBits f) (packNat (frcBits f) ms) ++ List.replicate 8 0

/-- Decode a block to 128 values (R73, R75). -/
def frcDecode (f : Nat) (bs : List Byte) : List Val :=
  let ms := unpackInts (frcBits f) (leAt bs 8 (16 * frcBits f)) 128
  ms.mapIdx fun i m =>
    let e := leAt bs (i / 32) 1
    let s := bits (leAt bs 4 4) (2 * (i / 8)) 2
    if e = 0 then .fin 0 0 else .fin m ((e : Int) - 127 - (s : Int))

/-! ### Microscaling sources (R76 to R78) -/

/-- Twice the value of an E2M1 element. -/
def e2m1 (x : Nat) : Int :=
  let m : Int := [0, 1, 2, 3, 4, 6, 8, 12].getD (x % 8) 0
  if bit x 3 then -m else m

/-- The integer elements of a block and the offset of its exponent: MXFP4 (0xE) or MXINT8. -/
def mxElems (f : Nat) (bs : List Byte) : List Int :=
  if f = 0xE then (unpackInts 4 (leAt bs 0 16) 32).map fun x => e2m1 (x % 16).toNat
  else unpackInts 8 (leAt bs 0 32) 32

/-- Bytes of a block: elements, then the scale. -/
def mxBytes (f : Nat) : Nat := if f = 0xE then 17 else 33

/-- A block as A8; `none` for scale 0xFF (R76, R78). -/
def mxToA8 (f x : Nat) (ms : List Int) : Option Blk :=
  if x = 0xFF then none else
    let e : Int := (x : Int) - (if f = 0xE then 1 else 6)
    let ms := if e < 1 then ms.map fun m => rneInt m (e - 1) else ms
    let e := if e < 1 then 1 else e.toNat
    some (if ms.all (· == 0) then .null else { ms := ms, e := e, flag := 0 })

/-- An MXFP4 block as A4: its exact values narrowed in dynamic mode (R77, R78). -/
def mxToA4 (x : Nat) (ms : List Int) : Option Blk :=
  if x = 0xFF then none
  else some (narrowDyn 3 (ms.map fun m => .fin m ((x : Int) - 128))).1

/-! ### Accumulator integers (R68 to R70) -/

/-- Element width in bytes of an accumulator format 8 to 0xB. -/
def accBytes (f : Nat) : Nat := if f = 9 then 3 else if f = 10 then 2 else 4

/-- The saturation limit of an integer accumulator format. -/
def accLimit (f : Nat) : Int := ((2 ^ (8 * accBytes f - 1) : Nat) : Int) - 1

/-- Read an integer element; the code -2^(n-1) reads as -(2^(n-1) - 1) (R69). -/
def accRead (f x : Nat) : Int := max (-(accLimit f)) (toSigned (8 * accBytes f) x)

/-- A contribution shifted from exponent `eb` to the reference exponent (R70). -/
def alignTo (eb eref : Nat) (n : Int) : Int := rneInt n ((eb : Int) - eref)

/-- Add with saturation; the flag says whether it saturated (R68). -/
def accAdd (f : Nat) (a n : Int) : Int × Bool :=
  let t := a + n
  (clampInt (-(accLimit f)) (accLimit f) t, decide (t < -(accLimit f)) || decide (accLimit f < t))

end Sys2Proof.Machine
end

