-- ==== Sys2Proof/Machine/Accum.lean ====
section
/-! DEFINITION. The accumulator store and the log vector unit (04_accumulation_epilogue_lvu.md, R130 to R144, R152). -/
namespace Sys2Proof.Machine

/-! ### The store (R130, R134) -/

/-- Whether a format code is an integer accumulator's. -/
def isIntAcc (f : Nat) : Bool := f == 8 || f == 9 || f == 10

/-- Where element (row, token) of a set stands, as a byte offset from line 0 before wrapping (R130). -/
def elemPos (fmt base r t : Nat) : Nat :=
  match fmt with
  | 10 => (base + t / 2) * 2048 + 1024 * (t % 2) + 2 * r
  | 9 => (base + 3 * (t / 4)) * 2048 + 1536 * (t % 4) + 3 * r
  | _ => (base + t) * 2048 + 4 * r

/-- The key of a byte of a field's store; a line index above 2,047 wraps (R132). -/
def accKey (f pos : Nat) : Nat := f * 4194304 + pos % 4194304

/-- The lines token `t` of a set occupies. -/
def tokenLines (fmt base t : Nat) : List Nat :=
  let a := elemPos fmt base 0 t / 2048
  let b := (elemPos fmt base 511 t + accBytes fmt - 1) / 2048
  ((List.range (b + 1 - a)).map fun i => (a + i) % 2048)

/-- An empty line's tag. -/
def LineTag.empty : LineTag := { opened := false, format := 0, eRef := 0, poison := false }

def lineTag (s : State) (f l : Nat) : LineTag := Tbl.get LineTag.empty s.acc.tags (f * 2048 + l % 2048)
def setLineTag (f l : Nat) (t : LineTag) (s : State) : State :=
  modAcc (fun a => { a with tags := Tbl.set LineTag.empty a.tags (f * 2048 + l % 2048) t }) s

/-- Empty a line: its tag and poison bit (R134, R649). -/
def emptyLine (f l : Nat) (s : State) : State := setLineTag f l LineTag.empty s

/-- Empty every line of every field (R134, R171). -/
def emptyAllLines (s : State) : State := modAcc (fun a => { a with tags := [] }) s

/-- The bits of an element. -/
def accElem (s : State) (f fmt base r t : Nat) : Nat :=
  leNat ((List.range (accBytes fmt)).map fun i => Tbl.get 0 s.acc.bytes (accKey f (elemPos fmt base r t + i)))

/-- Write an element; each of its bytes wraps with its line (R132). -/
def setElem (f fmt base r t v : Nat) (s : State) : State :=
  modAcc (fun a => { a with bytes := ((leBytes (accBytes fmt) v).mapIdx fun i b => (i, b)).foldl (fun m x =>
    Tbl.set 0 m (accKey f (elemPos fmt base r t + x.1)) x.2) a.bytes }) s

/-- Number of open lines of a field (R157). -/
def openLines (s : State) (f : Nat) : Nat :=
  (s.acc.tags.filter fun p => p.1 / 2048 == f && p.2.opened).length

/-- The format fault of an access to a line: cause 1 for another format, 2 for another reference exponent (R139). -/
def lineFault (t : LineTag) (fmt eref : Nat) : Option Nat :=
  if !t.opened then none else if t.format ≠ fmt then some 1
  else if isIntAcc fmt ∧ t.eRef ≠ eref then some 2 else none

/-- Count and record a format fault; the segment is faulted (R141, R653). -/
def formatFault (part f cause fmt line bundle : Nat) (t : LineTag) (s : State) : State :=
  faultSegment part stFormatFault 2 f cause
    (modFld f (fun x =>
      if x.accFaultValid then { x with formatFaults := satAdd 32 x.formatFaults 1 }
      else { x with formatFaults := satAdd 32 x.formatFaults 1, accFaultValid := true, accFaultCause := cause,
                    accNamedFmt := fmt, accTagFmt := t.format, accFaultLine := line, accFaultBundle := bundle })
      (countError 3 s))

/-- Open the empty lines a token uses: their storage starts from zero (R135; log entry 17), and poison marks them. -/
def openLinesFor (f fmt eref : Nat) (poison : Bool) (ls : List Nat) (s : State) : State :=
  ls.foldl (fun s l =>
    let t := lineTag s f l
    if t.opened then setLineTag f l { t with poison := t.poison || poison } s
    else setLineTag f l { opened := true, format := fmt, eRef := if isIntAcc fmt then eref else 0, poison := poison }
      (modAcc (fun a => { a with bytes := clearRange a.bytes (accKey f (l * 2048)) 2048 }) s)) s

/-- The first line of a token that faults. One fault of either line of an ACC24 token that spans two suppresses the token and counts once (R141 speaks of the access; DESIGN CHOICE, log entry 17). -/
def firstLineFault (s : State) (f fmt eref : Nat) (ls : List Nat) : Option (Nat × Nat × LineTag) :=
  ls.findSome? fun l => (lineFault (lineTag s f l) fmt eref).map fun c => (l, c, lineTag s f l)

/-- An integer contribution to one element (R68, R136); a preloaded value is saturated before it is added (R144), and the element saturates once. -/
def addInt (l : Landing) (s : State) (x : Nat × Int) : State :=
  let lim := accLimit l.fmt
  let n := if l.preload then clampInt (-lim) lim x.2 else x.2
  let r := accAdd l.fmt (accRead l.fmt (accElem s l.field l.fmt l.line x.1 l.token)) n
  let s := setElem l.field l.fmt l.line x.1 l.token (ofSigned (8 * accBytes l.fmt) r.1) s
  if r.2 || n != x.2 then modFld l.field (fun y => { y with accSat := satAdd 64 y.accSat 1 }) s else s

/-- Binary32 contributions to one element of an F32 line, in order: the first writes a line that was empty (R135, R136). -/
def addCodes (fresh : Bool) (l : Landing) (s : State) (x : Nat × List Nat) : State :=
  match x.2 with
  | [] => s
  | c :: cs =>
    let first := if fresh then c else f32Add (accElem s l.field l.fmt l.line x.1 l.token) c
    setElem l.field l.fmt l.line x.1 l.token (cs.foldl f32Add first) s

/-- An add is issued: it opens or joins its lines, or faults and is suppressed (R135, R136, R139, R141). -/
def landAdd (part : Nat) (l : Landing) (s : State) : State :=
  let ls := tokenLines l.fmt l.line l.token
  match firstLineFault s l.field l.fmt l.eRef ls with
  | some (ln, c, tg) => formatFault part l.field c l.fmt ln l.bundle tg s
  | none =>
    let fresh := !ls.any fun x => (lineTag s l.field x).opened
    let s := l.codes.foldl (addCodes fresh l) (l.ints.foldl (addInt l) (openLinesFor l.field l.fmt l.eRef l.poison ls s))
    if l.preload then
      let before := if l.token = 0 then [] else tokenLines l.fmt l.line (l.token - 1)
      modFld l.field (fun x => { x with preloadLines := satAdd 64 x.preloadLines (ls.filter fun y => !before.contains y).length }) s
    else s

/-- A byte of a field's debug window: the half that ACC_DEBUG_CTRL selects, an empty line as zero (R158). -/
def accWindowByte (s : State) (f off : Nat) : Byte :=
  let l := off / 2048 % 1024 + (if (fld s f).debugHalf then 1024 else 0)
  if (lineTag s f l).opened then Tbl.get 0 s.acc.bytes (accKey f (l * 2048 + off % 2048)) else 0

/-! ### The log vector unit (R152) -/

/-- What one pass through the LVU counts: saturations, flushes, invalid inputs, overflows (R157). -/
structure LvuCnt where
  sat : Nat
  flush : Nat
  nan : Nat
  ovf : Nat
  deriving DecidableEq, Repr

abbrev Lvu (α : Type) := StateM LvuCnt α

namespace Lv

/-- Note what an LNS16 result did. -/
def note (r : Nat × Bool × Bool) : Lvu Nat := fun c =>
  (r.1, { c with sat := c.sat + b2n r.2.1, flush := c.flush + b2n r.2.2 })

/-- Note a binary32 result that overflowed from finite operands. -/
def noteF (finite : Bool) (r : Nat) : Lvu Nat := fun c =>
  (r, { c with ovf := c.ovf + b2n (finite && (f32Val r == .inf (bit r 31))) })

def finite (a : Nat) : Bool := match f32Val a with
  | .fin _ _ => true
  | _ => false

/-- TOLNS: binary32 to LNS16 (R67). -/
def tolns (a : Nat) : Lvu Nat := fun c =>
  let r := lnsOfVal (f32Val a)
  (r.1, { c with sat := c.sat + b2n r.2.1, flush := c.flush + b2n r.2.2.1, nan := c.nan + b2n r.2.2.2 })

/-- TOLIN: LNS16 to binary32. -/
def tolin (a : Nat) : Lvu Nat := pure (f32OfLns a)

def lmul (a b : Nat) : Lvu Nat := note (lnsMul a b)

/-- LDIV (R62). -/
def ldiv (a b : Nat) : Lvu Nat := note (lnsDiv a b)

/-- LPOW by `n / d`; a zero stays zero for a positive power and saturates for a negative one, as its log does (R62, R64). -/
def lpow (n : Int) (d a : Nat) : Lvu Nat :=
  if lnsIsZero a then note (lnsMake false (scaleLog (-16384) n d)) else note (lnsMake (bit a 15) (scaleLog (lnsLog a) n d))

/-- EXP2: round(256 y), ties to even (R152). -/
def exp2 (a : Nat) : Lvu Nat := fun c =>
  match f32Val a with
  | .nan => (0x4000, { c with nan := c.nan + 1 })
  | .inf n => note (lnsMake false (if n then -20000 else 20000)) c
  | .fin m e => note (lnsMake false (rneInt m (e + 8))) c

/-- LOG2: L / 256, exact; zero gives minus infinity (R152). -/
def log2 (a : Nat) : Nat := if lnsIsZero a then f32Inf true else f32OfInt (lnsLog a) (-8)

def fadd (a b : Nat) : Lvu Nat := noteF (finite a && finite b) (f32Add a b)
def fsub (a b : Nat) : Lvu Nat := fadd a (f32Neg b)

/-- FMAX of flushed operands (R65); which operand it gives beside a NaN or between equal zeros is open (log entry 14). -/
def fmax (a b : Nat) : Nat :=
  if f32Val a == .nan || f32Val b == .nan || f32Val a == f32Val b then f32Flush (if Config.pickFirst a b then a else b)
  else f32Flush (if f32Le a b then b else a)

/-- FMIN, as FMAX. No part of a bundle uses FMIN, LDIV or FREDUCE. -/
def fmin (a b : Nat) : Nat :=
  if f32Val a == .nan || f32Val b == .nan || f32Val a == f32Val b then f32Flush (if Config.pickFirst a b then a else b)
  else f32Flush (if f32Le a b then a else b)

/-- One level of a tree of pairs. -/
def pairs (op : Nat → Nat → Nat) : List Nat → List Nat
  | a :: b :: xs => op a b :: pairs op xs
  | xs => xs

/-- FREDUCE of 256 lanes by a sum or a maximum, in a fixed tree whose leaves the spec does not order (R152; log entry 14). -/
def freduce (op : Nat → Nat → Nat) (xs : List Nat) : Nat :=
  (((List.range 8).foldl (fun ys _ => pairs op ys) ((List.range 256).map fun i => xs.getD (Config.reduceLeaf i % 256) 0)).headD 0)

/-- Multiply a binary32 value by an LNS16 one in the log domain. -/
def scale (a s : Nat) : Lvu Nat := do
  let l ← tolns a
  let r ← lmul l s
  tolin r

/-- The sigmoid sequence up to its reciprocal, as LNS16; `k` is the LNS16 code of the constant (R147). -/
def sigmoidLns (k a : Nat) : Lvu Nat := do
  let l ← tolns a
  let x ← lmul l k
  let y ← tolin x
  let z ← exp2 y
  let e ← tolin z
  let d ← fadd e 0x3F800000
  let g ← tolns d
  lpow (-1) 1 g

/-- −log2 e, −1.702 log2 e and −2 log2 e to the nearest 1/256, negative (R147; log entry 14). -/
def kSigmoid : Nat := 0x8000 + 135
def kGelu : Nat := 0x8000 + 332
def kTanh : Nat := 0x8000 + 391

/-- An epilogue function (R147). Unused codes act as the identity, which only an unverified program reaches (log entry 15). -/
def apply (f a : Nat) : Lvu Nat :=
  match f with
  | 1 => pure (fmax a 0)
  | 2 => do
    let l ← tolns (fmax a 0)
    let r ← lpow 2 1 l
    tolin r
  | 3 => do
    let l ← exp2 a
    tolin l
  | 4 => do
    let l ← sigmoidLns kSigmoid a
    tolin l
  | 5 => do
    let g ← sigmoidLns kSigmoid a
    let x ← tolns a
    let r ← lmul g x
    tolin r
  | 6 => do
    let g ← sigmoidLns kGelu a
    let x ← tolns a
    let r ← lmul g x
    tolin r
  | 7 => do
    let g ← sigmoidLns kTanh a
    let y ← tolin g
    let d ← fadd y y
    fsub d 0x3F800000
  | _ => pure a

end Lv

/-- Add what a pass counted to a field's counters (R157). -/
def addLvu (f cycles : Nat) (c : LvuCnt) (s : State) : State :=
  modFld f (fun x =>
    { x with lvuActive := satAdd 64 x.lvuActive cycles, lnsSat := satAdd 32 x.lnsSat c.sat,
             lnsFlush := satAdd 32 x.lnsFlush c.flush, lvuNan := satAdd 32 x.lvuNan c.nan, fpOvf := satAdd 32 x.fpOvf c.ovf }) s

/-- The 16-bit or 32-bit element of a joined row stream of `n` bytes per element, `perRow` per row. -/
def rowsElem (rows : List (List Byte)) (perRow n i : Nat) : Nat := leAt (rows.getD (i / perRow) []) (n * (i % perRow)) n

/-- An element of a row stream in a format, as a value: a block format, BF16, LNS16 or FP32. -/
def streamVal (fmt : Nat) (rows : List (List Byte)) (i : Nat) : Val :=
  if isBlockFmt fmt then
    let per := fmtBlocks fmt * 32
    (rowBlock fmt (rows.getD (i / per) []) (i % per / 32)).read (i % 32)
  else if fmt = 6 then bf16Val (rowsElem rows 320 2 i)
  else if fmt = 5 then lnsVal (rowsElem rows 320 2 i)
  else f32Val (rowsElem rows 160 4 i)

/-- How many blocks of a row stream break R57 among those that hold values `lo` to `hi - 1`. -/
def badBlocks (fmt : Nat) (rows : List (List Byte)) (lo hi : Nat) : Nat :=
  if !isBlockFmt fmt then 0 else
    let per := fmtBlocks fmt
    ((List.range (ceilDiv hi 32 - lo / 32)).filter fun k =>
      (rowBlock fmt (rows.getD ((lo / 32 + k) / per) []) ((lo / 32 + k) % per)).bad).length

/-- A unit has read blocks that break R57: every one is a METADATA_FAULT of the segment (R57, R653). -/
def badBlockFaults (part unit field n : Nat) (s : State) : State :=
  if n = 0 then s else faultSegment part stMetadataFault unit field 3
    (modErr (fun e => { e with classCount := Tbl.inc 32 e.classCount 3 n }) s)

/-- Values of a format per row. -/
def perRow (fmt : Nat) : Nat := if isBlockFmt fmt then fmtBlocks fmt * 32 else if fmt = 7 then 160 else 320

/-! ### PRELOAD and CLEAR (R138, R143, R144) -/

/-- A preloaded value in a line's unit, before it saturates (R144); what a NaN gives there is open (log entry 14). -/
def preloadInt (fmt eref : Nat) : Val → Int
  | .nan => clampInt (-(accLimit fmt)) (accLimit fmt) (toSigned 32 (Config.nanBits fmt eref))
  | .inf n => if n then -(accLimit fmt) - 1 else accLimit fmt + 1
  | .fin m e => rneInt m (e - ((eref : Int) - 127))

end Sys2Proof.Machine
end

