-- ==== Sys2Proof/Machine/Bundle.lean ====
section
/-! DEFINITION. The program image, the bundle and its parts, as bit fields (07_bundles_and_verifier.md, R237 to R250). -/
namespace Sys2Proof.Machine

/-! ### The image (R237) -/

namespace Img

def magic (i : List Byte) : Nat := leAt i 0 4
def version (i : List Byte) : Nat := leAt i 4 2
def flags (i : List Byte) : Nat := leAt i 6 2
def hostCounts (i : List Byte) : Bool := bit (flags i) 0
def bundleBytes (i : List Byte) : Nat := leAt i 8 4
def first (i : List Byte) : Nat := leAt i 12 4
def cmin (i : List Byte) (v : Nat) : Nat := leAt i (16 + 8 * v) 4
def cmax (i : List Byte) (v : Nat) : Nat := leAt i (20 + 8 * v) 4
def base0 (i : List Byte) (r : Nat) : Nat := leAt i (80 + 2 * r) 2
def descOff (i : List Byte) : Nat := leAt i 112 4
def descNum (i : List Byte) : Nat := leAt i 116 2
def layNum (i : List Byte) : Nat := leAt i 118 2
def layOff (i : List Byte) : Nat := leAt i 120 4
def formOff (i : List Byte) : Nat := leAt i 124 4
/-- The bytes the signature covers, and the signature. -/
def signed (i : List Byte) : List Byte := i.take (i.length - 96)
def signature (i : List Byte) : List Byte := i.drop (i.length - 96)
def minimums (i : List Byte) : List Nat := (List.range 8).map (cmin i)
def maximums (i : List Byte) : List Nat := (List.range 8).map (cmax i)
def bases (i : List Byte) : List Nat := (List.range 16).map (base0 i)

/-- Layer-table entry `l`: monitor layer, sprout channels, register and offset of the sprout map rows. -/
def layMon (i : List Byte) (l : Nat) : Nat := leAt i (layOff i + 8 * l) 1
def laySprout (i : List Byte) (l : Nat) : Nat := leAt i (layOff i + 8 * l + 2) 2
def layReg (i : List Byte) (l : Nat) : Nat := leAt i (layOff i + 8 * l + 4) 2
def layRow (i : List Byte) (l : Nat) : Nat := leAt i (layOff i + 8 * l + 6) 2

/-- The 256-bit part at offset `o` of the bundle bytes (R241). -/
def word (i : List Byte) (o : Nat) : Nat := leAt i (first i + o) 32

end Img

/-! ### The global part (R243) -/

namespace Gp

def parts (g : Nat) : Nat := bits g 251 5
def last (g : Nat) : Bool := bit g 250
def loopBegin (g : Nat) : Bool := bit g 249
def loopEnd (g : Nat) : Bool := bit g 248
def level (g : Nat) : Nat := bits g 246 2
def trips (g : Nat) : Nat := bits g 230 16
def rep (g : Nat) : Nat := bits g 214 16
def advBase (g : Nat) : Nat := bits g 190 24
def advMult (g : Nat) : Nat := bits g 174 16
def advVar (g : Nat) : Nat := bits g 171 3
def advVarEn (g : Nat) : Bool := bit g 170
def advFloor (g : Nat) : Nat := bits g 146 24
def seqOp (g : Nat) : Nat := bits g 142 4
def seqArg (g : Nat) : Nat := bits g 118 24
/-- The kicks: engine and descriptor of each enabled one. -/
def kicks (g : Nat) : List (Nat × Nat) :=
  (if bit g 117 then [(bits g 112 5, bits g 100 12)] else []) ++ (if bit g 99 then [(bits g 94 5, bits g 82 12)] else [])
def bupdEn (g : Nat) : Bool := bit g 81
def bupdReg (g : Nat) : Nat := bits g 77 4
def bupdDelta (g : Nat) : Nat := bits g 61 16
/-- Bytes of the bundle. -/
def size (g : Nat) : Nat := 32 * (1 + parts g)

end Gp

/-- A count field: an immediate, or a count variable (R242). -/
def countOf (counts : List Nat) (x : Nat) : Nat := if bit x 15 then counts.getD (x % 8) 0 else x % 2 ^ 15

/-- The advance of an issue (R252). -/
def advance (counts : List Nat) (g : Nat) : Nat :=
  max (Gp.advFloor g) (Gp.advBase g + if Gp.advVarEn g then Gp.advMult g * counts.getD (Gp.advVar g) 0 else 0)

/-- A row operand: the register's value plus the offset (R246); beyond the last row it wraps, which only an unverified program reaches (log entry 15). -/
def rowOf (base : List Nat) (reg off : Nat) : Nat := (base.getD reg 0 + off) % 32768

/-! ### Field parts (R244 to R249) -/

def partKind (p : Nat) : Nat := bits p 252 4
def partMask (p : Nat) : Nat := bits p 236 16
/-- The fields a part names. -/
def partFields (p : Nat) : List Nat := (List.range 16).filter (bit (partMask p))
/-- Unit class: 0 array, 1 epilogue (R244). -/
def partClass (p : Nat) : Nat := if partKind p ≤ 3 then 0 else 1

namespace Br
def mode (p : Nat) : Nat := bits p 233 3
def square (p : Nat) : Bool := bit p 232
def tblFmt (p : Nat) : Nat := bits p 228 4
def planeFmt (p : Nat) : Nat := bits p 224 4
def accFmt (p : Nat) : Nat := bits p 220 4
def eRef (p : Nat) : Nat := bits p 212 8
def wReg (p : Nat) : Nat := bits p 208 4
def wOff (p : Nat) : Nat := bits p 193 15
def aReg (p : Nat) : Nat := bits p 189 4
def aOff (p : Nat) : Nat := bits p 174 15
def aRpt (p : Nat) : Nat := bits p 166 8
def slice0 (p : Nat) : Nat := bits p 162 4
def tiles (p : Nat) : Nat := bits p 146 16
def batch (p : Nat) : Nat := bits p 130 16
def setLine (p : Nat) : Nat := bits p 119 11
def compLine (p : Nat) : Nat := bits p 108 11
def sproutEn (p : Nat) : Bool := bit p 107
def maskEn (p : Nat) : Bool := bit p 106
def warm (p : Nat) : Bool := bit p 105
def predEn (p : Nat) : Bool := bit p 104
def predIdx (p : Nat) : Nat := bits p 100 4
def skipReg (p : Nat) : Nat := bits p 96 4
def skipOff (p : Nat) : Nat := bits p 81 15
def layer (p : Nat) : Nat := bits p 73 8
def wConsume (p : Nat) : Bool := bit p 72
def aConsume (p : Nat) : Bool := bit p 71
/-- Cycles per token of one slice (R98). -/
def c (p : Nat) : Nat := if tblFmt p = 4 then 2 else 1
/-- Planes (R101). -/
def planes (p : Nat) : Nat := if mode p = 4 then (if planeFmt p = 4 then 6 else 3) else 1
/-- Scratchpad rows of one weight tile (R95, R107). -/
def tileRows (p : Nat) : Nat := if square p then 33 else 32
/-- Output rows of a tile. -/
def outRows (p : Nat) : Nat := if square p then 480 else 512
end Br

namespace Ep
def srcLine (p : Nat) : Nat := bits p 225 11
def compEn (p : Nat) : Bool := bit p 224
def compLine (p : Nat) : Nat := bits p 213 11
def gateEn (p : Nat) : Bool := bit p 212
def gateLine (p : Nat) : Nat := bits p 201 11
def srcFmt (p : Nat) : Nat := bits p 197 4
def batch (p : Nat) : Nat := bits p 181 16
def vecReg (p : Nat) : Nat := bits p 177 4
def vecOff (p : Nat) : Nat := bits p 162 15
def biasFmt (p : Nat) : Nat := bits p 160 2
def biasOff (p : Nat) : Nat := bits p 145 15
def resEn (p : Nat) : Bool := bit p 144
def resFmt (p : Nat) : Nat := bits p 140 4
def resReg (p : Nat) : Nat := bits p 136 4
def resOff (p : Nat) : Nat := bits p 121 15
def func (p : Nat) : Nat := bits p 117 4
def oscaleEn (p : Nat) : Bool := bit p 116
def outFmt (p : Nat) : Nat := bits p 112 4
def plane (p : Nat) : Bool := bit p 111
def fixed (p : Nat) : Bool := bit p 110
def fixedE (p : Nat) : Nat := bits p 102 8
def stoch (p : Nat) : Bool := bit p 101
def gen (p : Nat) : Nat := bits p 95 6
def outReg (p : Nat) : Nat := bits p 91 4
def outOff (p : Nat) : Nat := bits p 76 15
def outRpt (p : Nat) : Nat := bits p 68 8
def band (p : Nat) : Nat := bits p 60 8
def skipEn (p : Nat) : Bool := bit p 59
def skipReg (p : Nat) : Nat := bits p 55 4
def skipOff (p : Nat) : Nat := bits p 40 15
def monEn (p : Nat) : Bool := bit p 39
def layer (p : Nat) : Nat := bits p 31 8
def sproutOut (p : Nat) : Bool := bit p 30
end Ep

namespace Pl
def setLine (p : Nat) : Nat := bits p 225 11
def accFmt (p : Nat) : Nat := bits p 221 4
def eRef (p : Nat) : Nat := bits p 213 8
def batch (p : Nat) : Nat := bits p 197 16
def srcFmt (p : Nat) : Nat := bits p 193 4
def perToken (p : Nat) : Bool := bit p 192
def srcReg (p : Nat) : Nat := bits p 188 4
def srcOff (p : Nat) : Nat := bits p 173 15
def srcRpt (p : Nat) : Nat := bits p 165 8
def band (p : Nat) : Nat := bits p 157 8
end Pl

namespace Cl
def firstLine (p : Nat) : Nat := bits p 225 11
def count (p : Nat) : Nat := bits p 213 12
end Cl

namespace Sl
def partials (p : Nat) : Nat := if bits p 230 6 = 0 then 64 else bits p 230 6
def inReg (p : Nat) : Nat := bits p 226 4
def inOff (p : Nat) : Nat := bits p 211 15
def inStride (p : Nat) : Nat := bits p 195 16
def rows (p : Nat) : Nat := bits p 179 16
def d (p : Nat) : Nat := bits p 167 12
def outReg (p : Nat) : Nat := bits p 163 4
def outOff (p : Nat) : Nat := bits p 148 15
end Sl

namespace Pm
def srcLine (p : Nat) : Nat := bits p 225 11
def srcFmt (p : Nat) : Nat := bits p 221 4
def batch (p : Nat) : Nat := bits p 205 16
def threshold (p : Nat) : Nat := bits p 189 16
def outReg (p : Nat) : Nat := bits p 185 4
def outOff (p : Nat) : Nat := bits p 170 15
def predIdx (p : Nat) : Nat := bits p 166 4
def band (p : Nat) : Nat := bits p 158 8
end Pm

/-! ### Bundles in order -/

/-- The offsets of the bundles, from the first. -/
def bundleOffs (i : List Byte) : Nat → Nat → List Nat
  | 0, _ => []
  | n + 1, o => if Img.bundleBytes i ≤ o then [] else o :: bundleOffs i n (o + Gp.size (Img.word i o))

/-- Every bundle's offset in program order. -/
def allBundles (i : List Byte) : List Nat := bundleOffs i (Img.bundleBytes i / 32) 0

/-- The parts of the bundle at an offset. -/
def bundleParts (i : List Byte) (o : Nat) : List Nat :=
  (List.range (Gp.parts (Img.word i o))).map fun k => Img.word i (o + 32 * (k + 1))

/-- Every part of the program. -/
def allParts (i : List Byte) : List Nat := (allBundles i).flatMap (bundleParts i)

/-- The bundle that ends the loop begun at an offset: the first from there that ends the same level (R255). -/
def loopEndOf (i : List Byte) (o : Nat) : Option Nat :=
  let lv := Gp.level (Img.word i o)
  (bundleOffs i (Img.bundleBytes i / 32) o).find? fun x => Gp.loopEnd (Img.word i x) && Gp.level (Img.word i x) == lv

/-- The bundle that begins the loop ended at an offset: the last up to there that begins the same level. -/
def loopBeginOf (i : List Byte) (o : Nat) : Option Nat :=
  let lv := Gp.level (Img.word i o)
  ((allBundles i).filter fun x => decide (x ≤ o) && Gp.loopBegin (Img.word i x) && Gp.level (Img.word i x) == lv).getLast?

/-- The lines a set occupies (R131). -/
def setLines (fmt n : Nat) : Nat := if fmt = 10 then ceilDiv n 2 else if fmt = 9 then 3 * ceilDiv n 4 else n

/-- Passes of an epilogue function (R147). -/
def funcPasses (f : Nat) : Nat := if f = 4 then 2 else if 5 ≤ f ∧ f ≤ 7 then 3 else 1

/-- The scratchpad rows of tile `i`, plane `j` of a BRAID part whose weights start at row `w` (R95, R102, R107): a transposed tile takes square `i mod 3` and its map row from each of the three square tiles of its group (R108; log entry 18). -/
def tileRowNos (w p i j : Nat) : List Nat :=
  (if Br.mode p = 3 then (List.range 3).flatMap fun k =>
      ((List.range 10).map fun x => 33 * (3 * (i / 3) + k) + 10 * (i % 3) + x) ++ [33 * (3 * (i / 3) + k) + 30 + i % 3]
    else (List.range (Br.tileRows p)).map fun x => (i * Br.planes p + j) * Br.tileRows p + x).map fun x => (w + x) % 32768

/-- The load time of tile `i` (R97, R109, R117): eight cycles for every pair of rows in one bank, 16 for a compressed window. -/
def loadTime (w p i : Nat) : Nat :=
  if Br.mode p = 2 then 16 else
  let rows := (tileRowNos w p i 0).map (· % 32)
  8 * ceilDiv (((List.range 32).map fun b => rows.count b).foldl max 0) 2 + (if Br.mode p = 3 then 24 else 0)

/-- The tiles, or windows, a BRAID part runs one after another. -/
def braidUnits (counts : List Nat) (p : Nat) : Nat :=
  let t := countOf counts (Br.tiles p)
  if Br.mode p = 2 then t / 2 else t

/-- Cycles of one token in one plane of a tile with `s` sprout channels in its slice (R98, R163). -/
def tokenCycles (p s : Nat) : Nat := if Br.sproutEn p then max (Br.c p) (ceilDiv s 2) else Br.c p

/-- From the start of tile `i` to the start of the next (R124): `after` is the load time of the warm part's first tile that the last tile loads (R260); with nothing more to load the spec gives no L_t, and the tile's own stands for it (DESIGN CHOICE, log entry 30). -/
def tileCycles (counts base : List Nat) (sprout : Nat → Nat) (after : Option Nat) (p i : Nat) : Nat :=
  let w := rowOf base (Br.wReg p) (Br.wOff p)
  let next := if i + 1 < braidUnits counts p then loadTime w p (i + 1) else after.getD (loadTime w p i)
  max (tokenCycles p (sprout i) * countOf counts (Br.batch p) * Br.planes p) next

/-- The duration of a part in its unit class (R258); `sprout` is the number of sprout channels in the slices of each tile, `after` as for `tileCycles`. -/
def partDuration (counts base : List Nat) (sprout : Nat → Nat) (after : Option Nat) (p : Nat) : Nat :=
  let cnt := countOf counts
  match partKind p with
  | 1 =>
    if cnt (Br.batch p) = 0 ∨ cnt (Br.tiles p) = 0 then 0 else
    12 + (if Br.tblFmt p = 4 then 18 else 13) + (if Br.warm p then 0 else loadTime (rowOf base (Br.wReg p) (Br.wOff p)) p 0) +
      ((List.range (braidUnits counts p)).map (tileCycles counts base sprout after p)).sum
  | 2 => if cnt (Pl.batch p) = 0 then 0 else 12 + setLines (Pl.accFmt p) (cnt (Pl.batch p))
  | 3 => ceilDiv (Cl.count p) 16
  | 4 => if cnt (Ep.batch p) = 0 then 0 else 2 * (funcPasses (Ep.func p) + b2n (Ep.gateEn p)) * cnt (Ep.batch p) + 40
  | 5 =>
    let r := cnt (Sl.rows p)
    if r = 0 then 0 else 16 + 3 * ceilDiv (r * Sl.partials p) 256 + 2 * ceilDiv (r * Sl.d p * Sl.partials p) 256
  | _ => if cnt (Pm.batch p) = 0 then 0 else 2 * cnt (Pm.batch p) + 40

end Sys2Proof.Machine
end

