-- ==== Sys2Proof/Machine/Braid.lean ====
section
/-! DEFINITION. The ternary braid engine: spool loads, tables, lanes, adder trees, sprout unit, skips and faults (03_braid_engine.md, R159 to R162). -/
namespace Sys2Proof.Machine

/-- What a part of the running program works with: the partition, the base registers and counts at its issue, the image, and the bundle's offset in the store. -/
structure PartCtx where
  part : Nat
  base : List Nat
  counts : List Nat
  image : List Byte
  bundle : Nat
  stepCount : Nat
  inSpan : Bool
  deriving DecidableEq, Repr

/-- A row a part reads or writes: whether the read consumes, whether a spool load makes it, whether it is written, whether the access merges, which its tag does not hold (R149). -/
structure RowUse where
  row : Nat
  consume : Bool
  spool : Bool
  fill : Bool
  merge : Bool
  deriving DecidableEq, Repr

def RowUse.keep (r : Nat) : RowUse := { row := r, consume := false, spool := false, fill := false, merge := false }
def RowUse.read (consume : Bool) (r : Nat) : RowUse := { row := r, consume := consume, spool := false, fill := false, merge := false }
def RowUse.load (consume : Bool) (r : Nat) : RowUse := { row := r, consume := consume, spool := true, fill := false, merge := false }

/-! ### Operand rows -/

/-- Rows of tile `i`, plane `j`. -/
def tileRowsOf (c : PartCtx) (p i j : Nat) : List Nat := tileRowNos (rowOf c.base (Br.wReg p) (Br.wOff p)) p i j

/-- Slices of a table operand's row (R52). -/
def slicesPerRow (f : Nat) : Nat := fmtBlocks f / 5

/-- The activation row of token `t` for slice `sl`. -/
def actRow (c : PartCtx) (p t sl : Nat) : Nat :=
  (rowOf c.base (Br.aReg p) (Br.aOff p) + t * Br.aRpt p + sl / max 1 (slicesPerRow (Br.tblFmt p))) % 32768

/-- The slice of tile `i`. -/
def tileSlice (p i : Nat) : Nat := Br.slice0 p + i

/-- The sprout map's channels of a layer-table entry, read from a field's copy (R699). -/
def sproutRows (c : PartCtx) (layer : Nat) : List Nat :=
  (List.range (ceilDiv (Img.laySprout c.image layer) 320)).map fun k =>
    (rowOf c.base (Img.layReg c.image layer % 16) (Img.layRow c.image layer) + k) % 32768

/-- The channels of a map from its rows: 320 entries of 16 bits to a row. -/
def sproutMap (rows : List (List Byte)) (n : Nat) : List Nat := (List.range n).map fun i => rowsElem rows 320 2 i

/-- A token's sprout rows: after the rows of the batch's last token, token by token (log entry 16). -/
def sproutValRows (c : PartCtx) (p t n : Nat) : List Nat :=
  let k := ceilDiv n 320
  (List.range k).map fun j =>
    (rowOf c.base (Br.aReg p) (Br.aOff p) + countOf c.counts (Br.batch p) * Br.aRpt p + t * k + j) % 32768

/-- The skip-mask row and byte of token `t` (R121). -/
def skipRow (base : List Nat) (reg off t : Nat) : Nat := (rowOf base reg off + t / 10) % 32768
def skipBits (row : List Byte) (t : Nat) : Nat := leAt row (64 * (t % 10)) 64

/-- a of R179 for a predicted layer: 11 to 14 act as 10, 15 disables the audit. -/
def auditShift (s : State) (idx : Nat) : Option Nat :=
  let a := ((Tbl.get none s.np.predCfg idx).getD .reset).auditShift
  if a = 15 then none else some (min a 10)

/-- Token `t` is audited (R179). -/
def audited (s : State) (idx t stepCount : Nat) : Bool :=
  match auditShift s idx with
  | some a => (t + stepCount) % 2 ^ a == 0
  | none => false

/-- Every row a BRAID part uses in a field. -/
def braidUses (c : PartCtx) (p : Nat) : List RowUse :=
  let n := countOf c.counts (Br.batch p)
  let t := countOf c.counts (Br.tiles p)
  if n = 0 ∨ t = 0 then [] else
  let w := (List.range t).flatMap fun i => (List.range (Br.planes p)).flatMap fun j =>
    (tileRowsOf c p i j).map (RowUse.load (Br.wConsume p))
  let a := (List.range t).flatMap fun i => (List.range n).map fun k => RowUse.read (Br.aConsume p && decide (i + 1 = t)) (actRow c p k (tileSlice p i))
  let sk := if Br.predEn p then (List.range (ceilDiv n 10)).map fun k => RowUse.keep (skipRow c.base (Br.skipReg p) (Br.skipOff p) (10 * k)) else []
  let ns := Img.laySprout c.image (Br.layer p)
  let sp := if Br.sproutEn p ∧ ns ≠ 0 then
      (sproutRows c (Br.layer p)).map RowUse.keep ++
        (List.range n).flatMap fun k => (sproutValRows c p k ns).map RowUse.keep
    else []
  w.eraseDups ++ a.eraseDups ++ sk ++ sp

/-! ### The spool (R80, R95, R107, R108, R113, R115) -/

/-- A loaded output row before compaction: 32 weight bytes, zero map, plane exponent, and the lanes whose bytes come from a stored byte that is no T5P byte. -/
structure TileRow where
  bytes : List Byte
  zmap : Nat
  pexp : Nat
  bad : List Nat
  deriving DecidableEq, Repr

def TileRow.none : TileRow := { bytes := [], zmap := 0, pexp := 0, bad := [] }

/-- The output rows of a tile in row form (R95). -/
def tileRows (n : Nat) (rows : List (List Byte)) : List TileRow :=
  (List.range n).map fun r =>
    let d := rows.getD (r / 16) []
    let bs := sliceBytes d (32 * (r % 16)) 32
    { bytes := bs, zmap := leAt d (512 + 4 * (r % 16)) 4, pexp := leAt d (576 + r % 16) 1,
      bad := (List.range 32).filter fun g => !t5pOk (bs.getD g 0) }

/-- A transposed tile from the squares of three tiles, eleven rows each (R107, R108): row 160i + k is column k of the square of the i-th; a byte that breaks R49 spoils the lanes its rows go to. -/
def transposedRows (rows : List (List Byte)) : List TileRow :=
  (List.range 480).map fun r =>
    let k := r % 160
    let sq := (rows.drop (11 * (r / 160))).take 11
    let byte := fun (y : Nat) => (sq.getD (y / 16) []).getD (32 * (y % 16) + k / 5) 0
    let trit := fun (y : Nat) => (t5pTrits (byte y)).getD (k % 5) 0
    { bytes := (List.range 32).map fun g => t5pByte ((List.range 5).map fun j => trit (5 * g + j)),
      zmap := leAt (sq.getD 10 []) (4 * k) 4, pexp := 0,
      bad := (List.range 32).filter fun g => (List.range 5).any fun j => !t5pOk (byte (5 * g + j)) }

/-- The fault of the lowest output row and, within it, the lowest lane (R126). -/
def lowestFault (fs : List (Nat × Nat × Nat)) : Option (Nat × Nat × Nat) :=
  fs.foldl (fun m x => match m with
    | some y => if 64 * y.2.1 + y.2.2 ≤ 64 * x.2.1 + x.2.2 then some y else some x
    | none => some x) none

/-- The faults a spool load finds: cause, row, lane (R125, R126). A tile's load is taken as one cycle, and a row whose plane exponent differs from the set's previous plane is recorded with lane 0, neither of which the spec says (DESIGN CHOICE, log entry 30). -/
def spoolFaults (maskEn : Bool) (prev : Option (List SpoolRow)) (rs : List TileRow) : List (Nat × Nat × Nat) :=
  (rs.mapIdx fun r x =>
    (match prev with
      | some f => if (f.getD r ⟨[], 0, 0, []⟩).pexp ≠ x.pexp then [(4, r, 0)] else []
      | none => []) ++
    ((List.range 32).filterMap fun g =>
      if x.bad.contains g then some (1, r, g)
      else if maskEn && (bit x.zmap g != (x.bytes.getD g 0 == 0)) then some (2, r, g) else none)).flatten

/-- A tile as it stands in a buffer: byte g in lane g. -/
def denseRows (rs : List TileRow) : List SpoolRow :=
  rs.map fun x => { lanes := x.bytes.mapIdx fun g b => (g, b), zmap := x.zmap, pexp := x.pexp, pod := [] }

/-- The compactor (R115): a row's first 32 non-zero groups of a window go to its own lanes, the rest to its partner's pod. -/
def windowRows (a b : List TileRow) : List SpoolRow :=
  let full := List.zipWith (fun (x y : TileRow) =>
    ((x.bytes ++ y.bytes).mapIdx fun g v => (g, v)).filter fun e => e.2 != 0) a b
  (List.range full.length).map fun r =>
    { lanes := (full.getD r []).take 32, zmap := 0, pexp := 0, pod := (full.getD (r ^^^ 1) []).drop 32 }

/-- The entries that count for row `r`: its own lanes and those its partner's pod runs for it (R115). -/
def rowEntries (rs : List SpoolRow) (r : Nat) : List (Nat × Byte) :=
  (rs.getD r ⟨[], 0, 0, []⟩).lanes ++ (rs.getD (r ^^^ 1) ⟨[], 0, 0, []⟩).pod

/-! ### Tables and lanes (R81 to R90) -/

/-- A table entry as the builder holds it; one of a straddling group that exceeds 12 bits saturates (R84, R88). -/
def tableEntry (straddle : Bool) (v : Int) : Int × Bool :=
  if straddle && (decide (2047 < v) || decide (v < -2048)) then (if v < 0 then -2047 else 2047, true) else (v, false)

/-- One stage: from T[0] to T[h] it writes T[h+1] to T[3h+1] as a_k + T[m], m rising from -h, from the entries as they stand (R85). -/
def buildStage (straddle : Bool) (t : List Int × Bool) (a : Int) : List Int × Bool :=
  let new := (((t.1.drop 1).reverse.map fun x => a - x) ++ t.1.map fun x => a + x).map (tableEntry straddle)
  (t.1 ++ new.map Prod.fst, t.2 || new.any Prod.snd)

/-- The table of five activations, T[0] to T[121], and whether an entry saturated. -/
def buildTable (straddle : Bool) (xs : List Int) : List Int × Bool := xs.foldl (buildStage straddle) ([0], false)

/-- One activation group: its exponent class, the exponent of its unit, its table, whether that holds a saturated entry, whether its map bit is set. -/
structure Group where
  cls : Nat
  e : Nat
  tbl : List Int
  sat : Bool
  zero : Bool
  deriving DecidableEq, Repr

/-- Group `g` of a slice of five blocks, the `k`-th slice of its window (R86, R87, R90). -/
def mkGroup (k : Nat) (bs : List Blk) (zmap g : Nat) : Group :=
  let lo := 5 * g / 32
  let hi := (5 * g + 4) / 32
  let el := (bs.getD lo .null).e
  let eh := (bs.getD hi .null).e
  let unitLo := eh == 0 || (el != 0 && decide (el ≤ eh))
  let e := if unitLo then el else eh
  let vals := (List.range 5).map fun j =>
    let v := 5 * g + j
    let b := bs.getD (v / 32) .null
    if b.e = 0 then 0 else b.ms.getD (v % 32) 0 * (2 ^ (b.e - e) : Nat)
  let t := if bit zmap g then (List.replicate 122 0, false) else buildTable (lo != hi) vals
  { cls := 5 * k + if lo = hi ∨ unitLo then lo else hi, e := e, tbl := t.1, sat := t.2, zero := bit zmap g }

/-- The balanced code a byte folds to (R81). -/
def fold (b : Byte) : Int := ((t5pTrits b).mapIdx fun (i : Nat) (t : Int) => t * (3 ^ i : Nat)).sum

/-- What a lane adds (R82). -/
def laneVal (g : Group) (b : Byte) : Int :=
  let v := fold b
  if v < 0 then -(g.tbl.getD v.natAbs 0) else g.tbl.getD v.natAbs 0

/-- The aligned sum of one output row from its entries (R90, R104): class partials shifted to the reference exponent. `pexp` is the plane exponent in trit-plane mode. -/
def rowSum (gs : List Group) (pexp : Option Nat) (eref : Nat) (es : List (Nat × Byte)) : Int :=
  let lanes := es.filterMap fun x => (gs[x.1]?).map fun g => (g, laneVal g x.2)
  ((List.range 10).map fun k =>
    let mine := lanes.filter fun l => l.1.cls == k
    let n := (mine.map Prod.snd).sum
    match mine.head? with
    | none => 0
    | some l =>
      let e := (mine.findSome? fun l => if l.1.e ≠ 0 then some l.1.e else none).getD l.1.e
      match pexp with
      | none => rneInt n ((e : Int) - eref)
      | some x => if x = 0 then 0 else rneInt n ((x : Int) + e - 127 - eref)).sum

/-- Lanes of a row's group that are gated in a cycle: those that run no entry with a non-zero byte and a live activation group (R118). Rows gated by their skip bit, and their entries in the partner's pod, are left out of this count: R118 names two conditions and the skip bit is neither (DESIGN CHOICE, log entry 30). -/
def gatedLanes (gs : List Group) (skip : Nat) (rs : List SpoolRow) (r : Nat) : Nat :=
  if bit skip r then 0 else
  let x := rs.getD r ⟨[], 0, 0, []⟩
  let busy := fun (es : List (Nat × Byte)) => (es.filter fun e => e.2 != 0 && (gs[e.1]?).any fun g => !g.zero).length
  32 - (busy x.lanes + if bit skip (r ^^^ 1) then 0 else busy x.pod)

/-! ### One field's share of a BRAID part -/

/-- Count and record faults of one cycle: the lowest row, then lane, is recorded (R125, R126). -/
def braidFaults (c : PartCtx) (f : Nat) (fs : List (Nat × Nat × Nat)) (s : State) : State :=
  match lowestFault fs with
  | none => s
  | some (cause, row, lane) =>
    let s := modErr (fun e => { e with classCount := Tbl.inc 32 e.classCount 3 fs.length }) s
    faultSegment c.part stMetadataFault 1 f cause
      (modFld f (fun x =>
        let x := { x with metaFaults := satAdd 32 x.metaFaults fs.length }
        if x.brdFaultValid then x else
          { x with brdFaultValid := true, brdFaultCause := cause, brdFaultRow := row, brdFaultLane := lane, brdFaultBundle := c.bundle }) s)

/-- The skip masks of a part's tokens from the mask rows: the rows to skip, unless the token is audited (R122, R179). -/
def skipMasks (s : State) (c : PartCtx) (p n : Nat) (rows : List (List Byte)) : List Nat :=
  if !Br.predEn p then List.replicate n 0 else
    (List.range n).map fun t => if audited s (Br.predIdx p) t c.stepCount then 0 else skipBits (rows.getD (t / 10) []) t

/-- The mask rows of a part. -/
def maskRows (c : PartCtx) (p n : Nat) : List Nat :=
  if Br.predEn p then (List.range (ceilDiv n 10)).map fun k => skipRow c.base (Br.skipReg p) (Br.skipOff p) (10 * k) else []

/-- The rows of the part's sprout map. -/
def mapRows (c : PartCtx) (p : Nat) : List Nat :=
  if Br.sproutEn p && Img.laySprout c.image (Br.layer p) != 0 then sproutRows c (Br.layer p) else []

/-- Sprout adds of one token in one tile: for each channel of the slice in ascending order the trit of each row adds or subtracts its value (R161, R162). -/
def sproutAdds (k : Nat) (chans : List (Nat × Nat)) (skip n : Nat) (rs : List SpoolRow) : List (Nat × List Nat) :=
  (List.range n).map fun r =>
    (r, if bit skip r then [] else
      chans.filterMap fun ch =>
        let b := ((rowEntries rs r).find? fun e => e.1 == 32 * k + ch.1 % 160 / 5).map Prod.snd
        let t := (t5pTrits (b.getD 0)).getD (ch.1 % 160 % 5) 0
        if t = 0 then none else some (if t < 0 then f32Neg (f32OfBf16 ch.2) else f32OfBf16 ch.2))

/-- The blocks and zero map of one token's slice, and what reading its row did. -/
def readSlice (c : PartCtx) (p f t sl : Nat) (consume : Bool) (s : State) : (List Blk × Nat × Bool) × State :=
  let a := accessRow true c.part f (actRow c p t sl) consume s
  let k := sl % max 1 (slicesPerRow (Br.tblFmt p))
  let bs := (List.range 5).map fun b => rowBlock (Br.tblFmt p) a.1.1 (5 * k + b)
  ((bs, leAt a.1.1 560 48 >>> (32 * k), a.1.2), a.2)

/-- The sprout channels of a slice with their values, for one token. -/
def sliceSprout (chans : List Nat) (vals : List (List Byte)) (sl : Nat) : List (Nat × Nat) :=
  (chans.mapIdx fun i ch => (i, ch)).filterMap fun x =>
    if x.2 / 160 = sl then some (x.2, rowsElem vals 320 2 x.1) else none

/-- A tile of an elastic span with nothing to do: every row masked for every token, or every group of its slice zero for every token, as far as the rows have come (R265). -/
def tileIdle (s : State) (c : PartCtx) (p f n sl : Nat) (skips : List Nat) : Bool :=
  let all := 2 ^ Br.outRows p - 1
  (List.range n).all (fun t => skips.getD t 0 &&& all == all) ||
  (List.range n).all fun t =>
    let k := sl % max 1 (slicesPerRow (Br.tblFmt p))
    let r := actRow c p t sl
    readReady s c.part f r false && bits (leAt (readRow s f r) 560 48) (32 * k) 32 == 2 ^ 32 - 1

/-- The faults of a token's blocks: cause 3; its place is recorded as row 0 and the first group of the block, which R126 does not give (DESIGN CHOICE, log entry 30). -/
def blockFaults (bs : List Blk) : List (Nat × Nat × Nat) :=
  (bs.mapIdx fun b x => if x.bad then [(3, 0, 32 * b / 5)] else []).flatten

/-- The tiles and the plane of unit `u`: a tile's planes run one after another, a window's two tiles together (R105, R115). -/
def unitTiles (p u : Nat) : List Nat × Nat :=
  if Br.mode p = 2 then ([2 * u, 2 * u + 1], 0) else ([u / Br.planes p], u % Br.planes p)

/-- Units of a part. -/
def unitCount (c : PartCtx) (p : Nat) : Nat := braidUnits c.counts p * Br.planes p

/-- Which tiles of a unit the span skips (R265). -/
def unitIdle (s : State) (c : PartCtx) (inSpan : Bool) (p f u : Nat) (skips : List Nat) : List Bool :=
  (unitTiles p u).1.map fun i => inSpan && tileIdle s c p f (countOf c.counts (Br.batch p)) (tileSlice p i) skips

/-- The rows a unit's load reads: those of its tiles that are not skipped. -/
def loadUses (c : PartCtx) (p u : Nat) (idle : List Bool) : List RowUse :=
  let x := unitTiles p u
  ((x.1.mapIdx fun k i => if idle.getD k false then [] else (tileRowsOf c p i x.2).map (RowUse.load (Br.wConsume p))).flatten).eraseDups

/-- Nothing loaded. -/
def SpoolBuf.none : SpoolBuf := { rows := [], poison := false, faulty := false }

/-- Load a unit into the buffer the lanes do not read (R93, R113, R115): a skipped tile of a window counts as zeros. -/
def loadUnit (c : PartCtx) (p f u : Nat) (idle : List Bool) (s : State) : State :=
  let x := unitTiles p u
  let a := (x.1.mapIdx fun k i => (k, i)).foldl (fun (a : List (List TileRow) × Bool × State) ki =>
    if idle.getD ki.1 false then (a.1 ++ [List.replicate (Br.outRows p) { TileRow.none with bytes := List.replicate 32 0 }], a.2) else
    let r := accessRows true c.part f (Br.wConsume p) (tileRowsOf c p ki.2 x.2) a.2.2
    (a.1 ++ [if Br.mode p = 3 then transposedRows r.1.1 else tileRows (Br.outRows p) r.1.1], a.2.1 || r.1.2, r.2)) ([], false, s)
  let buf := (fld a.2.2 f).spoolBuf
  let prev := if Br.mode p = 4 ∧ x.2 ≠ 0 then some (Tbl.get SpoolBuf.none (fld a.2.2 f).spool (b2n buf)).rows else none
  let fs := (a.1.map (spoolFaults (Br.maskEn p) prev)).flatten
  let rows := if Br.mode p = 2 then windowRows (a.1.getD 0 []) (a.1.getD 1 []) else denseRows (a.1.headD [])
  braidFaults c f fs (modFld f (fun y =>
    { y with spool := Tbl.set SpoolBuf.none y.spool (b2n !buf) { rows := rows, poison := a.2.1, faulty := !fs.isEmpty },
             podPeak := max y.podPeak (min 15 ((rows.map fun r => r.pod.length).foldl max 0)) }) a.2.2)

/-- The spool in front of the lanes. -/
def frontBuf (s : State) (f : Nat) : SpoolBuf :=
  Tbl.get SpoolBuf.none (fld s f).spool (b2n (fld s f).spoolBuf)

/-- Sprout channels in the slices of a unit's tiles that run (R163). -/
def unitChans (p u : Nat) (idle : List Bool) (chans : List Nat) : Nat :=
  (((unitTiles p u).1.mapIdx fun k i => if idle.getD k false then 0 else (chans.filter (· / 160 == tileSlice p i)).length).sum)

/-- Cycles a token of unit `u` takes. -/
def Flight.tokenTime (x : Flight) : Nat := tokenCycles x.word (unitChans x.word x.unit [] x.chans)

/-- When unit `u` of the tile in the lanes begins: its planes follow one another. -/
def Flight.unitAt (c : PartCtx) (x : Flight) : Nat :=
  x.tileAt + (x.unit % Br.planes x.word) * x.tokenTime * countOf c.counts (Br.batch x.word)

/-- Whether the rows of a use are ready for a field. -/
def usesReady (s : State) (part f : Nat) (us : List RowUse) : Bool :=
  us.all fun u => if u.merge then !inCacheBank s u.row else if u.fill then fillReady s part f u.row else readReady s part f u.row u.consume

/-- Begin to load unit `u` if all its rows have come (R93); the boundary waits for what is missing (R94). -/
def tryLoad (c : PartCtx) (u loadEnd : Nat) (x : Flight) (s : State) : Flight × State :=
  let idle := unitIdle s c x.inSpan x.word x.field u x.skips
  let us := loadUses c x.word u idle
  if usesReady s c.part x.field us then
    let s := if us.isEmpty then s else loadUnit c x.word x.field u idle s
    ({ x with loaded := true, loadEnd := loadEnd, idleNext := idle,
              gated := x.gated || (!us.isEmpty && (Tbl.get SpoolBuf.none (fld s x.field).spool (b2n !(fld s x.field).spoolBuf)).faulty) }, s)
  else ({ x with loaded := false, loadEnd := loadEnd, idleNext := idle }, s)

/-- Load the first tile of the field's next BRAID part, which is warm, during the last of this one (R260). -/
def tryAhead (c : PartCtx) (x : Flight) (next : Option (Nat × List Nat × Nat)) (s : State) : State :=
  match next with
  | none => s
  | some w =>
    let c' := { c with base := w.2.1, bundle := w.2.2 }
    let us := loadUses c' w.1 0 []
    if usesReady s c.part x.field us then
      modSeq (fun q => { q with cur := q.cur.map fun r => { r with ahead := r.ahead ++ [x.field] } }) (loadUnit c' w.1 x.field 0 [] s)
    else s

/-- The accesses a BRAID part makes at its next step: 0 the mask and map rows, 1 what a unit's load still misses at the boundary, from 2 on the rows of one token. -/
def braidStepUses (s : State) (c : PartCtx) (x : Flight) : List RowUse :=
  let p := x.word
  let n := countOf c.counts (Br.batch p)
  match x.step with
  | 0 => (maskRows c p n ++ mapRows c p).map RowUse.keep
  | 1 => if x.loaded then [] else loadUses c p x.unit (unitIdle s c x.inSpan p x.field x.unit x.skips)
  | t + 2 =>
    let u := unitTiles p x.unit
    ((u.1.mapIdx fun k i => if x.idle.getD k false then [] else
        [RowUse.read (Br.aConsume p && decide (i + 1 = countOf c.counts (Br.tiles p)) && decide (u.2 + 1 = Br.planes p)) (actRow c p t (tileSlice p i))]).flatten ++
      if unitChans p x.unit x.idle x.chans = 0 then [] else (sproutValRows c p t x.chans.length).map RowUse.keep).eraseDups

/-- Step 0: the masks and the map are read, the first tile's load begins unless the part is warm (R122, R260). A skipped row and token count in BRD_ROW_SKIPS once for the part; the spec does not say whether once for each tile (DESIGN CHOICE, log entry 30). -/
def braidBegin (c : PartCtx) (x : Flight) (s : State) : Flight × State :=
  let p := x.word
  let f := x.field
  let n := countOf c.counts (Br.batch p)
  let sk := accessRows true c.part f false (maskRows c p n) s
  let mp := accessRows true c.part f false (mapRows c p) sk.2
  let skips := skipMasks mp.2 c p n sk.1.1
  let chans := if mp.1.1.isEmpty then [] else sproutMap mp.1.1 (Img.laySprout c.image (Br.layer p))
  let s := modFld f (fun y =>
    { y with brdMode := Br.mode p, wide := Br.tblFmt p == 4, predicted := Br.predEn p,
             rowSkips := satAdd 64 y.rowSkips ((skips.map fun m => ((List.range (Br.outRows p)).filter (bit m)).length).sum) }) mp.2
  let l0 := if Br.warm p then 0 else loadTime (rowOf c.base (Br.wReg p) (Br.wOff p)) p 0
  let x := { x with step := 1, tileAt := x.start + l0, due := x.start + l0, skips := skips, chans := chans, poison := sk.1.2 || mp.1.2 }
  if !Br.warm p then tryLoad c 0 (x.start + l0) x s
  else if s.seq.cur.any fun r => r.ahead.contains f then
    ({ x with loaded := true, idleNext := unitIdle s c x.inSpan p f 0 skips }, modSeq (fun q => { q with cur := q.cur.map fun r => { r with ahead := r.ahead.filter (· != f) } }) s)
  else (x, s)

/-- The load time of the warm part's first tile. -/
def warmTime (next : Option (Nat × List Nat × Nat)) : Option Nat := next.map fun w => loadTime (rowOf w.2.1 (Br.wReg w.1) (Br.wOff w.1)) w.1 0

/-- The next unit after the one in the lanes, or the part's end. -/
def braidNext (c : PartCtx) (after : Option Nat) (x : Flight) : Option Flight :=
  let p := x.word
  if unitCount c p ≤ x.unit + 1 then none else
  let x' := { x with unit := x.unit + 1, step := 1, idle := [],
                     tileAt := if (x.unit + 1) % Br.planes p = 0 then x.tileAt +
                       tileCycles c.counts c.base (fun i => unitChans p (i * Br.planes p) [] x.chans) after p (x.unit / Br.planes p) else x.tileAt }
  some { x' with due := x'.unitAt c }

/-- Step 1: the boundary. What the load misses is loaded, the buffers switch, and the next load begins (R93, R94, R260, R265). -/
def braidBoundary (c : PartCtx) (next : Option (Nat × List Nat × Nat)) (x : Flight) (s : State) : Option Flight × State :=
  let p := x.word
  let f := x.field
  let a := if x.loaded then (x, s) else tryLoad c x.unit x.loadEnd x s
  let x := { a.1 with idle := a.1.idleNext, loaded := false }
  let after := warmTime next
  let off := !x.idle.isEmpty && x.idle.all id
  let s := if off then a.2 else
    modFld f (fun y => { y with spoolBuf := !y.spoolBuf, activeCycles := satAdd 64 y.activeCycles (x.tokenTime * countOf c.counts (Br.batch p)) }) a.2
  let b := if x.unit + 1 < unitCount c p then
      let i := (x.unit + 1) / Br.planes p
      tryLoad c (x.unit + 1) (x.due + loadTime (rowOf c.base (Br.wReg p) (Br.wOff p)) p i) x s
    else ({ x with loadEnd := x.due + after.getD 0 }, tryAhead c x next s)
  if off then (braidNext c after b.1, b.2) else (some { b.1 with step := 2, gated := b.1.gated || (frontBuf s f).faulty }, b.2)

/-- Steps from 2 on: one token passes (R90, R98, R118, R122, R127, R161). Its sums reach the store 24 cycles after its row's slot, 29 for A8 (R91, R195). -/
def braidToken (c : PartCtx) (next : Option (Nat × List Nat × Nat)) (x : Flight) (s : State) : Option Flight × State :=
  let p := x.word
  let f := x.field
  let t := x.step - 2
  let u := unitTiles p x.unit
  let buf := frontBuf s f
  let skip := x.skips.getD t 0
  let rd := (u.1.mapIdx fun k i => (k, i)).foldl (fun (b : List (Option (List Blk × Nat × Bool)) × State) ki =>
    if x.idle.getD ki.1 false then (b.1 ++ [none], b.2) else
    let r := readSlice c p f t (tileSlice p ki.2)
      (Br.aConsume p && decide (ki.2 + 1 = countOf c.counts (Br.tiles p)) && decide (u.2 + 1 = Br.planes p)) b.2
    (b.1 ++ [some r.1], r.2)) ([], s)
  let bf := (rd.1.map fun r => r.elim [] fun r => blockFaults r.1).flatten
  let s := braidFaults c f bf rd.2
  let gate := x.gated || !bf.isEmpty
  let gs := (rd.1.mapIdx fun k r => (List.range 32).map fun g => match r with
    | some r => mkGroup k r.1 r.2.1 g
    | none => { cls := 5 * k, e := 0, tbl := List.replicate 122 0, sat := false, zero := true }).flatten
  let sv := accessRows true c.part f false (if unitChans p x.unit x.idle x.chans = 0 then [] else sproutValRows c p t x.chans.length) s
  let poison := x.poison || buf.poison || sv.1.2 || rd.1.any fun r => r.any (·.2.2)
  let s := modFld f (fun y =>
    { y with tables := gs.map fun g => g.tbl.drop 1,
             laneGated := satAdd 64 y.laneGated (Br.c p * ((List.range (Br.outRows p)).map (gatedLanes gs skip buf.rows)).sum),
             tblSat := satAdd 32 y.tblSat (gs.filter Group.sat).length }) sv.2
  let live := (List.range (Br.outRows p)).filter fun r => !bit skip r
  let due := x.due + 12 + (if Br.tblFmt p = 4 then 17 else 12)
  let sums : Landing :=
    { due := due, field := f, fmt := Br.accFmt p, eRef := Br.eRef p, line := Br.setLine p, token := t, bundle := c.bundle, preload := false, poison := poison,
      ints := [], codes := [] }
  let ns := live.map fun r => (r, if gate then 0 else
    rowSum gs (if Br.mode p = 4 then some (buf.rows.getD r ⟨[], 0, 0, []⟩).pexp else none) (Br.eRef p) (rowEntries buf.rows r) * (3 ^ u.2 : Nat))
  let sums := if isIntAcc (Br.accFmt p) then { sums with ints := ns } else { sums with codes := ns.map fun n => (n.1, [f32OfInt n.2 ((Br.eRef p : Int) - 127)]) }
  let adds := if gate then [] else
    ((u.1.mapIdx fun k i => if x.idle.getD k false then [] else
      sproutAdds k (sliceSprout x.chans sv.1.1 (tileSlice p i)) skip (Br.outRows p) buf.rows).flatten).filter fun a => !a.2.isEmpty
  let sprout : List Landing := if adds.isEmpty then [] else
    [{ sums with fmt := 11, eRef := 0, line := if Br.accFmt p = 11 then Br.setLine p else Br.compLine p, ints := [], codes := adds }]
  let s := modNp (fun y => { y with sproutAdds := satAdd 64 y.sproutAdds (adds.map fun a => a.2.length).sum }) s
  let s := modSeq (fun q => { q with cur := q.cur.map fun r => { r with adds := r.adds ++ sums :: sprout } }) s
  let x := { x with gated := gate, step := x.step + 1, due := x.due + x.tokenTime }
  let after := warmTime next
  (if t + 1 < countOf c.counts (Br.batch p) then some x else braidNext c after x, s)

/-- One step of a BRAID part; `next` is the field's next BRAID part if it is warm. -/
def braidStep (c : PartCtx) (next : Option (Nat × List Nat × Nat)) (x : Flight) (s : State) : Option Flight × State :=
  match x.step with
  | 0 => let a := braidBegin c x s; (some a.1, a.2)
  | 1 => braidBoundary c next x s
  | _ => braidToken c next x s

/-- The number of sprout channels in the slices of tile or window `i` of a part, from a field's map (R163). -/
def sproutCount (s : State) (c : PartCtx) (p f i : Nat) : Nat :=
  if !Br.sproutEn p then 0 else
  unitChans p (i * Br.planes p) [] (sproutMap ((sproutRows c (Br.layer p)).map (readRow s f)) (Img.laySprout c.image (Br.layer p)))

end Sys2Proof.Machine
end

