-- ==== Sys2Proof/Machine/Epilogue.lean ====
section
/-! DEFINITION. The other parts of a bundle: PRELOAD, CLEAR, EPILOGUE, SPLICE, PREDMASK, with the narrow-precision monitor (R138, R143 to R155, R160, R165 to R167, R178 to R181, R649 to R652). -/
namespace Sys2Proof.Machine

/-! ### Shared pieces -/

/-- A row a part writes: a fill, or a merge (R149). -/
def RowUse.write (merge : Bool) (r : Nat) : RowUse := { row := r, consume := false, spool := false, fill := true, merge := merge }

/-- An element of a row stream as a binary32 code. -/
def streamF32 (fmt : Nat) (rows : List (List Byte)) (i : Nat) : Nat :=
  if fmt = 7 then rowsElem rows 160 4 i
  else if fmt = 6 then f32OfBf16 (rowsElem rows 320 2 i)
  else if fmt = 5 then f32OfLns (rowsElem rows 320 2 i)
  else match streamVal fmt rows i with
    | .fin m e => f32OfInt m e
    | _ => 0

/-- The magnitude code of a binary32 value; a NaN counts as zero (R54, R67). -/
def f32Mag (a : Nat) : Nat := if f32Val a == .nan then 0 else a % 2 ^ 31

/-- The rows, counted from a vector's first, that hold its values `lo` to `hi - 1`. -/
def spanRows (per lo hi : Nat) : List Nat := (List.range (ceilDiv hi per - lo / per)).map (lo / per + ·)

/-- A drained element as binary32 (R145 step 1); an empty line reads as zero. -/
def drainElem (s : State) (f fmt base r t : Nat) : Lvu Nat :=
  let tg := lineTag s f (elemPos fmt base r t / 2048)
  if !tg.opened then pure 0
  else if fmt = 11 then pure (accElem s f fmt base r t)
  else Lv.noteF true (f32OfInt (accRead fmt (accElem s f fmt base r t)) ((tg.eRef : Int) - 127))

/-- The lines of a token have a format fault against a drain, which names a format alone (R139). -/
def drainFault (s : State) (f fmt base t : Nat) : Option (Nat × Nat × LineTag) :=
  (tokenLines fmt base t).findSome? fun l =>
    let tg := lineTag s f l
    if tg.opened && tg.format != fmt then some (l, 1, tg) else none

/-- A token's lines carry poison. -/
def drainPoison (s : State) (f fmt base t : Nat) : Bool := (tokenLines fmt base t).any fun l => (lineTag s f l).poison

/-- A drain has read token `t` of a set of `n`: a faulting token leaves its lines as they are, another empties those that no later token of the set still needs (R137, R141). -/
def drainToken (c : PartCtx) (f fmt base n t : Nat) (s : State) : State :=
  match drainFault s f fmt base t with
  | some (l, cause, tg) => formatFault c.part f cause fmt l c.bundle tg s
  | none =>
    let later := ((List.range 3).map fun k => t + 1 + k).flatMap fun u =>
      if n ≤ u || (drainFault s f fmt base u).isSome then [] else tokenLines fmt base u
    let ls := (tokenLines fmt base t).filter fun l => !later.contains l
    modFld f (fun x => { x with linesDrained := satAdd 64 x.linesDrained ls.length }) (ls.foldl (fun s l => emptyLine f l s) s)

/-! ### PRELOAD and CLEAR (R138, R143, R144) -/

/-- The rows a token's preload reads. -/
def preloadRows (c : PartCtx) (p t : Nat) : List Nat :=
  let b := rowOf c.base (Pl.srcReg p) (Pl.srcOff p) + if Pl.perToken p then t * Pl.srcRpt p else 0
  (spanRows (perRow (Pl.srcFmt p)) (512 * Pl.band p) (512 * Pl.band p + 512)).map fun q => (b + q) % 32768

def preloadUses (c : PartCtx) (p : Nat) : List RowUse :=
  ((List.range (countOf c.counts (Pl.batch p))).flatMap (preloadRows c p)).eraseDups.map RowUse.keep

/-- The last line of token `t` counted from its set's base: the preload writes one line per cycle (R143). -/
def lastLine (fmt t : Nat) : Nat := (elemPos fmt 0 511 t + accBytes fmt - 1) / 2048

/-- One token of a PRELOAD part: its rows are read, and its lines written once they are delivered (R143, R195). -/
def preloadStep (c : PartCtx) (x : Flight) (s : State) : Option Flight × State :=
  let p := x.word
  let t := x.step
  let fmt := Pl.accFmt p
  let lo := 512 * Pl.band p % perRow (Pl.srcFmt p)
  let a := accessRows true c.part x.field false (preloadRows c p t) s
  let s := badBlockFaults c.part 1 x.field (badBlocks (Pl.srcFmt p) a.1.1 lo (lo + 512)) a.2
  let l : Landing :=
    { due := x.due + 12, field := x.field, fmt := fmt, eRef := if fmt = 11 then 0 else Pl.eRef p, line := Pl.setLine p, token := t, bundle := c.bundle,
      preload := true, poison := a.1.2,
      ints := if fmt = 11 then [] else (List.range 512).map fun r => (r, preloadInt fmt (Pl.eRef p) (streamVal (Pl.srcFmt p) a.1.1 (lo + r))),
      codes := if fmt = 11 then (List.range 512).map fun r => (r, [streamF32 (Pl.srcFmt p) a.1.1 (lo + r)]) else [] }
  (if t + 1 < countOf c.counts (Pl.batch p) then some { x with step := t + 1, due := x.start + lastLine fmt (t + 1) } else none,
    modSeq (fun q => { q with cur := q.cur.map fun r => { r with adds := r.adds ++ [l] } }) s)

/-- One cycle of a CLEAR part: sixteen lines (R138). -/
def clearStep (x : Flight) (s : State) : Option Flight × State :=
  let p := x.word
  let n := Cl.count p - 16 * x.step
  (if 16 < n then some { x with step := x.step + 1, due := x.due + 1 } else none,
    (List.range (min 16 n)).foldl (fun s i => emptyLine x.field ((Cl.firstLine p + 16 * x.step + i) % 2048) s) s)

/-! ### The monitor (R146, R165 to R167) -/

/-- A layer's breach: bit 0 null, bit 1 clip (R167). -/
def breachKind (cfg : NpLayerCfg) (st : Nat × Nat × Nat × Nat) : Nat :=
  b2n (decide (cfg.nullThresh ≠ 0) && decide (cfg.nullThresh < st.1)) +
    2 * b2n (decide (cfg.clipThresh ≠ 0) && decide (cfg.clipThresh < st.2.1))

/-- The breach that NP_BREACH records may come to be of both kinds. -/
def latchKind (layer kind : Nat) (x : NpSt) : NpSt :=
  if x.recOpen && x.recLayer == layer then { x with recKind := x.recKind ||| kind } else x

/-- NP_BREACH takes the first breach since it was cleared (R167, R185): its reason is open until firmware tests it, but for a breach outside the region or of a layer without replay_en (R174; log entry 30). -/
def latchBreach (part layer kind : Nat) (x : NpSt) : NpSt :=
  if x.recValid then x
  else { x with recValid := true, recOpen := true, recKind := kind, recPartition := part, recLayer := layer, recNewE := 0,
                recReason := if !x.inRegion then 3 else if (Tbl.opt .reset x.layerCfg layer).replayEn then 0 else 2 }

/-- Class a block and latch the layer's breach. `mag` is the largest magnitude before narrowing, sprout channels left out. -/
def monitorBlock (part layer mag flag : Nat) (s : State) : State :=
  modNp (fun x =>
    let o := Tbl.get (0, 0, 0, 0) x.stats layer
    let st := (satAdd 32 o.1 (b2n (flag == 1 && mag != 0)), satAdd 32 o.2.1 (b2n (flag == 2)),
      satAdd 32 o.2.2.1 (b2n (mag == 0)), max o.2.2.2 mag)
    let k := breachKind (Tbl.opt .reset x.layerCfg layer) st
    let x := { x with stats := Tbl.set (0, 0, 0, 0) x.stats layer st }
    if k = 0 then x
    else if x.breaches.any (fun b => b.1 == layer) then
      latchKind layer k { x with breaches := x.breaches.map fun b => if b.1 = layer then (b.1, b.2.1 ||| k, b.2.2) else b }
    else latchBreach part layer k { x with breaches := x.breaches ++ [(layer, k, x.inRegion, 0)], breach := true,
                                           firstLayer := if x.breach then x.firstLayer else layer }) s

/-! ### EPILOGUE: rows -/

/-- The output format of plane form is that of its mantissas. -/
def epPer (p : Nat) : Nat := perRow (Ep.outFmt p)

/-- First and last values of the band. -/
def epLo (p : Nat) : Nat := 512 * Ep.band p
def epHi (p : Nat) : Nat := 512 * Ep.band p + 512

/-- The sprout map of an epilogue's output: layer-table entry, number of channels. -/
def epSprout (c : PartCtx) (p : Nat) : Nat := if Ep.sproutOut p then Img.laySprout c.image (Ep.layer p) else 0

/-- Row `q` of token `t`'s output vector. -/
def epOutRow (c : PartCtx) (p t q : Nat) : Nat :=
  (rowOf c.base (Ep.outReg p) (Ep.outOff p) + t * Ep.outRpt p + q) % 32768

/-- Plane-form row of token `t`, slice `sl`, plane `j` (R102). -/
def epPlaneRow (c : PartCtx) (p t sl j : Nat) : Nat :=
  let np := if Ep.outFmt p = 4 then 6 else 3
  (rowOf c.base (Ep.outReg p) (Ep.outOff p) + ((t / 512 * Ep.outRpt p + sl) * np + j) * 32 + t % 512 / 16) % 32768

/-- The rows that hold a vector operand: scale, gate scale, output scale, bias, gate bias, each a list. -/
def epVecRows (c : PartCtx) (p : Nat) : List (List Nat) :=
  let v := rowOf c.base (Ep.vecReg p) (Ep.vecOff p)
  let nb := if Ep.biasFmt p = 0 then 0 else if Ep.biasFmt p = 1 then 2 else 4
  let b := rowOf c.base (Ep.vecReg p) (Ep.biasOff p)
  let rs := fun (x n : Nat) => (List.range n).map fun i => (x + i) % 32768
  [rs v 2, if Ep.gateEn p then rs (v + 2) 2 else [], if Ep.oscaleEn p then rs (v + 4) 2 else [], rs b nb,
    if Ep.gateEn p then rs (b + nb) nb else []]

/-- The residual rows of token `t`. -/
def epResRows (c : PartCtx) (p t : Nat) : List Nat :=
  if !Ep.resEn p then [] else
    (spanRows (perRow (Ep.resFmt p)) (epLo p) (epHi p)).map fun q =>
      (rowOf c.base (Ep.resReg p) (Ep.resOff p) + t * Ep.outRpt p + q) % 32768

/-- A token's sprout rows: after the output rows of the batch's last token, token by token (log entry 16). -/
def epSproutRow (c : PartCtx) (p t k : Nat) : Nat :=
  epOutRow c p (countOf c.counts (Ep.batch p)) (t * ceilDiv (epSprout c p) 320 + k)

/-- The rows an epilogue reads once: vectors, skip masks, sprout map. -/
def epSkipRows (c : PartCtx) (p : Nat) : List Nat :=
  if Ep.skipEn p then (List.range (ceilDiv (countOf c.counts (Ep.batch p)) 10)).map fun k => skipRow c.base (Ep.skipReg p) (Ep.skipOff p) (10 * k) else []
def epMapRows (c : PartCtx) (p : Nat) : List Nat := if epSprout c p = 0 then [] else sproutRows c (Ep.layer p)

/-- Planes of an output in plane form (R101). -/
def epPlanes (p : Nat) : Nat := if Ep.outFmt p = 4 then 6 else 3

/-- The rows token `t` writes its values to: by merge where another drain or token has left the row partly filled (R102, R149). -/
def epOutUses (c : PartCtx) (p t : Nat) : List RowUse :=
  if Ep.plane p then
    (spanRows 160 (epLo p) (epHi p)).flatMap fun sl => (List.range (epPlanes p)).map fun j =>
      RowUse.write (decide (160 * sl < epLo p) || decide (t % 16 ≠ 0)) (epPlaneRow c p t sl j)
  else (spanRows (epPer p) (epLo p) (epHi p)).map fun q => RowUse.write (decide (epPer p * q < epLo p)) (epOutRow c p t q)

/-- The channels of sprout row `k` that this band supplies, with their places, and the row's first and last channel (R160). -/
def epSproutHere (p : Nat) (chans : List Nat) (k : Nat) : List (Nat × Nat) × Nat × Nat :=
  let mine := (chans.drop (320 * k)).take 320
  ((mine.mapIdx fun i ch => (i, ch)).filter fun x => decide (epLo p ≤ x.2) && decide (x.2 < epHi p), mine.headD 0, mine.getLast?.getD 0)

/-- The sprout rows token `t` writes, given the map's channels. -/
def epSproutUses (c : PartCtx) (p t : Nat) (chans : List Nat) : List RowUse :=
  (List.range (ceilDiv chans.length 320)).filterMap fun k =>
    let h := epSproutHere p chans k
    if h.1.isEmpty then none else some (RowUse.write (decide (h.2.1 < epLo p)) (epSproutRow c p t k))

/-- Every row an EPILOGUE part uses; which of its sprout rows a band writes depends on the map, so all are named. -/
def epUses (c : PartCtx) (p : Nat) : List RowUse :=
  let n := countOf c.counts (Ep.batch p)
  if n = 0 then [] else
  ((epVecRows c p).flatten ++ (List.range n).flatMap (epResRows c p) ++ epSkipRows c p ++ epMapRows c p).map RowUse.keep ++
    (List.range n).flatMap fun t => epOutUses c p t ++
      (List.range (ceilDiv (epSprout c p) 320)).map fun k => RowUse.write (decide (0 < Ep.band p)) (epSproutRow c p t k)

/-! ### EPILOGUE: values -/

/-- What the rows of an epilogue hold: scale, gate scale, output scale, bias, gate bias. -/
structure EpVecs where
  scale : List (List Byte)
  gscale : List (List Byte)
  oscale : List (List Byte)
  bias : List (List Byte)
  gbias : List (List Byte)
  deriving DecidableEq, Repr

/-- Steps 1 to 4 of R145 for one element. -/
def epLinear (p r elem comp : Nat) (scale bias : List (List Byte)) : Lvu Nat := do
  let x ← if Ep.compEn p then Lv.fadd elem comp else pure elem
  let y ← Lv.scale x (rowsElem scale 320 2 r)
  if Ep.biasFmt p = 0 then pure y else Lv.fadd y (streamF32 (if Ep.biasFmt p = 1 then 6 else 7) bias r)

/-- Steps 1 to 8 of R145 for one element. -/
def epValue (p r : Nat) (elem comp gate : Lvu Nat) (res : Nat) (v : EpVecs) : Lvu Nat := do
  let e ← elem
  let k ← comp
  let x ← epLinear p r e k v.scale v.bias
  let x ← Lv.apply (Ep.func p) x
  let x ← if Ep.gateEn p then do
      let g ← gate
      let g ← Lv.scale g (rowsElem v.gscale 320 2 r)
      let g ← if Ep.biasFmt p = 0 then pure g else Lv.fadd g (streamF32 (if Ep.biasFmt p = 1 then 6 else 7) v.gbias r)
      let a ← Lv.tolns x
      let b ← Lv.tolns g
      let m ← Lv.lmul a b
      Lv.tolin m
    else pure x
  let x ← if Ep.resEn p then Lv.fadd x res else pure x
  if Ep.oscaleEn p then Lv.scale x (rowsElem v.oscale 320 2 r) else pure x

/-- Stochastic rounding of `m · 2^k` with a draw (R181). -/
def stochInt (draw : Nat) (m k : Int) : Int :=
  if 0 ≤ k then rneInt m k else
    let n := (-k).toNat
    let q := m.natAbs / 2 ^ n
    let r := m.natAbs % 2 ^ n
    let u := if draw % 2 ^ 32 * 2 ^ n < r * 2 ^ 32 then q + 1 else q
    if m < 0 then -(u : Int) else u

/-- The exponent of fixed mode: the override of the monitored layer, else the program's; 0 acts as 1 (R54, R176). -/
def epFixedE (s : State) (c : PartCtx) (p : Nat) : Nat :=
  let e := if Ep.monEn p then (Tbl.get none s.np.layerExp (Img.layMon c.image (Ep.layer p))).getD (Ep.fixedE p) else Ep.fixedE p
  if e % 256 = 0 then 1 else e % 256

/-- Narrow one block of a token (R54 to R56, R180, R181). -/
def epNarrow (s : State) (c : PartCtx) (p key t first : Nat) (xs : List Nat) : Blk × Nat :=
  let vs := xs.map f32Val
  let e := if Ep.fixed p then epFixedE s c p else dynExp (fmtMax (Ep.outFmt p)) vs
  let round := if Ep.stoch p then fun i m k => stochInt (Config.mixG key t (first + i)) m k else fun _ => rneInt
  narrowAt (Ep.outFmt p) e round vs

/-- Place element codes into a row of `n`-byte elements. -/
def placeElems (row : List Byte) (n : Nat) (xs : List (Nat × Nat)) : List Byte :=
  xs.foldl (fun row x => (row.take (n * x.1) ++ leBytes n x.2 ++ row.drop (n * x.1 + n)).take 640) row

/-- Place blocks into a row, recomputing flags and map over the whole row (R150). -/
def placeBlks (fmt : Nat) (row : List Byte) (bs : List (Nat × Blk)) : List Byte :=
  blockRow fmt ((rowBlocks fmt row).mapIdx fun i b => ((bs.find? fun x => x.1 == i).map Prod.snd).getD
    (if row.all (· == 0) then .null else b))

/-- What a merge finds in its row, or zeros; the read is the partition's own and is suppressed and counted as any (R149, R222). -/
def mergeRead (part f row : Nat) (merge : Bool) (s : State) : (List Byte × Bool) × State :=
  if merge then accessRow true part f row false s else ((List.replicate 640 0, false), s)

/-- Write one output row of a drain: by merge unless this drain supplies its first value (R149). -/
def epPut (part f row : Nat) (merge full poison : Bool) (g : List Byte → List Byte) (s : State) : State :=
  let a := mergeRead part f row merge s
  putRow true part f row (g a.1.1) (poison || a.1.2) full a.2

/-! ### EPILOGUE: plane form (R101 to R103) -/

/-- Balanced-ternary digits of a mantissa, lowest first. -/
def balanced : Nat → Int → List Int
  | 0, _ => []
  | n + 1, v =>
    let d := (v + 1) % 3 - 1
    d :: balanced n ((v - d) / 3)

/-- The value of balanced-ternary digits. -/
def unbalanced (ds : List Int) : Int := (ds.mapIdx fun (i : Nat) (d : Int) => d * (3 ^ i : Nat)).sum

/-- The 160 mantissas of a slice that the rows of a set hold so far for an output row. -/
def planeOld (rows : List (List Byte)) (t : Nat) : List Int :=
  let ts := rows.map fun r => (sliceBytes r (32 * (t % 16)) 32).flatMap t5pTrits
  (List.range 160).map fun v => unbalanced (ts.map fun d => d.getD v 0)

/-- One output row of a plane tile: 32 bytes of digits, zero map, exponent, placed in its data row. -/
def planePlace (t e : Nat) (digits : List Int) (row : List Byte) : List Byte :=
  let bs := (List.range 32).map fun g => t5pByte ((List.range 5).map fun i => digits.getD (5 * g + i) 0)
  let zm := (bs.mapIdx fun g b => if b = 0 then 2 ^ g else 0).sum
  let k := t % 16
  let row := row.take (32 * k) ++ bs ++ row.drop (32 * k + 32)
  let row := row.take (512 + 4 * k) ++ leBytes 4 zm ++ row.drop (516 + 4 * k)
  row.set (576 + k) (BitVec.ofNat 8 e)

/-- Write a token's slice in plane form: the exponents of its non-null blocks must agree, else the write faults and the slice is null (R103). -/
def planeSlice (c : PartCtx) (p f t n sl : Nat) (blks : List (Nat × Blk)) (poison last : Bool) (s : State) : State :=
  let np := epPlanes p
  let band := decide (160 * sl < epLo p)
  let rd := (List.range np).foldl (fun (a : List (List Byte × Bool) × State) j =>
    let r := mergeRead c.part f (epPlaneRow c p t sl j) (band || decide (t % 16 ≠ 0)) a.2
    (a.1 ++ [r.1], r.2)) ([], s)
  let s := rd.2
  let old := if band then planeOld (rd.1.map Prod.fst) t else List.replicate 160 0
  let oldE := if band then ((rd.1.headD ([], false)).1.getD (576 + t % 16) 0).toNat else 0
  let es := ((blks.map fun b => b.2.e) ++ [oldE]).filter (· != 0)
  let ok := es.all (· == es.headD 0)
  let ms := (List.range 160).map fun v =>
    ((blks.find? fun b => b.1 == v / 32).map fun b => b.2.ms.getD (v % 32) 0).getD (old.getD v 0)
  let ms := if ok then ms else List.replicate 160 0
  let s := if ok then s else faultSegment c.part stMetadataFault 1 f 4 (countError 3 s)
  let full := (decide (160 * sl + 160 ≤ epHi p) || last) && (decide (t % 16 = 15) || decide (t + 1 = n))
  (rd.1.mapIdx fun j x => (j, x)).foldl (fun s x =>
    putRow true c.part f (epPlaneRow c p t sl x.1) (planePlace t (if ok then es.headD 0 else 0) (ms.map fun m => (balanced np m).getD x.1 0) x.2.1)
      (poison || x.2.2) full s) s

/-! ### EPILOGUE: one token -/

/-- Count an audited token's skipped rows (R179). `outs` gives for each row the value before narrowing and whether its output is non-zero. -/
def countAudit (skip : Nat) (outs : List (Nat × Bool)) (s : State) : State :=
  let sk := (outs.mapIdx fun r x => (r, x)).filter fun x => bit skip x.1
  let ms := sk.filter fun x => x.2.2
  modNp (fun x =>
    { x with predAudits := satAdd 64 x.predAudits sk.length, predMisses := satAdd 64 x.predMisses ms.length,
             predMissMax := (ms.map fun m => f32Mag m.2.1).foldl max x.predMissMax }) s

/-- Write the sprout values of a token that this band supplies (R160). -/
def epSproutPut (c : PartCtx) (x : Flight) (t : Nat) (vals : List Nat) (poison : Bool) (s : State) : State :=
  let p := x.word
  (List.range (ceilDiv x.chans.length 320)).foldl (fun s k =>
    let h := epSproutHere p x.chans k
    if h.1.isEmpty then s else
      epPut c.part x.field (epSproutRow c p t k) (decide (h.2.1 < epLo p)) (decide (h.2.2 < epHi p) || x.last) poison
        (fun row => placeElems row 2 (h.1.map fun y => (y.1, bf16OfF32 (vals.getD (y.2 - epLo p) 0)))) s) s

/-- The predicted layer whose PREDMASK part wrote the skip mask of token `t` (R177). -/
def epPredicted (s : State) (c : PartCtx) (p f t : Nat) : Option Nat :=
  if !Ep.skipEn p then none else
    s.seq.cur.bind fun r => Tbl.get none r.masks (32768 * f + skipRow c.base (Ep.skipReg p) (Ep.skipOff p) t)

/-- A set that an EPILOGUE drains: format and base line. -/
def epSets (p : Nat) : List (Nat × Nat) :=
  (Ep.srcFmt p, Ep.srcLine p) :: (if Ep.compEn p then [(11, Ep.compLine p)] else []) ++ if Ep.gateEn p then [(Ep.srcFmt p, Ep.gateLine p)] else []

/-- What one token drained: whether a line of it faulted or was poisoned, its residual with poison, its 512 values before skipping. -/
structure EpVals where
  faulty : Bool
  poison : Bool
  lineP : Bool
  vals : List Nat
  deriving DecidableEq, Repr

/-- Drain one token and take its elements through steps 1 to 8 (R137, R141, R145, R157). -/
def epDrain (c : PartCtx) (x : Flight) (t : Nat) (s : State) : EpVals × State :=
  let p := x.word
  let f := x.field
  let fmt := Ep.srcFmt p
  let n := countOf c.counts (Ep.batch p)
  let faulty := (epSets p).any fun k => (drainFault s f k.1 k.2 t).isSome
  let lineP := (epSets p).any fun k => drainPoison s f k.1 k.2 t
  let res := accessRows true c.part f false (epResRows c p t) s
  let rlo := epLo p % perRow (Ep.resFmt p)
  let s := badBlockFaults c.part 1 f (if Ep.resEn p then badBlocks (Ep.resFmt p) res.1.1 rlo (rlo + 512) else 0) res.2
  let v : EpVecs := { scale := x.rows.getD 0 [], gscale := x.rows.getD 1 [], oscale := x.rows.getD 2 [], bias := x.rows.getD 3 [], gbias := x.rows.getD 4 [] }
  let pass := ((List.range 512).mapM fun r =>
    epValue p r (drainElem s f fmt (Ep.srcLine p) r t) (if Ep.compEn p then drainElem s f 11 (Ep.compLine p) r t else pure 0)
      (if Ep.gateEn p then drainElem s f fmt (Ep.gateLine p) r t else pure 0)
      (if Ep.resEn p then streamF32 (Ep.resFmt p) res.1.1 (rlo + r) else 0) v) ({ sat := 0, flush := 0, nan := 0, ovf := 0 } : LvuCnt)
  let s := if faulty then s else addLvu f (2 * (funcPasses (Ep.func p) + b2n (Ep.gateEn p))) pass.2 s
  ({ faulty := faulty, poison := x.poison || lineP || res.1.2, lineP := lineP, vals := if faulty then List.replicate 512 0 else pass.1 },
    (epSets p).foldl (fun s k => drainToken c f k.1 k.2 n t s) s)

/-- Step 9 of an element that is not narrowed to blocks: its code, and what the conversion counts (R66, R67). A token that faulted writes zero, which the spec says only of blocks (R141; DESIGN CHOICE, log entry 17). -/
def epCode (fmt a : Nat) : Lvu Nat :=
  if fmt = 7 then pure a else if fmt = 6 then pure (bf16OfF32 a) else Lv.tolns a

/-- Drain, compute, narrow and write one token of a band (R145, R148 to R150, R160, R179). -/
def epToken (c : PartCtx) (x : Flight) (t : Nat) (s : State) : State :=
  let p := x.word
  let f := x.field
  let n := countOf c.counts (Ep.batch p)
  let d := epDrain c x t s
  let s := d.2
  let block := isBlockFmt (Ep.outFmt p)
  let skip := x.skips.getD t 0
  let aud := (epPredicted s c p f t).any fun i => audited s i t c.stepCount
  let vals := d.1.vals.mapIdx fun r v => if !aud && bit skip r then 0 else v
  let body := vals.mapIdx fun r v => if x.chans.contains (epLo p + r) then 0 else v
  let blks := if block then
      (List.range 16).map fun b => epNarrow s c p x.key t (epLo p + 32 * b) ((body.drop (32 * b)).take 32)
    else []
  let codes := (vals.mapM (epCode (Ep.outFmt p))) { sat := 0, flush := 0, nan := 0, ovf := 0 }
  let s := if d.1.faulty then s else
    addLvu f 0 (if block then { sat := 0, flush := 0, nan := (body.filter fun v => f32Val v == .nan).length, ovf := 0 } else codes.2) s
  let outs := if block then
      vals.mapIdx fun r v => (v, (((blks.getD (r / 32) (.null, 0)).1).ms.getD (r % 32) 0 != 0))
    else vals.map fun v => (v, decide (v % 2 ^ 31 ≠ 0))
  let s := if aud && !d.1.faulty then countAudit skip outs s else s
  let mon := Img.layMon c.image (Ep.layer p)
  let s := if Ep.monEn p && block && !d.1.lineP && !d.1.faulty then
      (blks.mapIdx fun b y => (b, y)).foldl (fun s y =>
        monitorBlock c.part mon ((((body.drop (32 * y.1)).take 32).map f32Mag).foldl max 0) y.2.1.flag s)
        (modNp (fun y => { y with usedExp := Tbl.set none y.usedExp mon (if Ep.fixed p then some (epFixedE s c p) else none) }) s)
    else s
  let s := if x.chans.isEmpty then s else epSproutPut c x t vals d.1.poison s
  if Ep.plane p then
    (spanRows 160 (epLo p) (epHi p)).foldl (fun s sl =>
      let mine := (List.range 5).filterMap fun k =>
        let b := 5 * sl + k
        if 32 * b < epLo p ∨ epHi p ≤ 32 * b then none else some (k, (blks.getD (b - 16 * Ep.band p) (.null, 0)).1)
      planeSlice c p f t n sl mine d.1.poison x.last s) s
  else
    (spanRows (epPer p) (epLo p) (epHi p)).foldl (fun s q =>
      let first := epPer p * q
      epPut c.part f (epOutRow c p t q) (decide (first < epLo p)) (decide (first + epPer p ≤ epHi p) || x.last) d.1.poison (fun row =>
        if block then
          placeBlks (Ep.outFmt p) row ((blks.mapIdx fun b y => (32 * b + epLo p, y.1)).filterMap fun y =>
            if y.1 < first ∨ first + epPer p ≤ y.1 then none else some ((y.1 - first) / 32, y.2))
        else
          placeElems row (if Ep.outFmt p = 7 then 4 else 2)
            (((codes.1.mapIdx fun r v => (r + epLo p, v)).filter fun y => decide (first ≤ y.1) && decide (y.1 < first + epPer p)).map fun y => (y.1 - first, y.2))) s) s

/-- The accesses of an EPILOGUE part's next step: 0 what it reads once, then token by token. -/
def epStepUses (c : PartCtx) (x : Flight) : List RowUse :=
  let p := x.word
  match x.step with
  | 0 => ((epVecRows c p).flatten ++ epSkipRows c p ++ epMapRows c p).map RowUse.keep
  | t + 1 => (epResRows c p t).map RowUse.keep ++ epOutUses c p t ++ epSproutUses c p t x.chans

/-- One step of an EPILOGUE part: every token takes 2(p + g) cycles (R147). -/
def epStep (c : PartCtx) (x : Flight) (s : State) : Option Flight × State :=
  let p := x.word
  let f := x.field
  let n := countOf c.counts (Ep.batch p)
  match x.step with
  | 0 =>
    let a := (epVecRows c p).foldl (fun (a : List (List (List Byte)) × Bool × State) rs =>
      let r := accessRows true c.part f false rs a.2.2
      (a.1 ++ [r.1.1], a.2.1 || r.1.2, r.2)) ([], false, s)
    let sk := accessRows true c.part f false (epSkipRows c p) a.2.2
    let mp := accessRows true c.part f false (epMapRows c p) sk.2
    (some { x with step := 1, rows := a.1, poison := a.2.1,
                   skips := if Ep.skipEn p then (List.range n).map (fun t => skipBits (sk.1.1.getD (t / 10) []) t) else [],
                   chans := if epSprout c p = 0 then [] else sproutMap mp.1.1 (epSprout c p) }, mp.2)
  | t + 1 =>
    (if t + 1 < n then some { x with step := t + 2, due := x.due + 2 * (funcPasses (Ep.func p) + b2n (Ep.gateEn p)) } else none, epToken c x t s)

/-! ### SPLICE (R153, R154) -/

/-- Rows of one partial: each query row's output in ⌈D/160⌉ rows, then the records, eighty to a row. -/
def splOut (d r j : Nat) : Nat := r * ceilDiv d 160 + j
def splRec (d rows r : Nat) : Nat := rows * ceilDiv d 160 + r / 80
def splRows (d rows : Nat) : Nat := rows * ceilDiv d 160 + ceilDiv rows 80

/-- Row `k` of partial `i`. -/
def splIn (c : PartCtx) (p i k : Nat) : Nat := (rowOf c.base (Sl.inReg p) (Sl.inOff p) + i * Sl.inStride p + k) % 32768
def splOutRow (c : PartCtx) (p k : Nat) : Nat := (rowOf c.base (Sl.outReg p) (Sl.outOff p) + k) % 32768

def spliceUses (c : PartCtx) (p : Nat) : List RowUse :=
  let n := splRows (Sl.d p) (countOf c.counts (Sl.rows p))
  ((List.range (Sl.partials p)).flatMap fun i => (List.range n).map fun k => RowUse.keep (splIn c p i k)) ++
    (List.range n).map fun k => RowUse.write false (splOutRow c p k)

/-- The sum of the weighted outputs of one element, in the partials' order. -/
def splElem : Nat → List (Nat × Nat) → Lvu Nat
  | acc, [] => pure acc
  | acc, (o, w) :: rest => do
    let l ← Lv.tolns o
    let m ← Lv.lmul l w
    let x ← Lv.tolin m
    let a ← Lv.fadd acc x
    splElem a rest

/-- The sum of the unnormalised weights. -/
def splSum (lmax : Nat) : Nat → List (Nat × Nat) → Lvu Nat
  | acc, [] => pure acc
  | acc, (m, lam) :: rest => do
    let a ← Lv.fadd m lam
    let b ← Lv.fsub a lmax
    let w ← Lv.exp2 b
    let x ← Lv.tolin w
    let y ← Lv.fadd acc x
    splSum lmax y rest

/-- One query row and head: the records and outputs of every partial give the combined output, m and λ (R154). -/
def splRow (recs : List (Nat × Nat)) (outs : List (List Nat)) (d : Nat) : Lvu (List Nat × Nat × Nat) := do
  let sums ← recs.mapM fun r => Lv.fadd r.1 r.2
  let lmax := (sums.drop 1).foldl Lv.fmax (sums.headD 0)
  let t ← splSum lmax 0 recs
  let tl ← Lv.tolns t
  let ls := Lv.log2 tl
  let ws ← recs.mapM fun r => do
    let a ← Lv.fadd r.1 r.2
    let b ← Lv.fsub a lmax
    let e ← Lv.fsub b ls
    Lv.exp2 e
  let os ← (List.range d).mapM fun j => splElem 0 (List.zipWith (fun (o : List Nat) w => (o.getD j 0, w)) outs ws)
  let m := (recs.drop 1).foldl (fun a r => Lv.fmax a r.1) (recs.headD (0, 0)).1
  let x ← Lv.fadd lmax ls
  let lam ← Lv.fsub x m
  pure (os, m, lam)

/-- A SPLICE part in one field, all at the cycle of its issue: the spec gives its duration and no cycle for its accesses (log entry 30). -/
def spliceField (c : PartCtx) (p f : Nat) (s : State) : State :=
  let rows := countOf c.counts (Sl.rows p)
  let d := Sl.d p
  let n := splRows d rows
  let a := (List.range (Sl.partials p)).foldl (fun (a : List (List (List Byte × Bool)) × State) i =>
    let r := (List.range n).foldl (fun (b : List (List Byte × Bool) × State) k =>
      let x := accessRow true c.part f (splIn c p i k) false b.2
      (b.1 ++ [x.1], x.2)) ([], a.2)
    (a.1 ++ [r.1], r.2)) ([], s)
  let parts := a.1
  let row := fun (pt : List (List Byte × Bool)) k => (pt.getD k ([], false)).1
  let bad := fun k => parts.any fun pt => (pt.getD k ([], false)).2
  let pass := ((List.range rows).mapM fun r =>
    splRow (parts.map fun pt => (leAt (row pt (splRec d rows r)) (8 * (r % 80)) 4, leAt (row pt (splRec d rows r)) (8 * (r % 80) + 4) 4))
      (parts.map fun pt => (List.range d).map fun j => leAt (row pt (splOut d r (j / 160))) (4 * (j % 160)) 4) d)
    ({ sat := 0, flush := 0, nan := 0, ovf := 0 } : LvuCnt)
  let s := addLvu f (partDuration c.counts c.base (fun _ => 0) none p) pass.2 a.2
  let s := (List.range rows).foldl (fun s r =>
    let o := (pass.1.getD r ([], 0, 0)).1
    (List.range (ceilDiv d 160)).foldl (fun s j =>
      putRow true c.part f (splOutRow c p (splOut d r j)) (((o.drop (160 * j)).take 160).flatMap (leBytes 4))
        (bad (splOut d r j) || bad (splRec d rows r)) true s) s) s
  let s := (List.range (ceilDiv rows 80)).foldl (fun s k =>
    putRow true c.part f (splOutRow c p (splRec d rows (80 * k)))
      (((pass.1.drop (80 * k)).take 80).flatMap fun x => leBytes 4 x.2.1 ++ leBytes 4 x.2.2) (bad (splRec d rows (80 * k))) true s) s
  modFld f (fun x => { x with splices := satAdd 32 x.splices 1 }) s

/-! ### PREDMASK (R120, R121, R178) -/

/-- A binary32 value lies strictly below an LNS16 threshold, exactly (FCMP of R152). R120 says only that each score is compared with the threshold: that a lower score predicts zero, that an equal one and a NaN do not, is the model's reading (DESIGN CHOICE, log entry 30). -/
def belowLns (v : Val) (t : Nat) : Bool :=
  match v with
  | .nan => false
  | .inf n => n
  | .fin m e =>
    if lnsIsZero t then decide (m < 0) else
    let k := 256 * e - lnsLog t
    if bit t 15 then
      decide (m < 0) && (if 0 ≤ k then decide (1 < m.natAbs ^ 256 * 2 ^ k.toNat) else decide (2 ^ (-k).toNat < m.natAbs ^ 256))
    else decide (m ≤ 0) || (decide (k < 0) && decide (m.natAbs ^ 256 < 2 ^ (-k).toNat))

/-- The first `cap` set rows of a mask, as bits. -/
def capMask (cap : Nat) (rows : List Nat) : Nat := ((rows.take cap).map fun r => 2 ^ r).sum

def predRows (c : PartCtx) (p : Nat) : List Nat :=
  (List.range (ceilDiv (countOf c.counts (Pm.batch p)) 10)).map fun k => (rowOf c.base (Pm.outReg p) (Pm.outOff p) + k) % 32768

def predUses (c : PartCtx) (p : Nat) : List RowUse := (predRows c p).map (RowUse.write false)

/-- The tokens whose masks share the row of token `t`. -/
def rowTokens (c : PartCtx) (p t : Nat) : List Nat := ((List.range 10).map (10 * (t / 10) + ·)).filter (· < countOf c.counts (Pm.batch p))

/-- The rows a PREDMASK part writes at token `t`: a mask row with the last token whose mask it holds. -/
def predStepUses (c : PartCtx) (x : Flight) : List RowUse :=
  if (rowTokens c x.word x.step).getLast? = some x.step then [RowUse.write false ((predRows c x.word).getD (x.step / 10) 0)] else []

/-- One token of a PREDMASK part: it drains the token's scores and forms its mask; the mask row is written once it is complete (R120, R121, R178). The part's band field has no effect: the mask's place is out_off alone, and the spec gives the field no other use (DESIGN CHOICE, log entry 30). -/
def predStep (c : PartCtx) (x : Flight) (s : State) : Option Flight × State :=
  let p := x.word
  let f := x.field
  let t := x.step
  let n := countOf c.counts (Pm.batch p)
  let fmt := Pm.srcFmt p
  let cap := min ((Tbl.get none s.np.predCfg (Pm.predIdx p)).getD .reset).skipCap 480
  let score := fun r => ((drainElem s f fmt (Pm.srcLine p) r t) ({ sat := 0, flush := 0, nan := 0, ovf := 0 } : LvuCnt)).1
  let mask := if (drainFault s f fmt (Pm.srcLine p) t).isSome then 0 else
    capMask cap ((List.range 512).filter fun r => belowLns (f32Val (score r)) (Pm.threshold p))
  let x := { x with skips := x.skips ++ [mask], poison := x.poison || drainPoison s f fmt (Pm.srcLine p) t }
  let s := addLvu f 2 { sat := 0, flush := 0, nan := 0, ovf := 0 } (drainToken c f fmt (Pm.srcLine p) n t s)
  let ts := rowTokens c p t
  let row := (predRows c p).getD (t / 10) 0
  let done := decide (ts.getLast? = some t)
  let s := if done then
      modSeq (fun q => { q with cur := q.cur.map fun r => { r with masks := Tbl.set none r.masks (32768 * f + row) (some (Pm.predIdx p)) } })
        (putRow true c.part f row (ts.flatMap fun u => leBytes 64 (x.skips.getD u 0)) x.poison true s)
    else s
  (if t + 1 < n then some { x with step := t + 1, due := x.due + 2, poison := x.poison && !done } else none, s)

/-! ### Any part -/

/-- The rows a part uses in each of its fields. -/
def partUses (c : PartCtx) (p : Nat) : List RowUse :=
  match partKind p with
  | 1 => braidUses c p
  | 2 => preloadUses c p
  | 4 => epUses c p
  | 5 => if countOf c.counts (Sl.rows p) = 0 then [] else spliceUses c p
  | 6 => predUses c p
  | _ => []

/-- A part has work: none of its counts is zero (R254). -/
def partWorks (counts : List Nat) (p : Nat) : Bool :=
  match partKind p with
  | 1 => countOf counts (Br.batch p) != 0 && countOf counts (Br.tiles p) != 0
  | 2 => countOf counts (Pl.batch p) != 0
  | 3 => Cl.count p != 0
  | 4 => countOf counts (Ep.batch p) != 0
  | 5 => countOf counts (Sl.rows p) != 0
  | 6 => countOf counts (Pm.batch p) != 0
  | _ => false

/-- The accesses a part's next step makes in its field. -/
def stepUses (s : State) (c : PartCtx) (x : Flight) : List RowUse :=
  match partKind x.word with
  | 1 => braidStepUses s c x
  | 2 => (preloadRows c x.word x.step).map RowUse.keep
  | 4 => epStepUses c x
  | 5 => spliceUses c x.word
  | 6 => predStepUses c x
  | _ => []

/-- One step of a part, whose accesses can all proceed: where it stands then, or nothing when it has made its last. -/
def partStep (c : PartCtx) (next : Option (Nat × List Nat × Nat)) (x : Flight) (s : State) : Option Flight × State :=
  match partKind x.word with
  | 1 => braidStep c next x s
  | 2 => preloadStep c x s
  | 3 => clearStep x s
  | 4 => epStep c x s
  | 5 => (none, spliceField c x.word x.field s)
  | 6 => predStep c x s
  | _ => (none, s)

end Sys2Proof.Machine
end

