-- ==== Sys2Proof/Machine/Transcode.lean ====
section
/-! DEFINITION. The transcoders on the stream engines' path, as functions of bytes (08_memory_tiers.md, R312 to R317; R47, R48, R57 to R60, R71 to R78, R95, R101 to R103, R107, R112, R336, R337, R390). -/
namespace Sys2Proof.Machine

/-! ### Values of a source row -/

/-- The rows of a scratchpad-window read: one row, or the 640 bytes of each slot (R189). -/
def winRows (bs : List Byte) : List (List Byte) :=
  if bs.length ≤ 640 then [padTo 640 bs] else (List.range (bs.length / 1024)).map fun i => sliceBytes bs (1024 * i) 640

/-- Bytes of one element outside the block formats. -/
def elemBytes (f : Nat) : Nat := if f = 7 then 4 else 2

/-- The value of an element of BF16, FP32 or LNS16. A transcoder reads a subnormal BF16 or FP32 source value as zero: R65 says so of the LVU and of F32 lines alone (DESIGN CHOICE, log entry 14). -/
def elemVal (f x : Nat) : Val := if f = 7 then f32Val x else if f = 6 then bf16Val x else lnsVal x

/-- An element of BF16, FP32 or LNS16 as a binary32 code; from BF16 it is exact, its sign of zero kept (R66). -/
def elemF32 (f x : Nat) : Nat := if f = 7 then x else if f = 6 then f32OfBf16 x else f32OfLns x

/-- An element of BF16 or FP32 as a BF16 code: a BF16 code stands as it is (R66, R67). -/
def elemBf16 (f x : Nat) : Nat := if f = 6 then x else bf16OfF32 x

/-- The 32 values of a block. -/
def blkVals (b : Blk) : List Val := (List.range 32).map b.val

/-- The element codes of a source row outside the block formats. A last element that is not whole is left out (DESIGN CHOICE, log entry 22). -/
def srcCodes (f : Nat) (sp : Bool) (bs : List Byte) : List Nat :=
  let w := elemBytes f
  (if sp then winRows bs else [bs]).flatMap fun b => (List.range (b.length / w)).map fun i => leAt b (w * i) w

/-- The blocks of a source row: of whole rows, or packed; `none` where one is invalid (R57, R58). Bytes after the last whole packed block are left out (DESIGN CHOICE, log entry 22). -/
def srcBlks (f : Nat) (sp : Bool) (bs : List Byte) : Option (List Blk) :=
  let n := fmtBlockBytes f + 1
  let xs := if sp then (winRows bs).flatMap (rowBlocks f) else (List.range (bs.length / n)).map fun i => unpackBlk f (sliceBytes bs (n * i) n)
  if xs.any Blk.bad then none else some xs

/-- The values of a source row. -/
def srcVals (f : Nat) (sp : Bool) (bs : List Byte) : Option (List Val) :=
  if isBlockFmt f then (srcBlks f sp bs).map fun xs => xs.flatMap blkVals
  else some ((srcCodes f sp bs).map (elemVal f))

/-- How many values a descriptor row of `len` bytes holds. -/
def valCount (f len : Nat) (sp : Bool) : Nat :=
  let rows := if len ≤ 640 then 1 else len / 1024
  if f = 0xC ∨ f = 0xD then len / frcBytes f * 128
  else if f = 0xE ∨ f = 0xF then len / mxBytes f * 32
  else if isBlockFmt f then (if sp then rows * 32 * fmtBlocks f else len / (fmtBlockBytes f + 1) * 32)
  else if sp then rows * (640 / elemBytes f) else len / elemBytes f

/-! ### Laying results out -/

/-- Cut a list into runs of `k`. -/
def runsOf (k : Nat) : Nat → List α → List (List α)
  | 0, _ => []
  | n + 1, xs => if xs.isEmpty then [] else xs.take k :: runsOf k n (xs.drop k)

/-- Cut a list into runs of `k`. -/
def cut (k : Nat) (xs : List α) : List (List α) := runsOf k (xs.length / max 1 k + 1) xs

/-- Blocks as rows, or packed (R58, R59). -/
def layBlks (f : Nat) (sp : Bool) (bs : List Blk) : List (List Byte) :=
  if sp then (cut (fmtBlocks f) bs).map (blockRow f) else [bs.flatMap (packBlk f)]

/-- Element codes as rows, or flat. -/
def layElems (w : Nat) (sp : Bool) (xs : List Nat) : List (List Byte) :=
  if sp then (cut (640 / w) xs).map fun r => padTo 640 (r.flatMap (leBytes w)) else [xs.flatMap (leBytes w)]

/-- Values narrowed or converted to a destination format; `fixed` names the exponent of fixed mode (R54). A last block that the values do not fill is filled with zeros (log entry 22). -/
def layVals (f : Nat) (sp : Bool) (fixed : Option Nat) (xs : List Val) : List (List Byte) :=
  if isBlockFmt f then
    layBlks f sp ((cut 32 xs).map fun b =>
      let v := (b ++ List.replicate 32 (.fin 0 0)).take 32
      match fixed with
      | some e => (narrowAt f e (fun _ => rneInt) v).1
      | none => (narrowDyn f v).1)
  else if f = 7 then layElems 4 sp (xs.map (f32OfVal false)) else layElems 2 sp (xs.map bf16OfVal)

/-! ### The operations on one row -/

/-- PACK_T5P: bytes of -1, 0 and +1 as trits (R48, R315). -/
def packTrits (bs : List Byte) : Option (List Byte) :=
  if bs.all fun b => b == 0 || b == 1 || b == 255 then
    some ((cut 5 bs).map fun g => t5pByte (g.map fun b => if b = 255 then -1 else (b.toNat : Int)))
  else none

/-- The exact sum of magnitudes as `m · 2^e`; `none` for an infinity. A NaN counts as zero. -/
def magSum (xs : List Val) : Option (Nat × Int) :=
  let lo := (xs.filterMap fun | .fin m e => if m = 0 then none else some e | _ => none).min?.getD 0
  if xs.any fun | .inf _ => true | _ => false then none
  else some ((xs.map fun | .fin m e => m.natAbs * 2 ^ (e - lo).toNat | _ => 0).sum, lo)

/-- The mean of magnitudes in binary32, rounded once (R314; log entry 22). -/
def meanF32 (xs : List Val) : Nat :=
  match magSum xs with
  | none => f32Inf false
  | some (m, e) =>
    let n := max 1 xs.length
    let q := m * 2 ^ 80 / n * 2 + b2n (decide (m * 2 ^ 80 % n ≠ 0))
    f32Round false q (e - 81)

/-- The trit of a value at scale S (R314). -/
def quantTrit (sv : Val) (x : Val) : Int :=
  match sv, x with
  | .fin m e, .fin a b => if m = 0 ∨ dyLe (2 * a.natAbs) b m e then 0 else if a < 0 then -1 else 1
  | _, _ => 0

/-- QUANT: the T5P bytes of a row and the LNS16 code of its scale (R314). -/
def quantRow (xs : List Val) : List Byte × Nat :=
  let sv := f32Val (meanF32 xs)
  ((cut 5 (xs.map (quantTrit sv))).map t5pByte, (lnsOfVal sv).1)

/-- FRC_ENC of values converted to BF16 (R66, R67, R71). -/
def frcEncRow (f : Nat) (xs : List Val) : List Byte :=
  (cut 128 (xs.map fun x => bf16Val (bf16OfVal x))).flatMap (frcEncode f)

/-- FRC_DEC of whole blocks (R73, R75). -/
def frcDecRow (f : Nat) (bs : List Byte) : List Val :=
  (cut (frcBytes f) bs).flatMap (frcDecode f)

/-- MX_IN: the blocks of a row in A8 or A4; `none` on a scale of 0xFF (R76 to R78). Bytes after the last whole block are left out (DESIGN CHOICE, log entry 22). -/
def mxRow (f dst : Nat) (bs : List Byte) : Option (List Blk) :=
  (cut (mxBytes f) (bs.take (bs.length / mxBytes f * mxBytes f))).mapM fun b =>
    let x := (b.getD (mxBytes f - 1) 0).toNat
    if dst = 4 then mxToA8 f x (mxElems f b) else mxToA4 x (mxElems f b)

/-! ### Tiles (R95, R107, R112, R313, R336, R337) -/

/-- A tile's output rows in the row form of R95: sixteen to a scratchpad row, each with its zero map. -/
def tileRowForm (rows : List (List Byte)) : List (List Byte) :=
  (cut 16 rows).map fun g =>
    padTo 640 (padTo 512 g.flatten ++ g.flatMap fun r => leBytes 4 (r.mapIdx fun i b => if b = 0 then 2 ^ i else 0).sum)

/-- The transposed zero maps of a square tile, one row for each square (R107). -/
def transposedMaps (rows : List (List Byte)) : List (List Byte) :=
  let zero := fun (y k : Nat) => (t5pTrits ((rows.getD y []).getD (k / 5) 0)).getD (k % 5) 0 == 0
  (List.range 3).map fun q => (List.range 160).flatMap fun k =>
    leBytes 4 ((List.range 32).map fun g =>
      if (List.range 5).all fun j => zero (160 * q + 5 * g + j) k then 2 ^ g else 0).sum

/-- Spread a sparse tile's bytes over its rows by its forward maps; the bytes left over come second, `none` when they run out. -/
def spreadBytes : List Nat → List Byte → Option (List (List Byte) × List Byte)
  | [], bs => some ([], bs)
  | m :: ms, bs =>
    let r := (List.range 32).foldl (fun (a : List Byte × List Byte × Bool) g =>
      if bit m g then (a.1 ++ [0], a.2) else match a.2.1 with
        | b :: rest => (a.1 ++ [b], rest, a.2.2)
        | [] => (a.1 ++ [0], [], true)) ([], bs, false)
    if r.2.2 then none else (spreadBytes ms r.2.1).map fun x => (r.1 :: x.1, x.2)

/-- A tile's header fields. -/
def tileDense (t : List Byte) : Bool := bit (leAt t 0 1) 0
def tileMasked (t : List Byte) : Bool := bit (leAt t 0 1) 1
def tileSquare (t : List Byte) : Bool := bit (leAt t 0 1) 2
def tileZeros (t : List Byte) : Nat := leAt t 4 4
def tileStored (t : List Byte) : Nat := leAt t 8 4

/-- The header itself is sound: reserved bits zero, a sparse tile masked (R337). -/
def tileHeaderOk (t : List Byte) : Bool :=
  decide (16 ≤ t.length) && bits (leAt t 0 1) 3 5 == 0 && leAt t 1 3 == 0 && leAt t 12 4 == 0 && (tileDense t || tileMasked t)

/-- The output rows of a stored tile, 32 bytes each, after the checks of R313 and R337, and of R112 on every masked tile: its count of zero bytes, and the maps a sparse tile stores. -/
def tileWeights (square : Bool) (t : List Byte) : Option (List (List Byte)) :=
  let n := if square then 480 else 512
  if !tileHeaderOk t || tileSquare t != square || decide (t.length < tileStored t) || decide (tileStored t < 16) then none else
  let pay := (t.take (tileStored t)).drop 16
  let rows :=
    if tileDense t then (if pay.length = 32 * n then some (cut 32 pay, true) else none)
    else
      let maps := (List.range n).map fun r => leAt pay (4 * r) 4
      let tm := if square then 1920 else 0
      if pay.length < 4 * n + tm then none else
      match spreadBytes maps (pay.drop (4 * n + tm)) with
      | some (rs, []) =>
        some (rs, (rs.mapIdx fun i r => r.mapIdx fun g b => bit (maps.getD i 0) g == (b == 0)).all (·.all id) &&
          (!square || (transposedMaps rs).flatten == sliceBytes pay (4 * n) 1920))
      | _ => none
  match rows with
  | none => none
  | some (rs, mapsOk) =>
    if !rs.all (·.all t5pOk) then none
    else if tileMasked t && !(mapsOk && (rs.map (·.count 0)).sum == tileZeros t) then none
    else some rs

/-- EXPAND_TILE: a stored tile as its scratchpad rows. The descriptor's masked flag asks for R112's checks on a masked tile, and R112 makes them on every masked tile: it has no further effect (DEDUCED, log entry 22). -/
def expandTile (square : Bool) (t : List Byte) : Option (List (List Byte)) :=
  (tileWeights square t).map fun rs =>
    tileRowForm rs ++ if square then (transposedMaps rs).map (padTo 640) else []

/-! ### PLANE (R101 to R103, R390) -/

/-- Planes of a plane operand's format. -/
def planesOf (f : Nat) : Nat := if f = 4 then 6 else 3

/-- The mantissas and exponent of an output row's slice from the blocks they come from, `none` where non-null blocks differ in exponent (R103). -/
def planeRow (ms : List Int) (es : List Nat) : Option (List Int × Nat) :=
  let nz := es.filter (· != 0)
  let e := nz.headD 0
  if nz.all (· == e) then some (if e = 0 then List.replicate 160 0 else (ms ++ List.replicate 160 0).take 160, e) else none

/-- The 32 rows of every plane of a tile set from its output rows' slices; missing ones are zero. -/
def planeTiles (f : Nat) (xs : List (List Int × Nat)) : List (List Byte) :=
  (List.range (planesOf f)).flatMap fun j => (List.range 32).map fun k =>
    (List.range 16).foldl (fun row i => match xs[16 * k + i]? with
      | some x => planePlace i x.2 (x.1.map fun m => (balanced (planesOf f) m).getD j 0) row
      | none => planePlace i 0 [] row) (List.replicate 640 0)

/-- The tile sets of a PLANE descriptor: each band of 512 vectors gives one for every slice, each run of 160 vectors under `square` gives one. Each comes with its run or band and its place there. -/
def planeSets (f : Nat) (square : Bool) (vs : List (List Blk)) : Option (List (Nat × Nat × List (List Byte))) :=
  if square then
    ((cut 160 vs).mapIdx fun k run => (k, run)).mapM fun x =>
      let d := (x.2.map List.length).foldl max 0 * 32
      let at_ := fun (v : List Blk) (i : Nat) => v.getD (i / 32) .null
      ((List.range (min d 512)).mapM fun i => planeRow (x.2.map fun v => (at_ v i).ms.getD (i % 32) 0) (x.2.map fun v => (at_ v i).e)).map
        fun xs => (x.1, 0, planeTiles f xs)
  else
    (((cut 512 vs).mapIdx fun k band => (k, band)).flatMap fun x =>
      (List.range (ceilDiv ((x.2.map List.length).foldl max 0) 5)).map fun sl => (x.1, sl, x.2)).mapM fun x =>
      (x.2.2.mapM fun v => let bs := (v.drop (5 * x.2.1)).take 5; planeRow (bs.flatMap Blk.ms) (bs.map Blk.e)).map
        fun xs => (x.1, x.2.1, planeTiles f xs)

end Sys2Proof.Machine
end

