-- ==== Sys2Proof/Machine/Stream.lean ====
section
/-! DEFINITION. The stream engines: descriptors, chains, the operations, failure, and MEM_COPY and MEM_T3_UNMAP (08_memory_tiers.md, R203, R286, R304 to R322, R327, R693, R694). -/
namespace Sys2Proof.Machine

/-! ### Descriptors (R310) -/

/-- The bits of a descriptor that have a meaning. -/
def descAllow : List (Nat × Nat × Nat) :=
  [(0, 6, 0xFF), (7, 7, 0x8F), (8, 14, 0xFF), (15, 15, 0x8F), (16, 32, 0xFF), (33, 33, 3), (34, 36, 0xFF), (37, 37, 0x8F),
   (38, 40, 0xFF), (41, 41, 0x8F), (42, 43, 0xFF), (48, 55, 0xFF)]

def descOf (bs : List Byte) : Desc :=
  { src := leAt bs 0 8, dst := leAt bs 8 8, length := leAt bs 16 4, rows := leAt bs 20 2, fmt := leAt bs 22 1, op := leAt bs 23 1,
    srcStride := leAt bs 24 4, dstStride := leAt bs 28 4, flags := leAt bs 32 2, regs := leAt bs 34 1, binding := leAt bs 35 1,
    hitch := leAt bs 36 2, increment := leAt bs 38 2, next := leAt bs 40 2, fixedE := leAt bs 42 1, layer := leAt bs 43 1,
    aux := leAt bs 48 8, reserved := !cleanBytes descAllow 64 bs, sink := none }

/-- The descriptors of a byte string. -/
def descTable (bs : List Byte) : List Desc := (cut 64 bs).map descOf

/-- What an index beyond the table stands for: a descriptor that fails and moves nothing. -/
def Desc.nothing : Desc :=
  { src := 0, dst := 0, length := 0, rows := 0, fmt := 0, op := 0, srcStride := 0, dstStride := 0, flags := 0, regs := 0, binding := 0,
    hitch := 0, increment := 0, next := 0x8000, fixedE := 0, layer := 0, aux := 0, reserved := true, sink := none }

namespace Ds
def srcFmt (d : Desc) : Nat := d.fmt % 16
def dstFmt (d : Desc) : Nat := d.fmt / 16
def overwrite (d : Desc) : Bool := bit d.flags 0
def consume (d : Desc) : Bool := bit d.flags 1
def hint (d : Desc) : Nat := bits d.flags 4 2
def square (d : Desc) : Bool := bit d.flags 6
def masked (d : Desc) : Bool := bit d.flags 7
def fixed (d : Desc) : Option Nat := if bit d.flags 8 then some d.fixedE else none
def sprout (d : Desc) : Bool := bit d.flags 9 && d.op == 4
def remote (d : Desc) : Bool := bit d.dst 63
def chip (d : Desc) : Nat := bits d.dst 48 12
def hitchEn (d : Desc) : Bool := bit d.hitch 15
def last (d : Desc) : Bool := bit d.next 15
def isFill (d : Desc) : Bool := d.op == 10
end Ds

/-- A local address with a base register added to a scratchpad-window address (R311). -/
def relAddr (base : List Nat) (rel : Bool) (reg a : Nat) : Nat :=
  let a := a % 2 ^ 48
  if rel ∧ a < 0x20000000 then a + base.getD reg 0 * 0x400 else a

/-- Where descriptor row `r` reads and writes. -/
def srcAddr (c : Chain) (d : Desc) (r : Nat) : Nat := relAddr c.base (bit d.flags 2) (d.regs % 16) d.src + r * d.srcStride
def dstAddr (c : Chain) (d : Desc) (r : Nat) : Nat :=
  match d.sink with
  | some (n, a) => if n ≤ r then a else relAddr c.base (bit d.flags 3) (d.regs / 16) d.dst + r * d.dstStride
  | none => relAddr c.base (bit d.flags 3) (d.regs / 16) d.dst + r * d.dstStride

/-- An address lies in the scratchpad window. -/
def inSp (a : Nat) : Bool := decide (a < 0x20000000)
def srcSp (c : Chain) (d : Desc) : Bool := !Ds.isFill d && inSp (srcAddr c d 0)
def dstSp (c : Chain) (d : Desc) : Bool := inSp (dstAddr c d 0)

/-- Values of one source row. -/
def descVals (c : Chain) (d : Desc) : Nat := valCount (Ds.srcFmt d) d.length (srcSp c d)

/-- Values of a scratchpad row in a format. -/
def rowVals (f : Nat) : Nat := if isBlockFmt f then 32 * fmtBlocks f else 640 / elemBytes f

/-- Scratchpad rows that one descriptor row writes. -/
def rowsOut (c : Chain) (d : Desc) : Nat :=
  if d.op = 0 ∨ d.op = 10 then (if d.length ≤ 640 then 1 else d.length / 1024)
  else if d.op = 1 then (if Ds.square d then 33 else 32)
  else ceilDiv (descVals c d) (rowVals (Ds.dstFmt d))

/-- Tier bytes that one descriptor row writes. -/
def bytesOut (c : Chain) (d : Desc) : Nat :=
  let n := descVals c d
  let f := Ds.dstFmt d
  if d.op = 0 ∨ d.op = 10 then d.length
  else if d.op = 2 then ceilDiv d.length 5
  else if d.op = 3 then n / 5
  else if d.op = 7 then n / 128 * frcBytes f
  else if isBlockFmt f then ceilDiv n 32 * (fmtBlockBytes f + 1)
  else n * elemBytes f

/-- Where the scratchpad rows of a PLANE descriptor's tile set for band or run `k`, slice `sl` start (log entry 22). -/
def planeAddr (c : Chain) (d : Desc) (k sl : Nat) : Nat := dstAddr c d k + sl * planesOf (Ds.srcFmt d) * 32 * 0x400

/-- The tile sets of a PLANE descriptor: band or run, slice. -/
def planeKeys (c : Chain) (d : Desc) : List (Nat × Nat) :=
  if Ds.square d then (List.range (ceilDiv d.rows 160)).map fun k => (k, 0)
  else (List.range (ceilDiv d.rows 512)).flatMap fun k => (List.range (ceilDiv (descVals c d) 160)).map fun sl => (k, sl)

/-- The extents a descriptor writes: scratchpad rows singly, tier bytes by row. -/
def dstExtents (c : Chain) (d : Desc) : List (Nat × Nat) :=
  if d.op = 9 then (planeKeys c d).flatMap fun k =>
      (List.range (32 * planesOf (Ds.srcFmt d))).map fun i => (planeAddr c d k.1 k.2 + i * 0x400, 640)
  else (List.range d.rows).flatMap fun r =>
    if dstSp c d then (List.range (rowsOut c d)).map fun j => (dstAddr c d r + j * 0x400, 640)
    else [(dstAddr c d r, bytesOut c d)]

/-- Sprout channels of the layer-table entry a NARROW names (R316). -/
def descChans (c : Chain) (d : Desc) : Nat := if Ds.sprout d then Img.laySprout c.image d.layer else 0

/-- The second destination of a row: its rows, or its bytes (R314, R316). -/
def auxExtents (c : Chain) (d : Desc) : List (Nat × Nat) :=
  let a := d.aux % 2 ^ 48
  let k := ceilDiv (descChans c d) 320
  if d.op = 3 then (List.range d.rows).map fun r => (a + 2 * r, 2)
  else (List.range (d.rows * k)).map fun i => if inSp a then (a + i * 0x400, 640) else (a + i * 640, 640)

/-- The extents a descriptor reads. -/
def srcExtents (c : Chain) (d : Desc) : List (Nat × Nat) :=
  if Ds.isFill d then [] else (List.range d.rows).map fun r => (srcAddr c d r, d.length)

/-- The rows of a scratchpad extent. -/
def extentRows (x : Nat × Nat) : List (Nat × Nat) :=
  (List.range (max 1 (x.2 / 1024))).map fun i => let a := x.1 + i * 0x400; (a / 0x2000000, a % 0x2000000 / 0x400)

/-- The rows among extents. -/
def rowsOf (xs : List (Nat × Nat)) : List (Nat × Nat) := (xs.filter fun x => inSp x.1).flatMap extentRows

/-- The scratchpad rows a local descriptor writes. -/
def descRows (c : Chain) (d : Desc) : List (Nat × Nat) :=
  (if Ds.remote d then [] else rowsOf (dstExtents c d)) ++ rowsOf (auxExtents c d)

/-! ### What a descriptor may not name -/

/-- The table of stream operations (R312): source and destination formats. -/
def opFormats (op sf df : Nat) : Bool :=
  let a := isBlockFmt
  match op with
  | 0 => sf == df
  | 1 => sf == 0 && df == 0
  | 2 => sf == 0 && df == 0
  | 3 => sf == 6 && df == 0
  | 4 => (sf == 6 || sf == 7) && a df
  | 5 => (a sf || sf == 5) && (df == 6 || df == 7)
  | 6 => (sf == 0xE && (df == 4 || df == 3)) || (sf == 0xF && df == 4)
  | 7 => (sf == 5 || sf == 6 || sf == 7 || a sf) && (df == 0xC || df == 0xD)
  | 8 => (sf == 0xC || sf == 0xD) && (df == 6 || df == 7 || a df)
  | 9 => (sf == 3 || sf == 4) && df == 0
  | 10 => true
  | _ => false

/-- The destination side the table allows. -/
def opSide (op a : Nat) : Bool :=
  match op with
  | 1 => inSp a
  | 9 => inSp a
  | 2 => match place a 1 with | .tier _ _ => true | _ => false
  | 3 => match place a 1 with | .tier _ _ => true | _ => false
  | _ => true

/-- An extent lies within one range a descriptor may name (R283, R312), and on whole rows if in scratchpad (R189). -/
def extentOk (remote : Bool) (x : Nat × Nat) : Bool :=
  match place x.1 x.2 with
  | .row _ _ => x.1 % 1024 == 0 && (x.2 == 640 || (x.2 != 0 && x.2 % 1024 == 0))
  | .tier _ _ => true
  | .host _ => !remote
  | _ => false

/-- FRC's rules (R72, R317). -/
def frcOk (c : Chain) (d : Desc) : Bool :=
  let low := fun a => match place a 1 with | .tier _ _ => true | .host _ => true | _ => false
  if d.op = 7 then
    let b := frcBytes (Ds.dstFmt d)
    let w := if isBlockFmt (Ds.srcFmt d) then fmtBlockBytes (Ds.srcFmt d) + 1 else elemBytes (Ds.srcFmt d)
    low (dstAddr c d 0) && dstAddr c d 0 % b == 0 && d.dstStride % b == 0 && descVals c d % 128 == 0 &&
      (srcSp c d || d.length % w == 0)
  else if d.op = 8 then
    let b := frcBytes (Ds.srcFmt d)
    low (srcAddr c d 0) && srcAddr c d 0 % b == 0 && d.length % b == 0 && d.srcStride % b == 0
  else true

/-- An unconverted write into the scratchpad window takes whole rows: 640 bytes, or a multiple of 1,024 (R189). -/
def wholeRows (c : Chain) (d : Desc) : Bool :=
  !((d.op == 0 || d.op == 10) && dstSp c d) || d.length == 640 || d.length % 1024 == 0

/-- What a descriptor is refused for before it moves (R47, R189, R283, R310, R312, R314, R317, R318, R694). -/
def staticFault (c : Chain) (d : Desc) (seen : Nat) : Option Nat :=
  let fmts := [Ds.srcFmt d, Ds.dstFmt d]
  if d.reserved || (!Ds.last d && decide (c.table.length ≤ d.next % 4096)) || decide (4096 < seen) then some stBadCommand
  else if 10 < d.op ∨ d.rows = 0 ∨ d.length = 0 ∨ bit d.src 63 then some stBadCommand
  else if (if d.op = 6 then [Ds.dstFmt d] else fmts).any fun f => f == 0xE || f == 0xF then some stRefusedFormat
  else if !opFormats d.op (Ds.srcFmt d) (Ds.dstFmt d) || !opSide d.op (dstAddr c d 0) then some stBadCommand
  else if Ds.fixed d = some 0 then some stBadCommand
  else if d.op = 3 ∧ (descVals c d % 160 ≠ 0 ∨ !opSide 3 (d.aux % 2 ^ 48)) then some stBadCommand
  else if !frcOk c d || !wholeRows c d then some stBadCommand
  else if !(srcExtents c d).all (extentOk false) || !(dstExtents c d).all (extentOk (Ds.remote d)) || !(auxExtents c d).all (extentOk false)
  then some stBadCommand
  else none

/-- A partition may read, or write, an extent (R301, R319, R350). -/
def extentPermitted (s : State) (p : Nat) (write consume : Bool) (x : Nat × Nat) : Bool :=
  match place x.1 x.2 with
  | .row _ _ => (extentRows x).all fun k => !suppressed s p k.1 k.2 (write || consume)
  | .tier t off => if write then ownsWritable s p t off x.2 else ownsExtent s p t off x.2
  | .host _ => (partWindow s p x.1 x.2).isSome
  | _ => false

/-- The partition a chain acts for. -/
def chainPart (c : Chain) : Nat := c.part.getD 0

/-- What a descriptor's partition may not reach (R301, R319). -/
def permFault (s : State) (c : Chain) (d : Desc) : Option Nat :=
  let p := chainPart c
  if (srcExtents c d).all (extentPermitted s p false (Ds.consume d)) &&
      (Ds.remote d || (dstExtents c d).all (extentPermitted s p true false)) &&
      (auxExtents c d).all (extentPermitted s p true false)
  then none else some stNotPermitted

/-! ### Chains (R203, R304, R306, R311, R693) -/

/-- The descriptor a chain is on. -/
def curDesc (r : ChainRun) : Desc := r.chain.table.getD r.idx .nothing

/-- The await code of a place (R200). -/
def awaitCode (a : Nat) : Nat :=
  match place a 1 with
  | .tier 0 _ => 1
  | .tier _ _ => 2
  | .host _ => 3
  | _ => 0

/-- Give rows an await code, their other tag bits as they are. -/
def setAwait (code : Nat) (ks : List (Nat × Nat)) (s : State) : State :=
  ks.foldl (fun s k => setTag k.1 k.2 (rowTag s k.1 k.2 / 16 * 16 + code) s) s

/-- Accept the descriptor an engine has come to: refused at once, or its rows take their await code (R203). -/
def acceptDesc (e : Nat) (s : State) : State :=
  match (engine s e).cur with
  | none => s
  | some r =>
    let d := curDesc r
    match staticFault r.chain d r.seen with
    | some st => modRun e (fun r => { r with failed := some st }) s
    | none => match permFault s r.chain d with
      | some st => modRun e (fun r => { r with failed := some st }) s
      | none =>
        let code := if Ds.isFill d then 0 else awaitCode (srcAddr r.chain d 0)
        if code = 0 then s else setAwait code (descRows r.chain d) s

/-- The engine runs a chain from its first descriptor. -/
def runOf (c : Chain) : ChainRun :=
  { chain := c, idx := c.first, seen := c.seen + 1, moved := false, failed := none, poisoned := c.poisoned, tag := none, awaiting := [] }

/-- An idle engine takes its next chain, program chains first (R304). -/
def takeChain (e : Nat) (s : State) : State :=
  let x := engine s e
  if x.cur.isSome then s else
  match x.queue, x.back with
  | c :: rest, _ => acceptDesc e (modEngine e (fun x => { x with queue := rest, cur := some (runOf c) }) s)
  | [], c :: rest => acceptDesc e (modEngine e (fun x => { x with back := rest, cur := some (runOf c) }) s)
  | [], [] => s

/-- STREAM_CHAIN_START (R304, R306). -/
def execStreamChainStart (e : Nat) (s : State) : Host.Outcome State Fault Refusal :=
  .next (if dieOn s && decide (e < 32) then takeChain e s else s)

/-- A kick's chain enters the program queue of its engine (R304, R311). -/
def kickChain (e : Nat) (c : Chain) (s : State) : State := modEngine e (fun x => { x with queue := x.queue ++ [c] }) s

/-- The descriptors of a chain from an index, as far as it has a defined remainder (R694). -/
def descsFrom (table : List Desc) : Nat → Nat → List Desc
  | 0, _ => []
  | n + 1, i =>
    let d := table.getD i .nothing
    d :: if Ds.last d || decide (table.length ≤ d.next % 4096) then [] else descsFrom table n (d.next % 4096)

/-- The descriptors a chain has still to run. -/
def restOf (c : Chain) (i seen : Nat) : List Desc := descsFrom c.table (4097 - seen) i

/-- Source bytes of descriptors. -/
def sourceBytes (ds : List Desc) : Nat := (ds.map fun d => if Ds.isFill d then 0 else d.length * d.rows).sum

/-- Source bytes an engine's background queue has still to move (R693). -/
def backlog (s : State) (e : Nat) : Nat :=
  let x := engine s e
  (x.back.map fun c => sourceBytes (restOf c c.first c.seen)).sum +
    ((x.cur.filter fun r => r.chain.background).map fun r => sourceBytes (restOf r.chain r.idx (r.seen - 1))).getD 0

/-- The engine for a piece of background work (R693). -/
def backEngine (s : State) : Nat :=
  let loads := (List.range 32).map (backlog s)
  match loads.min? with
  | some m => loads.idxOf m
  | none => 0

/-! ### Moving data -/

/-- The rows of the sprout map a NARROW reads, in field 0 (R316, R699). -/
def descMapRows (c : Chain) (d : Desc) : List Nat :=
  (List.range (ceilDiv (descChans c d) 320)).map fun k => (rowOf c.base (Img.layReg c.image d.layer % 16) (Img.layRow c.image d.layer) + k) % 32768

/-- The blocked accesses by row: a source or map row not full, a transient row of a partition that is not running, a fill write into a full row (R201, R202, R224). -/
def blockedRows (s : State) (r : ChainRun) (d : Desc) : List (Nat × Nat) :=
  let c := r.chain
  let p := chainPart c
  let srcs := rowsOf (srcExtents c d)
  let dsts := descRows c d
  srcs.filter (fun k => !readReady s p k.1 k.2 (Ds.consume d)) ++
    ((descMapRows c d).map fun x => (0, x)).filter (fun k => !readReady s p k.1 k.2 false) ++
    dsts.filter fun k => rowWaits s (some p) k.1 k.2 || (!Ds.overwrite d && !fillReady s p k.1 k.2 && !(Ds.consume d && srcs.contains k))

/-- Read one source extent: its bytes and whether they are poisoned; `host` is what the descriptor's host bytes read as from offset `o` (R201, R211, R292, R303, R651). -/
def readExtent (c : Chain) (d : Desc) (host : List Byte) (o : Nat) (x : Nat × Nat) (s : State) : (List Byte × Bool) × State :=
  match place x.1 x.2 with
  | .row _ _ =>
    let ks := extentRows x
    let a := ks.foldl (fun (a : (List Byte × Bool) × State) k =>
      let r := accessRow false (chainPart c) k.1 k.2 (Ds.consume d) a.2
      ((a.1.1 ++ (if x.2 ≤ 640 then r.1.1 else padTo 1024 r.1.1), a.1.2 || r.1.2), r.2)) (([], false), s)
    a
  | .tier t off => cachedRead (chainPart c) t off x.2 (Ds.hint d) s
  | _ => ((sliceBytes host o x.2, false), noteRead (chainPart c) x s)

/-- Read every source row. -/
def readRows (c : Chain) (d : Desc) (host : List Byte) (s : State) : List (List Byte × Bool) × State :=
  if Ds.isFill d then (List.replicate d.rows ([], false), s) else
  (List.range d.rows).foldl (fun (a : List (List Byte × Bool) × State) r =>
    let x := readExtent c d host (r * d.length) (srcAddr c d r, d.length) a.2
    (a.1 ++ [x.1], x.2)) ([], s)

/-- Write one piece of a local destination (R202, R287, R599). -/
def writePiece (c : Chain) (d : Desc) (x : Nat × List Byte × Bool) (s : State) : State :=
  match place x.1 (max 1 x.2.1.length) with
  | .row f r => putRow false (chainPart c) f r x.2.1 x.2.2 true s
  | .tier t off => tierWrite t off x.2.1 x.2.2 (Ds.hint d) s
  | .host _ => match partWindow s (chainPart c) x.1 x.2.1.length with
    | some w => writeWindow w x.1 x.2.1 x.2.2 s
    | none => s
  | _ => s

/-- What a transcoder makes of a descriptor's source rows: pieces for the destination and for aux, or a fault. -/
abbrev Pieces := List (Nat × List Byte × Bool) × List (Nat × List Byte × Bool)

/-- Land what a descriptor has made: at once, or as a transfer whose end it awaits (R308, R505, R507). -/
def land (e : Nat) (r : ChainRun) (d : Desc) (ps : Pieces) (s : State) : State :=
  let c := r.chain
  let poison := (ps.1 ++ ps.2).any fun x => x.2.2
  let s := ps.2.foldl (fun s x => writePiece c d x s) s
  let mark := fun (s : State) (aw : List Nat) => modRun e (fun r => { r with moved := true, poisoned := r.poisoned || poison, awaiting := aw }) s
  if Ds.remote d then
    let t := sendTransfer false e (chainPart c) d.binding (if Ds.hitchEn d then d.increment else 0) (d.hitch % 4096) ps.1 s
    mark t.2 [t.1]
  else mark (ps.1.foldl (fun s x => writePiece c d x s) s) []

/-- Why a descriptor cannot move although it was accepted: its binding (R481, R511), or the read of host memory (R303, R599). -/
def moveFault (s : State) (c : Chain) (d : Desc) (host : HostRead) : Option Nat :=
  let p := chainPart c
  let b := if Ds.remote d then bindFault s p d.binding (Ds.chip d) else none
  let fromHost := match place (srcAddr c d 0) 1 with | .host _ => !Ds.isFill d | _ => false
  if b.isSome then b
  else if !fromHost then none
  else match partWindow s p (srcAddr c d 0) d.length with
    | none => some stNotPermitted
    | some w =>
      if !enabled s w.func then some stAbortedDisable
      else hostStatus host

/-- Fail the descriptor an engine is on. -/
def failRun (e st : Nat) (s : State) : State := modRun e (fun r => { r with failed := some st }) s

/-- The bytes a read of host memory gave; none where it failed. -/
def hostBytes : HostRead → List Byte
  | .ok bs => bs
  | _ => []

/-- Run an engine's descriptor through its transcoder: nothing happens unless it is of this operation, accepted and not yet moved; a blocked access waits (R207), and so does a transfer without a free tag (R542); a fault is METADATA_FAULT (R49, R57, R78, R103, R112, R313, R315). -/
def moveDesc (op : Nat) (xf : State → ChainRun → Desc → List (List Byte × Bool) → Option Pieces) (e : Nat) (found : ReadIn) (s : State) : State :=
  match (engine s e).cur with
  | none => s
  | some r =>
    let d := curDesc r
    if !dieOn s || d.op != op || r.moved || r.failed.isSome then s else
    match moveFault s r.chain d found.host with
    | some st => failRun e st (countRead st s)
    | none =>
      let held := blockedRows s r d
      if !held.isEmpty then (held.map Prod.fst).eraseDups.foldl (fun s f => countBlocked f s) s else
      if Ds.remote d && !tagFree s then s else
      let xs := srcExtents r.chain d
      let s := readFinds (rowsOf xs ++ (descMapRows r.chain d).map fun x => (0, x)) xs found s
      let a := readRows r.chain d (hostBytes found.host) s
      match xf s r d a.1 with
      | some ps => land e r d ps (accessRows false (chainPart r.chain) 0 false (descMapRows r.chain d) a.2).2
      | none => failRun e stMetadataFault a.2

/-- Pieces of descriptor row `r`: scratchpad rows in successive slots, or one run of tier bytes. -/
def piecesAt (c : Chain) (d : Desc) (r : Nat) (poison : Bool) (out : List (List Byte)) : List (Nat × List Byte × Bool) :=
  out.mapIdx fun j b => (dstAddr c d r + j * 0x400, b, poison)

/-- A transcoder that takes each row by itself. -/
def rowwise (f : ChainRun → Desc → List Byte → Option (List (List Byte))) (_ : State) (r : ChainRun) (d : Desc) (rows : List (List Byte × Bool)) :
    Option Pieces :=
  ((rows.mapIdx fun i x => (i, x)).mapM fun x => (f r d x.2.1).map (piecesAt r.chain d x.1 x.2.2)).map fun ps => (ps.flatten, [])

/-- COPY: rows as they are (R312). -/
def copyRow (r : ChainRun) (d : Desc) (bs : List Byte) : Option (List (List Byte)) :=
  some (if dstSp r.chain d then winRows bs else [bs])

/-- COPY's pieces: bytes that leave a tier for another place than scratchpad keep the poison of each block (R287). -/
def copyPieces (s : State) (r : ChainRun) (d : Desc) (rows : List (List Byte × Bool)) : Option Pieces :=
  match place (srcAddr r.chain d 0) 1 with
  | .tier _ _ => if dstSp r.chain d then rowwise copyRow s r d rows else
      some (((rows.mapIdx fun i x => (i, x)).flatMap fun x =>
        match place (srcAddr r.chain d x.1) d.length with
        | .tier t off => (poisonRuns s t off d.length).map fun u => (dstAddr r.chain d x.1 + u.1, sliceBytes x.2.1 u.1 u.2.1, u.2.2)
        | _ => piecesAt r.chain d x.1 x.2.2 [x.2.1]), [])
  | _ => rowwise copyRow s r d rows

/-- STREAM_COPY (R312). -/
def execStreamCopy (e : Nat) (found : ReadIn) (s : State) : Host.Outcome State Fault Refusal :=
  .next (moveDesc 0 copyPieces e found s)

/-- EXPAND_TILE (R313). -/
def execExpandTile (e : Nat) (found : ReadIn) (s : State) : Host.Outcome State Fault Refusal :=
  .next (moveDesc 1 (rowwise fun _ d bs => expandTile (Ds.square d) bs) e found s)

/-- PACK_T5P (R315). -/
def execPackT5p (e : Nat) (found : ReadIn) (s : State) : Host.Outcome State Fault Refusal :=
  .next (moveDesc 2 (rowwise fun _ d bs => (packTrits (bs.take d.length)).map fun b => [b]) e found s)

/-- QUANT's pieces: the trits, and the scales at aux, two bytes to a row (R314). -/
def quantPieces (_ : State) (r : ChainRun) (d : Desc) (rows : List (List Byte × Bool)) : Option Pieces :=
  ((rows.mapIdx fun i x => (i, x)).mapM fun x => (srcVals 6 (srcSp r.chain d) x.2.1).map fun v =>
    let q := quantRow v
    ((dstAddr r.chain d x.1, q.1, x.2.2), (d.aux % 2 ^ 48 + 2 * x.1, leBytes 2 q.2, x.2.2))).map List.unzip

/-- QUANT (R314). -/
def execQuant (e : Nat) (found : ReadIn) (s : State) : Host.Outcome State Fault Refusal :=
  .next (moveDesc 3 quantPieces e found s)

/-- The channels of a NARROW's sprout map, from field 0's copy, read as its partition may (R222, R316, R699). -/
def mapChans (s : State) (c : Chain) (d : Desc) : List Nat :=
  sproutMap (accessRows false (chainPart c) 0 false (descMapRows c d) s).1.1 (descChans c d)

/-- NARROW's pieces: listed channels leave their blocks and go to aux in map order (R54, R160, R313, R316). -/
def narrowPieces (s : State) (r : ChainRun) (d : Desc) (rows : List (List Byte × Bool)) : Option Pieces :=
  let c := r.chain
  let map := accessRows false (chainPart c) 0 false (descMapRows c d) s
  let chans := mapChans s c d
  let k := ceilDiv chans.length 320
  let step := if inSp (d.aux % 2 ^ 48) then 0x400 else 640
  let f := Ds.srcFmt d
  ((rows.mapIdx fun i x => (i, x)).mapM fun x => (srcVals f (srcSp c d) x.2.1).map fun v =>
    let codes := srcCodes f (srcSp c d) x.2.1
    let body := v.mapIdx fun i y => if chans.contains i then .fin 0 0 else y
    let sp := layElems 2 true (chans.map fun ch => elemBf16 f (codes.getD ch 0))
    let bad := x.2.2 || map.1.2
    (piecesAt c d x.1 bad (layVals (Ds.dstFmt d) (dstSp c d) (Ds.fixed d) body),
      sp.mapIdx fun j b => (d.aux % 2 ^ 48 + (x.1 * k + j) * step, b, bad))).map
    fun ps => ((ps.map Prod.fst).flatten, (ps.map Prod.snd).flatten)

/-- NARROW (R313, R316). -/
def execNarrow (e : Nat) (found : ReadIn) (s : State) : Host.Outcome State Fault Refusal :=
  .next (moveDesc 4 narrowPieces e found s)

/-- Convert a row between value formats. -/
def convertRow (r : ChainRun) (d : Desc) (bs : List Byte) : Option (List (List Byte)) :=
  (srcVals (Ds.srcFmt d) (srcSp r.chain d) bs).map (layVals (Ds.dstFmt d) (dstSp r.chain d) none)

/-- WIDEN (R312). -/
def execWiden (e : Nat) (found : ReadIn) (s : State) : Host.Outcome State Fault Refusal :=
  .next (moveDesc 5 (rowwise convertRow) e found s)

/-- MX_IN (R76 to R78). -/
def execMxIn (e : Nat) (found : ReadIn) (s : State) : Host.Outcome State Fault Refusal :=
  .next (moveDesc 6 (rowwise fun r d bs => (mxRow (Ds.srcFmt d) (Ds.dstFmt d) bs).map (layBlks (Ds.dstFmt d) (dstSp r.chain d))) e found s)

/-- FRC_ENC (R72, R74). -/
def execFrcEnc (e : Nat) (found : ReadIn) (s : State) : Host.Outcome State Fault Refusal :=
  .next (moveDesc 7 (rowwise fun r d bs => (srcVals (Ds.srcFmt d) (srcSp r.chain d) bs).map fun v => [frcEncRow (Ds.dstFmt d) v]) e found s)

/-- FRC_DEC (R72, R73, R75). -/
def execFrcDec (e : Nat) (found : ReadIn) (s : State) : Host.Outcome State Fault Refusal :=
  .next (moveDesc 8 (rowwise fun r d bs => some (layVals (Ds.dstFmt d) (dstSp r.chain d) (Ds.fixed d) (frcDecRow (Ds.srcFmt d) bs))) e found s)

/-- PLANE's pieces: every row of every tile set (R102, R103, R390). A tile set is poisoned when any vector is. -/
def planePieces (_ : State) (r : ChainRun) (d : Desc) (rows : List (List Byte × Bool)) : Option Pieces :=
  let c := r.chain
  let f := Ds.srcFmt d
  let poison := rows.any Prod.snd
  ((rows.mapM fun x => srcBlks f (srcSp c d) x.1).bind (planeSets f (Ds.square d))).map fun sets =>
    (sets.flatMap fun t => t.2.2.mapIdx fun i b => (planeAddr c d t.1 t.2.1 + i * 0x400, b, poison), [])

/-- PLANE (R102, R103, R390). -/
def execPlane (e : Nat) (found : ReadIn) (s : State) : Host.Outcome State Fault Refusal :=
  .next (moveDesc 9 planePieces e found s)

/-- FILL: zeros (R312). A row of a block format is 640 zero bytes too: no flags, an empty zero-group map (DESIGN CHOICE, log entry 22: R312 has FILL write zeros, R60 has a transcoder compute flags and map). -/
def fillRow (r : ChainRun) (d : Desc) (_ : List Byte) : Option (List (List Byte)) :=
  some (if dstSp r.chain d then List.replicate (rowsOut r.chain d) (List.replicate 640 0) else [List.replicate d.length 0])

/-- FILL (R312). -/
def execFill (e : Nat) (found : ReadIn) (s : State) : Host.Outcome State Fault Refusal :=
  .next (moveDesc 10 (rowwise fillRow) e found s)

/-! ### The end of a descriptor (R308, R321) -/

/-- A window is in use by the descriptor an engine is on. -/
def windowBusy (s : State) (w : T3Win) : Bool :=
  (List.range 32).any fun e => (engine s e).cur.any fun r =>
    !r.failed.isSome && (srcExtents r.chain (curDesc r) ++ (if Ds.remote (curDesc r) then [] else dstExtents r.chain (curDesc r))).any fun x =>
      meets x.1 x.2 w.base w.length

/-- Unmap windows that wait for it, once their transfers have ended (R327). -/
def finishUnmaps (s : State) : State :=
  s.str.unmapping.foldl (fun s u =>
    match Tbl.get none s.str.windows u.1 with
    | none => modStr (fun x => { x with unmapping := x.unmapping.filter fun y => y.2.id != u.2.id }) s
    | some w => if windowBusy s w then s else
        completeOk u.2 (modStr (fun x =>
          { x with windows := Tbl.set none x.windows u.1 none, unmapping := x.unmapping.filter fun y => y.2.id != u.2.id }) s)) s

/-- The chain an engine runs is over; a command that waits for it completes. -/
def endChain (e st : Nat) (s : State) : State :=
  match (engine s e).cur with
  | none => s
  | some r =>
    let s := modEngine e (fun x => { x with cur := none }) s
    finishUnmaps (match r.chain.cmd with
      | some c => complete c st 0 [] s
      | none => s)

/-- The engine goes on to the next descriptor; a background chain makes way for program chains (R304). -/
def nextDesc (e : Nat) (s : State) : State :=
  match (engine s e).cur with
  | none => s
  | some r =>
    let i := (curDesc r).next % 4096
    finishUnmaps (if r.chain.background && !(engine s e).queue.isEmpty then
      modEngine e (fun x =>
        { x with cur := none, back := { r.chain with first := i, seen := r.seen, poisoned := r.poisoned } :: x.back }) s
    else acceptDesc e (modRun e (fun r => { r with idx := i, seen := r.seen + 1, moved := false, tag := none, awaiting := [] }) s))

/-- Apply a descriptor's own increment (R308). -/
def descIncrement (c : Chain) (d : Desc) (s : State) : State :=
  if Ds.hitchEn d then incHitch (hitchOf (chainPart c) (d.hitch % 4096)) d.increment s else s

/-- Drop the hint-cache lines of a descriptor that named the discard hint (R296, R297). -/
def dropHints (c : Chain) (d : Desc) (s : State) : State :=
  if Ds.hint d ≠ 3 then s else
  (srcExtents c d ++ (if Ds.remote d then [] else dstExtents c d)).foldl (fun s x => match place x.1 x.2 with
    | .tier t off => discardLines t (extentsOf off x.2) s
    | _ => s) s

/-- DESCRIPTOR_COMPLETE (R308): every write is visible; the increment is applied and the chain goes on or ends. -/
def execDescriptorComplete (e : Nat) (s : State) : Host.Outcome State Fault Refusal :=
  .next (match (engine s e).cur with
    | none => s
    | some r =>
      if !dieOn s || !r.moved || r.failed.isSome || !r.awaiting.isEmpty then s else
      let d := curDesc r
      let s := if Ds.remote d then s else descIncrement r.chain d s
      let s := dropHints r.chain d s
      let s := modStr (fun x => { x with descs := satAdd 64 x.descs 1, bytes := satAdd 64 x.bytes (if Ds.isFill d then 0 else d.length * d.rows) }) s
      if Ds.last d then endChain e (if r.poisoned then stPoisoned else stOk) s else nextDesc e s)

/-- A failed descriptor of a remote destination still sends its rows poisoned and its increment, unless its window has closed (R321). -/
def failRemote (c : Chain) (d : Desc) (st : Nat) (s : State) : State :=
  if st = stWindowClosed ∨ (bindFault s (chainPart c) d.binding (Ds.chip d)).isSome then s else
  let rows := if dstSp c d then (dstExtents c d).map fun x => (x.1, List.replicate 640 (0 : Byte), true) else []
  if rows.isEmpty && !Ds.hitchEn d then s else
  let inc := if Ds.hitchEn d then d.increment else 0
  if rows.isEmpty then
    -- a packet without payload carries the increment
    match Tbl.get none s.hch.outs d.binding with
    | none => s
    | some o =>
      let tag := freshTag s
      let p := mkPacket s 1 o.chip (tag * 65536 + o.gen % 65536 + 2 ^ 32) o.window (dstAddr c d 0) 0 (2 ^ 32 + inc % 65536 * 65536 + d.hitch % 4096) []
      sendPacket (some (chainPart c)) p (modFab (fun f =>
        { f with nextTag := tag, outbound := f.outbound ++
            [{ tag := tag, knot := false, engine := 32, packets := [p], lastAt := s.now, resend := [], binding := d.binding, part := c.part }] }) s)
  else (sendTransfer false 32 (chainPart c) d.binding inc (d.hitch % 4096) rows s).2

/-- A failed descriptor, or one after it: its rows full and poisoned, its increment applied (R321). One the table refused as malformed writes no rows that could be named. -/
def failDesc (c : Chain) (st : Nat) (d : Desc) (s : State) : State :=
  let named := !d.reserved && decide (d.op ≤ 10)
  let rows := if named then descRows c d else []
  let s := rows.foldl (fun s k =>
    modStr (fun x => { x with poisonRows := satAdd 32 x.poisonRows 1 })
      (putRow false (chainPart c) k.1 k.2 (List.replicate 640 0) true true s)) s
  if Ds.remote d then (if named then failRemote c d st s else s) else descIncrement c d s

/-- DESCRIPTOR_FAIL (R321): for the reason found, or for a read of host memory that ended as `status` says (R303); a write into a transient row waits for the partition's program (R224). -/
def execDescriptorFail (e status : Nat) (s : State) : Host.Outcome State Fault Refusal :=
  .next (match (engine s e).cur with
    | none => s
    | some r =>
      let d := curDesc r
      let host := match place (srcAddr r.chain d 0) 1 with | .host _ => !Ds.isFill d | _ => false
      let ext := if host && !r.moved && [stPoisoned, stTimeout, stAbortedDisable].contains status then some status else none
      match r.failed <|> ext with
      | none => s
      | some st =>
        let c := r.chain
        let p := chainPart c
        let bad := d.reserved || (!Ds.last d && decide (c.table.length ≤ d.next % 4096)) || decide (4096 < r.seen)
        let ds := if bad then [d] else restOf c r.idx (r.seen - 1)
        if !dieOn s || ds.any (fun x => !x.reserved && decide (x.op ≤ 10) && (descRows c x).any fun k => transientWaits s (some p) k.1 k.2) then s else
        let s := ds.foldl (fun s x => failDesc c st x s) (if r.failed.isSome then s else countRead st s)
        let s := modStr (fun x =>
          { x with faultValid := true, failed := satAdd 32 x.failed 1
                   faultPart := if x.faultValid then x.faultPart else p
                   faultCause := if x.faultValid then x.faultCause else st
                   faultEngine := if x.faultValid then x.faultEngine else e
                   faultDesc := if x.faultValid then x.faultDesc else r.idx
                   faultBack := if x.faultValid then x.faultBack else c.background }) s
        endChain e st (raiseError 6 evStreamFailed p [.prims p] [] s))

/-- Rows a dropped chain would have written lose their await code and stay empty (R322). -/
def clearAwait (c : Chain) (ds : List Desc) (s : State) : State :=
  (ds.flatMap fun d => if d.reserved || decide (10 < d.op) then [] else descRows c d).foldl (fun s k =>
    if rowFull s k.1 k.2 then s else setTag k.1 k.2 (rowTag s k.1 k.2 / 16 * 16) s) s

/-- Drop the queued chains that a test names and abandon the running ones (R322). -/
def dropChains (p : Chain → Bool) (s : State) : State :=
  finishUnmaps ((List.range 32).foldl (fun s e =>
    let x := engine s e
    let s := match x.cur with
      | some r => if p r.chain then clearAwait r.chain (restOf r.chain r.idx (r.seen - 1)) (modEngine e (fun x => { x with cur := none }) s) else s
      | none => s
    let s := ((x.queue ++ x.back).filter p).foldl (fun s c => clearAwait c (restOf c c.first c.seen) s) s
    modEngine e (fun x => { x with queue := x.queue.filter fun c => !p c, back := x.back.filter fun c => !p c }) s) s)

/-! ### Commands (R327) -/

/-- MEM_COPY: the list becomes one background chain (R304, R311, R693); a reserved bit refuses it whole (R9). -/
def memCopy (c : Cmd) (s : State) : State × Ans :=
  let n := pNum c 8 2
  if n = 0 ∨ 4096 < n then refuse stBadCommand s else
  withHost c (pNum c 0 8) (64 * n) s fun bs =>
    let table := descTable bs
    if table.any fun d => d.reserved || bits d.flags 2 2 != 0 then refuse stBadCommand s else
    let p := cmdPart c
    let image := ((Tbl.get none s.prog.active p).bind fun a => Tbl.get none s.prog.progs a.handle).elim [] Prog.image
    let e := backEngine s
    later (modEngine e (fun x => { x with back := x.back ++
      [{ table := table, first := 0, base := Img.bases image, part := some p, background := true, image := image, seen := 0, poisoned := false, cmd := some c }] }) s)

def memCopySpec : CmdSpec := { op := 0x0601, allow := [(0, 9, 0xFF)], perm := byAny, body := memCopy }

/-- MEM_COPY (R327). -/
def execMemCopy (m : Mbx) (s : State) : Host.Outcome State Fault Refusal := .next (runCmd memCopySpec m s)

def memT3Unmap (c : Cmd) (s : State) : State × Ans :=
  let k := 256 * pByte c 0 + pByte c 1
  if 1 < pByte c 0 then refuse stBadCommand s else
  match Tbl.get none s.str.windows k with
  | none => done s
  | some w =>
    if funcPart s w.func ≠ c.part then refuse stNotPermitted s
    else if windowBusy s w then later (modStr (fun x => { x with unmapping := x.unmapping ++ [(k, c)] }) s)
    else done (modStr (fun x => { x with windows := Tbl.set none x.windows k none }) s)

def memT3UnmapSpec : CmdSpec := { op := 0x0605, allow := [(0, 1, 0xFF)], perm := byAny, body := memT3Unmap }

/-- MEM_T3_UNMAP (R327). -/
def execMemT3Unmap (m : Mbx) (s : State) : Host.Outcome State Fault Refusal := .next (runCmd memT3UnmapSpec m s)

end Sys2Proof.Machine
end

