-- ==== Sys2Proof/Machine/Walk.lean ====
section
/-! DEFINITION. How a program goes from issue to issue (R240, R252 to R256, R262), and the walk over all its issues that firmware makes with given counts. -/
namespace Sys2Proof.Machine

/-- Where a program starts: its first bundle, the header's base registers (R240). -/
def Pos.start (i : List Byte) : Pos :=
  { pc := 0, left := none, jumped := false, loops := [0, 0, 0, 0], loopOn := [false, false, false, false], base := Img.bases i, ended := false }

/-- Past the bundle at the position, not jumping back: the end of the program or the next bundle. Running off the bundle bytes, which only an unverified program does, ends it (log entry 30). -/
def Pos.pass (i : List Byte) (p : Pos) : Pos :=
  let g := Img.word i p.pc
  let n := p.pc + Gp.size g
  if Gp.last g || decide (Img.bundleBytes i ≤ n) then { p with left := none, ended := true }
  else { p with pc := n, left := none, jumped := false }

/-- Enter the bundle at the position (R254, R255): a loop's first bundle loads its counter, or with no trips goes to the bundle after the loop. -/
def Pos.enter (i : List Byte) (counts : List Nat) (p : Pos) : Pos :=
  if p.left.isSome || p.ended then p else
  let g := Img.word i p.pc
  let n := countOf counts (Gp.trips g)
  if Gp.loopBegin g && !p.jumped then
    if n = 0 then
      match loopEndOf i p.pc with
      | some e => ({ p with pc := e }).pass i
      | none => { p with ended := true }
    else { p with loops := p.loops.set (Gp.level g) n, loopOn := p.loopOn.set (Gp.level g) true, left := some (countOf counts (Gp.rep g)) }
  else { p with left := some (countOf counts (Gp.rep g)) }

/-- After the last issue of a bundle (R255, R262): a loop's last bundle counts down and jumps back, else the program goes on or ends. -/
def Pos.finish (i : List Byte) (p : Pos) : Pos :=
  let g := Img.word i p.pc
  if Gp.loopEnd g then
    let n := p.loops.getD (Gp.level g) 0 - 1
    let p := { p with loops := p.loops.set (Gp.level g) n }
    if n ≠ 0 then { p with pc := (loopBeginOf i p.pc).getD p.pc, left := none, jumped := true }
    else ({ p with loopOn := p.loopOn.set (Gp.level g) false }).pass i
  else p.pass i

/-- After one issue: the base register is updated (R253), and after the last the bundle is finished. -/
def Pos.issued (i : List Byte) (p : Pos) : Pos :=
  let g := Img.word i p.pc
  let base := if Gp.bupdEn g then p.base.set (Gp.bupdReg g) ((p.base.getD (Gp.bupdReg g) 0 + Gp.bupdDelta g) % 65536) else p.base
  let n := p.left.getD 0 - 1
  let p := { p with base := base, left := some n }
  if n = 0 then p.finish i else p

/-- Every issue of a program from a position, in order, as far as the fuel reaches. -/
def issuesFrom (i : List Byte) (counts : List Nat) : Nat → Pos → List Pos
  | 0, _ => []
  | n + 1, p =>
    if p.ended then [] else
    let q := p.enter i counts
    match q.left with
    | none => issuesFrom i counts n q
    | some 0 => issuesFrom i counts n (q.finish i)
    | some _ => q :: issuesFrom i counts n (q.issued i)

/-- The next issue from a position on, past bundles and loops with nothing to issue, which take no cycles, or the end (R254, R255, R262). -/
def Pos.toIssue (i : List Byte) (counts : List Nat) : Nat → Pos → Pos
  | 0, p => p
  | n + 1, p =>
    if p.ended then p else
    let q := p.enter i counts
    match q.left with
    | none => q.toIssue i counts n
    | some 0 => (q.finish i).toIssue i counts n
    | some _ => q

/-- More transitions than any verified program makes: a step lasts at most 1 s (R28). -/
def walkFuel : Nat := 2 ^ 40

/-- Every issue of a run. -/
def issues (i : List Byte) (counts : List Nat) : List Pos := issuesFrom i counts walkFuel (Pos.start i)

/-- The depth of active loops (R280). -/
def Pos.depth (p : Pos) : Nat := (p.loopOn.filter id).length

/-- The first answer that a test gives for an issue from a position on. -/
def seekIssue (i : List Byte) (counts : List Nat) (f : Pos → Option α) : Nat → Pos → Option α
  | 0, _ => none
  | n + 1, p =>
    if p.ended then none else
    let q := p.enter i counts
    match q.left with
    | none => seekIssue i counts f n q
    | some 0 => seekIssue i counts f n (q.finish i)
    | some _ => (f q).orElse fun _ => seekIssue i counts f n (q.issued i)

/-- A field's next BRAID part in program order, if it is warm, with its base registers and the offset of its bundle (R260). -/
def nextWarm (i : List Byte) (counts : List Nat) (f : Nat) (p : Pos) : Option (Nat × List Nat × Nat) :=
  (seekIssue i counts (fun q => ((bundleParts i q.pc).find? fun w => partKind w == 1 && bit (partMask w) f).map fun w => (w, q.base, q.pc)) walkFuel p).filter
    fun x => Br.warm x.1

/-- A drain of a band supplies its vector's last value (R149): the field's next EPILOGUE part with the same output rows, if there is one, drains no higher band. -/
def lastBand (i : List Byte) (counts : List Nat) (f w : Nat) (base : List Nat) (p : Pos) : Bool :=
  let first := fun (b : List Nat) x => rowOf b (Ep.outReg x) (Ep.outOff x)
  ((seekIssue i counts (fun q => ((bundleParts i q.pc).find? fun x =>
    partKind x == 4 && bit (partMask x) f && first q.base x == first base w).map Ep.band) walkFuel p).map fun b => decide (b ≤ Ep.band w)).getD true

end Sys2Proof.Machine
end

