-- ==== Sys2Proof/Machine/Kv.lean ====
section
/-! DEFINITION. The page manager: pools, page tables, page lists, masks, drops and the KV commands (10_attention_kv_cache.md, R375 to R409). -/
namespace Sys2Proof.Machine

/-! ### Pools and pages (R375 to R380) -/

def pool? (s : State) (b : Nat) : Option Pool := Tbl.get none s.kv.pools b
def modPool (b : Nat) (g : Pool → Pool) (s : State) : State :=
  match pool? s b with
  | some x => modKv (fun k => { k with pools := Tbl.set none k.pools b (some (g x)) }) s
  | none => s

/-- A sequence by its request slot; the companion sequence of a draft model stands at slot + 2^18 (R441). -/
def seqp? (s : State) (k : Nat) : Option SeqPages := Tbl.get none s.kv.seqs k
def modSeqp (k : Nat) (g : SeqPages → SeqPages) (s : State) : State :=
  match seqp? s k with
  | some x => modKv (fun v => { v with seqs := Tbl.set none v.seqs k (some (g x)) }) s
  | none => s

namespace Pool
/-- Twice b of R376: bytes per value. -/
def half (p : Pool) : Nat := if p.kvFmt = 6 then 4 else if p.kvFmt = 0xC then 2 else 1
def payload (p : Pool) : Nat := 2 ^ p.shift
/-- H × d × b: bytes of one position's keys or values. -/
def posBytes (p : Pool) : Nat := p.heads * p.dim * p.half / 2
/-- Quarters of a payload that a parked page of this format takes (R438). -/
def quarters (p : Pool) : Nat := if p.kvFmt = 6 then 1 else if p.kvFmt = 0xC then 2 else 4
def tableAddr (p : Pool) (t : Nat) : Nat := p.arenaBase + 4096 * t
def pageAddr (p : Pool) (n : Nat) : Nat := p.base + n * p.payload
/-- The layers with KV. -/
def kvLayers (p : Pool) : List Nat := p.windows.filterMap fun w => w.2.map fun _ => w.1
/-- The window of a layer in pages, 0 for none. -/
def window (p : Pool) (l : Nat) : Nat := (Tbl.get none p.windows l).getD 0
end Pool

/-- The least number from `n` on that a canonical table does not list. -/
def firstGap : List Nat → Nat → Nat
  | [], n => n
  | k :: ks, n => if k < n then firstGap ks n else if k = n then firstGap ks (n + 1) else n

/-- Write bytes at a local address of a tier. -/
def wrLocal (a : Nat) (bs : List Byte) (s : State) : State :=
  match place a (max 1 bs.length) with
  | .tier t off => tierWrite t off bs false 0 s
  | _ => s

/-- An extent of a tier overlaps a retired granule (R663). -/
def onRetired (s : State) (t off len : Nat) : Bool := (granulesOf off len).any (tier s t).retired.contains

/-- The pages of a pool that overlap a retired granule (R663). -/
def retiredPages (s : State) (p : Pool) : List Nat :=
  let off := p.base - tierBase p.tier
  ((tier s p.tier).retired.flatMap fun g =>
    let lo := (65536 * g - off) / p.payload
    if 65536 * (g + 1) ≤ off then [] else (List.range (ceilDiv (65536 * (g + 1) - off) p.payload - lo)).map (lo + ·)).eraseDups

/-- Pages that cannot be given: 0 and 1 (R378, R379), those in use, and those on retired granules (R663). -/
def takenPages (s : State) (p : Pool) : List Nat :=
  [0, 1] ++ Tbl.keys p.counts ++ (retiredPages s p).filter fun n => decide (1 < n) && Tbl.get 0 p.counts n == 0

/-- The lowest free page (R380); the null page's number is never given. -/
def freePage (s : State) (p : Pool) : Option Nat :=
  let taken := takenPages s p
  ((taken.map (· + 1)).filter fun n => decide (1 < n) && decide (n < p.pages) && decide (n < 0xFFFFFFFF) && !taken.contains n).min?

/-- The number of free pages. -/
def freePages (s : State) (p : Pool) : Nat :=
  let limit := min p.pages 0xFFFFFFFF
  limit - ((takenPages s p).filter fun n => decide (n < limit)).length

/-- Take a page: its count becomes one (R380, R663). -/
def allocPage (b : Nat) (s : State) : Option (Nat × State) :=
  (pool? s b).bind fun p => (freePage s p).map fun n => (n, modPool b (fun p => { p with counts := Tbl.set 0 p.counts n 1 }) s)

/-- The layer and page number of an entry's key. -/
def keyLayer (key : Nat) : Nat := key / 2 ^ 18
def keyPage (key : Nat) : Nat := key % 2 ^ 18
def pageKey (l pg : Nat) : Nat := l * 2 ^ 18 + pg % 2 ^ 18

/-! ### Tables (R381 to R384) -/

/-- A second-level entry as its 64 bits (R384). -/
def entryWord (e : PageEntry) : Nat :=
  e.state % 4 * 2 ^ 62 + b2n e.shared * 2 ^ 61 + b2n e.tentative * 2 ^ 60 + b2n e.poisoned * 2 ^ 59 + e.fill % 128 * 2 ^ 52 + e.page % 2 ^ 32

/-- A directory or top-table entry (R383). -/
def tableWord (t : Nat) : Nat := 2 ^ 63 + t % 2 ^ 20

/-- Allocate consecutive arena tables, the lowest that fit, all entries absent (log entry 31). -/
def allocTables (b n : Nat) (s : State) : Option (Nat × State) :=
  (pool? s b).bind fun p =>
    let ok := fun i => decide (i + n ≤ p.arenaTables) && (List.range n).all fun k => !Tbl.get false p.tables (i + k)
    ((0 :: (Tbl.keys p.tables).map (· + 1)).find? ok).map fun i =>
      (i, wrLocal (p.tableAddr i) (List.replicate (4096 * n) 0)
        (modPool b (fun p => { p with tables := (List.range n).foldl (fun t k => Tbl.set false t (i + k) true) p.tables }) s))

def freeTable (b i : Nat) (s : State) : State := modPool b (fun p => { p with tables := Tbl.set false p.tables i false }) s

/-- Arena tables still free. -/
def freeTables (p : Pool) : Nat := p.arenaTables - (Tbl.keys p.tables).length

/-- The tables a sequence lacks for a page of a layer. -/
def tablesMissing (q : SeqPages) (p : Pool) (l pg : Nat) : Nat :=
  (if q.directory.isNone then ceilDiv p.layers 512 else 0) + b2n (Tbl.get none q.tops l).isNone +
    b2n (Tbl.get none q.seconds (l * 512 + pg / 512)).isNone

/-- Allocate what tables the path to a page lacks (R381, R384). -/
def openPath (k l pg : Nat) (s : State) : Option State := do
  let q ← seqp? s k
  let b := q.binding
  let p ← pool? s b
  let (dir, s) ← match q.directory with
    | some d => some (d, s)
    | none => (allocTables b (ceilDiv p.layers 512) s).map fun x => (x.1, modSeqp k (fun q => { q with directory := some x.1 }) x.2)
  let (top, s) ← match Tbl.get none q.tops l with
    | some t => some (t, s)
    | none => (allocTables b 1 s).map fun x =>
        (x.1, wrLocal (p.tableAddr dir + 8 * l) (leBytes 8 (tableWord x.1)) (modSeqp k (fun q => { q with tops := Tbl.set none q.tops l (some x.1) }) x.2))
  let j := l * 512 + pg / 512
  match Tbl.get none q.seconds j with
  | some _ => some s
  | none => (allocTables b 1 s).map fun x =>
      wrLocal (p.tableAddr top + 8 * (pg / 512)) (leBytes 8 (tableWord x.1)) (modSeqp k (fun q => { q with seconds := Tbl.set none q.seconds j (some x.1) }) x.2)

/-- Free the tables whose last valid entry is gone (R384). -/
def closePath (k l j : Nat) (s : State) : State :=
  match seqp? s k with
  | none => s
  | some q =>
    let b := q.binding
    let addr := fun t => ((pool? s b).map fun p => p.tableAddr t).getD 0
    if q.entries.any fun e => decide (e.1 / 2 ^ 9 = l * 512 + j) then s else
    let s := match Tbl.get none q.seconds (l * 512 + j), Tbl.get none q.tops l with
      | some t, some top => wrLocal (addr top + 8 * j) (leBytes 8 0)
          (freeTable b t (modSeqp k (fun q => { q with seconds := Tbl.set none q.seconds (l * 512 + j) none }) s))
      | _, _ => s
    let more := ((seqp? s k).map fun q => q.seconds.any fun e => e.1 / 512 == l).getD false
    match more, Tbl.get none q.tops l, q.directory with
    | false, some t, some d => wrLocal (addr d + 8 * l) (leBytes 8 0)
        (freeTable b t (modSeqp k (fun q => { q with tops := Tbl.set none q.tops l none }) s))
    | _, _, _ => s

/-- Write a second-level entry, in the state and in its table. -/
def setEntry (k key : Nat) (e : Option PageEntry) (s : State) : State :=
  match seqp? s k with
  | none => s
  | some q =>
    let l := keyLayer key
    let pg := keyPage key
    let s := match Tbl.get none q.seconds (l * 512 + pg / 512), pool? s q.binding with
      | some t, some p => wrLocal (p.tableAddr t + 8 * (pg % 512)) (leBytes 8 ((e.map entryWord).getD 0)) s
      | _, _ => s
    let s := modSeqp k (fun q => { q with entries := Tbl.set none q.entries key e }) s
    if e.isNone then closePath k l (pg / 512) s else s

/-! ### Counts (R380, R384, R385) -/

/-- Set the shared bit of every entry that maps a page as its count says. -/
def refreshShared (b page : Nat) (s : State) : State :=
  let n := ((pool? s b).map fun p => Tbl.get 0 p.counts page).getD 0
  s.kv.seqs.foldl (fun s q => match q.2 with
    | some x => if x.binding ≠ b then s else x.entries.foldl (fun s e => match e.2 with
        | some y => if y.state = 1 ∧ y.page = page ∧ y.shared ≠ decide (1 < n) then setEntry q.1 e.1 (some { y with shared := decide (1 < n) }) s else s
        | none => s) s
    | none => s) s

/-- Raise or lower a page's count. -/
def addCount (b page : Nat) (up : Bool) (s : State) : State :=
  refreshShared b page (modPool b (fun p =>
    let n := Tbl.get 0 p.counts page
    { p with counts := Tbl.set 0 p.counts page (if up then min 65535 (n + 1) else n - 1) }) s)

/-! ### Park store (R438) -/

/-- Take consecutive quarters of the park store: of a pool page that has room, else of a new pool page, none on a retired granule (R663); `t3` names the binding's T3 area, `blocks` its size. -/
def allocPark (b : Nat) (t3 : Bool) (blocks : Nat) (s : State) : Option (Nat × State) :=
  (pool? s b).bind fun p =>
    let n := p.quarters
    if t3 then
      let ok := fun i => i % n == 0 && decide (i + n ≤ blocks) && (List.range n).all fun k => !Tbl.get false p.park3Used (i + k)
      ((0 :: (Tbl.keys p.park3Used).map fun i => (i / n + 1) * n).find? ok).map fun i =>
        (i, modPool b (fun p => { p with park3Used := (List.range n).foldl (fun t k => Tbl.set false t (i + k) true) p.park3Used }) s)
    else
      let mark := fun i => modPool b (fun p => { p with parkUsed := (List.range n).foldl (fun t k => Tbl.set false t (i + k) true) p.parkUsed })
      let ok := fun i => i % n == 0 && !(retiredPages s p).contains (i / 4) && (List.range n).all fun k => !Tbl.get false p.parkUsed (i + k)
      let open4 := (Tbl.keys p.parkUsed).flatMap fun i => (List.range 4).map (4 * (i / 4) + ·)
      match open4.find? ok with
      | some i => some (i, mark i s)
      | none => (allocPage b s).map fun x => (4 * x.1, mark (4 * x.1) x.2)

/-- Give a park block back; a pool page with no block left is free. -/
def freePark (b : Nat) (t3 : Bool) (i : Nat) (s : State) : State :=
  match pool? s b with
  | none => s
  | some p =>
    let clear := fun (t : Tbl Bool) => (List.range p.quarters).foldl (fun t k => Tbl.set false t (i + k) false) t
    if t3 then modPool b (fun p => { p with park3Used := clear p.park3Used }) s
    else
      let left := clear p.parkUsed
      let s := modPool b (fun p => { p with parkUsed := left }) s
      if left.any fun x => x.1 / 4 == i / 4 then s else addCount b (i / 4) false s

/-! ### Sequences (R381, R396 to R406) -/

/-- A new sequence. -/
def newSeq (k b : Nat) (s : State) : State :=
  let q : SeqPages :=
    { binding := b, directory := none, tops := [], seconds := [], watermark := 0, written := 0, entries := [], fresh := [], copying := [] }
  modKv (fun v => { v with seqs := Tbl.set none v.seqs k (some q) }) s

/-- Free what an entry refers to: a pool page, or a park block. -/
def freeEntry (b : Nat) (t3 : Bool) (e : PageEntry) (s : State) : State :=
  if e.state = 1 then addCount b e.page false s else if e.state = 3 then freePark b t3 e.page s else s

/-- Give up the pages allocated for appends that are not to be kept. -/
def dropFresh (k : Nat) (s : State) : State :=
  match seqp? s k with
  | none => s
  | some q => modSeqp k (fun q => { q with fresh := [], copying := [] })
      ((q.fresh.filterMap Prod.snd ++ q.copying.map Prod.snd).foldl (fun s n => addCount q.binding n false s) s)

/-- Drop a sequence's pages: every entry dropped, tables kept (R402). -/
def dropPages (k : Nat) (t3 : Bool) (s : State) : State :=
  let s := dropFresh k s
  match seqp? s k with
  | none => s
  | some q => modSeqp k (fun q => { q with written := 0, watermark := 0 }) (q.entries.foldl (fun s e => match e.2 with
      | some y => setEntry k e.1 (some { y with state := 2, shared := false, tentative := false, fill := 0, page := 0 }) (freeEntry q.binding t3 y s)
      | none => s) s)

/-- Free a sequence: pages, park blocks, tables and directory. -/
def freeSeq (k : Nat) (t3 : Bool) (s : State) : State :=
  let s := dropFresh k s
  match seqp? s k with
  | none => s
  | some q =>
    let s := q.entries.foldl (fun s e => match e.2 with
      | some y => setEntry k e.1 none (freeEntry q.binding t3 y s)
      | none => s) s
    match seqp? s k with
    | none => s
    | some q =>
      let dirs := match q.directory, pool? s q.binding with
        | some d, some p => (List.range (ceilDiv p.layers 512)).map (d + ·)
        | _, _ => []
      let ts := dirs ++ q.tops.filterMap Prod.snd ++ q.seconds.filterMap Prod.snd
      modKv (fun v => { v with seqs := Tbl.set none v.seqs k none }) (ts.foldl (fun s t => freeTable q.binding t s) s)

/-- The pages of a layer that a run of positions touches. -/
def pagesOf (first n : Nat) : List Nat := if n = 0 then [] else (List.range ((first + n - 1) / 64 - first / 64 + 1)).map (first / 64 + ·)

/-- The page behind an entry that appends may write: resident, or allocated for this step. -/
def livePage (q : SeqPages) (key : Nat) : Option Nat :=
  match Tbl.get none q.fresh key with
  | some n => some n
  | none => (Tbl.get none q.entries key).bind fun e => if e.state = 1 then some e.page else none

/-- The keys of pages that an append of positions lacks. -/
def appendKeys (p : Pool) (q : SeqPages) (first n : Nat) : List Nat :=
  (p.kvLayers.flatMap fun l => (pagesOf first n).map (pageKey l)).filter fun key => (livePage q key).isNone

/-- Pages and tables an append needs (R401). -/
def appendNeed (p : Pool) (q : SeqPages) (first n : Nat) : Nat × Nat :=
  let ks := appendKeys p q first n
  let paths := (ks.map fun key => keyLayer key * 512 + keyPage key / 512).eraseDups
  let seconds := (paths.filter fun j => (Tbl.get none q.seconds j).isNone).length
  let tops := ((paths.map (· / 512)).eraseDups.filter fun l => (Tbl.get none q.tops l).isNone).length
  (ks.length, seconds + tops + (if q.directory.isNone ∧ ks ≠ [] then ceilDiv p.layers 512 else 0))

/-- Allocate pages and tables for an append (R384, R396, R397). -/
def reserveAppend (k first n : Nat) (s : State) : State :=
  match (seqp? s k).bind fun q => (pool? s q.binding).map fun p => (q, p) with
  | none => s
  | some (q, p) =>
    let s := (appendKeys p q first n).foldl (fun s key =>
      match (openPath k (keyLayer key) (keyPage key) s).bind (allocPage q.binding) with
      | some x => modSeqp k (fun q => { q with fresh := Tbl.set none q.fresh key (some x.1) }) x.2
      | none => s) s
    modSeqp k (fun q => { q with written := first + n }) s

/-- The first shared page an append would write into (R385). -/
def sharedTargets (p : Pool) (q : SeqPages) (first n : Nat) : List Nat :=
  (p.kvLayers.flatMap fun l => (pagesOf first n).map (pageKey l)).filter fun key => (Tbl.get none q.entries key).any fun e => e.state == 1 && e.shared

/-- Begin copies of shared pages on newly allocated ones (R385, R693). -/
def startCopies (k : Nat) (keys : List Nat) (s : State) : State :=
  keys.foldl (fun s key => match seqp? s k with
    | none => s
    | some q => if q.copying.any fun c => c.1 == key then s else
        match allocPage q.binding s with
        | some x => modSeqp k (fun q => { q with copying := q.copying ++ [(key, x.1)] }) x.2
        | none => s) s

/-- A copy is made: the sequence's entry names it, and the shared page loses a reference. -/
def copyShared (slot : Nat) (q : SeqPages) (c : Nat × Nat) (s : State) : State :=
  match (Tbl.get none q.entries c.1), pool? s q.binding with
  | some e, some p =>
    let s := wrLocal (p.pageAddr c.2) (rdBytes s (p.pageAddr e.page) p.payload) s
    let s := setEntry slot c.1 (some { e with page := c.2, shared := false }) s
    addCount q.binding e.page false (modSeqp slot (fun q => { q with copying := q.copying.filter (· != c) }) s)
  | _, _ => s

/-- COW_COPY_COMPLETE (R385): the copies a sequence waits for are made, and its entries name them. -/
def execCowCopyComplete (slot : Nat) (s : State) : Host.Outcome State Fault Refusal :=
  .next (match seqp? s slot with
    | none => s
    | some q => q.copying.foldl (fun s c => copyShared slot q c s) s)

/-- After the step: what was written is entered, positions from `w` on are given up (R396, R398). -/
def settleSeq (k w : Nat) (s : State) : State :=
  match seqp? s k with
  | none => s
  | some q =>
    let s := q.fresh.foldl (fun s f => match f.2 with
      | some n => setEntry k f.1 (some { state := 1, shared := false, tentative := false, poisoned := false, fill := min 64 (q.written - 64 * keyPage f.1), page := n }) s
      | none => s) (modSeqp k (fun q => { q with fresh := [], watermark := w, written := w }) s)
    ((seqp? s k).map SeqPages.entries).getD [] |>.foldl (fun s e => match e.2 with
      | some y =>
        let start := 64 * keyPage e.1
        if y.state ≠ 1 then s
        else if w ≤ start then setEntry k e.1 none (addCount q.binding y.page false s)
        else if y.fill ≠ min 64 (w - start) then setEntry k e.1 (some { y with fill := min 64 (w - start) }) s
        else s
      | none => s) s

/-- Free the pages that have left their layer's window (R399). -/
def slideWindows (k : Nat) (s : State) : State :=
  match (seqp? s k).bind fun q => (pool? s q.binding).map fun p => (q, p) with
  | none => s
  | some (q, p) => q.entries.foldl (fun s e => match e.2 with
      | some y =>
        let w := p.window (keyLayer e.1)
        if w = 0 ∨ y.state ≠ 1 ∨ q.watermark < 64 * w + 64 * (keyPage e.1 + 1) then s
        else setEntry k e.1 none (addCount q.binding y.page false s)
      | none => s) s

/-- A sequence has a dropped entry within its visible range (R403). -/
def hasDropped (s : State) (k : Nat) : Bool := (seqp? s k).any fun q => q.entries.any fun e => e.2.any fun y => y.state == 2

/-! ### Page lists and masks (R386 to R391) -/

/-- Page-list entry (R387). -/
def listWord (count slot page : Nat) : Nat := count % 128 * 2 ^ 38 + slot % 64 * 2 ^ 32 + page % 2 ^ 32

/-- One batch slot as the page manager sees it: sequence key, first position, positions appended, positions visible after the step; a void slot has no key. -/
structure KvUse where
  key : Option Nat
  first : Nat
  n : Nat
  visible : Nat
  deriving DecidableEq, Repr

/-- The entries a KV slot takes for one batch slot: every page of each chunk of 40, or the appended runs (R388; log entry 31). -/
def slotEntries (s : State) (x : KvSlot) (u : KvUse) : List Nat :=
  match u.key.bind (seqp? s) with
  | none => if x.append then [listWord 0 0 1] else []
  | some q =>
    if x.append then
      (pagesOf u.first u.n).map fun pg =>
        let lo := max u.first (64 * pg)
        let hi := min (u.first + u.n) (64 * pg + 64)
        listWord (hi - lo) (lo % 64) ((livePage q (pageKey x.layer pg)).getD 1)
    else
      (List.range (40 * ceilDiv u.visible 2560)).map fun pg =>
        listWord 0 0 (if 64 * pg < u.visible then (livePage q (pageKey x.layer pg)).getD 0 else 0)

/-- How often a program kicks a KV slot with given counts. -/
def slotKicks (i : List Byte) (counts : List Nat) (x : KvSlot) : Nat :=
  let table := descTable (sliceBytes i (Img.descOff i) (64 * Img.descNum i))
  let reach := fun first => (descIdx table 4096 first).contains x.desc
  ((issues i counts).map fun p => ((Gp.kicks (Img.word i p.pc)).filter fun k => reach k.2).length).sum
where
  /-- The indexes of a chain's descriptors. -/
  descIdx (table : List Desc) : Nat → Nat → List Nat
    | 0, _ => []
    | n + 1, i => match table[i]? with
      | none => []
      | some d => i :: if Ds.last d then [] else descIdx table n (d.next % 4096)

/-- Page list of a KV slot: exactly as many entries as its kicks (R388). -/
def pageList (s : State) (x : KvSlot) (kicks : Nat) (us : List KvUse) : List Nat :=
  let l := us.flatMap (slotEntries s x)
  (l ++ List.replicate (kicks - l.length) (listWord 0 0 (if x.append then 1 else 0))).take kicks

/-- Write a binding's page lists for a segment: kept by slot, and laid one after another in the page-list area as far as it reaches (log entry 31). -/
def writeLists (b seg : Nat) (i : List Byte) (counts : List Nat) (us : List KvUse) (s : State) : State :=
  match pool? s b with
  | none => s
  | some p =>
    let ls := p.slots.map fun x => pageList s x (slotKicks i counts x) us
    let bytes := (ls.flatten.flatMap (leBytes 8)).take p.listBytes
    let s := modPool b (fun p => { p with lists := (ls.mapIdx fun j l => (j, l)).foldl (fun t x => Tbl.set [] t (seg * 256 + x.1) x.2) p.lists }) s
    if bytes.isEmpty then s else wrLocal p.listBase bytes s

/-- A position mask: bit `i` set where position 512 j + i is hidden from the token (R391). The area has one mask for all layers, so the widest window counts (log entry 31). -/
def maskBytes (p : Pool) (u : KvUse) (w t j : Nat) : List Byte :=
  let own := u.first + t
  let ws := p.kvLayers.map p.window
  let win := if ws.contains 0 then 0 else 64 * ws.foldl max 0
  let hidden := fun x => !(decide (x < w) || (decide (u.first ≤ x) && decide (x ≤ own))) || (decide (win ≠ 0) && decide (x + win ≤ own))
  leBytes 64 (((List.range 512).map fun i => if hidden (512 * j + i) then 2 ^ i else 0).sum)

/-- Write the masks of a batch: tokens of its slots in order. -/
def writeMasks (b : Nat) (us : List KvUse) (s : State) : State :=
  match pool? s b with
  | none => s
  | some p =>
    let toks := us.flatMap fun u => (List.range u.n).map fun t => (u, t)
    (toks.mapIdx fun i x => (i, x)).foldl (fun s x =>
      let w := ((x.2.1.key.bind (seqp? s)).map SeqPages.watermark).getD 0
      wrLocal (p.maskBase + 64 * (x.1 * p.maskBands)) ((List.range p.maskBands).flatMap (maskBytes p x.2.1 w x.2.2)) s) s

/-! ### A kick of a KV slot (R386, R387) -/

/-- Substitute the page addresses of a kicked chain's KV slots; each takes its list's next entry, and beyond the list page 0 or page 1 (R388). `off` tells the slots of two pools apart. -/
def kvSubst (off : Nat) (p : Pool) (seg : Nat) (idxs : List Nat) (next : Tbl Nat) (table : List Desc) : Tbl Nat × List Desc :=
  (p.slots.mapIdx fun j x => (j, x)).foldl (fun (a : Tbl Nat × List Desc) jx =>
    let j := jx.1
    let x := jx.2
    if !idxs.contains x.desc then a else
    let k := Tbl.get 0 a.1 (off + j)
    let e := (Tbl.get [] p.lists (seg * 256 + j)).getD k (listWord 0 0 (if x.append then 1 else 0))
    let d := a.2.getD x.desc .nothing
    let addr := fun a page slot => p.pageAddr page + a % p.payload + slot * p.posBytes
    let d' := if x.append then
        { d with dst := addr d.dst (bits e 0 32) (bits e 32 6), sink := some (bits e 38 7, addr d.dst 1 0) }
      else { d with src := addr d.src (bits e 0 32) (bits e 32 6) }
    (Tbl.set 0 a.1 (off + j) (k + 1), a.2.set x.desc d')) (next, table)

/-! ### Commands (R407, R408) -/

/-- A binding of the issuing function's partition. -/
def myBinding (s : State) (c : Cmd) (b : Nat) : Option Binding :=
  (Tbl.get none s.mdl.bindings b).filter fun x => c.part == some x.part

/-- The manifest a binding runs. -/
def bindingManifest (s : State) (b : Nat) : List Byte :=
  (((Tbl.get none s.mdl.bindings b).bind fun x => Tbl.get none s.mdl.images x.image).map Image.manifest).getD []

/-- A binding has live sequences. -/
def poolLive (s : State) (b : Nat) : Bool := s.kv.seqs.any fun q => q.2.any fun x => x.binding == b

/-- The areas of a pool: tier, offset, length (R408, R591). The mask area has no size of its own: one token's bands stand for it (log entry 31). -/
def poolAreas (p : Pool) : List (Nat × Nat × Nat) :=
  [(p.tier, p.base - tierBase p.tier, p.pages * p.payload), (0, p.arenaBase - tierBase 0, 4096 * p.arenaTables),
   (0, p.maskBase - tierBase 0, 64 * p.maskBands), (0, p.listBase - tierBase 0, p.listBytes)]

/-- Every area lies in its tier. -/
def areasInTier (p : Pool) : Bool :=
  (poolAreas p).all fun x => match place (tierBase x.1 + x.2.1) (max 1 x.2.2) with | .tier t _ => t == x.1 | _ => false

/-- Bits of the configuration block with a meaning. -/
def kvBlockAllow : List (Nat × Nat × Nat) :=
  [(0, 51, 0xFF)] ++ (List.range 1024).flatMap (fun l => [(64 + 4 * l, 65 + 4 * l, 0xFF), (66 + 4 * l, 66 + 4 * l, 3), (67 + 4 * l, 67 + 4 * l, 0x80)]) ++
    (List.range 256).map fun j => (4160 + 8 * j, 4165 + 8 * j, 0xFF)

/-- The pool a configuration block asks for. -/
def poolOf (mf bs : List Byte) : Pool :=
  { tier := leAt bs 0 1 - 1, kvFmt := leAt bs 1 1, heads := leAt bs 2 1, dim := leAt bs 3 1, shift := Mf.pageShift mf, layers := Mf.layers mf,
    pages := leAt bs 4 4, base := leAt bs 8 8, arenaBase := leAt bs 16 8, arenaTables := leAt bs 24 4, maskBands := leAt bs 28 2,
    maskBase := leAt bs 32 8, listBase := leAt bs 40 8, listBytes := leAt bs 48 4,
    windows := (List.range 1024).foldl (fun t l => if bit (leAt bs (64 + 4 * l) 4) 31
      then Tbl.set none t l (some (bits (leAt bs (64 + 4 * l) 4) 0 18)) else t) [],
    slots := (List.range (min 256 (leAt bs 30 2))).map fun j =>
      { desc := leAt bs (4160 + 8 * j) 2, append := leAt bs (4162 + 8 * j) 1 == 1, vRegion := leAt bs (4163 + 8 * j) 1 == 1, layer := leAt bs (4164 + 8 * j) 2 },
    counts := [], tables := [], lists := [], parkUsed := [], park3Used := [] }

/-- Descriptors of a partition's active program. -/
def activeDescs (s : State) (p : Nat) : Nat :=
  (((Tbl.get none s.prog.active p).bind fun a => Tbl.get none s.prog.progs a.handle).map fun g => Img.descNum g.image).getD 0

/-- The range checks of a configuration block (R376, R408, R409). -/
def poolFormOk (s : State) (part : Nat) (mf bs : List Byte) : Bool :=
  let p := poolOf mf bs
  cleanBytes kvBlockAllow 8192 bs && decide (1 ≤ leAt bs 0 1) && decide (leAt bs 0 1 ≤ 2) && decide (1 ≤ p.heads) && decide (p.heads ≤ 16) &&
    decide (32 ≤ p.dim) && decide (p.dim ≤ 160) && p.dim % 32 == 0 && decide (3 ≤ p.pages) && p.arenaBase % 4096 == 0 &&
    decide (1 ≤ p.arenaTables) && decide (p.arenaTables ≤ 1048576) && decide (leAt bs 30 2 ≤ 256) && p.maskBase % 2048 == 0 && p.listBase % 2048 == 0 &&
    p.slots.all (fun x => decide (x.desc < activeDescs s part) && (Tbl.get none p.windows x.layer).isSome) &&
    (List.range (min 256 (leAt bs 30 2))).all (fun j => decide (leAt bs (4162 + 8 * j) 1 ≤ 1) && decide (leAt bs (4163 + 8 * j) 1 ≤ 1)) &&
    p.kvLayers.all fun l => decide (l < p.layers)

/-- The geometry of R376. -/
def geometryOk (p : Pool) : Bool :=
  (p.kvFmt == 6 || p.kvFmt == 0xC || p.kvFmt == 0xD) && p.heads * p.dim % 128 == 0 && decide (64 * p.heads * p.dim * p.half ≤ p.payload)

/-- Free a pool and its areas. -/
def releasePool (b part : Nat) (s : State) : State :=
  match pool? s b with
  | none => s
  | some p => modKv (fun k => { k with pools := Tbl.set none k.pools b none }) ((poolAreas p).foldl (fun s x => releaseArea part x.1 x.2.1 x.2.2 s) s)

def kvPoolConfig (c : Cmd) (s : State) : State × Ans :=
  let b := pNum c 0 2
  let part := cmdPart c
  match myBinding s c b with
  | none => refuse stBadCommand s
  | some _ =>
    if poolLive s b then refuse stBusy s
    else if pBit c 2 0 then done (releasePool b part s)
    else withHost c (pNum c 8 8) 8192 s fun bs =>
      let mf := bindingManifest s b
      let p := poolOf mf bs
      if !poolFormOk s part mf bs then refuse stBadCommand s
      else if !geometryOk p then refuse stRefusedFormat s
      else if p.base % p.payload ≠ 0 ∨ !areasInTier p ∨ (pool? s b).isNone && decide (256 ≤ (s.kv.pools.filter fun q => q.2.isSome).length)
      then refuse stRefusedCapacity s
      else match claimAreas part (poolAreas p) (releasePool b part s) with
        | none => refuse stRefusedCapacity s
        | some s => done (wrLocal p.base (List.replicate p.payload 0) (modKv (fun k => { k with pools := Tbl.set none k.pools b (some p) }) s))

def kvPoolConfigSpec : CmdSpec := { op := 0x0680, allow := [(0, 1, 0xFF), (2, 2, 1), (8, 15, 0xFF)], perm := byAny, body := kvPoolConfig }

/-- KV_POOL_CONFIG (R376, R379, R406 to R408). -/
def execKvPoolConfig (m : Mbx) (s : State) : Host.Outcome State Fault Refusal := .next (runCmd kvPoolConfigSpec m s)

/-- A live request slot of the issuing function's partition. -/
def myRequest (s : State) (c : Cmd) (k : Nat) : Option Request :=
  (Tbl.get none s.srv.requests k).filter fun r => r.state != .free && c.part == some r.part

def kvSeqQuery (c : Cmd) (s : State) : State × Ans :=
  let k := pNum c 0 4
  match Tbl.get none s.srv.requests k, seqp? s k with
  | some r, some q =>
    if r.state == .free then refuse stBadCommand s
    else if c.part ≠ some r.part then refuse stNotPermitted s
    else intoHost c (pNum c 8 8) 65536 (Config.queryImage 0x0681 ([q.watermark, q.written] ++
      q.entries.flatMap fun e => [e.1, (e.2.map entryWord).getD 0])) s
  | _, _ => refuse stBadCommand s

def kvSeqQuerySpec : CmdSpec := { op := 0x0681, allow := [(0, 3, 0xFF), (8, 15, 0xFF)], perm := byAny, body := kvSeqQuery }

/-- KV_SEQ_QUERY (R407); the buffer's layout is not given (log entry 11). -/
def execKvSeqQuery (m : Mbx) (s : State) : Host.Outcome State Fault Refusal := .next (runCmd kvSeqQuerySpec m s)

def kvPoolStatus (c : Cmd) (s : State) : State × Ans :=
  let b := pNum c 0 2
  match myBinding s c b, pool? s b with
  | some _, some p => intoHost c (pNum c 8 8) 4096 (Config.queryImage 0x0682
      [p.tier, p.kvFmt, p.heads, p.dim, p.pages, freePages s p, p.arenaTables, freeTables p]) s
  | _, _ => refuse stBadCommand s

def kvPoolStatusSpec : CmdSpec := { op := 0x0682, allow := [(0, 1, 0xFF), (8, 15, 0xFF)], perm := byAny, body := kvPoolStatus }

/-- KV_POOL_STATUS (R407; log entry 11). -/
def execKvPoolStatus (m : Mbx) (s : State) : Host.Outcome State Fault Refusal := .next (runCmd kvPoolStatusSpec m s)

end Sys2Proof.Machine
end

