-- ==== Sys2Proof/Machine/Poison.lean ====
section
/-! DEFINITION. Poison that a read delivers: the second read of a block (R286, R320), and what firmware does when the data are weights or a KV page (R364, R405). -/
namespace Sys2Proof.Machine

/-! ### Weights and pages read poisoned (R364, R405) -/

/-- The bindings that run a layer of an image. -/
def boundTo (s : State) (im l : Nat) : List (Nat × Binding) :=
  s.mdl.bindings.filterMap fun b => b.2.bind fun x => if Tbl.get x.image x.layerImage l = im then some (b.1, x) else none

/-- A layer of an image was read poisoned at a granule, or at a resident row: each model bound to it reports it and is to be repaired. -/
def weightPoisoned (rows : Bool) (im l place : Nat) (s : State) : State :=
  (boundTo s im l).foldl (fun s b =>
    if (if rows then b.2.rowRepair else b.2.repair).contains l then s else
      let y := if rows then { b.2 with rowRepair := b.2.rowRepair ++ [l] } else { b.2 with repair := b.2.repair ++ [l] }
      raiseError 2 evWeightPoisoned b.2.part [.prims b.2.part, .pfs] (fields4 [b.1, l, place])
        (modMdl (fun m => { m with bindings := Tbl.set none m.bindings b.1 (some y) }) s)) s

/-- The layers whose homes a test names: image, layer. -/
def layersAt (s : State) (hit : Home → Bool) : List (Nat × Nat) :=
  s.mdl.images.flatMap fun im => match im.2 with
    | some x => x.layers.filterMap fun l => l.2.bind fun y => if y.homes.any hit then some (im.1, l.1) else none
    | none => []

/-- The sequences' entries whose page holds a byte address: sequence, key. -/
def pagesAt (s : State) (a : Nat) : List (Nat × Nat) :=
  s.kv.seqs.flatMap fun q => match q.2 with
    | some x => match pool? s x.binding with
      | some p => x.entries.filterMap fun e => e.2.bind fun y =>
          if y.state = 1 ∧ p.pageAddr y.page ≤ a ∧ a < p.pageAddr y.page + p.payload then some (q.1, e.1) else none
      | none => []
    | none => []

/-- Mark an entry poisoned. -/
def poisonEntry (s : State) (k : Nat × Nat) : State :=
  match (seqp? s k.1).bind fun q => Tbl.get none q.entries k.2 with
  | some e => setEntry k.1 k.2 (some { e with poisoned := true }) s
  | none => s

/-- Mark the prefixes that hold the page at a byte address (R406). -/
def poisonPrefixes (a : Nat) (s : State) : State :=
  modSrv (fun x => { x with prefixes := x.prefixes.map fun y => (y.1, y.2.map fun z =>
    if (pool? s z.binding).any fun p => z.pages.any fun g => decide (p.pageAddr g.2 ≤ a) && decide (a < p.pageAddr g.2 + p.payload) then { z with poisoned := true } else z) }) s

/-- Firmware looks at what reads have delivered poisoned. -/
def noticePoison (s : State) : State :=
  let blocks := s.str.poisonReads.eraseDups
  let rows := s.sp.poisonReads.eraseDups
  let s := blocks.foldl (fun s b =>
    let a := tierBase b.1 + 64 * b.2
    let s := (layersAt s fun h => h.tier == b.1 && decide (h.actual ≤ a) && decide (a < h.actual + h.bytes)).foldl
      (fun s x => weightPoisoned false x.1 x.2 (b.2 / 1024) s) s
    poisonPrefixes a ((pagesAt s a).foldl poisonEntry s)) s
  let s := rows.foldl (fun s k =>
    (layersAt s fun h => h.tier == 2 && bit h.mask (k / 32768) && decide (h.actual ≤ k % 32768) && decide (k % 32768 < h.actual + h.rows)).foldl
      (fun s x => weightPoisoned true x.1 x.2 (k % 32768) s) s) s
  modSp (fun p => { p with poisonReads := [] }) (modStr (fun x => { x with poisonReads := [] }) s)

/-! ### The second read of a block (R286, R320) -/

/-- The rows of descriptors that are still to read a block. -/
def waitingRows (s : State) (t b : Nat) : List (Nat × Nat) :=
  (List.range 32).flatMap fun e => match (engine s e).cur with
    | some r =>
      let d := curDesc r
      if r.moved || r.failed.isSome then [] else
        if (srcExtents r.chain d).any (fun x => match place x.1 x.2 with
          | .tier u off => u == t && meets off x.2 (64 * b) 64
          | _ => false) then descRows r.chain d else []
    | none => []

/-- TIER_READ_RETRY (R286, R287, R320): the block is read once more, unless it is stored with the poison code; rows that wait for it await DRAM_ECC_RETRY until its data are delivered. Data delivered poisoned are noticed as weights or KV pages (R364, R405). -/
def execTierReadRetry (t block : Nat) (clean : Bool) (s : State) : Host.Outcome State Fault Refusal :=
  let t := t % 2
  .next (if !dieOn s || !(tier s t).trained || decide (tierBytes t / 64 ≤ block) || (tier s t).coded.contains block then s else
    let s := setAwait slDramEccRetry (waitingRows s t block) s
    if clean then countError 1 (modTier t (fun x => { x with eccRetries := satAdd 32 x.eccRetries 1, poison := x.poison.filter (· != block) }) s) else
      noticePoison (modStr (fun x => { x with poisonReads := x.poisonReads ++ [(t, block)] }) (tierUncorrectable t block s)))


end Sys2Proof.Machine
end

