-- ==== Sys2Proof/Machine/Image.lean ====
section
/-! DEFINITION. Weight images: the checks of a manifest, what a shard's bytes become, where tensors stand (09_weight_images.md, R330 to R341, R349 to R351, R365). Choices of layout: log entry 34. -/
namespace Sys2Proof.Machine

/-! ### The manifest (R330 to R333, R374) -/

/-- Bytes `a` to `b` are zero. -/
def zeroBytes (bs : List Byte) (a b : Nat) : Bool := leAt bs a (b + 1 - a) == 0

/-- Rows of a tile in a tensor's layout. -/
def tileHeight (r : List Byte) : Nat := if Ts.layout r = 2 then 480 else 512
/-- Bytes of a dense stored tile (R336). -/
def denseTile (r : List Byte) : Nat := 16 + 32 * tileHeight r
/-- Slices of a row, and tiles of a tensor: bands of rows, each with its slices in order (log entry 34). -/
def tensorSlices (r : List Byte) : Nat := Ts.k r / 160
def tileCount (r : List Byte) : Nat := Ts.m r / tileHeight r * tensorSlices r
def tiled (r : List Byte) : Bool := Ts.layout r != 0

def headerSound (m : List Byte) : Bool :=
  decide (224 ≤ m.length) && Mf.magic m == 0x4D575856 && Mf.format m == 1 && decide (Mf.flags m < 4) && decide (1 ≤ Mf.layers m) &&
    decide (Mf.layers m ≤ 1024) && decide (1 ≤ Mf.tensors m) && decide (Mf.tensors m ≤ 16384) && decide (1 ≤ Mf.shards m) && decide (Mf.shards m ≤ 65536) &&
    decide (12 ≤ Mf.pageShift m) && decide (Mf.pageShift m ≤ 16) && zeroBytes m 29 31 && zeroBytes m 48 127 && Mf.length m == m.length - 96 &&
    decide (Mf.layerOff m + 32 * Mf.layers m ≤ m.length - 96) && decide (Mf.tensorOff m + 64 * Mf.tensors m ≤ m.length - 96) &&
    decide (Mf.shardOff m + 32 * Mf.shards m ≤ m.length - 96)

def layerSound (r : List Byte) : Bool :=
  decide (1 ≤ leAt r 2 1) && decide (leAt r 2 1 ≤ 16) && decide (leAt r 3 1 < 4) && decide (Ly.auditShift r < 16) && decide (Ly.skipCap r < 512) && zeroBytes r 14 31

/-- A tensor's home in the tiers: tier and offset. -/
def tierHome (r : List Byte) : Option (Nat × Nat) :=
  match place (Ts.home r) (Ts.stored r) with
  | .tier t off => some (t, off)
  | _ => none

def tensorSound (r : List Byte) : Bool :=
  decide (Ts.role r ≤ 8) && (decide (Ts.format r ≤ 7) || Ts.format r == 0xC || Ts.format r == 0xD) && decide (Ts.layout r ≤ 2) && decide (leAt r 3 1 < 4) &&
    decide (1 ≤ Ts.m r) && decide (1 ≤ Ts.k r) && decide (1 ≤ Ts.stored r) && zeroBytes r 32 63 &&
    (!tiled r || (Ts.format r == 0 && Ts.m r % tileHeight r == 0 && Ts.k r % 160 == 0)) && (tiled r || !Ts.masked r) &&
    (if Ts.resident r then !bit (Ts.home r) 15 && decide (Ts.home r < 2 ^ 32) && Ts.mask r != 0 && decide (1 ≤ Ts.rows r) && decide (Ts.firstRow r + Ts.rows r ≤ 32768)
      else (tierHome r).isSome && Ts.rows r == 0)

/-- The source formats a shard encoding may stand for, where its record does not say: the first that makes the shards fit is meant (log entry 34). -/
def encFormats (enc fmt : Nat) : List Nat :=
  if enc = 4 then (if fmt = 3 then [0xE] else [0xF, 0xE]) else if enc = 5 then [0xC, 0xD] else [0]

/-- The first output row of a shard that carries whole rows, from its byte offset in the stored form (log entry 34). -/
def rowAt (r : List Byte) (dst : Nat) : Nat :=
  let band := denseTile r * tensorSlices r
  dst / band * tileHeight r + (dst % band - 16) / 32

/-- Bytes of a flat run of values in a format. -/
def flatBytes (f n : Nat) : Nat := if isBlockFmt f then n / 32 * (fmtBlockBytes f + 1) else n * elemBytes f

/-- Where in its tensor a shard lies: start and length, in output rows for the encodings that carry whole rows, else in stored bytes; no length where the source is not whole. -/
def shardSpan (r h : List Byte) (src : Nat) : Nat × Nat :=
  let whole := fun n u => if u ≠ 0 ∧ n % u = 0 then n / u else 0
  match Sh.encoding h with
  | 0 => (Sh.dst h, Sh.length h)
  | 1 => (rowAt r (Sh.dst h), whole (Sh.length h) (Ts.k r / 5))
  | 2 => (rowAt r (Sh.dst h), whole (Sh.length h) (Ts.k r))
  | 3 => (rowAt r (Sh.dst h), whole (Sh.length h) (2 * Ts.k r))
  | 4 => (Sh.dst h, flatBytes (Ts.format r) (32 * whole (Sh.length h) (mxBytes src)))
  | _ => (Sh.dst h, flatBytes (Ts.format r) (128 * whole (Sh.length h) (frcBytes src)))

/-- An encoding is allowed for a tensor (R332). -/
def encodingOk (r h : List Byte) : Bool :=
  match Sh.encoding h with
  | 0 => true
  | 1 | 2 | 3 => tiled r && Ts.format r == 0
  | 4 => !tiled r && (Ts.format r == 3 || Ts.format r == 4)
  | 5 => !tiled r && decide (1 ≤ Ts.format r) && decide (Ts.format r ≤ 7)
  | _ => false

def shardSound (m h : List Byte) : Bool :=
  decide (Sh.tensor h < Mf.tensors m) && decide (Sh.source h ≤ 2) && decide (leAt h 4 2 < 4096) && zeroBytes h 6 7 && zeroBytes h 28 31 &&
    decide (1 ≤ Sh.length h) && decide (Sh.length h ≤ 268435456) && encodingOk (Mf.tensor m (Sh.tensor h)) h

/-- The shards of a tensor, by index. -/
def tensorShards (m : List Byte) (t : Nat) : List Nat := (List.range (Mf.shards m)).filter fun h => Sh.tensor (Mf.shard m h) == t

/-- Spans that follow one another from a position to a total, each position taken once. -/
def coversFrom (total : Nat) (spans : List (Nat × Nat)) : Nat → Nat → Bool
  | 0, _ => false
  | n + 1, p =>
    if p = total then true else
    match spans.filter fun x => x.1 == p with
    | [x] => decide (0 < x.2) && coversFrom total spans n (p + x.2)
    | _ => false

/-- Spans cover a total exactly once. -/
def coversOnce (total : Nat) (spans : List (Nat × Nat)) : Bool :=
  coversFrom total spans (spans.length + 1) 0 && (spans.map Prod.snd).sum == total

/-- The source format of a tensor's encoded shards under which they cover it exactly once (R333). -/
def coverFormat (m : List Byte) (t : Nat) : Option Nat :=
  let r := Mf.tensor m t
  let hs := (tensorShards m t).map (Mf.shard m)
  let rowwise := hs.any fun h => decide (1 ≤ Sh.encoding h) && decide (Sh.encoding h ≤ 3)
  let fits := fun src => coversOnce (if rowwise then Ts.m r else Ts.stored r) (hs.map fun h => shardSpan r h src)
  if rowwise && !hs.all (fun h => decide (1 ≤ Sh.encoding h) && decide (Sh.encoding h ≤ 3)) then none else
  ((hs.flatMap fun h => encFormats (Sh.encoding h) (Ts.format r)).eraseDups).find? fits

/-- Two tensors' homes overlap. -/
def homesOverlap (a b : List Byte) : Bool :=
  if Ts.resident a && Ts.resident b then Ts.mask a &&& Ts.mask b != 0 && meets (Ts.firstRow a) (Ts.rows a) (Ts.firstRow b) (Ts.rows b)
  else !Ts.resident a && !Ts.resident b && meets (Ts.home a) (Ts.stored a) (Ts.home b) (Ts.stored b)

/-- Every pair of a list passes a test. -/
def allPairs (p : α → α → Bool) : List α → Bool
  | [] => true
  | x :: xs => xs.all (p x) && allPairs p xs

/-- Every tensor belongs to one layer. -/
def tensorsOnce (m : List Byte) : Bool :=
  let ts := (List.range (Mf.layers m)).flatMap (Mf.layerTensors m)
  ts.length == Mf.tensors m && (List.range (Mf.tensors m)).all fun t => ts.contains t

/-- A manifest meets R333. -/
def manifestOk (m : List Byte) : Bool :=
  headerSound m && (List.range (Mf.layers m)).all (fun l => layerSound (Mf.layer m l)) &&
    tensorsOnce m &&
    (List.range (Mf.tensors m)).all (fun t => tensorSound (Mf.tensor m t)) &&
    (List.range (Mf.shards m)).all (fun h => shardSound m (Mf.shard m h)) && (List.range (Mf.tensors m)).all (fun t => (coverFormat m t).isSome) &&
    allPairs (fun a b => !homesOverlap a b) ((List.range (Mf.tensors m)).map (Mf.tensor m))

/-! ### Stored tiles (R336, R337, R352) -/

/-- Cut a stored form into its tiles, each as long as its header says. -/
def splitTiles : Nat → List Byte → Option (List (List Byte))
  | 0, _ => some []
  | n + 1, bs =>
    let k := tileStored bs
    if k < 16 ∨ bs.length < k then none else (splitTiles n (bs.drop k)).map fun ts => bs.take k :: ts

/-- The tiles of a tensor agree with its record (R112, R313, R337). -/
def tilesSound (trainable : Bool) (r bs : List Byte) : Bool :=
  match splitTiles (tileCount r) bs with
  | none => false
  | some ts => (ts.map List.length).sum == bs.length && ts.all fun t => (tileWeights (Ts.layout r == 2) t).isSome && (tileMasked t == Ts.masked r) && (!trainable || tileDense t)

/-- The packed blocks of a resident flat tensor, as its rows will hold them, keep R57. -/
def blocksSound (r bs : List Byte) : Bool :=
  !isBlockFmt (Ts.format r) || !Ts.resident r || ((cut (fmtBlockBytes (Ts.format r) + 1) bs).all fun b => !(unpackBlk (Ts.format r) b).bad)

/-- Which bytes of a tensor's tiles are zero. -/
def zeroPattern (r bs : List Byte) : List Bool :=
  ((splitTiles (tileCount r) bs).getD []).flatMap fun t =>
    ((tileWeights (Ts.layout r == 2) t).getD []).flatMap fun row => row.map (· == 0)

/-- The stored form of a tile from its output rows (R111, R336): sparse where the tile is masked and that is no larger. -/
def storeTile (square masked : Bool) (rows : List (List Byte)) : List Byte :=
  let zeros := (rows.map fun r => r.count 0).sum
  let maps := rows.flatMap fun r => leBytes 4 (r.mapIdx fun g b => if b = 0 then 2 ^ g else 0).sum
  let sparse := maps ++ (if square then (transposedMaps rows).flatten else []) ++ rows.flatten.filter (· != 0)
  let dense := rows.flatten
  let isDense := !masked || decide (dense.length < sparse.length)
  let pay := if isDense then dense else sparse
  [BitVec.ofNat 8 (b2n isDense + 2 * b2n masked + 4 * b2n square), 0, 0, 0] ++ leBytes 4 zeros ++ leBytes 4 (16 + pay.length) ++ leBytes 4 0 ++ pay

/-! ### Where tensors stand -/

/-- The home of a tensor in a layer. -/
def LayerSt.home (ly : LayerSt) (t : Nat) : Option Home := ly.homes.find? fun h => h.tensor = t

/-- The stored bytes of a tensor as placed so far: in the tier, or kept until its rows are written. -/
def tensorBytes (s : State) (ly : LayerSt) (t n : Nat) : List Byte :=
  match ly.home t with
  | some h => if h.tier < 2 then rdBytes s h.actual h.bytes else (List.range n).map fun i => Tbl.get 0 ly.rowData (t * 2 ^ 34 + i)
  | none => []

/-- Place bytes of a tensor's stored form. -/
def putTensor (t off : Nat) (bs : List Byte) (a : LayerSt × State) : LayerSt × State :=
  match a.1.home t with
  | some h =>
    if h.tier < 2 then (a.1, (tierWrite h.tier (h.actual - tierBase h.tier + off) bs false 0 a.2))
    else ({ a.1 with rowData := putBytes a.1.rowData (t * 2 ^ 34 + off) bs }, a.2)
  | none => a

/-- The scratchpad rows of a resident tensor's stored form (R95, R107, R59). -/
def residentRows (r bs : List Byte) : List (List Byte) :=
  if tiled r then ((splitTiles (tileCount r) bs).getD []).flatMap fun t => (expandTile (Ts.layout r == 2) t).getD []
  else if isBlockFmt (Ts.format r) then layBlks (Ts.format r) true (((cut (fmtBlockBytes (Ts.format r) + 1) bs).map (unpackBlk (Ts.format r))))
  else (cut 640 bs).map (padTo 640)

/-- Firmware writes a resident tensor's rows: a copy in each named field, or, where its rows exceed one field's share, share after share (R339, R350; log entry 34); `which` says which rows of a field it writes. -/
def writeResident (which : Nat → Nat → Bool) (r : List Byte) (bs : List Byte) (s : State) : State :=
  let rows := residentRows r bs
  let n := Ts.rows r
  let fs := (List.range 16).filter (bit (Ts.mask r))
  (fs.mapIdx fun i f => (i, f)).foldl (fun s x =>
    let mine := if rows.length ≤ n then rows else (rows.drop (x.1 * n)).take n
    ((mine.mapIdx fun k b => (k, b)).filter fun y => which x.2 (Ts.firstRow r + y.1)).foldl (fun s y => setTag x.2 (Ts.firstRow r + y.1) 16 (storeRow x.2 (Ts.firstRow r + y.1) y.2 s)) s) s

/-- The stored form of a resident tensor, read back from its rows. -/
def readResident (s : State) (r : List Byte) : List Byte :=
  let n := Ts.rows r
  let fs := (List.range 16).filter (bit (Ts.mask r))
  let need := if tiled r then tileCount r * (if Ts.layout r = 2 then 33 else 32) else n
  let rows := (if need ≤ n then fs.take 1 else fs).flatMap fun f => (List.range n).map fun k => readRow s f (Ts.firstRow r + k)
  if tiled r then
    (cut (if Ts.layout r = 2 then 33 else 32) (rows.take need)).flatMap fun t =>
      storeTile (Ts.layout r == 2) (Ts.masked r) ((tileRows (tileHeight r) t).map (·.bytes))
  else if isBlockFmt (Ts.format r) then ((rows.flatMap (rowBlocks (Ts.format r))).flatMap (packBlk (Ts.format r))).take (Ts.stored r)
  else rows.flatten.take (Ts.stored r)

/-- The stored form of a tensor of an active layer. -/
def storedForm (s : State) (m : List Byte) (ly : LayerSt) (t : Nat) : List Byte :=
  let r := Mf.tensor m t
  if Ts.resident r then readResident s r else tensorBytes s ly t (Ts.stored r)

/-! ### What a shard becomes (R332, R338) -/

/-- Spread whole output rows over dense tiles: offsets in the stored form and bytes. -/
def rowsToTiles (r : List Byte) (first : Nat) (rows : List (List Byte)) : List (Nat × List Byte) :=
  (rows.mapIdx fun i row => (first + i, row)).flatMap fun x =>
    (List.range (tensorSlices r)).map fun sl =>
      ((x.1 / tileHeight r * tensorSlices r + sl) * denseTile r + 16 + 32 * (x.1 % tileHeight r), sliceBytes x.2 (32 * sl) 32)

/-- The headers of the dense tiles that a run of rows touches, from what the tensor then holds. -/
def tileHeads (r bs : List Byte) (first n : Nat) : List (Nat × List Byte) :=
  ((List.range n).map fun i => (first + i) / tileHeight r).eraseDups.flatMap fun band =>
    (List.range (tensorSlices r)).map fun sl =>
      let o := (band * tensorSlices r + sl) * denseTile r
      (o, [BitVec.ofNat 8 (1 + 2 * b2n (Ts.masked r) + 4 * b2n (Ts.layout r == 2)), 0, 0, 0] ++
        leBytes 4 ((sliceBytes bs (o + 16) (32 * tileHeight r)).count 0) ++ leBytes 4 (denseTile r) ++ leBytes 4 0)

/-- Values of a flat tensor in its stored form. -/
def flatForm (f : Nat) (xs : List Val) : List Byte :=
  if f = 5 then xs.flatMap fun v => leBytes 2 (lnsOfVal v).1 else (layVals f false none xs).flatten

/-- The row-scale tensor of a tensor's layer. -/
def scaleTensor (m : List Byte) (t : Nat) : Option Nat := (Mf.layerTensors m (Mf.layerOf m t)).find? fun x => Ts.role (Mf.tensor m x) == 3

/-- What a shard's bytes place: tensor, offset, bytes, and the first output row and number of rows where it carries whole rows; nothing where its transform faults. -/
def shardPieces (m : List Byte) (h : Nat) (data : List Byte) : Option (List (Nat × Nat × List Byte) × Nat × Nat) :=
  let rec_ := Mf.shard m h
  let t := Sh.tensor rec_
  let r := Mf.tensor m t
  let src := (coverFormat m t).getD 0
  let d := padTo (Sh.length rec_) data
  let rows := fun (xs : List (List Byte)) => let a := rowAt r (Sh.dst rec_); ((rowsToTiles r a xs).map fun x => (t, x.1, x.2), a, xs.length)
  let flat := fun bs => ([(t, Sh.dst rec_, bs)], 0, 0)
  match Sh.encoding rec_ with
  | 0 => some (flat d)
  | 1 => if d.all t5pOk then some (rows (cut (Ts.k r / 5) d)) else none
  | 2 => (packTrits d).map fun bs => rows (cut (Ts.k r / 5) bs)
  | 3 =>
    (cut (2 * Ts.k r) d).mapM (fun row => (srcVals 6 false row).bind fun vs => if (magSum vs).isSome then some (quantRow vs) else none) |>.map fun qs =>
      let x := rows (qs.map Prod.fst)
      (x.1 ++ (scaleTensor m t).toList.flatMap (fun sc => qs.mapIdx fun i q => (sc, 2 * (x.2.1 + i), leBytes 2 q.2)), x.2)
  | 4 => (mxRow src (Ts.format r) d).map fun bs => flat (layBlks (Ts.format r) false bs).flatten
  | _ => some (flat (flatForm (Ts.format r) (frcDecRow src d)))

/-! ### Homes (R339, R340, R349 to R351, R365) -/

/-- Give a tier tensor an actual home congruent to its nominal one. -/
def placeTier (p t : Nat) (r : List Byte) (s : State) : Option (Home × State) :=
  (tierHome r).bind fun x =>
    let lo := x.2 % 65536
    (allocRun p x.1 (ceilDiv (lo + Ts.stored r) 65536) s).map fun g =>
      ({ tensor := t, tier := x.1, nominal := Ts.home r, actual := tierBase x.1 + 65536 * g.1 + lo, bytes := Ts.stored r, rows := 0, mask := 0 }, g.2)

/-- Rows of a field that resident ranges of a partition take. -/
def residentUsed (s : State) (p f : Nat) : Nat :=
  (((fld s f).resRanges.filterMap Prod.snd).filter fun x => x.valid && bit x.partitions p).map ResRange.count |>.sum

/-- A run of rows of a field may become a resident range of a partition: free, not retired, outside cache mode, within its quota (R219, R231, R587). -/
def rowsFree (s : State) (p f first n : Nat) : Bool :=
  !((fld s f).resRanges.filterMap Prod.snd).any (fun x => x.valid && meets first n x.first x.count) && !(fld s f).retired.any (fun r => decide (first ≤ r) && decide (r < first + n)) &&
    !(List.range (min 32 n)).any (fun i => inCacheBank s (first + i)) && decide (residentUsed s p f + n ≤ ((part? s p).map Part.resRows).getD 0) &&
    (Tbl.free (fld s f).resRanges 64).isSome

/-- Place a resident tensor at its nominal rows. -/
def placeRows (p t : Nat) (shared : Bool) (r : List Byte) (s : State) : Option (Home × State) :=
  let fs := (List.range 16).filter (bit (Ts.mask r))
  if !fs.all (fun f => rowsFree s p f (Ts.firstRow r) (Ts.rows r)) then none else
  some ({ tensor := t, tier := 2, nominal := Ts.firstRow r, actual := Ts.firstRow r, bytes := Ts.stored r, rows := Ts.rows r, mask := Ts.mask r },
    fs.foldl (fun s f =>
      let i := (Tbl.free (fld s f).resRanges 64).getD 0
      powerGroups (groupsOfRun f (Ts.firstRow r) (Ts.rows r)) (modFld f (fun x => { x with resRanges := Tbl.set none x.resRanges i (some
        { valid := true, readOnly := shared, partitions := 2 ^ p, count := Ts.rows r, first := Ts.firstRow r }) }) s)) s)

/-- An empty layer. -/
def LayerSt.empty : LayerSt := { homes := [], arrived := [], status := 0, rowData := [] }

/-- Place tensors in order, all or none. A layer that is staged takes homes in the tiers alone, its resident tensors keeping their rows (R353, R355). -/
def placeTensors (p : Nat) (m : List Byte) (shared staging : Bool) : List Nat → LayerSt × State → Option (LayerSt × State)
  | [], a => some a
  | t :: ts, a =>
    let r := Mf.tensor m t
    let x := if !Ts.resident r then placeTier p t r a.2
      else if staging then some ({ tensor := t, tier := 2, nominal := Ts.firstRow r, actual := Ts.firstRow r, bytes := Ts.stored r, rows := Ts.rows r, mask := Ts.mask r }, a.2)
      else placeRows p t shared r a.2
    x.bind fun h => placeTensors p m shared staging ts ({ a.1 with homes := a.1.homes ++ [h.1] }, h.2)

/-- The tensors of a layer that a fetch brings: all, or, to repair rows, the resident ones (R364). -/
def fetchedTensors (m : List Byte) (rowsOnly : Bool) (l : Nat) : List Nat :=
  (Mf.layerTensors m l).filter fun t => !rowsOnly || Ts.resident (Mf.tensor m t)

/-- Place a layer, or, to repair rows, its resident tensors. -/
def placeLayer (p : Nat) (m : List Byte) (shared staging rowsOnly : Bool) (l : Nat) (s : State) : Option (LayerSt × State) :=
  placeTensors p m shared staging (fetchedTensors m rowsOnly l) (LayerSt.empty, s)

/-- Granules of a home in its tier: first, number. -/
def homeGranules (h : Home) : Nat × Nat :=
  let off := h.actual - tierBase h.tier
  (off / 65536, ceilDiv (off % 65536 + h.bytes) 65536)

/-- Poisoned granules of a run. -/
def poisonedIn (s : State) (t g n : Nat) : List Nat := ((tier s t).poison.map (· / 1024)).eraseDups.filter fun x => decide (g ≤ x) && decide (x < g + n)

/-- Free a home in the tiers that a partition was charged for; granules that held poison go to firmware while its quarantine has room (R365). -/
def freeTierHome (p : Nat) (h : Home) (s : State) : State :=
  let g := homeGranules h
  let bad := (poisonedIn s h.tier g.1 g.2).take (256 - (tier s h.tier).quarantine.length)
  let s := (List.range 16).foldl (fun s q => freeRun q h.tier g.1 g.2 s) s
  uncharge p h.tier g.2 (modTier h.tier (fun x =>
    { x with zeroing := x.zeroing.filter fun y => !bad.contains y, quarantine := x.quarantine ++ bad }) s)

/-- Free a resident tensor's ranges, scrubbed first (R226, R351). -/
def freeRowHome (h : Home) (s : State) : State :=
  ((List.range 16).filter (bit h.mask)).foldl (fun s f =>
    modFld f (fun x => { x with resRanges := x.resRanges.filter fun y => !y.2.any fun z => z.first == h.actual && z.count == h.rows })
      (scrubWhere (fun f' r => f' == f && decide (h.actual ≤ r) && decide (r < h.actual + h.rows)) s)) s

/-- Free what a layer has placed; `rows` says whether its resident rows go too. -/
def freeLayer (p : Nat) (rows : Bool) (ly : LayerSt) (s : State) : State :=
  ly.homes.foldl (fun s h => if h.tier < 2 then freeTierHome p h s else if rows then freeRowHome h s else s) s

end Sys2Proof.Machine
end

