-- ==== Sys2Proof/Machine/SrvCfg.lean ====
section
/-! DEFINITION. The serving configuration of a binding and the request classes (11_serving.md, R422, R427, R449, R455, R456). -/
namespace Sys2Proof.Machine

/-! ### The configuration block (R455) -/

namespace Sc
def program (b : List Byte) : Nat := leAt b 0 2
def draft (b : List Byte) : Option Nat := if leAt b 2 2 = 0xFFFF then none else some (leAt b 2 2)
def single (b : List Byte) : Bool := leAt b 4 1 == 1
def maxSlots (b : List Byte) : Nat := leAt b 6 2
def batchBase (b : List Byte) : Nat := leAt b 8 8
def resultBase (b : List Byte) : Nat := leAt b 16 8
def outBase (b : List Byte) : Nat := leAt b 24 8
def outBytes (b : List Byte) : Nat := leAt b 32 4
def cutoff (b : List Byte) : Nat := leAt b 36 4
def tokenBytes (b : List Byte) : Nat := leAt b 40 4
def tokenGranules (b : List Byte) : Nat := leAt b 44 4
def tokenBase (b : List Byte) : Nat := leAt b 48 8
def parkBase (b : List Byte) : Nat := leAt b 56 8
def parkBlocks (b : List Byte) : Nat := leAt b 64 4
def maxIds (b : List Byte) : Nat := leAt b 68 4
def maxBags (b : List Byte) : Nat := leAt b 72 4
def dedupBase (b : List Byte) : Nat := leAt b 76 2
def dedupRows (b : List Byte) : Nat := leAt b 78 2
def outFields (b : List Byte) : Nat := leAt b 80 2
def goutBase (b : List Byte) : Nat := leAt b 82 2
def goutRpt (b : List Byte) : Nat := leAt b 84 1
def goutFmt (b : List Byte) : Nat := leAt b 85 1
def role (b : List Byte) (v : Nat) : Nat := leAt b (96 + 8 * v) 1
def fixed (b : List Byte) (v : Nat) : Nat := leAt b (100 + 8 * v) 4
def tblBase (b : List Byte) (t : Nat) : Nat := leAt b (256 + 32 * t) 8
def tblRows (b : List Byte) (t : Nat) : Nat := leAt b (264 + 32 * t) 8
def tblBytes (b : List Byte) (t : Nat) : Nat := leAt b (272 + 32 * t) 2
def tblFmt (b : List Byte) (t : Nat) : Nat := leAt b (274 + 32 * t) 1
def tblRegion (b : List Byte) (t : Nat) : Nat := leAt b (275 + 32 * t) 1
def tblValues (b : List Byte) (t : Nat) : Nat := leAt b (276 + 32 * t) 2
/-- A table is defined when its entry is not all zero (log entry 35). -/
def defined (b : List Byte) (t : Nat) : Bool := decide (t < 16) && leAt b (256 + 32 * t) 32 != 0
/-- The pitch of the widest table (R449). -/
def pitch (b : List Byte) : Nat := ((List.range 16).map fun t => ceilDiv (tblBytes b t) 64 * 64).foldl max 0
end Sc

/-- Bytes of the block with a meaning. -/
def srvBlockAllow : List (Nat × Nat × Nat) :=
  [(0, 4, 0xFF), (6, 85, 0xFF)] ++ ((List.range 8).flatMap fun v => [(96 + 8 * v, 96 + 8 * v, 0xFF), (100 + 8 * v, 103 + 8 * v, 0xFF)]) ++
    (List.range 16).map fun t => (256 + 32 * t, 277 + 32 * t, 0xFF)

/-- The areas of a configuration: tier, offset, length. -/
def srvAreas (b : List Byte) : List (Nat × Nat × Nat) :=
  [(0, Sc.batchBase b - tierBase 0, 32 * Sc.maxSlots b), (0, Sc.resultBase b - tierBase 0, 32 * Sc.maxSlots b),
   (0, Sc.outBase b - tierBase 0, Sc.outBytes b), (1, Sc.tokenBase b - tierBase 1, 65536 * Sc.tokenGranules b)]

/-- Every area lies in its tier. -/
def srvAreasInTier (b : List Byte) : Bool :=
  [(Sc.batchBase b, 32 * Sc.maxSlots b, 0), (Sc.resultBase b, 32 * Sc.maxSlots b, 0), (Sc.outBase b, Sc.outBytes b, 0),
   (Sc.tokenBase b, 65536 * Sc.tokenGranules b, 1)].all fun x => x.2.1 == 0 || match place x.1 x.2.1 with | .tier t _ => t == x.2.2 | _ => false

/-- A row format a table may hold (log entry 35). -/
def tableFmtOk (f : Nat) : Bool := decide (1 ≤ f) && decide (f ≤ 7) || f == 0xC || f == 0xD

/-- The settings lie in their ranges, and roles and tables are known (R422, R455). -/
def srvFormOk (s : State) (p : Nat) (b : List Byte) : Bool :=
  let prog := Tbl.get none s.prog.progs (Sc.program b)
  cleanBytes srvBlockAllow 4096 b && prog.any (fun g => g.part == p && g.verified && !Img.hostCounts g.image) &&
    (Sc.draft b).all (fun d => (Tbl.get none s.mdl.bindings d).any fun x => x.part == p) && decide (leAt b 4 1 ≤ 1) && decide (1 ≤ Sc.maxSlots b) &&
    Sc.batchBase b % 2048 == 0 && Sc.resultBase b % 2048 == 0 && Sc.outBase b % 2048 == 0 && Sc.tokenBase b % 65536 == 0 &&
    decide (10000 ≤ Sc.cutoff b) && decide (Sc.cutoff b ≤ 1000000000) && s.step.active.all (fun a => decide (Sc.cutoff b < a.period)) &&
    decide (4 ≤ Sc.tokenBytes b) && decide (Sc.tokenBytes b ≤ 1024) && decide (Sc.dedupRows b ≤ 8192) &&
    decide (Sc.dedupBase b + ceilDiv (Sc.dedupRows b) 16 ≤ 32768) && ((List.range 8).all fun v => decide (Sc.role b v ≤ 7)) &&
    (leAt b 80 6 == 0 || Sc.goutFmt b == 3 || Sc.goutFmt b == 4 || Sc.goutFmt b == 6 || Sc.goutFmt b == 7) &&
    (List.range 16).all fun t => !Sc.defined b t || (decide (Sc.tblRows b t < 2 ^ 60) && decide (64 ≤ Sc.tblBytes b t) && decide (Sc.tblBytes b t ≤ 2048) &&
      tableFmtOk (Sc.tblFmt b t) && (Sc.tblRegion b t == 0xFF || decide (Sc.tblRegion b t < 64)) &&
      (match place (Sc.tblBase b t) (max 1 (Sc.tblRows b t * Sc.tblBytes b t)) with | .tier _ _ => true | _ => false))

/-- The configuration of a binding. -/
def srvOf (s : State) (b : Nat) : Option (List Byte) := (Tbl.get none s.srv.configs b).map SrvCfg.block

/-- A binding has live requests, its own or as their draft. -/
def bindingLive (s : State) (b : Nat) : Bool := s.srv.requests.any fun r => r.2.any fun x => x.state != .free && x.binding == b

/-- Drop a binding's serving configuration and its areas. -/
def releaseSrv (b part : Nat) (s : State) : State :=
  match srvOf s b with
  | none => s
  | some bs => modSrv (fun x => { x with configs := Tbl.set none x.configs b none })
      ((srvAreas bs).foldl (fun s x => releaseArea part x.1 x.2.1 x.2.2 s) s)

def srvConfig (c : Cmd) (s : State) : State × Ans :=
  let b := pNum c 0 2
  let part := cmdPart c
  match myBinding s c b with
  | none => refuse stBadCommand s
  | some _ =>
    if bindingLive s b then refuse stBusy s
    else if pBit c 2 0 then done (releaseSrv b part s)
    else withHost c (pNum c 8 8) 4096 s fun bs =>
      if !srvFormOk s part bs then refuse stBadCommand s
      else if !srvAreasInTier bs ∨ 8388608 < Sc.dedupRows bs * 80 * Sc.pitch bs then refuse stRefusedCapacity s
      else match claimAreas part (srvAreas bs) (releaseSrv b part s) with
        | none => refuse stRefusedCapacity s
        | some s => done (modSrv (fun x => { x with configs := Tbl.set none x.configs b (some { block := bs }) }) s)

def srvConfigSpec : CmdSpec := { op := 0x0501, allow := [(0, 1, 0xFF), (2, 2, 1), (8, 15, 0xFF)], perm := byAny, body := srvConfig }

/-- SRV_CONFIG (R422, R449, R455, R456). -/
def execSrvConfig (m : Mbx) (s : State) : Host.Outcome State Fault Refusal := .next (runCmd srvConfigSpec m s)

/-! ### Classes (R427) -/

/-- The settings that SRV_CLASS carries. -/
def classParam (c : Cmd) : ClassCfg :=
  { priority := pByte c 1, policy := pByte c 2, risk := pByte c 3, ttftGoal := pNum c 4 4, tbtGoal := pNum c 8 4, prefillChunk := pNum c 12 2,
    specDepth := pByte c 14, specFloor := pByte c 15, specWindow := pByte c 16, specProbe := pNum c 18 2 }

/-- The settings lie in their ranges. -/
def classOk (c : Cmd) : Bool :=
  let x := classParam c
  decide (pByte c 0 < 16) && decide (x.priority < 16) && decide (1 ≤ x.risk) && decide (x.risk ≤ 100) && decide (64 ≤ x.prefillChunk) &&
    decide (x.prefillChunk ≤ 65472) && x.prefillChunk % 64 == 0 && decide (x.specDepth ≤ 8) && decide (x.specFloor ≤ 100) && decide (1 ≤ x.specWindow) &&
    decide (1 ≤ x.specProbe)

/-- Put a class in force. -/
def applyClass (c : Cmd) (s : State) : State × Ans :=
  done (modSrv (fun v => { v with classes := Tbl.set none v.classes (16 * cmdPart c + pByte c 0) (some (classParam c)) }) s)

def srvClass (c : Cmd) (s : State) : State × Ans :=
  if !classOk c then refuse stBadCommand s else if stepping s then later s else applyClass c s

def srvClassSpec : CmdSpec := { op := 0x0502, allow := [(0, 1, 0xFF), (2, 2, 7), (3, 16, 0xFF), (18, 19, 0xFF)], perm := byAny, body := srvClass }

/-- SRV_CLASS (R427, R456): in force from the next cut-off (R698). -/
def execSrvClass (m : Mbx) (s : State) : Host.Outcome State Fault Refusal := .next (runCmd srvClassSpec m s)

end Sys2Proof.Machine
end

