-- ==== Sys2Proof/Machine/Requests.lean ====
section
/-! DEFINITION. A request from its admission to its end: identifiers, token record, pages, turns (11_serving.md, R411 to R416, R428, R432 to R440; 10_attention_kv_cache.md, R402). Readings of these chapters: log entry 35. -/
namespace Sys2Proof.Machine

/-! ### Slots and identifiers (R410 to R412, R432) -/

def req (s : State) (k : Nat) : Request := Tbl.opt .reset s.srv.requests k
def modReq (k : Nat) (g : Request → Request) (s : State) : State :=
  modSrv (fun x => { x with requests := Tbl.set none x.requests k (some (g (req s k))) }) s

/-- A slot holds a live request. -/
def Request.live (r : Request) : Bool := r.state != .free

/-- The identifier of the request in a slot. -/
def reqId (s : State) (k : Nat) : Nat := (req s k).gen * 2 ^ 18 + k

/-- The live slots. -/
def liveSlots (s : State) : List Nat := (s.srv.requests.filter fun r => r.2.any Request.live).map Prod.fst

/-- The slot that an identifier names for a partition, or why it names none (R412). -/
def findReq (s : State) (p id : Nat) : Nat ⊕ Nat :=
  let k := id % 2 ^ 18
  let r := req s k
  if id = 0xFFFFFFFF ∨ 2 ^ 32 ≤ id then .inl stBadCommand
  else if r.live && r.gen == id / 2 ^ 18 then (if r.part = p then .inr k else .inl stBadCommand)
  else if !r.live && r.expired && r.part == p && r.gen != id / 2 ^ 18 then .inl stExpired
  else .inl stBadCommand

/-- The prefix that a handle names for a partition, or why it names none (R432, R435). -/
def findPrefix (s : State) (p h : Nat) : Nat ⊕ Prefix :=
  match Tbl.get none s.srv.prefixes (h % 65536) with
  | some x => if x.part ≠ p ∨ x.gen ≠ h / 65536 then .inl stBadCommand
      else if x.live then .inr x else if x.flushed then .inl stExpired else .inl stBadCommand
  | none => .inl stBadCommand

/-- The key of a request's draft sequence (R441). -/
def draftKey (k : Nat) : Nat := 2 ^ 18 + k

/-- The keys under which a request's sequences stand: its own and its draft's. -/
def seqKeys (k : Nat) : List Nat := [k, draftKey k]

/-- The configuration block of a request's binding. -/
def reqCfg (s : State) (k : Nat) : List Byte := (srvOf s (req s k).binding).getD []

/-- The class settings of a request. -/
def reqClass (s : State) (k : Nat) : ClassCfg := Tbl.opt .reset s.srv.classes (16 * (req s k).part + (req s k).cls)

/-- Change the statistics of a request's class. -/
def modClassStat (k : Nat) (g : ClassStat → ClassStat) (s : State) : State :=
  let i := 16 * (req s k).part + (req s k).cls
  modSrv (fun x => { x with classStat := Tbl.set none x.classStat i (some (g (Tbl.opt .reset x.classStat i))) }) s

/-- Count a shortfall of pages (R404, R440). -/
def countDeferred (s : State) : State := modSrv (fun x => { x with kvDeferred := satAdd 32 x.kvDeferred 1 }) s

/-- Count outputs that no one receives. -/
def countDropped (n : Nat) (s : State) : State := modSrv (fun x => { x with droppedOutputs := satAdd 32 x.droppedOutputs n }) s

/-! ### Token record (R413) -/

/-- Granules of a binding's token arena that its requests hold. -/
def arenaUsed (s : State) (b : Nat) : List Nat :=
  s.srv.requests.flatMap fun r => match r.2 with
    | some x => if x.live && x.binding == b then x.granules else []
    | none => []

/-- Granules of a binding's token arena that may be given: free ones that are not retired (R413, R663). -/
def freeGranules (s : State) (cfg : List Byte) (b : Nat) : List Nat :=
  let used := arenaUsed s b
  (List.range (Sc.tokenGranules cfg)).filter fun g =>
    !used.contains g && !onRetired s 1 (Sc.tokenBase cfg + 65536 * g - tierBase 1) 65536

/-- Extend a request's record: granules on demand, none that is retired (R663), the bytes in the arena; nothing where the arena is short. -/
def extendRecord (k : Nat) (bs : List Byte) (s : State) : Option State :=
  let r := req s k
  let cfg := reqCfg s k
  let need := ceilDiv (r.record.length + bs.length) 65536 - r.granules.length
  let gs := (freeGranules s cfg r.binding).take need
  if gs.length < need then none else
  let all := r.granules ++ gs
  let rec_ := r.record ++ bs
  let s := modReq k (fun r => { r with granules := all, record := rec_ }) s
  some ((all.mapIdx fun i g => (i, g)).foldl (fun s x =>
    let part := (rec_.drop (65536 * x.1)).take 65536
    if 65536 * (x.1 + 1) ≤ r.record.length ∨ part.isEmpty then s else wrLocal (Sc.tokenBase cfg + 65536 * x.2) part s) s)

/-! ### Pages of a request (R402, R436 to R440) -/

/-- Its parked pages lie in T3. -/
def parkedT3 (s : State) (k : Nat) : Bool := (req s k).parkDest == 1

/-- Give up the moves under way: park indexes or pages taken for them. -/
def dropMoves (k : Nat) (s : State) : State :=
  let r := req s k
  let b := r.binding
  let s := r.moves.foldl (fun s m => if r.state == .parking then freePark b (r.parkDest == 1) m.2 s else addCount b m.2 false s) s
  modReq k (fun r => { r with moves := [], moved := false, wantUnpark := false }) s

/-- Drop a request's sequences (R402): pages freed, entries dropped, the record kept; it prefills anew (R403, R414). -/
def dropReq (k : Nat) (s : State) : State :=
  let r := req s k
  let s := dropMoves k s
  let s := (seqKeys k).foldl (fun s q => dropPages q (r.parkDest == 1) s) s
  let s := modReq k (fun r => { r with prefilled := 0, state := match r.state with
    | .prefill | .decode | .unparking => .waiting
    | .parking => .idle
    | x => x }) s
  raiseTo evKvDropped r.part [.func r.func] (fields4 [k]) s

/-- Free what a request holds in the pool and the arena. -/
def freeReqPages (k : Nat) (s : State) : State :=
  let r := req s k
  let s := dropMoves k s
  let s := (seqKeys k).foldl (fun s q => freeSeq q (r.parkDest == 1) s) s
  modReq k (fun r => { r with granules := [], record := [], bags := [] }) s

/-! ### The end of a turn (R414, R415, R457) -/

/-- REQ_DONE: request, status, outputs, TTFT and largest TBT in microseconds. -/
def postDone (k : Nat) (s : State) : State :=
  let r := req s k
  raiseTo evReqDone r.part [.func r.func] (fields4 [reqId s k, r.endStatus, r.outputs, r.ttft, r.maxTbt]) s

/-- An ending request with no delivery left leaves the table. -/
def checkFree (k : Nat) (s : State) : State :=
  let r := req s k
  if r.state != .ending || !r.deliveries.isEmpty then s else
  modReq k (fun r => { Request.reset with gen := (r.gen + 1) % 16383, expired := r.expired, part := r.part }) (postDone k s)

/-- The request ends with a status: it frees all it holds but the slot. -/
def endReq (k status : Nat) (s : State) : State :=
  let r := req s k
  if !r.live || r.state == .ending then s else
  let s := freeReqPages k s
  checkFree k (modReq k (fun r => { r with state := .ending, endStatus := status }) s)

/-- A turn ends by its results: to IDLE where it is kept, else to ENDING (R415). -/
def endTurn (k status : Nat) (s : State) : State :=
  let r := req s k
  let s := modClassStat k (fun c => { c with turns := satAdd 32 c.turns 1 }) s
  if r.keep && !Sc.single (reqCfg s k) then postDone k (modReq k (fun r => { r with state := .idle, endStatus := status }) s)
  else endReq k status s

/-- Drop the deliveries of a request that wait (R415). -/
def dropDeliveries (k : Nat) (s : State) : State :=
  let n := (req s k).deliveries.length
  countDropped n (modReq k (fun r => { r with deliveries := [] }) s)

/-- End a request whose function is disabled or whose partition is reset: outputs due are dropped. -/
def abortReq (k status : Nat) (s : State) : State :=
  let s := dropDeliveries k s
  if (req s k).state == .ending then checkFree k s else endReq k status s

/-! ### Prefixes (R432 to R435) -/

/-- Free a prefix: its counts are lowered. -/
def freePrefix (i : Nat) (flushed : Bool) (s : State) : State :=
  match Tbl.get none s.srv.prefixes i with
  | none => s
  | some x =>
    if !x.live then s else
    let s := x.pages.foldl (fun s pg => addCount x.binding pg.2 false s) s
    modSrv (fun v => { v with prefixes := Tbl.set none v.prefixes i (some { x with live := false, flushed := flushed, pages := [], record := [] }) }) s

/-- The live prefixes of a binding. -/
def bindingPrefixes (s : State) (b : Nat) : List Nat :=
  (s.srv.prefixes.filter fun p => p.2.any fun x => x.live && x.binding == b).map Prod.fst

/-- The live requests of a binding. -/
def bindingReqs (s : State) (b : Nat) : List Nat := (liveSlots s).filter fun k => (req s k).binding == b

/-- A swap with flush drops every page of the model and releases its prefixes (R356, R406, R435). -/
def flushBinding (b : Nat) (s : State) : State :=
  let s := (bindingReqs s b).foldl (fun s k => if (seqp? s k).isSome then dropReq k s else s) s
  (bindingPrefixes s b).foldl (fun s i => freePrefix i true s) s

end Sys2Proof.Machine
end

