-- ==== Sys2Proof/Machine/Knot.lean ====
section
/-! DEFINITION. Knots: programs of the fabric engines, their launch, their operations and their commands (13_fabric.md, R529 to R536, R540). -/
namespace Sys2Proof.Machine

/-! ### Images (R529, R531) -/

namespace Kn
def magic (i : List Byte) : Nat := leAt i 0 4
def ops (i : List Byte) : Nat := leAt i 4 2
def doneHitch (i : List Byte) : Nat := leAt i 6 2
def doneInc (i : List Byte) : Nat := leAt i 8 2
/-- Operation `k` of an image, as its 32 bytes; one beyond the last is no operation (log entry 24). -/
def opAt (i : List Byte) (k : Nat) : List Byte := if k < ops i then sliceBytes i (32 + 32 * k) 32 else List.replicate 32 0xFF
def op (o : List Byte) : Nat := leAt o 0 1
def flags (o : List Byte) : Nat := leAt o 1 1
def hitchEn (o : List Byte) : Bool := bit (flags o) 0
def wait (o : List Byte) : Bool := bit (flags o) 1
def hitch (o : List Byte) : Nat := leAt o 2 2
def inc (o : List Byte) : Nat := leAt o 4 2
def binding (o : List Byte) : Nat := leAt o 6 1
def fmt (o : List Byte) : Nat := bits (leAt o 7 1) 0 4
def isMax (o : List Byte) : Bool := bit (leAt o 7 1) 4
def src (o : List Byte) : Nat := leAt o 8 8
def dst (o : List Byte) : Nat := leAt o 16 8
def length (o : List Byte) : Nat := leAt o 24 4
def target (o : List Byte) : Nat := leAt o 28 1
def reg (o : List Byte) : Nat := leAt o 29 1

/-- A reserved bit of an operation is set, or a third loop counter is named (R531); KNOT_LOAD refuses it (R9, R542). -/
def dirty (o : List Byte) : Bool :=
  bits (hitch o) 12 4 != 0 || (op o == 6 && bits (hitch o) 10 2 != 0) || bits (leAt o 7 1) 6 2 != 0 || leAt o 30 2 != 0 || bits (reg o) 2 6 != 0 ||
    (op o == 9 && bit (reg o) 1)

/-- A reserved bit, an unknown operation, or a combine the table does not list (R531, R535). -/
def bad (o : List Byte) : Bool :=
  dirty o || decide (9 < op o) || (op o == 2 && (!(fmt o == 6 || fmt o == 7 || fmt o == 8) || bits (leAt o 7 1) 5 1 != 0))

/-- The header's checks: magic, number of operations, length, reserved bits. -/
def headerOk (i : List Byte) : Bool :=
  magic i == 0x4B4E5856 && decide (1 ≤ ops i) && decide (ops i ≤ 256) && i.length == 32 + 32 * ops i &&
    cleanBytes [(0, 6, 0xFF), (7, 7, 0x8F), (8, 9, 0xFF)] 32 (i.take 32)
end Kn

def knot? (s : State) (k : Nat) : Option KnotImg := Tbl.get none s.fab.knots k

/-- The image of a knot, empty where none is loaded. -/
def knotImage (s : State) (k : Nat) : List Byte := ((knot? s k).map KnotImg.image).getD []

/-- Some engine has a launch of a knot queued or runs it. -/
def knotBusy (s : State) (k : Nat) : Bool :=
  (List.range 4).any fun e => (fabEng s e).queue.any (·.1 == k) || (fabEng s e).cur.any (·.knot == k)

/-! ### Starting, going on, ending (R530, R532, R535, R536) -/

/-- An idle engine takes its next launch; registers and counters start at zero (log entry 24). -/
def takeKnot (e : Nat) (s : State) : State :=
  let x := fabEng s e
  match x.cur, x.queue with
  | none, (k, p) :: rest => modFabEng e (fun y =>
      { y with queue := rest, busy := true, failed := false, partition := p, knot := k, op := 0,
               cur := some { knot := k, part := p, op := 0, regs := List.replicate 4 (0, 0), counters := [0, 0], tags := [],
                             waiting := false, failed := none } }) s
  | _, _ => s

/-- The KNOT action: a launch is queued, or fails (R530). -/
def launchKnot (part e k : Nat) (s : State) : State :=
  let bad := fun st => faultSegment part st 5 e 0 (modFab (fun f => { f with knotBad := satAdd 32 f.knotBad 1 }) (countError 4 s))
  if !(knot? s k).any (·.part == part) then bad stNotPermitted
  else if 16 ≤ (fabEng s e).queue.length then bad stNoResource
  else takeKnot e (modFabEng e (fun x => { x with queue := x.queue ++ [(k, part)] }) s)

/-- Apply a knot's done_hitch. -/
def applyDone (r : KnotRun) (s : State) : State :=
  let i := knotImage s r.knot
  if bit (Kn.doneHitch i) 15 then incHitch (hitchOf r.part (Kn.doneHitch i % 4096)) (Kn.doneInc i) s else s

/-- The knot ends: its waiters are released and the engine takes the next launch. -/
def endKnot (e : Nat) (r : KnotRun) (s : State) : State :=
  takeKnot e (applyDone r (modFabEng e (fun x => { x with cur := none, busy := false }) s))

/-- The knot fails (R535). -/
def failKnot (e st : Nat) (r : KnotRun) (s : State) : State :=
  let s := modFabEng e (fun x => { x with cur := none, busy := false, failed := true, status := st, op := r.op }) s
  let s := raiseError 6 evKnotFailed r.part [.prims r.part] [] (faultSegment r.part st 5 e 0 (applyDone r s))
  takeKnot e s

/-- The engine goes on to an operation. -/
def gotoOp (e i : Nat) (s : State) : State :=
  modFabEng e (fun x => { x with op := i }) (modKnot e (fun k => { k with op := i, waiting := false }) s)

/-- What stops an engine at the operation it has come to: a SEND that failed, or an operation that is none. -/
def knotStop (s : State) (r : KnotRun) : Option Nat :=
  r.failed <|> (if Kn.bad (Kn.opAt (knotImage s r.knot) r.op) then some stBadCommand else none)

/-- Run the operation an engine has come to, where it is of this kind. -/
def onKnot (op e : Nat) (k : KnotRun → List Byte → State → State) (s : State) : State :=
  if !dieOn s || decide (4 ≤ e) then s else
  match (fabEng s e).cur with
  | none => s
  | some r =>
    match knotStop s r with
    | some st => failKnot e st r s
    | none =>
      let o := Kn.opAt (knotImage s r.knot) r.op
      if Kn.op o = op then k r o s else s

/-- A launched knot is dropped, a running one stops without its done_hitch (R536). -/
def dropKnots (p : Nat → Bool) (s : State) : State :=
  (List.range 4).foldl (fun s e =>
    let s := modFabEng e (fun x =>
      { x with queue := x.queue.filter fun q => !p q.2, cur := x.cur.filter fun r => !p r.part }) s
    takeKnot e (modFabEng e (fun x => { x with busy := x.cur.isSome }) s)) s

/-! ### Operands (R532, R534) -/

/-- The registers' values added to an operand's address. -/
def knotAddr (r : KnotRun) (en : Bool) (k a : Nat) : Nat := (a + if en then (r.regs.getD k (0, 0)).2 else 0) % 2 ^ 64
def knotSrc (r : KnotRun) (o : List Byte) : Nat := knotAddr r (bit (Kn.flags o) 4) (bits (Kn.flags o) 2 2) (Kn.src o)
def knotDst (r : KnotRun) (o : List Byte) : Nat := knotAddr r (bit (Kn.flags o) 7) (bits (Kn.flags o) 5 2) (Kn.dst o)

/-- Why an extent cannot be reached: not one range or not whole rows, not the partition's, or a failed read of host memory (R189, R222, R301, R303, R319). -/
def knotFault (s : State) (p : Nat) (write : Bool) (x : Nat × Nat) (host : HostRead) : Option Nat :=
  if x.2 = 0 ∨ !extentOk false x then some stBadCommand
  else if !extentPermitted s p write false x then some stNotPermitted
  else match place x.1 x.2 with
    | .host _ =>
      if !(partWindow s p x.1 x.2).any (fun w => enabled s w.func) then some stAbortedDisable
      else if write then none
      else hostStatus host
    | _ => none

/-- The rows of an extent that a knot must wait for: read ones that are not full, and transient ones of a partition that is not running (R201, R224, R534). -/
def knotHeld (s : State) (p : Nat) (read : Bool) (x : Nat × Nat) : List (Nat × Nat) :=
  (rowsOf [x]).filter fun k => rowWaits s (some p) k.1 k.2 || (read && !readReady s p k.1 k.2 false)

/-- A knot's operation waits: the fields that hold it count the turn (R207). -/
def knotWaits (ks : List (Nat × Nat)) (s : State) : State := (ks.map Prod.fst).eraseDups.foldl (fun s f => countBlocked f s) s

/-- The bytes of an extent and whether they are poisoned. -/
def knotRead (p : Nat) (x : Nat × Nat) (host : HostRead) (s : State) : (List Byte × Bool) × State :=
  match place x.1 x.2 with
  | .row _ _ => (extentRows x).foldl (fun a k =>
      let r := accessRow false p k.1 k.2 false a.2
      ((a.1.1 ++ (if x.2 ≤ 640 then r.1.1 else padTo 1024 r.1.1), a.1.2 || r.1.2), r.2)) (([], false), s)
  | .tier t off => tierRead t off x.2 0 s
  | _ => match host with
    | .ok bs => ((padTo x.2 bs, false), noteRead p x s)
    | _ => ((List.replicate x.2 0, false), s)

/-- Write bytes; a row is overwritten (R479). -/
def knotWrite (p a : Nat) (bs : List Byte) (poison : Bool) (s : State) : State :=
  match place a bs.length with
  | .row _ _ => (List.zip (extentRows (a, bs.length)) (winRows bs)).foldl (fun s x => putRow false p x.1.1 x.1.2 x.2 poison true s) s
  | .tier t off => tierWrite t off bs poison 0 s
  | _ => match partWindow s p a bs.length with
    | some w => writeWindow w a bs poison s
    | none => s

/-- The first fault among operands. -/
def firstFault (fs : List (Option Nat)) : Option Nat := fs.findSome? id

/-! ### Operations (R531 to R535) -/

/-- SEND's pieces: rows for a scratchpad destination, else one run of bytes. -/
def sendPieces (dst : Nat) (bs : List Byte) (poison : Bool) : List (Nat × List Byte × Bool) :=
  if inSp dst then (winRows bs).mapIdx fun i b => (dst + i * 0x400, b, poison) else [(dst, bs, poison)]

/-- KNOT_SEND (R531, R505): it is over when its last packet has left; without a free tag it waits (R542). -/
def execKnotSend (e : Nat) (src : ReadIn) (s : State) : Host.Outcome State Fault Refusal :=
  .next (onKnot 1 e (fun r o s =>
    let p := r.part
    let x := (knotSrc r o, Kn.length o)
    let d := knotDst r o
    let chip := ((Tbl.get none s.hch.outs (Kn.binding o)).map OutBind.chip).getD 0
    match firstFault [knotFault s p false x src.host, if extentOk true (d, Kn.length o) then none else some stBadCommand,
        bindFault s p (Kn.binding o) chip] with
    | some st => failKnot e st r (countRead st s)
    | none =>
      let held := knotHeld s p true x
      if !held.isEmpty then knotWaits held s else if !tagFree s then s else
      let a := knotRead p x src.host (readFinds (rowsOf [x]) [x] src s)
      let t := sendTransfer true e p (Kn.binding o) (if Kn.hitchEn o then Kn.inc o else 0) (Kn.hitch o % 4096)
        (sendPieces d a.1.1 a.1.2) a.2
      gotoOp e (r.op + 1) (modKnot e (fun k => { k with tags := k.tags ++ [t.1] }) t.2)) s)

/-- One element of a COMBINE (R533): BF16, FP32 or ACC32, added or the larger. -/
def combineElem (fmt : Nat) (mx : Bool) (a b : Nat) : Nat :=
  if fmt = 8 then
    let x := accRead 8 a
    let y := accRead 8 b
    ofSigned 32 (if mx then max x y else (accAdd 8 x y).1)
  else
    let g := fun x y => if mx then Lv.fmax x y else f32Add x y
    if fmt = 6 then bf16OfF32 (g (f32OfBf16 a) (f32OfBf16 b)) else g a b

/-- Combine two byte strings element by element. -/
def combineBytes (fmt : Nat) (mx : Bool) (a b : List Byte) : List Byte :=
  let w := if fmt = 6 then 2 else 4
  (List.range (a.length / w)).flatMap fun i => leBytes w (combineElem fmt mx (leAt a (w * i) w) (leAt b (w * i) w))

/-- A local operation is over: its increment is applied and the engine goes on. -/
def localDone (e : Nat) (r : KnotRun) (o : List Byte) (s : State) : State :=
  gotoOp e (r.op + 1) (if Kn.hitchEn o then incHitch (hitchOf r.part (Kn.hitch o % 4096)) (Kn.inc o) s else s)

/-- KNOT_COMBINE (R533): both operands are read, the destination is written. -/
def execKnotCombine (e : Nat) (src dst : ReadIn) (s : State) : Host.Outcome State Fault Refusal :=
  .next (onKnot 2 e (fun r o s =>
    let p := r.part
    let n := Kn.length o
    let x := (knotSrc r o, n)
    let y := (knotDst r o, n)
    let w := if Kn.fmt o = 6 then 2 else 4
    match firstFault [if n % w = 0 then none else some stBadCommand, knotFault s p false x src.host, knotFault s p true y dst.host, knotFault s p false y dst.host] with
    | some st => failKnot e st r (countRead st s)
    | none =>
      let held := knotHeld s p true x ++ knotHeld s p true y
      if !held.isEmpty then knotWaits held s else
      let a := knotRead p x src.host (readFinds (rowsOf [y]) [y] dst (readFinds (rowsOf [x]) [x] src s))
      let b := knotRead p y dst.host a.2
      localDone e r o (knotWrite p y.1 (combineBytes (Kn.fmt o) (Kn.isMax o) b.1.1 a.1.1) (a.1.2 || b.1.2) b.2)) s)

/-- What a copy writes: bytes from a tier to another place than scratchpad keep the poison of each block (R287). -/
def copyRuns (s : State) (x : Nat × Nat) (dst : Nat) (a : List Byte × Bool) : List (Nat × List Byte × Bool) :=
  match place x.1 x.2, inSp dst with
  | .tier t off, false => (poisonRuns s t off x.2).map fun u => (dst + u.1, sliceBytes a.1 u.1 u.2.1, u.2.2)
  | _, _ => [(dst, a.1, a.2)]

/-- KNOT_COPY (R531). -/
def execKnotCopy (e : Nat) (src : ReadIn) (s : State) : Host.Outcome State Fault Refusal :=
  .next (onKnot 3 e (fun r o s =>
    let p := r.part
    let x := (knotSrc r o, Kn.length o)
    let y := (knotDst r o, Kn.length o)
    match firstFault [knotFault s p false x src.host, knotFault s p true y src.host] with
    | some st => failKnot e st r (countRead st s)
    | none =>
      let held := knotHeld s p true x ++ knotHeld s p false y
      if !held.isEmpty then knotWaits held s else
      let s := readFinds (rowsOf [x]) [x] src s
      let a := knotRead p x src.host s
      localDone e r o ((copyRuns s x y.1 a.1).foldl (fun s u => knotWrite p u.1 u.2.1 u.2.2 s) a.2)) s)

/-- KNOT_WAIT (R463): it proceeds once the hitch has reached its target. -/
def execKnotWait (e : Nat) (s : State) : Host.Outcome State Fault Refusal :=
  .next (onKnot 4 e (fun r o s =>
    let h := hitchOf r.part (Kn.hitch o % 4096)
    if hitchReady s h then gotoOp e (r.op + 1) (takeHitch h s) else s) s)

/-- KNOT_INC (R531): every earlier operation has completed by then. -/
def execKnotInc (e : Nat) (s : State) : Host.Outcome State Fault Refusal :=
  .next (onKnot 5 e (fun r o s =>
    gotoOp e (r.op + 1) (incHitch (hitchOf r.part (Kn.hitch o % 4096)) (Kn.inc o) s)) s)

/-- KNOT_BARRIER (R483, R531, R535): the entry, and with wait set the release. -/
def execKnotBarrier (e : Nat) (s : State) : Host.Outcome State Fault Refusal :=
  .next (onKnot 6 e (fun r o s =>
    if r.waiting then
      match releasedFor s (e + 1) with
      | none => s
      | some broken =>
        let s := takeRelease (e + 1) s
        if broken then failKnot e stTimeout r s else gotoOp e (r.op + 1) s
    else
      let en := enterBarrier r.part (Kn.hitch o % 1024) (e + 1) (Kn.wait o) s
      match en.1 with
      | some st => if st = stTimeout ∧ !Kn.wait o then gotoOp e (r.op + 1) en.2 else failKnot e st r en.2
      | none => if Kn.wait o then modKnot e (fun k => { k with waiting := true }) en.2 else gotoOp e (r.op + 1) en.2) s)

/-- KNOT_SETREG (R531): span and value. -/
def execKnotSetreg (e : Nat) (s : State) : Host.Outcome State Fault Refusal :=
  .next (onKnot 7 e (fun r o s =>
    gotoOp e (r.op + 1) (modKnot e (fun k => { k with regs := k.regs.set (Kn.reg o % 4) (Kn.src o, Kn.dst o) }) s)) s)

/-- KNOT_ADVREG (R531): (k + delta) modulo span; modulo zero is a free value (log entry 24). -/
def execKnotAdvreg (e : Nat) (s : State) : Host.Outcome State Fault Refusal :=
  .next (onKnot 8 e (fun r o s =>
    let k := r.regs.getD (Kn.reg o % 4) (0, 0)
    let v := if k.1 = 0 then ((freshFree s).1 % 2 ^ 64, (freshFree s).2)
      else (((toSigned 64 k.2 + toSigned 64 (Kn.dst o)) % (k.1 : Int)).toNat, s)
    gotoOp e (r.op + 1) (modKnot e (fun x => { x with regs := x.regs.set (Kn.reg o % 4) (k.1, v.1) }) v.2)) s)

/-- KNOT_LOOP (R531): a counter at 0 is loaded; it is decremented, and while not 0 the knot jumps back. A count of 0 leaves it at 0 (log entry 24). -/
def execKnotLoop (e : Nat) (s : State) : Host.Outcome State Fault Refusal :=
  .next (onKnot 9 e (fun r o s =>
    let j := Kn.reg o % 2
    let c := r.counters.getD j 0
    let c := (if c = 0 then Kn.length o else c) - 1
    gotoOp e (if c = 0 then r.op + 1 else Kn.target o) (modKnot e (fun x => { x with counters := x.counters.set j c }) s)) s)

/-- KNOT_END (R531): done_hitch is applied and the knot ends. -/
def execKnotEnd (e : Nat) (s : State) : Host.Outcome State Fault Refusal :=
  .next (onKnot 0 e (fun r _ s => endKnot e r s) s)

/-! ### Commands (R540) -/

/-- Bytes of the store in use, but for one knot. -/
def knotBytes (s : State) (k : Nat) : Nat :=
  (s.fab.knots.map fun q => if q.1 = k then 0 else (q.2.map fun i => i.image.length).getD 0).sum

def knotLoad (c : Cmd) (s : State) : State × Ans :=
  let k := pNum c 0 2
  let n := pNum c 16 4
  if 4095 < k ∨ n < 64 ∨ 32 + 32 * 256 < n then refuse stBadCommand s
  else if (knot? s k).any fun i => i.part != cmdPart c then refuse stNotPermitted s
  else if (knot? s k).isSome && !pBit c 2 0 then refuse stBadCommand s
  else if knotBusy s k then refuse stBusy s
  else withHost c (pNum c 8 8) n s fun bs =>
    if !Kn.headerOk bs || (List.range (Kn.ops bs)).any (fun i => Kn.dirty (Kn.opAt bs i)) then refuse stBadCommand s
    else if 0x100000 < knotBytes s k + n then refuse stNoResource s
    else done (modFab (fun f => { f with knots := Tbl.set none f.knots k (some { part := cmdPart c, image := bs }) }) s)

def knotLoadSpec : CmdSpec := { op := 0x0710, allow := [(0, 1, 0xFF), (2, 2, 1), (8, 19, 0xFF)], perm := byAny, body := knotLoad }

/-- KNOT_LOAD (R9, R529, R540); an unknown operation is found when an engine comes to it (R535). -/
def execKnotLoad (m : Mbx) (s : State) : Host.Outcome State Fault Refusal := .next (runCmd knotLoadSpec m s)

def knotUnload (c : Cmd) (s : State) : State × Ans :=
  let k := pNum c 0 2
  if 4095 < k then refuse stBadCommand s
  else if !(knot? s k).any (fun i => i.part == cmdPart c) then refuse stNotPermitted s
  else if knotBusy s k then refuse stBusy s
  else done (modFab (fun f => { f with knots := Tbl.set none f.knots k none }) s)

def knotUnloadSpec : CmdSpec := { op := 0x0711, allow := [(0, 1, 0xFF)], perm := byAny, body := knotUnload }

/-- KNOT_UNLOAD (R540). -/
def execKnotUnload (m : Mbx) (s : State) : Host.Outcome State Fault Refusal := .next (runCmd knotUnloadSpec m s)

def knotAbort (c : Cmd) (s : State) : State × Ans :=
  let e := pByte c 0
  if 3 < e then refuse stBadCommand s
  else match (fabEng s e).cur with
    | none => done s
    | some r => if r.part ≠ cmdPart c then refuse stNotPermitted s else done (failKnot e stAbortedCancel r s)

def knotAbortSpec : CmdSpec := { op := 0x0712, allow := [(0, 0, 0xFF)], perm := byAny, body := knotAbort }

/-- KNOT_ABORT (R540): the knot fails with ABORTED_CANCEL. -/
def execKnotAbort (m : Mbx) (s : State) : Host.Outcome State Fault Refusal := .next (runCmd knotAbortSpec m s)

end Sys2Proof.Machine
end

