-- ==== Sys2Proof/Machine/Seq.lean ====
section
/-! DEFINITION. The sequencer: issue, stalls and their slack, the checkpoint mark and the replay horizon, debug halt and step (05_narrow_precision_safeguards.md R167 to R176, R182; 07_bundles_and_verifier.md R252 to R270, R280, R281). Readings of this chapter: log entry 30. -/
namespace Sys2Proof.Machine

/-! ### The running program -/

/-- The image behind the running program. -/
def runImage (s : State) (r : SeqRun) : List Byte := ((Tbl.get none s.prog.progs r.handle).map Prog.image).getD []

/-- Bundle-store offset of the bundle at a position. -/
def storeOff (s : State) (r : SeqRun) : Nat :=
  ((Tbl.get none s.prog.progs r.handle).map Prog.base).getD 0 + r.pos.pc

def modCur (g : SeqRun → SeqRun) (s : State) : State := modSeq (fun q => { q with cur := q.cur.map g }) s

/-- What a part of the current issue works with. -/
def partCtx (s : State) (r : SeqRun) : PartCtx :=
  { part := r.part, base := r.pos.base, counts := r.counts, image := runImage s r, bundle := storeOff s r, stepCount := s.step.count, inSpan := r.inSpan }

/-- The global part of the bundle at the position. -/
def globalOf (s : State) (r : SeqRun) : Nat := Img.word (runImage s r) r.pos.pc

/-- The cause a stalled cycle is charged to: within a replay whatever the island or the debugger does not cause is REPLAY (R172, R268). -/
def chargedCause (s : State) (cause : Nat) : Nat :=
  if s.np.inReplay && !(cause == slThermal || cause == slPowerCap || cause == slDebugHalt) then slReplay else cause

/-- Bring SEQ_STATUS and the loop, count and base registers in step with the program (R280). -/
def syncSeq (s : State) : State :=
  modSeq (fun q => match q.cur with
    | none => { q with issuing := false, stalled := false, cause := 0, inSpan := false, loopActive := false, loopDepth := 0 }
    | some r =>
      let halted := q.halt && !r.pos.ended
      { q with partition := r.part, issuing := true, inSpan := r.inSpan, loopActive := decide (0 < r.pos.depth), loopDepth := r.pos.depth - 1,
               stalled := r.stall.isSome || halted, cause := if halted then slDebugHalt else if r.stall.isSome then chargedCause s q.stallCause else 0,
               loopRegs := (r.pos.loops.mapIdx fun i v => (i, v)).foldl (fun t x => Tbl.set 0 t x.1 x.2) q.loopRegs,
               countRegs := (r.counts.mapIdx fun i v => (i, v)).foldl (fun t x => Tbl.set 0 t x.1 x.2) q.countRegs,
               baseRegs := (r.pos.base.mapIdx fun i v => (i, v)).foldl (fun t x => Tbl.set 0 t x.1 x.2) q.baseRegs }) s

/-! ### Slack (R268, R270, R172) -/

/-- Charge slack cycles to one cause: chip-wide, of the step, of the partition, of the segment. -/
def chargeSlack (cause cycles : Nat) (s : State) : State :=
  match s.seq.cur with
  | none => s
  | some r =>
    if cycles = 0 then s else
    let c := chargedCause s cause
    modStep (fun t => { t with running := t.running.map fun x => { x with segSlack := Tbl.set 0 x.segSlack c (Tbl.get 0 x.segSlack c + cycles) } })
      (modSeq (fun q =>
        { q with slack := Tbl.inc 64 q.slack c cycles, stepSlack := Tbl.inc 32 q.stepSlack c cycles,
                 partSlack := Tbl.inc 64 q.partSlack (16 * r.part + c) cycles }) s)

/-- The 8-cycle turns within a time at the ACLK floor, at least one (R205). -/
def turnsIn (ns : Nat) : Nat := max 1 (ceilDiv (ns * 22388) 80000)

/-- Charge the whole turns since the stall began, and count from now on. -/
def chargeElapsed (cause : Nat) (s : State) : State :=
  modSeq (fun q => { q with stallSince := s.now, stallNs := if cause = slDebugHalt then q.stallNs else q.stallNs + (s.now - q.stallSince) })
    (chargeSlack cause (8 * turnsIn (s.now - s.seq.stallSince)) s)

/-- Of `n` issuing turns after `p` turns of the window of 64, with the first `k` of each window gated: how many turns are gated, and where the window then stands (R621, R700). -/
def gateTurns (k p n : Nat) : Nat × Nat :=
  if n = 0 then (0, p) else
  let r := max 1 (64 - k)
  let u := max p k - k + n
  ((k - min p k) + k * ((u - 1) / r), (k + (u - 1) % r + 1) % 64)

/-- A stall for no access was the most recent one (R281). -/
def noteStall (cause : Nat) (s : State) : State :=
  modSeq (fun q => { q with stallCause := chargedCause s cause, stallField := 0, stallBank := 0, stallRow := 0 }) s

/-- The stream goes on to a count of non-stalled cycles; the island gates some of the turns it issues in, each a stall (R281, R621, R622, R700). -/
def passTo (w : Nat) (s : State) : State :=
  match s.seq.cur with
  | none => s
  | some r =>
    let g := gateTurns s.isl.gate s.isl.turnsInWindow (w / 8 - r.work / 8)
    let s := modIsl (fun i => { i with turnsInWindow := g.2, gatedTurns := satAdd 64 i.gatedTurns g.1 }) s
    modCur (fun r => { r with work := max r.work w }) (onlyIf (decide (0 < g.1)) (noteStall s.isl.gateReason) (chargeSlack s.isl.gateReason (8 * g.1) s))

/-! ### Stalls (R36, R204 to R207, R269, R281) -/

/-- Begin or renew a stall: its cause and the access it is for. -/
def setStall (st : Stall) (cause field row : Nat) (s : State) : State :=
  modSeq (fun q =>
    let on := (q.cur.bind SeqRun.stall).isSome
    { q with stallCause := chargedCause s cause, stallField := field, stallBank := row % 32, stallRow := row, stallSince := if on then q.stallSince else s.now,
             stallNs := if on then q.stallNs else 0, hangNoted := on && q.hangNoted,
             cur := q.cur.map fun r => { r with stall := some st } }) s

/-- SP_STATUS.stalled of every field: set where an access of the stream is blocked (R235). -/
def markStalled (fs : List Nat) (s : State) : State :=
  ((List.range 16).filter fun f => (fld s f).spStalled != fs.contains f).foldl (fun s f => modFld f (fun x => { x with spStalled := !x.spStalled }) s) s

/-- The stall ends. -/
def clearStall (s : State) : State := modCur (fun r => { r with stall := none }) (markStalled [] s)

/-- What a part at work works with. -/
def flightCtx (s : State) (r : SeqRun) (x : Flight) : PartCtx :=
  { part := r.part, base := x.base, counts := r.counts, image := runImage s r, bundle := x.bundle, stepCount := s.step.count, inSpan := x.inSpan }

/-- The accesses of a part's next step that are blocked: field, use (R201, R202; a merge ignores the tag, R149). -/
def flightBlocks (s : State) (r : SeqRun) (x : Flight) : List (Nat × RowUse) :=
  (stepUses s (flightCtx s r x) x).filterMap fun u => if usesReady s r.part x.field [u] then none else some (x.field, u)

/-- The first access in order of field, then bank (R206). -/
def firstBlock (bs : List (Nat × RowUse)) : Option (Nat × RowUse) :=
  (bs.map fun b => 32 * b.1 + b.2.row % 32).min?.bind fun k => bs.find? fun b => 32 * b.1 + b.2.row % 32 = k

/-- The cause a blocked access is charged to (R206). -/
def blockCause (s : State) (b : Nat × RowUse) : Nat :=
  let a := rowAwait s b.1 b.2.row
  if b.2.spool || b.2.fill || a == 0 then slTagWait else a

/-- The stream is blocked: every field with a blocked access counts the turn (R207). -/
def stallBlocked (bs : List (Nat × RowUse)) (s : State) : State :=
  let s := ((bs.map Prod.fst).eraseDups).foldl (fun s f => countBlocked f s) s
  match firstBlock bs with
  | none => s
  | some b => markStalled (bs.map Prod.fst) (setStall (.blocked b.1 b.2.row b.2.spool b.2.fill) (blockCause s b) b.1 b.2.row s)

/-! ### Kicks (R243, R253, R304, R311, R341, R386) -/

/-- A tier address after relocation to the actual home of its tensor (R341). -/
def relocAddr (rs : List Reloc) (a : Nat) : Nat :=
  if bit a 63 || inSp a then a else
  match rs.find? fun r => decide (r.nominal ≤ a) && decide (a < r.nominal + r.length) with
  | some r => r.actual + (a - r.nominal)
  | none => a

def relocDesc (rs : List Reloc) (d : Desc) : Desc := { d with src := relocAddr rs d.src, dst := relocAddr rs d.dst, aux := relocAddr rs d.aux }

/-- The batch of the segment a partition runs in (R425). -/
def segBatch (s : State) (p : Nat) : Option Batch := (Tbl.get [] s.srv.curBatches p).find? fun b => b.seg = s.step.segment

/-- The pools whose slots the running segment's kicks take (R386, R441): those of its batch's binding and of its draft, else of the partition's first binding with a pool. -/
def segPools (s : State) (p : Nat) : List Pool :=
  match segBatch s p with
  | some b => (b.binding :: (((srvOf s b.binding).bind Sc.draft).toList)).filterMap (pool? s)
  | none => ((s.kv.pools.find? fun q => q.2.isSome && (Tbl.get none s.mdl.bindings q.1).any fun b => b.part == p).bind Prod.snd).toList

/-- The descriptor table of an image. -/
def imageDescs (i : List Byte) : List Desc := descTable (sliceBytes i (Img.descOff i) (64 * Img.descNum i))

/-- Hand a chain to its engine. -/
def kickNow (k : Nat × Nat) (s : State) : State :=
  match s.seq.cur with
  | none => s
  | some r =>
    let i := runImage s r
    let rs := ((Tbl.get none s.prog.active r.part).map ActiveProg.relocs).getD []
    let table := (imageDescs i).map (relocDesc rs)
    let x := ((segPools s r.part).mapIdx fun i p => (i, p)).foldl (fun a p => kvSubst (256 * p.1) p.2 s.step.segment (slotKicks.descIdx table 4096 k.2) a.1 a.2) (r.kvNext, table)
    kickChain k.1 { table := x.2, first := k.2, base := r.pos.base, part := some r.part, background := false, image := i, seen := 0, poisoned := false, cmd := none }
      (modCur (fun r => { r with kvNext := x.1 }) s)

/-- Hand out kicks in order; the number of the first whose engine's queue of 64 is full. -/
def giveKicks : List (Nat × Nat) → Nat → State → Option Nat × State
  | [], _, s => (none, s)
  | k :: ks, n, s => if 64 ≤ (engine s k.1).queue.length then (some n, s) else giveKicks ks (n + 1) (kickNow k s)

/-! ### One issue (R252, R253, R263, R264, R269) -/

/-- The key of a generator in a field for its window (R182). -/
def windowKey (s : State) (f g w : Nat) : Nat := Config.deriveKey s.np.seed s.step.count f g w

/-- PHASE_ADV: the next window of a generator in the fields of a mask (R182). -/
def phaseAdv (mask g : Nat) (s : State) : State :=
  ((List.range 16).filter (bit mask)).foldl (fun s f =>
    let w := Tbl.get 0 (fld s f).genWindow g + 1
    modFld f (fun x => { x with genWindow := Tbl.set 0 x.genWindow g w, genKey := Tbl.set 0 x.genKey g (windowKey s f g w) }) s) s

/-- What MARK saves (R169); a rerun keeps what the first pass saved. -/
def takeMark (s : State) : State :=
  match s.seq.cur with
  | none => s
  | some r =>
    let m : Mark :=
      { pos := { r.pos with left := none }, stats := s.np.stats,
        windows := (List.range 16).flatMap fun f => (fld s f).genWindow.map fun g => (64 * f + g.1, g.2),
        full := (s.sp.tags.filter fun t => bit t.2 4).map Prod.fst, kvNext := r.kvNext, fault := r.fault, faultRec := r.faultRec }
    modNp (fun x => { x with inRegion := true }) (if s.np.inReplay then s else modCur (fun r => { r with mark := some m }) s)

/-- The field's next BRAID part, where the part is a BRAID in its last unit and that one is warm (R260). -/
def flightNext (s : State) (r : SeqRun) (x : Flight) : Option (Nat × List Nat × Nat) :=
  let c := flightCtx s r x
  if partKind x.word != 1 || decide (x.unit + Br.planes x.word < unitCount c x.word) then none
  else (nextWarm c.image r.counts x.field r.pos).map fun w => (w.1, w.2.1, storeOff s r - r.pos.pc + w.2.2)

/-- One step of part number `k` at work. -/
def flightStep (k : Nat) (s : State) : State :=
  match s.seq.cur with
  | none => s
  | some r =>
    match r.flights[k]? with
    | none => s
    | some x =>
      let a := partStep (flightCtx s r x) (flightNext s r x) x s
      modCur (fun q => { q with flights := (q.flights.take k ++ a.1.toList ++ q.flights.drop (k + 1)) }) a.2

/-- The adds due at a cycle are issued in order. -/
def landDue (d : Nat) (s : State) : State :=
  match s.seq.cur with
  | none => s
  | some r => (r.adds.filter fun l => l.due == d).foldl (fun s l => landAdd r.part l s) (modCur (fun q => { q with adds := q.adds.filter fun l => l.due != d }) s)

/-- What happens next: at each cycle the parts' steps, drains among them, then the adds (R137). Even numbers are steps. -/
def nextEvent (r : SeqRun) : Option Nat :=
  (r.flights.map (fun (x : Flight) => 2 * x.due) ++ r.adds.map (fun (l : Landing) => 2 * l.due + 1)).min?

/-- Run the parts at work up to the goal. Where no step due at a cycle can proceed, every unit holds its state and the stream stalls (R204). -/
def runParts : Nat → State → State
  | 0, s => s
  | n + 1, s =>
    match s.seq.cur with
    | none => s
    | some r =>
      match (nextEvent r).filter (· < 2 * r.goal) with
      | none => syncSeq (noticePoison (clearStall s))
      | some e =>
        if e % 2 = 1 then runParts n (landDue (e / 2) (clearStall s)) else
        let s := onlyIf (decide (r.work < e / 2)) clearStall s
        let due := (r.flights.mapIdx fun k x => (k, x)).filter fun x => x.2.due == e / 2
        match due.find? fun x => (flightBlocks s r x.2).isEmpty with
        | some x => runParts n (flightStep x.1 s)
        | none => syncSeq (stallBlocked (due.flatMap fun x => flightBlocks s r x.2) (passTo (e / 2) s))

/-- Run the parts at work to the goal (R204, R252). -/
def goOn (s : State) : State := runParts walkFuel s

/-- The parts of the issue, one for each field they name that has work (R245, R254). -/
def newFlights (s : State) (r : SeqRun) : List Flight :=
  ((bundleParts (runImage s r) r.pos.pc).filter (partWorks r.counts)).flatMap fun p => (partFields p).map fun f =>
    { word := p, field := f, bundle := storeOff s r, base := r.pos.base, inSpan := r.inSpan, start := r.work, due := r.work, step := 0, unit := 0, tileAt := r.work,
      loaded := false, loadEnd := r.work, idle := [], idleNext := [], gated := false, poison := false, skips := [], chans := [], rows := [],
      key := if partKind p = 4 then Tbl.get 0 (fld s f).genKey (Ep.gen p) else 0,
      last := partKind p == 4 && lastBand (runImage s r) r.counts f p r.pos.base (r.pos.issued (runImage s r)) }

/-- The unit a part occupies in a field and until when (R258). -/
def newRuns (s : State) (r : SeqRun) : List PartRun :=
  let c := partCtx s r
  (bundleParts c.image r.pos.pc).flatMap fun p => (partFields p).map fun f =>
    { kind := partKind p, mask := 2 ^ f, endWork := r.work + partDuration r.counts r.pos.base (sproutCount s c p f)
        (if partKind p = 1 then warmTime (nextWarm c.image r.counts f (r.pos.issued c.image)) else none) p }

/-- The parts of the bundle begin (R252, R253, R264): the issue is complete, and time runs to the next one. -/
def startParts (s : State) : State :=
  match s.seq.cur with
  | none => s
  | some r =>
    let g := globalOf s r
    let fs := newFlights s r
    let runs := newRuns s r
    let s := if Gp.seqOp g = 5 then phaseAdv (bits (Gp.seqArg g) 6 16) (bits (Gp.seqArg g) 0 6) s else s
    goOn (modCur (fun r =>
      { r with parts := (r.parts ++ runs).filter fun p => decide (r.work < p.endWork),
               flights := r.flights ++ fs, ready := r.work + advance r.counts g, goal := r.work + advance r.counts g, pos := r.pos.issued (runImage s r),
               stall := none, inSpan := r.inSpan && Gp.seqOp g != 4, waitHorizon := Gp.seqOp g == 2 }) s)

/-- The action of an issue, which a wait holds before its parts work on anything (R269). -/
def startAction (s : State) : State :=
  match s.seq.cur with
  | none => s
  | some r =>
    let g := globalOf s r
    let a := Gp.seqArg g
    match Gp.seqOp g with
    | 1 => startParts (takeMark s)
    | 3 => startParts (modCur (fun r => { r with inSpan := true }) s)
    | 6 =>
      let h := hitchOf r.part (bits a 0 12)
      if hitchReady s h then startParts (takeHitch h s)
      else syncSeq (modHch (fun x => { x with waiting := true, onBarrier := false, partition := r.part, object := h })
        (setStall (.hitch (bits a 0 12)) slHitchWait 0 0 s))
    | 7 => startParts (incHitch (hitchOf r.part (bits a 0 12)) (bits a 12 12) s)
    | 8 =>
      let b := bits a 0 10
      match enterBarrier r.part b 0 true s with
      | (some st, s) => startParts (faultSegment r.part st 4 0 0 s)
      | (none, s) => syncSeq (modHch (fun x => { x with waiting := true, onBarrier := true, partition := r.part, object := b })
          (setStall (.barrier b) slHitchWait 0 0 s))
    | 9 => startParts (launchKnot r.part (bits a 0 2) (bits a 2 12) s)
    | _ => startParts s

/-- Hand out the kicks of the issue from number `n`, then act. -/
def startKicks (n : Nat) (s : State) : State :=
  match s.seq.cur with
  | none => s
  | some r =>
    match giveKicks ((Gp.kicks (globalOf s r)).drop n) n s with
    | (some k, s) => syncSeq (setStall (.queueFull k) slTagWait 0 0 s)
    | (none, s) => startAction (clearStall s)

/-- The program may issue now: it runs, is not at its end, does not stall and waits for no horizon. -/
def mayIssue (s : State) : Bool :=
  dieOn s && s.seq.cur.any fun r => !r.pos.ended && r.stall.isNone && !r.waitHorizon

/-- Issue the next bundle once more, past what has nothing to issue, or come to the end (R252, R254, R255). -/
def issueNow (ecc : List EccHit) (s : State) : State :=
  match s.seq.cur with
  | none => s
  | some r =>
    let i := runImage s r
    let p := r.pos.toIssue i r.counts walkFuel
    if p.ended then syncSeq (modCur (fun r => { r with pos := p }) s) else
    let s := eccHits ecc (passTo r.ready (modCur (fun r => { r with pos := p }) s))
    startKicks 0 (modSeq (fun q =>
      { q with issued := satAdd 64 q.issued 1, pc := ((q.cur.map (storeOff s)).getD 0) }) s)

/-- BUNDLE_ISSUE (R252 to R255). -/
def execBundleIssue (ecc : List EccHit) (s : State) : Host.Outcome State Fault Refusal :=
  .next (if mayIssue s && !s.seq.halt then issueNow ecc s else s)

/-- BLOCKED_ACCESS_RETRY (R204 to R206): one turn later the access is tried again, and the turn is slack of the cause that held it; under a halt it is a part of the halt. -/
def execBlockedAccessRetry (ecc : List EccHit) (s : State) : Host.Outcome State Fault Refusal :=
  .next (if !dieOn s then s else
    let turn := onlyIf (!s.seq.halt) (chargeSlack s.seq.stallCause 8)
    match s.seq.cur.bind SeqRun.stall with
    | some (.blocked _ _ _ _) =>
      goOn (eccHits ecc (turn s))
    | some (.queueFull k) => startKicks k (turn s)
    | _ => s)

/-- The wait is over. -/
def endWait (s : State) : State := modHch (fun x => { x with waiting := false }) (clearStall s)

/-- HITCH_WAIT_PROCEED (R463, R483, R485, R489): the hitch has reached its target, or the barrier has released its waiters. -/
def execHitchWaitProceed (s : State) : Host.Outcome State Fault Refusal :=
  .next (if !dieOn s then s else
    let cause := if s.seq.halt then slDebugHalt else slHitchWait
    match s.seq.cur, s.seq.cur.bind SeqRun.stall with
    | some r, some (.hitch v) =>
      let h := hitchOf r.part v
      if hitchReady s h then startParts (endWait (takeHitch h (chargeElapsed cause s))) else s
    | some r, some (.barrier _) =>
      match releasedFor s 0 with
      | some broken =>
        let s := endWait (takeRelease 0 (chargeElapsed cause s))
        startParts (if broken then faultSegment r.part stTimeout 4 0 0 s else s)
      | none => s
    | _, _ => s)

/-! ### Debug halt and step (R280) -/

/-- Nothing stalls: time so far is no stall's. -/
def restStall (s : State) : State := modSeq (fun q => { q with stallSince := s.now }) s

/-- Charge what stood halted, or stalled on a wait, up to now. -/
def settleHalt (s : State) : State :=
  match s.seq.cur with
  | none => restStall s
  | some r =>
    if r.pos.ended then restStall s
    else if s.seq.halt then chargeElapsed slDebugHalt s
    else match r.stall with
      | some (.hitch _) | some (.barrier _) => chargeElapsed slHitchWait s
      | some .replay => chargeElapsed slReplay s
      | _ => modSeq (fun q => { q with stallSince := s.now, stallNs := q.stallNs + (s.now - q.stallSince) }) s

/-- The halt was a stall of its own: the most recent one, where none waits behind it (R281). -/
def noteHalt (s : State) : State :=
  onlyIf (s.seq.cur.any fun r => !r.pos.ended && r.stall.isNone) (noteStall slDebugHalt) s

/-- Halt issue, or let it go on. -/
def setHalt (h : Bool) (s : State) : State :=
  if s.seq.halt = h then s else syncSeq (modSeq (fun q => { q with halt := h }) (if h then settleHalt s else noteHalt (settleHalt s)))

/-- The counters with what the present stall has taken so far (R36, R268). -/
def slackNow (s : State) : State := if s.now ≤ s.seq.stallSince then s else settleHalt s

/-- SEQ_HALT (R280, R586): only through the PF debug window, so only where the life cycle opens it. -/
def execSeqHalt (halt : Bool) (s : State) : Host.Outcome State Fault Refusal :=
  .next (onlyIf (dieOn s && debugOpen s) (setHalt halt) s)

/-- SEQ_SINGLE_STEP (R280): while halted, one issue. -/
def execSeqSingleStep (s : State) : Host.Outcome State Fault Refusal :=
  .next (onlyIf (debugOpen s && s.seq.halt && mayIssue s) (fun s => issueNow (freeFinds s).1.ecc (freeFinds s).2) s)

/-! ### Horizon and replay (R167 to R175) -/

/-- Chains a partition's program has handed to stream engines and that have not ended. -/
def chainsInFlight (s : State) (p : Nat) : Bool :=
  let mine := fun (c : Chain) => c.part == some p && !c.background
  (List.range 32).any fun e => (engine s e).queue.any mine || (engine s e).cur.any fun r => mine r.chain

/-- The cycle at which everything started has finished (R262, R263). -/
def endWork (r : SeqRun) : Nat := (r.parts.map PartRun.endWork).foldl max r.ready

/-- The parts run to their ends (R262, R263), unless an access still holds the stream. -/
def finishParts (r : SeqRun) (s : State) : State :=
  let s := goOn (modCur (fun q => { q with goal := endWork r }) s)
  if s.seq.cur.any fun q => q.stall.isSome then s else passTo (endWork r) s

/-- An access or a kick still holds the stream. -/
def heldUp (s : State) : Bool := match s.seq.cur.bind SeqRun.stall with
  | some (.blocked _ _ _ _) | some (.queueFull _) => true
  | _ => false

/-- q_max of the format a layer's fixed-mode epilogue narrows to. -/
def layerMax (i : List Byte) (layer : Nat) : Int :=
  match (allParts i).find? fun p => partKind p == 4 && Ep.monEn p && Img.layMon i (Ep.layer p) == layer with
  | some p => fmtMax (Ep.outFmt p)
  | none => 1

/-- The exponent the LVU computes for a layer from its largest magnitude (R171). -/
def recomputedExp (s : State) (i : List Byte) (layer : Nat) : Nat :=
  dynExp (layerMax i layer) [f32Val (Tbl.get (0, 0, 0, 0) s.np.stats layer).2.2.2]

def layerCfg (s : State) (l : Nat) : NpLayerCfg := Tbl.opt .reset s.np.layerCfg l

/-- A breach has been tested: if NP_BREACH records it, its reason and new exponent are entered (R174, R185). -/
def testedBreach (reason part layer newE : Nat) (s : State) : State :=
  modNp (fun x => if x.recOpen && x.recPartition == part && x.recLayer == layer then { x with recReason := reason, recNewE := newE, recOpen := false } else x) s

/-- A breach that is not replayed (R174). -/
def breachUnreplayed (part reason : Nat) (b : Nat × Nat × Bool × Nat) (newE : Nat) (s : State) : State :=
  raiseTo evNpBreach part [.prims part] (fields4 [reason])
    (modNp (fun x => { x with partUnreplayed := Tbl.inc 32 x.partUnreplayed part }) (testedBreach reason part b.1 newE s))

/-- The exponent a breach would be replayed with, 0 when none is computed. -/
def newExp (s : State) (i : List Byte) (l : Nat) : Nat :=
  if (layerCfg s l).replayEn && (Tbl.get none s.np.usedExp l).isSome then recomputedExp s i l else 0

/-- A breach that lets the region be replayed (R170). -/
def replayable (s : State) (i : List Byte) (l : Nat) : Bool :=
  match Tbl.get none s.np.usedExp l with
  | some e => (layerCfg s l).replayEn && recomputedExp s i l != e
  | none => false

/-- Test the untested breaches of the region that will not be replayed. -/
def reportBreaches (part : Nat) (i : List Byte) (s : State) : State :=
  let again := s.np.replayedParts.contains part
  let s := (s.np.breaches.filter fun b => b.2.2.1 && b.2.2.2 == 0).foldl (fun s b =>
    let reason := if again then 1 else if !(layerCfg s b.1).replayEn || (Tbl.get none s.np.usedExp b.1).isNone then 2 else 4
    breachUnreplayed part reason b (newExp s i b.1) s) s
  modNp (fun x => { x with breaches := x.breaches.map fun b => if b.2.2.1 then (b.1, b.2.1, true, 1) else b }) s

/-- The rows that the kicks of an issue use: field, use. A NARROW reads its sprout map in field 0 (R316, R699). -/
def kickUses (part : Nat) (i : List Byte) (q : Pos) : List (Nat × RowUse) :=
  let table := imageDescs i
  (Gp.kicks (Img.word i q.pc)).flatMap fun k =>
    let ch : Chain := { table := table, first := k.2, base := q.base, part := some part, background := false, image := i, seen := 0, poisoned := false, cmd := none }
    (slotKicks.descIdx table 4096 k.2).flatMap fun x =>
      let d := table.getD x .nothing
      (rowsOf (srcExtents ch d)).map (fun y => (y.1, RowUse.read (Ds.consume d) y.2)) ++ (descMapRows ch d).map (fun y => (0, RowUse.keep y)) ++
        (descRows ch d).map fun y => (y.1, RowUse.write false y.2)

/-- The rows that an issue names, by its parts and its kicks: field, use. -/
def issueUses (part : Nat) (i : List Byte) (counts : List Nat) (q : Pos) : List (Nat × RowUse) :=
  let c : PartCtx := { part := part, base := q.base, counts := counts, image := i, bundle := q.pc, stepCount := 0, inSpan := false }
  ((bundleParts i q.pc).flatMap fun w => (partFields w).flatMap fun f => (partUses c w).map fun u => (f, u)) ++ kickUses part i q

/-- The rows an issue reads, merges among them, and those it writes: field × 32,768 + row. -/
def issueRows (part : Nat) (i : List Byte) (counts : List Nat) (q : Pos) : List Nat × List Nat :=
  let us := issueUses part i counts q
  let key := fun (u : Nat × RowUse) => 32768 * u.1 + u.2.row
  ((us.filter fun u => !u.2.fill || u.2.merge).map key, (us.filter fun u => u.2.fill).map key)

/-- The rows whose content at a position is read at or after it: those read before anything writes them (R167). -/
def checkpointRows (part : Nat) (i : List Byte) (counts : List Nat) (p : Pos) : List Nat :=
  ((issuesFrom i counts walkFuel p).foldl (fun (a : List Nat × List Nat) q =>
    let x := issueRows part i counts q
    (a.1 ++ x.1.filter fun k => !a.2.contains k, a.2 ++ x.2)) ([], [])).1.eraseDups

/-- Begin the replay (R171): exponents, accumulator tags, transient rows, the snapshot, and issue at the mark. -/
def beginReplay (r : SeqRun) (m : Mark) (s : State) : State :=
  let i := runImage s r
  let ls := s.np.breaches.filter fun b => b.2.2.1 && (layerCfg s b.1).replayEn
  let s' := ls.foldl (fun s' b =>
    let e := recomputedExp s i b.1
    let o := Tbl.get (0, 0, 0, 0) s.np.stats b.1
    testedBreach 0 r.part b.1 e (raiseError 7 evNpReplay r.part [.prims r.part]
      (fields4 [b.1, (Tbl.get none s.np.usedExp b.1).getD 0, e, o.1, o.2.1])
      (modNp (fun x => { x with layerExp := Tbl.set none x.layerExp b.1 (some e) }) s'))) s
  let keep := (checkpointRows r.part i r.counts m.pos).filter fun k => m.full.contains k
  let s' := scrubWhere (fun f q => transient s f q && !keep.contains (32768 * f + q)) (emptyAllLines s')
  let s' := (List.range 16).foldl (fun s' f =>
    let ws := m.windows.filterMap fun w => if w.1 / 64 = f then some (w.1 % 64, w.2) else none
    modFld f (fun x => { x with genWindow := ws, genKey := (List.range 64).foldl (fun t g =>
      Tbl.set 0 t g (windowKey s f g (Tbl.get 0 ws g))) [] }) s') s'
  let s' := modNp (fun x =>
    { x with inReplay := true, inRegion := false, replayedBit := true, replayedParts := x.replayedParts ++ [r.part],
             partReplays := Tbl.inc 32 x.partReplays r.part, stats := m.stats, breaches := x.breaches.filter fun b => !b.2.2.1 }) s'
  let s' := noteStall slReplay (chargeSlack slReplay (1152 + 64 * ls.length) s')
  syncSeq (modCur (fun c => { c with
    pos := m.pos, kvNext := m.kvNext, fault := m.fault, faultRec := m.faultRec, stall := none, waitHorizon := false, parts := [],
    flights := [], adds := [], ahead := [], masks := [], ready := c.work, goal := c.work, resume := c.work }) s')

/-- Issue passes the horizon. -/
def passHorizon (s : State) : State :=
  syncSeq (modNp (fun x => { x with inRegion := false }) (modCur (fun r => { r with waitHorizon := false, stall := none, ready := r.work }) s))

/-- HORIZON (R170 to R174): once everything before it has finished, the breach record is tested and the region replayed or passed. -/
def execHorizon (s : State) : Host.Outcome State Fault Refusal :=
  .next (if !dieOn s then s else
    match s.seq.cur with
    | none => s
    | some r =>
      if !r.waitHorizon || heldUp s then s else
      let i := runImage s r
      let s := if r.stall.isSome then s else finishParts r s
      if heldUp s then s
      else if s.np.inReplay then
        let w := (s.seq.cur.map SeqRun.work).getD 0
        let s := chargeSlack slReplay (8 * ceilDiv (w - r.resume) 8) s
        passHorizon (reportBreaches r.part i (modNp (fun x => { x with inReplay := false }) (modCur (fun c => { c with work := r.resume, ready := r.resume, goal := r.resume, parts := [] }) s)))
      else
        match r.mark with
        | none => passHorizon (reportBreaches r.part i s)
        | some m =>
          if !(s.np.breaches.any fun b => b.2.2.1 && replayable s i b.1) || s.np.replayedParts.contains r.part then passHorizon (reportBreaches r.part i s)
          else if chainsInFlight s r.part then
            (if r.stall.isSome then s else syncSeq (setStall .replay slReplay 0 0 s))
          else beginReplay r m (if r.stall.isSome then chargeElapsed (if s.seq.halt then slDebugHalt else slReplay) s else s))

/-! ### NP_CONFIG (R186), and the ends of an override (R176) -/

/-- The layer table of the partition's active program names a monitor layer. -/
def isMonitorLayer (s : State) (p l : Nat) : Bool :=
  match (Tbl.get none s.prog.active p).bind fun a => Tbl.get none s.prog.progs a.handle with
  | some g => (List.range (Img.layNum g.image)).any fun e => Img.layMon g.image e == l
  | none => false

/-- No narrow-precision settings. -/
def NpPart.reset : NpPart := { cfg := [], pred := [], exps := [], seed := 0 }

def npPart (s : State) (p : Nat) : NpPart := Tbl.opt .reset s.np.parts p
def modNpPart (p : Nat) (g : NpPart → NpPart) (s : State) : State :=
  modNp (fun x => { x with parts := Tbl.set none x.parts p (some (g (npPart s p))) }) s

/-- A partition's override of a monitor layer ends, also where its program runs (R176). -/
def clearOverride (p l : Nat) (s : State) : State :=
  onlyIf (s.seq.cur.any fun r => r.part == p) (modNp fun x => { x with layerExp := Tbl.set none x.layerExp l none })
    (modNpPart p (fun x => { x with exps := Tbl.set none x.exps l none }) s)

/-- NP_CONFIG's effect, at the partition's next segment entry or, without one, in the next reserve (R698). -/
def applyNpConfig (c : Cmd) (s : State) : State × Ans :=
  let p := cmdPart c
  let l := pByte c 0
  if !isMonitorLayer s p l then refuse stBadCommand s else
  done (modNpPart p (fun x =>
    let o := Tbl.opt .reset x.cfg l
    let o := if pBit c 1 0 then { o with nullThresh := pNum c 2 3, clipThresh := pNum c 5 3 } else o
    let o := if pBit c 1 1 then { o with replayEn := pBit c 8 0 } else o
    { x with cfg := if pByte c 1 % 4 = 0 then x.cfg else Tbl.set none x.cfg l (some o),
             exps := if pBit c 1 2 then Tbl.set none x.exps l none else x.exps,
             seed := if pBit c 1 3 then pNum c 16 8 else x.seed }) s)

def npConfig (c : Cmd) (s : State) : State × Ans :=
  if !isMonitorLayer s (cmdPart c) (pByte c 0) then refuse stBadCommand s
  else if stepping s then later s else applyNpConfig c s

def npConfigSpec : CmdSpec :=
  { op := 0x0380, allow := [(0, 0, 0xFF), (1, 1, 0x0F), (2, 7, 0xFF), (8, 8, 1), (16, 23, 0xFF)], perm := byAny, body := npConfig }

/-- NP_CONFIG (R186). -/
def execNpConfig (m : Mbx) (s : State) : Host.Outcome State Fault Refusal := .next (runCmd npConfigSpec m s)

end Sys2Proof.Machine
end

