-- ==== Sys2Proof/Machine/Sched.lean ====
section
/-! DEFINITION. What a program does when, as the load-time verifier works it out from an image and its counts: the issues with their cycles, accumulator lines, bank slots, compressed windows, and the transfers of its chains (R92, R116, R131, R132, R137, R140, R142, R143, R194, R225, R258, R262, R271, R272, R289, R290, R299, R305 to R309, R389). Readings: log entry 12. -/
namespace Sys2Proof.Machine

/-! ### Failures and their order (R275) -/

/-- A refusal the verifier has found: bundle offset, lowest field plus one (0 for the global part), detail code, field mask and kind of the part. -/
structure VFail where
  off : Nat
  field : Nat
  detail : Nat
  mask : Nat
  kind : Nat
  deriving DecidableEq, Repr

namespace VFail

/-- Stands for a refusal with REFUSED_SCHEDULE to which R275 gives no detail code: those of R392 and R394 (DESIGN CHOICE, log entry 12). -/
def unlisted : Nat := 0x2000

/-- A refusal of a bundle's global part, or of the image. -/
def whole (off detail : Nat) : VFail := { off := off, field := 0, detail := detail, mask := 0, kind := 0 }

/-- A refusal of a part. -/
def part (off p detail : Nat) : VFail :=
  { off := off, field := ((List.range 16).find? (bit (partMask p))).elim 0 (· + 1), detail := detail, mask := partMask p, kind := partKind p }

/-- A refusal of a part in one of its fields. -/
def inField (off p f detail : Nat) : VFail := { VFail.part off p detail with field := f + 1 }

/-- The status of a detail code. -/
def status (x : VFail) : Nat :=
  if x.detail = unlisted then stRefusedSchedule else
  match x.detail / 16 with
  | 0 => stRefusedFormat
  | 1 => stRefusedCapacity
  | 2 => stRefusedSchedule
  | 3 => stRefusedGenerator
  | 4 => stNotPermitted
  | _ => stBadSignature

/-- The detail code that is reported. -/
def shown (x : VFail) : Nat := if x.detail = unlisted then 0 else x.detail

/-- First by bundle, then field, then detail code. -/
def before (x y : VFail) : Bool :=
  decide (x.off < y.off) || (x.off == y.off && (decide (x.field < y.field) || (x.field == y.field && decide (x.detail < y.detail))))

/-- The refusal that is reported. -/
def first : List VFail → Option VFail
  | [] => none
  | x :: xs => match first xs with
    | none => some x
    | some y => some (if y.before x then y else x)
end VFail

/-- A refusal where a test fails. -/
def failUnless (ok : Bool) (x : VFail) : List VFail := if ok then [] else [x]

/-! ### Issues, parts and their cycles (R252, R258, R262) -/

/-- The issues of a run with the cycle each begins at, without slack. -/
def timed (i : List Byte) (counts : List Nat) : List Pos → Nat → List (Pos × Nat)
  | [], _ => []
  | p :: ps, t => (p, t) :: timed i counts ps (t + advance counts (Img.word i p.pc))

def runTrace (i : List Byte) (counts : List Nat) : List (Pos × Nat) := timed i counts (issues i counts) 0

/-- Every vector of counts in the declared ranges. -/
def countVectors (i : List Byte) : List (List Nat) :=
  (List.range 8).foldr (fun v acc => ((List.range (Img.cmax i v + 1 - Img.cmin i v)).map (Img.cmin i v + ·)).flatMap fun n => acc.map (n :: ·)) [[]]

/-- The context of a part at an issue. -/
def verCtx (part : Nat) (i : List Byte) (counts : List Nat) (p : Pos) : PartCtx :=
  { part := part, base := p.base, counts := counts, image := i, bundle := p.pc, stepCount := 0, inSpan := false }

/-- A part at work in a field: the number and cycle of its issue, the part, and the field's next BRAID part if that is warm. -/
structure PartAt where
  ctx : PartCtx
  issue : Nat
  start : Nat
  word : Nat
  field : Nat
  next : Option (Nat × List Nat × Nat)
  deriving DecidableEq, Repr

/-- The parts of a run that have work, in the order they start. -/
def partsAt (part : Nat) (i : List Byte) (counts : List Nat) : List PartAt :=
  ((runTrace i counts).mapIdx fun k x => (k, x)).flatMap fun x =>
    let c := verCtx part i counts x.2.1
    ((bundleParts i x.2.1.pc).filter (partWorks counts)).flatMap fun p => (partFields p).map fun f =>
      { ctx := c, issue := x.1, start := x.2.2, word := p, field := f,
        next := if partKind p = 1 then nextWarm i counts f (x.2.1.issued i) else none }

namespace PartAt

/-- Sprout channels in the slices of each tile of a field; the map is read where it stands (R163). -/
def chans (s : State) (x : PartAt) (i : Nat) : Nat := sproutCount s x.ctx x.word x.field i

/-- Duration (R258). -/
def time (s : State) (x : PartAt) : Nat := partDuration x.ctx.counts x.ctx.base (x.chans s) (warmTime x.next) x.word

def fail (x : PartAt) (detail : Nat) : VFail := .inField x.ctx.bundle x.word x.field detail

/-- Tokens of a part. -/
def tokens (x : PartAt) : Nat :=
  countOf x.ctx.counts (match partKind x.word with
    | 1 => Br.batch x.word
    | 2 => Pl.batch x.word
    | 4 => Ep.batch x.word
    | _ => Pm.batch x.word)

/-- The units of a BRAID part: its number, the cycle its first token's row is read in, the cycles of a token (R98, R124, R163). -/
def units (s : State) (x : PartAt) : List (Nat × Nat × Nat) :=
  let c := x.ctx
  let p := x.word
  let l0 := if Br.warm p then 0 else loadTime (rowOf c.base (Br.wReg p) (Br.wOff p)) p 0
  ((List.range (braidUnits c.counts p)).foldl (fun (a : List (Nat × Nat × Nat) × Nat) i =>
    let tok := tokenCycles p (x.chans s i)
    (a.1 ++ (List.range (Br.planes p)).map fun j => (i * Br.planes p + j, a.2 + j * tok * x.tokens, tok),
      a.2 + tileCycles c.counts c.base (x.chans s) (warmTime x.next) p i)) ([], x.start + l0)).1

/-- Cycles of one token of an epilogue-class part (R147, R258). -/
def drainCycles (x : PartAt) : Nat :=
  if partKind x.word = 4 then 2 * (funcPasses (Ep.func x.word) + b2n (Ep.gateEn x.word)) else 2

end PartAt

/-- Cycles of a run, without slack (R262). -/
def cycleCount (s : State) (part : Nat) (i : List Byte) (counts : List Nat) : Nat :=
  (((runTrace i counts).map fun x => x.2 + advance counts (Img.word i x.1.pc)) ++ (partsAt part i counts).map fun x => x.start + x.time s).foldl max 0

/-! ### In order of time -/

/-- Merge two lists that rise by a key; the first goes first. -/
def mergeByKey (key : α → Nat) : Nat → List α → List α → List α
  | 0, xs, ys => xs ++ ys
  | _ + 1, [], ys => ys
  | _ + 1, xs, [] => xs
  | n + 1, x :: xs, y :: ys => if key x ≤ key y then x :: mergeByKey key n xs (y :: ys) else y :: mergeByKey key n (x :: xs) ys

/-- Sort by a key, keeping the order of equals, as deep as the fuel reaches. -/
def sortByKey (key : α → Nat) : Nat → List α → List α
  | 0, xs => xs
  | n + 1, xs =>
    if xs.length ≤ 1 then xs else
    let h := xs.length / 2
    mergeByKey key xs.length (sortByKey key n (xs.take h)) (sortByKey key n (xs.drop h))

/-- Sort a list of fewer than 2 ^ 64 entries. -/
def inOrder (key : α → Nat) (xs : List α) : List α := sortByKey key 64 xs

/-! ### Accumulator lines (R131, R132, R135, R137, R138, R140, R142) -/

/-- An access to lines in a cycle: 0 a drain, 1 a clear, 2 an add; the lines it names and those it empties. -/
structure LineEvent where
  cycle : Nat
  kind : Nat
  field : Nat
  lines : List Nat
  frees : List Nat
  fmt : Nat
  eRef : Nat
  whose : VFail
  deriving DecidableEq, Repr

/-- The sets a part adds to: format, reference exponent, base line. -/
def addSets (p : Nat) : List (Nat × Nat × Nat) :=
  match partKind p with
  | 1 => (Br.accFmt p, if Br.accFmt p = 11 then 0 else Br.eRef p, Br.setLine p) ::
      if Br.sproutEn p && Br.accFmt p != 11 then [(11, 0, Br.compLine p)] else []
  | 2 => [(Pl.accFmt p, if Pl.accFmt p = 11 then 0 else Pl.eRef p, Pl.setLine p)]
  | _ => []

/-- The sets a part drains: format, base line. -/
def drainSets (p : Nat) : List (Nat × Nat) :=
  match partKind p with
  | 4 => epSets p
  | 6 => [(Pm.srcFmt p, Pm.srcLine p)]
  | _ => []

/-- Its sets do not lie within the store's 2,048 lines (R131, R132). -/
def PartAt.beyondLines (x : PartAt) : Bool :=
  ((addSets x.word).any fun k => decide (2048 < k.2.2 + setLines k.1 x.tokens)) ||
    (drainSets x.word).any fun k => decide (2048 < k.2 + setLines k.1 x.tokens)

/-- Adds of one token: one set in a cycle. -/
def PartAt.addAt (x : PartAt) (k : Nat × Nat × Nat) (cycle t : Nat) : LineEvent :=
  { cycle := cycle, kind := 2, field := x.field, lines := tokenLines k.1 k.2.2 t, frees := [], fmt := k.1, eRef := k.2.1, whose := x.fail 0 }

/-- The accesses to lines a part makes: a token's sums come 24 cycles after its row's slot, 29 for A8 (R91, R195); a companion is added to where the tile's slice has sprout channels. -/
def PartAt.lineEvents (s : State) (x : PartAt) : List LineEvent :=
  let p := x.word
  let n := x.tokens
  match partKind p with
  | 1 => (x.units s).flatMap fun u =>
      let sets := (addSets p).take (if x.chans s (u.1 / Br.planes p) = 0 then 1 else 2)
      (List.range n).flatMap fun t => sets.map fun k => x.addAt k (u.2.1 + t * u.2.2 + 12 + (if Br.tblFmt p = 4 then 17 else 12)) t
  | 2 => (List.range n).flatMap fun t => (addSets p).map fun k => x.addAt k (x.start + lastLine k.1 t + 12) t
  | 3 => (List.range (ceilDiv (Cl.count p) 16)).map fun k =>
      let ls := (List.range (min 16 (Cl.count p - 16 * k))).map fun i => (Cl.firstLine p + 16 * k + i) % 2048
      { cycle := x.start + k, kind := 1, field := x.field, lines := ls, frees := ls, fmt := 0, eRef := 0, whose := x.fail 0 }
  | _ => (drainSets p).flatMap fun k => (List.range n).map fun t =>
      let later := ((List.range 3).map (t + 1 + ·)).flatMap fun u => if n ≤ u then [] else tokenLines k.1 k.2 u
      let ls := tokenLines k.1 k.2 t
      { cycle := x.start + x.drainCycles * t, kind := 0, field := x.field, lines := ls, frees := ls.filter fun l => !later.contains l,
        fmt := k.1, eRef := 0, whose := x.fail 0 }

/-- What the lines of all fields hold as time goes on: the tags of the open ones, the lines drained in the present cycle. -/
structure LineRun where
  cycle : Nat
  lines : Tbl (Option (Nat × Nat))
  drained : List Nat
  fails : List VFail
  deriving DecidableEq, Repr

/-- One access: another format or reference is refused, and an add beside a drain (R137, R140). -/
def LineRun.access (w : LineRun) (e : LineEvent) : LineRun :=
  let w := if w.cycle = e.cycle then w else { w with cycle := e.cycle, drained := [] }
  let key := fun l => 2048 * e.field + l
  let ls := e.lines.map key
  let tag := fun l => Tbl.get none w.lines l
  let bad := fun (b : Bool) d => if b then [{ e.whose with detail := d }] else []
  match e.kind with
  | 2 => { w with lines := ls.foldl (fun t l => Tbl.set none t l (some (e.fmt, e.eRef))) w.lines,
                  fails := w.fails ++ bad (ls.any fun l => (tag l).any (· != (e.fmt, e.eRef))) 0x0005 ++ bad (ls.any w.drained.contains) 0x0024 }
  | 0 => { w with lines := (e.frees.map key).foldl (fun t l => Tbl.set none t l none) w.lines, drained := w.drained ++ ls,
                  fails := w.fails ++ bad (ls.any fun l => (tag l).any (·.1 != e.fmt)) 0x0005 }
  | _ => { w with lines := (e.frees.map key).foldl (fun t l => Tbl.set none t l none) w.lines }

/-- The refusals for the lines of a run; open lines at its end are put down to the last bundle issued (R142). -/
def lineFails (s : State) (part : Nat) (i : List Byte) (counts : List Nat) : List VFail :=
  let ps := partsAt part i counts
  let w := (inOrder (fun e => 4 * e.cycle + e.kind) (ps.flatMap (PartAt.lineEvents s))).foldl LineRun.access
    { cycle := 0, lines := [], drained := [], fails := [] }
  ((ps.filter PartAt.beyondLines).map fun x => x.fail 0x0010) ++ w.fails ++
    failUnless (w.lines.all fun l => l.2.isNone) (.whole (((runTrace i counts).getLast?.map fun x => x.1.pc).getD 0) 0x0025)

/-! ### Bank slots (R92, R143, R190, R194) and pods (R116) -/

/-- Of reads in order of time, two that come within one 8-cycle turn of a bank and are not of one row. -/
def clashes : List (Nat × Nat) → List (Nat × Nat) → Bool
  | _, [] => false
  | near, x :: xs =>
    let near := near.filter fun y => decide (x.1 < y.1 + 8)
    near.any (fun y => y.2 % 32 == x.2 % 32 && y.2 != x.2) || clashes (near ++ [x]) xs

/-- The activation rows a BRAID part reads, with their cycles. -/
def PartAt.actReads (s : State) (x : PartAt) : List (Nat × Nat) :=
  (x.units s).flatMap fun u => (List.range x.tokens).flatMap fun t =>
    (unitTiles x.word u.1).1.map fun i => (u.2.1 + t * u.2.2, actRow x.ctx x.word t (tileSlice x.word i))

/-- The rows a PRELOAD part reads, with their cycles. -/
def PartAt.preReads (x : PartAt) : List (Nat × Nat) :=
  (List.range x.tokens).flatMap fun t => (preloadRows x.ctx x.word t).map fun r => (x.start + lastLine (Pl.accFmt x.word) t, r)

/-- A part's accesses find their slots: a BRAID part's activations slot 2, a PRELOAD's rows slot 3. For the accesses whose cycles the spec does not give, those of the other parts and of the sprout unit, the schedule is the verifier's own. -/
def PartAt.slotsOk (s : State) (x : PartAt) : Bool :=
  match partKind x.word with
  | 1 => !clashes [] (x.actReads s) && (!Br.sproutEn x.word || Config.slotsHold x.ctx.image x.ctx.counts x.ctx.bundle)
  | 2 => !clashes [] x.preReads
  | 3 => true
  | _ => Config.slotsHold x.ctx.image x.ctx.counts x.ctx.bundle

/-- The pod test of one window from the rows of its two tiles (R116). -/
def podFits (a b : List TileRow) : Bool :=
  let ns := List.zipWith (fun (x y : TileRow) => ((x.bytes ++ y.bytes).filter (· != 0)).length) a b
  (List.range ns.length).all fun r => decide (ns.getD r 0 ≤ 40) && decide (ns.getD r 0 + ns.getD (r ^^^ 1) 0 ≤ 64)

/-- Every compressed window of a BRAID part passes the pod test; of a window whose weights are not resident the verifier knows by means of its own. -/
def PartAt.podOk (s : State) (x : PartAt) : Bool :=
  let p := x.word
  partKind p != 1 || Br.mode p != 2 || (List.range (braidUnits x.ctx.counts p)).all fun u =>
    let rows := fun i => tileRowsOf x.ctx p i 0
    let tile := fun i => tileRows (Br.outRows p) ((rows i).map (readRow s x.field))
    if (rows (2 * u) ++ rows (2 * u + 1)).all fun r => (rangeOf s x.field r).isSome then podFits (tile (2 * u)) (tile (2 * u + 1))
    else Config.podTest x.ctx.image x.ctx.bundle u

/-! ### Spec timing of transfers (R289, R290, R299, R309) -/

/-- Peak rate of a tier in bytes per ns: 0 T1, 1 T2, 2 and 3 the ports of T3. -/
def tierPeak (t : Nat) : Rat := if t = 0 then 2048 else if t = 1 then 12288 / 10 else 64

/-- The fraction for an extent size. -/
def tierPart (t size : Nat) : Rat :=
  let col := if 2048 ≤ size then 0 else if 1024 ≤ size then 1 else if 512 ≤ size then 2 else if 256 ≤ size then 3 else 4
  let row : List Nat := if t = 0 then [950, 700, 500, 300, 100] else if t = 1 then [950, 650, 450, 250, 80] else [875, 800, 700, 550, 250]
  (row.getD col 0 : Rat) / 1000

/-- First-data latency of a tier in ns. -/
def tierLatency (t : Nat) : Nat := if t = 0 then 300 else if t = 1 then 500 else 2000

/-- The aligned extents that cover a run of whole 64-byte blocks, largest first at each place. -/
def alignedCover : Nat → Nat → Nat → List Nat
  | 0, _, _ => []
  | n + 1, a, stop =>
    if stop ≤ a then [] else
    let z := ([1024, 512, 256].find? fun z => a % z == 0 && decide (a + z ≤ stop)).getD 64
    z :: alignedCover n (a + z) stop

/-- The time a run of bytes takes at a tier's whole spec rate, in ns: a run of at least 2,048 bytes at the rate of large extents, as the worked example of chapter 8 counts it, a shorter one by the aligned extents that cover it; a written block that is not whole takes twice a 64-byte extent's time. -/
def runTime (t : Nat) (write : Bool) (a n : Nat) : Rat :=
  let time := fun (bytes size : Nat) => (bytes : Rat) / (tierPeak t * tierPart t size)
  let head := if a % 64 = 0 then 0 else min n (64 - a % 64)
  let tail := (n - head) % 64
  let mid := n - head - tail
  let cut := if write then (if head = 0 then 0 else 2 * time 64 64) + (if tail = 0 then 0 else 2 * time 64 64) else 0
  let a' := if write then a + head else a / 64 * 64
  let n' := if write then mid else n
  let stop := if write then a + head + mid else ceilDiv (a + n) 64 * 64
  cut + (if n' = 0 then 0 else if 2048 ≤ n' then time n' 2048 else ((alignedCover 40 a' stop).map fun z => time z z).foldl (· + ·) 0)

/-- The tier an address of the tiers lies in: 0 T1, 1 T2, 2 and 3 the ports of T3. -/
def tierOf (a : Nat) : Option Nat :=
  match place a 1 with
  | .tier t _ => some t
  | .host p => some (2 + p)
  | _ => none

/-- A descriptor's runs on one side: rows that follow one another are one run. -/
def joinRuns (rows len stride : Nat) (first : Nat) : List (Nat × Nat) :=
  if stride = len then [(first, rows * len)] else (List.range rows).map fun r => (first + r * stride, len)

/-- A transfer as the verifier counts it: the tiers it takes with the time at their whole spec rate, the least time of its engine and of the banks, the latency; `never` where a tier gives it no credit; `no` its number among the descriptors kicked. -/
structure Xfer where
  tiers : List (Nat × Rat)
  least : Rat
  lat : Nat
  never : Bool
  no : Nat
  deriving DecidableEq, Repr

/-- Cycles of a descriptor at its engine's rate (R309, R312). -/
def engineCycles (c : Chain) (d : Desc) : Nat :=
  let src := d.length * d.rows
  let vals := descVals c d * d.rows
  match d.op with
  | 3 => ceilDiv vals 128
  | 4 | 5 | 9 => ceilDiv vals 256
  | 6 => ceilDiv (vals / 32) 8
  | 7 => ceilDiv (vals / 128) 2
  | 8 => ceilDiv (src / frcBytes (Ds.srcFmt d)) 2
  | _ => ceilDiv src 640

/-- Cycles that the banks' one slot in eight gives rows (R190, R193). -/
def bankCycles (rows : List (Nat × Nat)) : Nat :=
  8 * (((rows.map fun k => 32 * k.1 + k.2 % 32).eraseDups.map fun b => (rows.filter fun k => 32 * k.1 + k.2 % 32 == b).length).foldl max 0)

/-- Groups of the memory channels that runs of a tier touch: a channel's lock group, or none (R284, R298). -/
def lockGroups (s : State) (t : Nat) (runs : List (Nat × Nat)) : List (Option Nat) :=
  let chans := (runs.flatMap fun x => (List.range (min 128 (ceilDiv (x.1 % 256 + x.2) 256))).map fun k => channelOf (x.1 - tierBase t + 256 * k)).eraseDups
  (chans.map fun n => (List.range 8).find? fun g => bit (Tbl.get 0 (tier s t).lock g) n).eraseDups

/-- The maintenance window that R299 adds to a transfer: the longest of its members, where they are of several groups or some are of none. -/
def lockWindow (s : State) (sides : List (Nat × List (Nat × Nat))) : Nat :=
  let mem := sides.filter fun x => decide (x.1 < 2)
  let gs := (mem.flatMap fun x => lockGroups s x.1 x.2).eraseDups
  if gs.contains none || decide (1 < gs.length) then (mem.map fun x => if x.1 = 0 then 120 else 210).foldl max 0 else 0

/-- A descriptor as a transfer, at a partition's credits for T1 and T2. -/
def xferOf (s : State) (credits : Nat × Nat) (c : Chain) (d : Desc) (no : Nat) : Xfer :=
  let srcs := if Ds.isFill d || srcSp c d then [] else joinRuns d.rows d.length d.srcStride (srcAddr c d 0)
  let dsts := if Ds.remote d || dstSp c d then [] else joinRuns d.rows (bytesOut c d) d.dstStride (dstAddr c d 0)
  let side : Bool → List (Nat × Nat) → List (Nat × Nat × Rat × List (Nat × Nat)) := fun write runs => match runs.head?.bind fun x => tierOf x.1 with
    | some t =>
      let credit := if t = 0 then credits.1 else if t = 1 then credits.2 else 64
      [(t, credit, ((runs.map fun x => runTime t write x.1 x.2).foldl (· + ·) 0), runs)]
    | none => []
  let both := side false srcs ++ side true dsts
  { tiers := both.map fun x => (x.1, x.2.2.1 * 64 / (x.2.1 : Rat)),
    least := (max (engineCycles c d) (max (bankCycles (rowsOf (srcExtents c d))) (bankCycles (descRows c d))) : Nat) * 4 / 9,
    lat := ((side false srcs).map fun x => tierLatency x.1).foldl max 0 + lockWindow s (both.map fun x => (x.1, x.2.2.2)),
    never := both.any fun x => x.2.1 == 0, no := no }

/-! ### Chains in time (R304 to R307) -/

/-- A stream engine: its queued chains, the rest of the one it reads for, and how much of the first transfer is left. -/
structure Lane where
  queue : List (List Xfer)
  cur : List Xfer
  left : Rat
  deriving DecidableEq, Repr

/-- An idle engine begins its next chain (R306). -/
def Lane.begin (l : Lane) : Lane :=
  match l.cur, l.queue with
  | [], x :: xs => { l with queue := xs, cur := x, left := 1 }
  | _, _ => l

/-- How many engines take a tier at once (R290). -/
def takers (ls : List Lane) (t : Nat) : Nat := (ls.filter fun l => l.cur.head?.any fun x => x.tiers.any (·.1 == t)).length

/-- The time a whole transfer takes beside the others. -/
def Xfer.span (ls : List Lane) (x : Xfer) : Rat := (x.tiers.map fun y => y.2 * (takers ls y.1 : Rat)).foldl max x.least

/-- What an engine's transfer still takes. -/
def Lane.rest (ls : List Lane) (l : Lane) : Option Rat := (l.cur.head?.filter fun x => !x.never).map fun x => l.left * x.span ls

/-- An engine moves on for a time; at the end of a transfer it goes to the next. -/
def Lane.move (ls : List Lane) (m : Rat) (l : Lane) : Lane :=
  match l.cur, l.rest ls with
  | x :: xs, some r => if r ≤ m then { l with cur := xs, left := 1 } else { l with left := l.left - m / x.span ls }
  | _, _ => l

/-- Let the engines run, up to a time or until nothing moves; the transfers that issued their last read on the way, with the time. -/
def flow : Nat → Rat → Option Rat → List Lane → List (Nat × Rat) → List Lane × List (Nat × Rat)
  | 0, _, _, ls, done => (ls, done)
  | n + 1, now, stop, ls, done =>
    let ls := ls.map Lane.begin
    match (ls.filterMap (Lane.rest ls)).foldl (fun (m : Option Rat) r => some (m.elim r (min r))) none with
    | none => (ls, done)
    | some m =>
      match stop.filter fun t => decide (t < now + m) with
      | some t => (ls.map (Lane.move ls (t - now)), done)
      | none =>
        let ends := ls.filterMap fun l => if (l.rest ls).any (· ≤ m) then l.cur.head?.map Xfer.no else none
        flow n (now + m) stop (ls.map (Lane.move ls m)) (done ++ ends.map fun k => (k, now + m))

/-- A kicked descriptor: the number and cycle of its issue, its bundle, its chain and what it is. -/
structure Kicked where
  issue : Nat
  cycle : Nat
  off : Nat
  chain : Chain
  desc : Desc
  deriving DecidableEq, Repr

/-- The chain of a kick as the verifier sees it. -/
def kickOf (part : Nat) (i : List Byte) (p : Pos) (k : Nat) : Chain :=
  { table := imageDescs i, first := k, base := p.base, part := some part, background := false, image := i, seen := 0, poisoned := false, cmd := none }

/-- The kicks of a run in order: engine, and the descriptors of the chain. -/
def kicksOf (part : Nat) (i : List Byte) (counts : List Nat) : List (Nat × List Kicked) :=
  let t := imageDescs i
  ((runTrace i counts).mapIdx fun k x => (k, x)).flatMap fun x => (Gp.kicks (Img.word i x.2.1.pc)).map fun k =>
    (k.1, (slotKicks.descIdx t 4096 k.2).map fun d =>
      { issue := x.1, cycle := x.2.2, off := x.2.1.pc, chain := kickOf part i x.2.1 k.2, desc := t.getD d .nothing })

/-- Nanoseconds of a cycle at the nominal ACLK of 2.25 GHz (R272). -/
def nsAt (cycle : Nat) : Rat := (4 * cycle : Nat) / 9

/-- The transfers of a run: when each kicked descriptor has issued its last read, by number; and the bundles whose kick can find its queue full (R305). -/
def flowOf (s : State) (credits : Nat × Nat) (ks : List (Nat × List Kicked)) : List (Nat × Rat) × List Nat :=
  let fuel := (ks.map fun k => k.2.length).sum + 1
  let a := ks.foldl (fun (a : Nat × Rat × List Lane × List (Nat × Rat) × List Nat) k =>
    let t := nsAt ((k.2.head?.map Kicked.cycle).getD 0)
    let f := flow fuel a.2.1 (some t) a.2.2.1 a.2.2.2.1
    let ls := f.1.map Lane.begin
    let l := ls.getD k.1 { queue := [], cur := [], left := 1 }
    let xs := k.2.mapIdx fun j d => xferOf s credits d.chain d.desc (a.1 + j)
    (a.1 + k.2.length, max a.2.1 t, ls.set k.1 { l with queue := l.queue ++ [xs] }, f.2,
      if 64 ≤ l.queue.length then a.2.2.2.2 ++ (k.2.head?.map Kicked.off).toList else a.2.2.2.2))
    (0, 0, List.replicate 32 { queue := [], cur := [], left := 1 }, [], [])
  ((flow fuel a.2.1 none a.2.2.1 a.2.2.2.1).2, a.2.2.2.2)

/-! ### Streams ahead of the stream that reads them (R272, R389) -/

/-- What happens to a row: a stream-in arrives (its time, none where it never does, whether it overwrites, its issue), a unit writes it, or something reads it. -/
inductive RowEvent where
  | comes (time : Option Rat) (overwrite : Bool) (issue : Nat)
  | made
  | reads (consume checked : Bool) (issue : Nat) (whose : VFail)
  deriving DecidableEq, Repr

/-- The rows a part reads and writes in its field, each with its cycle and whether a read consumes or a write: a spool load begins 12 cycles after the row slot of the unit before it, a warm part's first with the last of the part before (R260; worked example of chapter 8). -/
def PartAt.rowTimes (s : State) (x : PartAt) : List (Nat × RowUse) :=
  let c := x.ctx
  let p := x.word
  let n := x.tokens
  let put := fun (t : Nat) (us : List RowUse) => us.map fun u => (t, u)
  match partKind p with
  | 1 =>
    let us := x.units s
    let lastAt := (us.getLast?.map fun u => u.2.1).getD x.start
    put x.start ((maskRows c p n ++ mapRows c p).map RowUse.keep) ++
      (us.mapIdx fun k u => if k = 0 ∧ Br.warm p then [] else put (if k = 0 then x.start else (us.getD (k - 1) (0, 0, 0)).2.1 + 12) (loadUses c p u.1 [])).flatten ++
      ((x.next.map fun w => put (lastAt + 12) (loadUses { c with base := w.2.1, bundle := w.2.2 } w.1 0 [])).getD []) ++
      us.flatMap fun u => (List.range n).flatMap fun t =>
        put (u.2.1 + t * u.2.2) (((unitTiles p u.1).1.map fun i =>
            RowUse.read (Br.aConsume p && decide (i + 1 = countOf c.counts (Br.tiles p)) && decide (u.1 % Br.planes p + 1 = Br.planes p)) (actRow c p t (tileSlice p i))) ++
          if x.chans s (u.1 / Br.planes p) = 0 then [] else (sproutValRows c p t (Img.laySprout c.image (Br.layer p))).map RowUse.keep).eraseDups
  | 2 => (List.range n).flatMap fun t => put (x.start + lastLine (Pl.accFmt p) t) ((preloadRows c p t).map RowUse.keep)
  | 4 => put x.start (((epVecRows c p).flatten ++ epSkipRows c p ++ epMapRows c p).map RowUse.keep) ++
      (List.range n).flatMap fun t => put (x.start + x.drainCycles * t) ((epResRows c p t).map RowUse.keep ++ epOutUses c p t)
  | 5 => put x.start (spliceUses c p)
  | 6 => (List.range n).flatMap fun t => if (rowTokens c p t).getLast? = some t then put (x.start + 2 * t) [RowUse.write false ((predRows c p).getD (t / 10) 0)] else []
  | _ => []

/-- The writes a row still has before it, oldest first: time, whether it overwrites, issue. -/
abbrev RowQueue := List (Option Rat × Bool × Nat)

/-- A row's next event: reads see the oldest write that has not been consumed, or a later one that overwrites it, and stream-ahead must be provable for it. -/
def rowStep (cycle : Nat) (q : RowQueue) : RowEvent → RowQueue × List VFail
  | .comes t o i => (q ++ [(t, o, i)], [])
  | .made => (q ++ [(some 0, false, 0)], [])
  | .reads consume checked issue whose =>
    let later := (q.drop 1).filter fun y => y.2.1 && decide (y.2.2 < issue)
    let q := if later.isEmpty then q else later.drop (later.length - 1)
    let ok := match q.head? with
      | none => true
      | some y => y.1.any fun t => decide (t ≤ nsAt cycle)
    (if consume then q.drop 1 else q, failUnless (ok || !checked) whose)

/-- The refusals for stream-ahead in a run, at credits for T1 and T2: a row that a stream-in writes and the instruction stream then reads, a queue that can be full, a KV slot whose placeholder breaks R389. -/
def aheadFails (s : State) (credits : Nat × Nat) (part : Nat) (i : List Byte) (counts : List Nat) : List VFail :=
  let ks := kicksOf part i counts
  let fl := flowOf s credits ks
  let all := ks.flatMap Prod.snd
  let xs := all.mapIdx fun n d => (d, xferOf s credits d.chain d.desc n)
  let key := fun (k : Nat × Nat) => 32768 * k.1 + k.2
  let ins : List (Nat × Nat × RowEvent) := (xs.map fun x =>
    let t := ((fl.1.find? fun y => y.1 == x.2.no).map fun y => y.2 + (x.2.lat : Rat))
    (descRows x.1.chain x.1.desc).map fun k => (2 * x.1.cycle, key k, RowEvent.comes t (Ds.overwrite x.1.desc) x.1.issue)).flatten
  let rows := (ins.map fun e => e.2.1).eraseDups
  if rows.isEmpty && fl.2.isEmpty then [] else
  let outs := all.flatMap fun d => if !Ds.consume d.desc then [] else
    (rowsOf (srcExtents d.chain d.desc)).map fun k => (2 * d.cycle, key k, RowEvent.reads true false d.issue (.whole d.off 0x0029))
  let uses := (partsAt part i counts).flatMap fun x => ((x.rowTimes s).filter fun u => !u.2.merge).map fun u =>
    (2 * u.1 + 1, key (x.field, u.2.row), if u.2.fill then .made else RowEvent.reads u.2.consume true x.issue (x.fail 0x0029))
  let evs := inOrder (fun e => e.1) ((ins ++ outs ++ uses).filter fun e => rows.contains e.2.1)
  let start : Tbl RowQueue := rows.foldl (fun t k =>
    if (rangeOf s (k / 32768) (k % 32768)).isSome && rowFull s (k / 32768) (k % 32768) then Tbl.set [] t k [(some 0, false, 0)] else t) []
  (evs.foldl (fun (a : Tbl RowQueue × List VFail) e =>
    let r := rowStep (e.1 / 2) (Tbl.get [] a.1 e.2.1) e.2.2
    (Tbl.set [] a.1 e.2.1 r.1, a.2 ++ r.2)) (start, [])).2 ++ fl.2.map fun o => VFail.whole o 0x0029

/-- A KV slot's placeholder lies in its pool's tier and within one region of a page (R386, R389). -/
def slotOk (p : Pool) (x : KvSlot) (c : Chain) (d : Desc) : Bool :=
  let a := if x.append then dstAddr c d 0 else srcAddr c d 0
  let n := if x.append then (d.rows - 1) * d.dstStride + bytesOut c d else (d.rows - 1) * d.srcStride + d.length
  let half := 64 * p.posBytes
  tierOf a == some p.tier && decide (a % p.payload / half = (a % p.payload + n - 1) / half) && decide (a % p.payload + n ≤ 2 * half)

/-- The refusals for KV slots of a partition's pools. -/
def slotFails (s : State) (part : Nat) (i : List Byte) (counts : List Nat) : List VFail :=
  let t := imageDescs i
  let slots := (s.kv.pools.filter fun q => (Tbl.get none s.mdl.bindings q.1).any fun b => b.part == part).flatMap fun q =>
    (q.2.map fun p => p.slots.map fun x => (p, x)).getD []
  (runTrace i counts).flatMap fun y => (Gp.kicks (Img.word i y.1.pc)).flatMap fun k =>
    (slotKicks.descIdx t 4096 k.2).flatMap fun n => slots.flatMap fun x =>
      failUnless (x.2.desc != n || slotOk x.1 x.2 (kickOf part i y.1 k.2) (t.getD n .nothing)) (.whole y.1.pc 0x0029)

/-! ### Reads of transient rows at the end (R225) -/

/-- A later issue waits for a virtual hitch. -/
def waitsLater (i : List Byte) (tr : List (Pos × Nat)) (issue hitch : Nat) : Bool :=
  (tr.drop (issue + 1)).any fun y => let g := Img.word i y.1.pc; Gp.seqOp g == 6 && bits (Gp.seqArg g) 0 12 == hitch

/-- The refusals for transient rows that a stream engine or a knot may still read when a run ends: the read is done by then at the spec rate, or the program waits for its hitch. Of a transfer to another chip, whose rate R289 does not give, the verifier knows by means of its own. -/
def readOutFails (s : State) (credits : Nat × Nat) (part : Nat) (i : List Byte) (counts : List Nat) : List VFail :=
  let tr := runTrace i counts
  let ks := kicksOf part i counts
  let fl := flowOf s credits ks
  let stop := nsAt (cycleCount s part i counts)
  let passing := fun (k : Nat × Nat) => (rangeOf s k.1 k.2).isNone
  (((ks.flatMap Prod.snd).mapIdx fun n d => (n, d)).flatMap fun x =>
    let d := x.2.desc
    let done := (fl.1.find? fun y => y.1 == x.1).any fun y => decide (y.2 ≤ stop)
    let waited := Ds.hitchEn d && !Ds.remote d && waitsLater i tr x.2.issue (d.hitch % 4096)
    failUnless (!(rowsOf (srcExtents x.2.chain d)).any passing || waited ||
      (done && (!Ds.remote d || Config.sendsDone i counts x.2.off))) (.whole x.2.off 0x0028)) ++
  (tr.mapIdx fun k y => (k, y)).flatMap fun y =>
    let g := Img.word i y.2.1.pc
    if Gp.seqOp g ≠ 9 then [] else
    let img := knotImage s (bits (Gp.seqArg g) 2 12)
    let reads := (List.range (Kn.ops img)).any fun k =>
      let o := Kn.opAt img k
      (Kn.op o == 1 || Kn.op o == 2 || Kn.op o == 3) && (rowsOf [(Kn.src o % 2 ^ 48, Kn.length o)]).any passing
    failUnless (!reads || (bit (Kn.doneHitch img) 15 && waitsLater i tr y.1 (Kn.doneHitch img % 4096))) (.whole y.2.1.pc 0x0028)

end Sys2Proof.Machine
end

