-- ==== Sys2Proof/Machine/Meets.lean ====
section
/-! DEFINITION. Where the data of a program comes from, as the load-time verifier follows it through rows, lines and tiers: generators (R183), predicted layers (R177), KV pages and splices (R392), saved records (R394), the checkpoint set and what a replay region writes (R168). Readings: log entry 12. -/
namespace Sys2Proof.Machine

/-- What data derives from: a rounding by a generator of a field in one of its windows, or the page of a KV slot's entry. -/
inductive Origin where
  | drawn (field gen window : Nat)
  | page (slot entry : Nat)
  deriving DecidableEq, Repr

namespace Origin

def isPage : Origin → Bool
  | .page _ _ => true
  | .drawn _ _ _ => false

/-- Two tensors were rounded by one generator of one field in one window. -/
def meet (xs ys : List Origin) : Bool := xs.any fun o => !o.isPage && ys.contains o

/-- Two partials hold one page. -/
def overlap (xs ys : List Origin) : Bool := xs.any fun o => o.isPage && ys.contains o

def pages (xs : List Origin) : List Origin := xs.filter isPage

end Origin

/-! ### Intervals of tier bytes -/

/-- What of an interval an interval leaves. -/
def minusOne (x y : Nat × Nat) : List (Nat × Nat) :=
  if !meets x.1 x.2 y.1 y.2 then [x] else
    (if x.1 < y.1 then [(x.1, y.1 - x.1)] else []) ++ if y.1 + y.2 < x.1 + x.2 then [(y.1 + y.2, x.1 + x.2 - (y.1 + y.2))] else []

/-- What of an interval a list of them leaves. -/
def minusAll (x : Nat × Nat) (ys : List (Nat × Nat)) : List (Nat × Nat) := ys.foldl (fun xs y => xs.flatMap fun z => minusOne z y) [x]

/-- The extents of a list that lie below the scratchpad, in a tier. -/
def tierExtents (xs : List (Nat × Nat)) : List (Nat × Nat) := xs.filter fun x => !inSp x.1

/-! ### The walk -/

/-- What a walk over the issues knows: origins by row (field × 32,768 + row), by line (field × 2,048 + line) and by tier bytes the program wrote, the window of each generator, the pages each KV slot has fetched with the bundle of the kick, the pages that came into a splice or were sent, the rows whose data the program made, those a PREDMASK part wrote, and the lines preloaded token by token with data it did not make. -/
structure Prov where
  rows : Tbl (List Origin)
  lines : Tbl (List Origin)
  tiers : List (Nat × Nat × List Origin)
  windows : Tbl Nat
  fetched : List (Origin × Nat)
  joined : List Origin
  made : List Nat
  masks : List Nat
  foreign : List Nat
  fails : List VFail
  deriving DecidableEq, Repr

def Prov.start : Prov :=
  { rows := [], lines := [], tiers := [], windows := [], fetched := [], joined := [], made := [], masks := [], foreign := [], fails := [] }

namespace Prov

def fail (w : Prov) (ok : Bool) (x : VFail) : Prov := if ok then w else { w with fails := w.fails ++ [x] }

/-- Origins of the data in rows of a field, and in lines. -/
def ofRows (w : Prov) (f : Nat) (rs : List Nat) : List Origin := (rs.flatMap fun r => Tbl.get [] w.rows (32768 * f + r)).eraseDups
def ofLines (w : Prov) (f : Nat) (ls : List Nat) : List Origin := (ls.flatMap fun l => Tbl.get [] w.lines (2048 * f + l)).eraseDups

/-- A row is written: with data of the program's own making or not, as a skip mask or not; a merge keeps what the row held. -/
def putRow (w : Prov) (key : Nat) (os : List Origin) (own mask keep : Bool) : Prov :=
  { w with rows := Tbl.set [] w.rows key (os ++ if keep then Tbl.get [] w.rows key else []).eraseDups,
           made := w.made.filter (· != key) ++ (if own then [key] else []),
           masks := w.masks.filter (· != key) ++ (if mask then [key] else []) }

/-- Lines take up data. -/
def addLines (w : Prov) (f : Nat) (ls : List Nat) (os : List Origin) (foreign : Bool) : Prov :=
  let keys := ls.map fun l => 2048 * f + l
  { w with lines := keys.foldl (fun t k => Tbl.set [] t k (Tbl.get [] t k ++ os).eraseDups) w.lines,
           foreign := if foreign then (w.foreign ++ keys).eraseDups else w.foreign }

/-- Lines are emptied. -/
def freeLines (w : Prov) (f : Nat) (ls : List Nat) : Prov :=
  let keys := ls.map fun l => 2048 * f + l
  { w with lines := keys.foldl (fun t k => Tbl.set [] t k []) w.lines, foreign := w.foreign.filter fun k => !keys.contains k }

/-- The lines of a set. -/
def setRange (fmt base n : Nat) : List Nat := (List.range (setLines fmt n)).map fun l => (base + l) % 2048

/-- One part in one field. -/
def part (x : PartAt) (w : Prov) : Prov :=
  let c := x.ctx
  let p := x.word
  let f := x.field
  let n := x.tokens
  let adds := (addSets p).flatMap fun k => setRange k.1 k.2.2 n
  let drains := (drainSets p).flatMap fun k => setRange k.1 k.2 n
  match partKind p with
  | 1 =>
    let us := braidUses c p
    let ws := w.ofRows f ((us.filter RowUse.spool).map RowUse.row)
    let as := w.ofRows f ((us.filter fun u => !u.spool).map RowUse.row)
    (w.fail (!Origin.meet as ws) (x.fail 0x0030)).addLines f adds (as ++ ws) false
  | 2 =>
    let rs := (preloadUses c p).map RowUse.row
    w.addLines f adds (w.ofRows f rs) (Pl.perToken p && !rs.all fun r => w.made.contains (32768 * f + r))
  | 3 => w.freeLines f ((List.range (Cl.count p)).map fun l => (Cl.firstLine p + l) % 2048)
  | 4 =>
    let gate := if Ep.gateEn p then w.ofLines f (setRange (Ep.srcFmt p) (Ep.gateLine p) n) else []
    let res := w.ofRows f ((List.range n).flatMap (epResRows c p))
    let own := if Ep.stoch p && isBlockFmt (Ep.outFmt p) then [Origin.drawn f (Ep.gen p) (Tbl.get 0 w.windows (64 * f + Ep.gen p))] else []
    let w := w.fail (!(Origin.meet gate res || Origin.meet gate own || Origin.meet res own)) (x.fail 0x0030)
    let w := w.fail (!((Ep.func p == 3 || Ep.func p == 4) && (epSkipRows c p).any fun r => w.masks.contains (32768 * f + r))) (x.fail 0x0007)
    let w := w.fail (!(Ep.func p == 3 && drains.any fun l => w.foreign.contains (2048 * f + l))) (x.fail VFail.unlisted)
    let os := own ++ Origin.pages (w.ofLines f drains ++ gate ++ res)
    let outs := ((List.range n).flatMap fun t => epOutUses c p t ++
      (List.range (ceilDiv (epSprout c p) 320)).map fun k => RowUse.write (decide (0 < Ep.band p)) (epSproutRow c p t k)).eraseDups
    (outs.foldl (fun w u => w.putRow (32768 * f + u.row) os true false u.merge) w).freeLines f drains
  | 5 =>
    let k := splRows (Sl.d p) (countOf c.counts (Sl.rows p))
    let here := fun i j => w.ofRows f [splIn c p i j]
    let parts := List.range (Sl.partials p)
    let pairs := parts.flatMap fun j => (List.range j).map fun i => (i, j)
    let all := fun i => w.ofRows f ((List.range k).map (splIn c p i))
    let w := w.fail (!pairs.any fun y => Origin.meet (all y.1) (all y.2)) (x.fail 0x0030)
    let w := w.fail (!pairs.any fun y => (List.range k).any fun j => Origin.overlap (here y.1 j) (here y.2 j)) (x.fail VFail.unlisted)
    let outs := (List.range k).map fun j => (splOutRow c p j, Origin.pages (parts.flatMap fun i => here i j))
    let w := { w with joined := (w.joined ++ Origin.pages (parts.flatMap all)).eraseDups }
    outs.foldl (fun w o => w.putRow (32768 * f + o.1) o.2 true false false) w
  | _ => ((predRows c p).foldl (fun w r => w.putRow (32768 * f + r) [] true true false) w).freeLines f drains

/-- One descriptor of a kick: what it writes derives from what it reads, and from the page it fetches where it is a KV slot's. -/
def desc (slot : Option Nat) (k : Kicked) (w : Prov) : Prov :=
  let c := k.chain
  let d := k.desc
  let src := srcExtents c d
  let tier := tierExtents src
  let keys := (rowsOf src).map fun r => 32768 * r.1 + r.2
  let page : List Origin := match slot with
    | some n => [.page n (w.fetched.filter fun y => match y.1 with | .page m _ => m == n | _ => false).length]
    | none => []
  let os := (keys.flatMap (fun r => Tbl.get [] w.rows r) ++ (w.tiers.filter fun y => tier.any fun x => meets x.1 x.2 y.1 y.2.1).flatMap fun y => y.2.2).eraseDups
  let os := (if d.op = 0 then os else Origin.pages os) ++ page
  let own := !Ds.isFill d && keys.all w.made.contains && tier.all fun x => (minusAll x (w.tiers.map fun y => (y.1, y.2.1))).isEmpty
  let w := { w with fetched := w.fetched ++ page.map fun o => (o, k.off) }
  if Ds.remote d then { w with joined := (w.joined ++ Origin.pages os).eraseDups } else
  let w := (descRows c d).foldl (fun w r => w.putRow (32768 * r.1 + r.2) os own false false) w
  let out := tierExtents (dstExtents c d)
  { w with tiers := (w.tiers.filter fun y => !(minusAll (y.1, y.2.1) out).isEmpty) ++ out.map fun x => (x.1, x.2, os) }

/-- A KNOT action: what its image sends is sent. -/
def knot (s : State) (g : Nat) (w : Prov) : Prov :=
  if Gp.seqOp g ≠ 9 then w else
  let img := knotImage s (bits (Gp.seqArg g) 2 12)
  let rows := (List.range (Kn.ops img)).flatMap fun k =>
    let o := Kn.opAt img k
    if Kn.op o = 1 then rowsOf [(Kn.src o % 2 ^ 48, Kn.length o)] else []
  { w with joined := (w.joined ++ Origin.pages (rows.flatMap fun r => w.ofRows r.1 [r.2])).eraseDups }

/-- A PHASE_ADV of the issue, after its parts have started (R182, R264). -/
def phase (g : Nat) (w : Prov) : Prov :=
  if Gp.seqOp g ≠ 5 then w else
    { w with windows := ((List.range 16).filter (bit (bits (Gp.seqArg g) 6 16))).foldl (fun t f =>
        Tbl.inc 64 t (64 * f + bits (Gp.seqArg g) 0 6) 1) w.windows }

end Prov

/-- The descriptors that are fetch slots of a partition's pools, numbered; and all its KV slots (R386). -/
def fetchSlots (s : State) (part : Nat) : List KvSlot × List (Nat × Nat) :=
  let xs := (s.kv.pools.filter fun q => (Tbl.get none s.mdl.bindings q.1).any fun b => b.part == part).flatMap fun q => (q.2.map Pool.slots).getD []
  (xs, ((xs.filter fun x => !x.append).mapIdx fun n x => (x.desc, n)))

/-- The descriptors that an issue kicks, with their indexes in the table. -/
def issueKicks (part : Nat) (i : List Byte) (p : Pos) : List (Nat × Chain × Desc) :=
  let t := imageDescs i
  (Gp.kicks (Img.word i p.pc)).flatMap fun k =>
    (slotKicks.descIdx t 4096 k.2).map fun x => (x, kickOf part i p k.2, t.getD x .nothing)

/-- The refusals that follow from where a run's data comes from. A page that a slot fetched and no splice took in, though it took in others of that slot, and that was not sent, is left out of the splice tree (R392). -/
def provFails (s : State) (part : Nat) (i : List Byte) (counts : List Nat) : List VFail :=
  let slots := (fetchSlots s part).2
  let ps := partsAt part i counts
  let w := ((runTrace i counts).mapIdx fun k x => (k, x)).foldl (fun (w : Prov) x =>
    let g := Img.word i x.2.1.pc
    let w := (ps.filter fun y => y.issue == x.1).foldl (fun w y => w.part y) w
    let w := (issueKicks part i x.2.1).foldl (fun (w : Prov) d =>
      w.desc ((slots.find? fun y => y.1 == d.1).map Prod.snd) { issue := x.1, cycle := x.2.2, off := x.2.1.pc, chain := d.2.1, desc := d.2.2 }) w
    (w.knot s g).phase g) Prov.start
  let slotOf := fun (o : Origin) => match o with
    | .page n _ => some n
    | .drawn _ _ _ => none
  let spliced := (w.joined.filterMap slotOf).eraseDups
  w.fails ++ (w.fetched.filter fun y => !w.joined.contains y.1 && (slotOf y.1).any spliced.contains).map fun y => VFail.whole y.2 VFail.unlisted

/-- Two narrowings of one field that name one generator in one cycle (R183). -/
def drawFails (s : State) (part : Nat) (i : List Byte) (counts : List Nat) : List VFail :=
  let ps := (partsAt part i counts).filter fun x => partKind x.word == 4 && Ep.stoch x.word && isBlockFmt (Ep.outFmt x.word)
  ps.flatMap fun x => failUnless (!ps.any fun y => y.field == x.field && Ep.gen y.word == Ep.gen x.word && decide (y.issue < x.issue ∨ (y.issue = x.issue ∧ y.word ≠ x.word)) &&
    decide (x.start < y.start + y.time s)) (x.fail 0x0030)

/-! ### The checkpoint set and the replay region (R167, R168) -/

/-- The bundles' offsets of a run's region, from the mark to the horizon, as issues. -/
def regionIssues (i : List Byte) (tr : List (Pos × Nat)) : List Pos :=
  let op := fun (x : Pos × Nat) => Gp.seqOp (Img.word i x.1.pc)
  match (tr.dropWhile fun x => op x != 1) with
  | [] => []
  | xs => match xs.findIdx? fun x => op x == 2 with
    | some n => (xs.take (n + 1)).map Prod.fst
    | none => []

/-- What a region may not do in a run: write a row of the checkpoint set, or write a tier byte it has read before writing it. The pages of KV slots are left out: their placeholders are no addresses. -/
def regionRunFails (s : State) (part : Nat) (i : List Byte) (counts : List Nat) : List VFail :=
  match regionIssues i (runTrace i counts) with
  | [] => []
  | q :: qs =>
    let set := checkpointRows part i counts q
    let kv := (fetchSlots s part).1.map KvSlot.desc
    ((q :: qs).flatMap fun p => failUnless (!(issueRows part i counts p).2.any set.contains) (.whole p.pc 0x0027)) ++
      ((q :: qs).foldl (fun (a : List (Nat × Nat) × List (Nat × Nat) × List VFail) p =>
        ((issueKicks part i p).filter fun d => !kv.contains d.1).foldl (fun a d =>
          let reads := a.1 ++ (tierExtents (srcExtents d.2.1 d.2.2)).flatMap fun x => minusAll x a.2.1
          let writes := if Ds.remote d.2.2 then [] else tierExtents (dstExtents d.2.1 d.2.2 ++ auxExtents d.2.1 d.2.2)
          (reads, a.2.1 ++ writes, a.2.2 ++ failUnless (!writes.any fun y => reads.any fun x => meets x.1 x.2 y.1 y.2) (.whole p.pc 0x0027))) a)
        ([], [], [])).2.2

end Sys2Proof.Machine
end

