-- ==== Sys2Proof/Machine/Verify.lean ====
section
/-! DEFINITION. The load-time verifier and the program commands (07_bundles_and_verifier.md, R237 to R240, R245 to R251, R254 to R279, R697; R341, R342). What it works out of a run stands in Sched and Meets; what it decides by means of its own is a constant of Config (log entry 12). -/
namespace Sys2Proof.Machine

/-! ### The header (R237, R697) and the bundles' form (R276) -/

/-- The declared formula block lies in the image. -/
def formulaOk (i : List Byte) : Bool :=
  Img.formOff i == 0 || (Img.formOff i % 32 == 0 && decide (Img.formOff i + 48 ≤ i.length - 96) &&
    decide (Img.formOff i + 48 + 16 * min 64 (leAt i (Img.formOff i + 32) 2) ≤ i.length - 96))

/-- The header meets R237. -/
def headerOk (i : List Byte) : Bool :=
  let n := i.length - 96
  decide (224 ≤ i.length) && Img.magic i == 0x50425856 && Img.version i == 2 && Img.flags i / 2 == 0 && Img.bundleBytes i % 32 == 0 &&
    Img.first i % 32 == 0 && decide (128 ≤ Img.first i) && decide (Img.first i + Img.bundleBytes i ≤ n) && decide (Img.descNum i ≤ 4096) &&
    decide (Img.descOff i + 64 * Img.descNum i ≤ n) && decide (Img.layNum i ≤ 256) && decide (Img.layOff i + 8 * Img.layNum i ≤ n) &&
    (List.range 8).all (fun v => decide (Img.cmin i v ≤ Img.cmax i v)) && formulaOk i

/-- Every bundle has at most 16 parts and ends within the bundle bytes. -/
def bundlesDecode (i : List Byte) : Option Nat :=
  (allBundles i).find? fun o => decide (16 < Gp.parts (Img.word i o)) || decide (Img.bundleBytes i < o + Gp.size (Img.word i o))

/-- Some bundle has end set. -/
def hasEnd (i : List Byte) : Bool := (allBundles i).any fun o => Gp.last (Img.word i o)

/-! ### Checks of one bundle (R245, R250, R251, R697) -/

/-- A count field breaks its form: a zero immediate, or reserved bits beside a variable. -/
def badCount (x : Nat) : Bool := if bit x 15 then bits x 3 12 != 0 else x % 2 ^ 15 == 0

/-- The bits of seq_arg that an action uses (R250). -/
def seqArgBits (op : Nat) : Nat :=
  match op with
  | 5 => 22
  | 6 => 12
  | 7 => 24
  | 8 => 10
  | 9 => 14
  | _ => 0

/-- The global part's reserved bits and counts. Without loop_begin the count of loop_trips is not used and may be zero; its reserved bits may not be set. -/
def globalFormOk (g : Nat) : Bool :=
  bits g 0 61 == 0 && decide (Gp.seqOp g ≤ 9) && decide (Gp.seqArg g < 2 ^ seqArgBits (Gp.seqOp g)) && !badCount (Gp.rep g) &&
    !(badCount (Gp.trips g) && (Gp.loopBegin g || bit (Gp.trips g) 15))

/-- Reserved bits, counts and plain ranges of a part (R247 to R249). -/
def partFormOk (p : Nat) : Bool :=
  match partKind p with
  | 1 => bits p 0 71 == 0 && decide (1 ≤ Br.mode p) && decide (Br.mode p ≤ 4) && decide (1 ≤ Br.aRpt p) && !badCount (Br.tiles p) && !badCount (Br.batch p)
  | 2 => bits p 0 157 == 0 && !badCount (Pl.batch p)
  | 3 => bits p 0 213 == 0 && decide (1 ≤ Cl.count p) && decide (Cl.count p ≤ 2048)
  | 4 => bits p 0 30 == 0 && !badCount (Ep.batch p)
  | 5 => bits p 0 148 == 0 && decide (bits p 230 6 ≠ 1) && !badCount (Sl.rows p)
  | 6 => bits p 0 158 == 0 && !badCount (Pm.batch p)
  | _ => false

/-- Accumulator formats, and formats of rows an operation may read or write (R47, R100, R143, R145). -/
def isAccFmt (f : Nat) : Bool := decide (8 ≤ f) && decide (f ≤ 11)
def isRowFmt (f : Nat) : Bool := isBlockFmt f || f == 6 || f == 7

/-- Format codes in their places. -/
def partFormatsOk (p : Nat) : Bool :=
  match partKind p with
  | 1 => isBlockFmt (Br.tblFmt p) && isAccFmt (Br.accFmt p) && (if Br.mode p = 4 then Br.planeFmt p == 3 || Br.planeFmt p == 4 else Br.planeFmt p == 0)
  | 2 => isRowFmt (Pl.srcFmt p) && isAccFmt (Pl.accFmt p)
  | 4 => isAccFmt (Ep.srcFmt p) && (isRowFmt (Ep.outFmt p) || Ep.outFmt p == 5) && (!Ep.resEn p || isRowFmt (Ep.resFmt p)) &&
      (!Ep.plane p || Ep.outFmt p == 3 || Ep.outFmt p == 4) && !(Ep.fixed p && Ep.fixedE p == 0)
  | 6 => isAccFmt (Pm.srcFmt p)
  | _ => true

/-- A part's tile count is even at every count. -/
def tilesEven (i : List Byte) (p : Nat) : Bool :=
  let t := Br.tiles p
  if bit t 15 then Img.cmin i (t % 8) == Img.cmax i (t % 8) && Img.cmin i (t % 8) % 2 == 0 else t % 2 == 0

/-- The layer-table entry a part uses. -/
def partLayer (p : Nat) : Option Nat :=
  if partKind p = 1 ∧ Br.sproutEn p then some (Br.layer p)
  else if partKind p = 4 ∧ (Ep.monEn p ∨ Ep.sproutOut p) then some (Ep.layer p) else none

/-- The refusals of one part by itself (R106, R110, R164). No part, descriptor or layer-table entry names per-block weight scales, so that case of R164 cannot be told (log entry 46). -/
def partFails (i : List Byte) (o p : Nat) : List VFail :=
  let f := fun ok d => failUnless ok (VFail.part o p d)
  if !partFormOk p then f false 0x0001 else
  f (partFormatsOk p) 0x0002 ++
    (if partKind p = 1 then
      f (!(Br.mode p == 4 && Br.maskEn p)) 0x0003 ++ f (!(Br.mode p == 3 && !Br.square p)) 0x0004 ++
        f (!(Br.sproutEn p && (Br.mode p == 3 || Br.mode p == 4))) 0x0006 ++ f (!(Br.mode p == 2) || tilesEven i p) 0x000A
    else if partKind p = 4 then
      f (decide (Ep.func p ≤ 7) && Ep.biasFmt p != 3) 0x0007
    else []) ++ f ((partLayer p).all fun l => decide (l < Img.layNum i)) 0x000B

/-- Two parts of one class with a field in common (R245). -/
def overlaps : List Nat → List Nat
  | [] => []
  | p :: ps => (ps.filter fun q => partClass p == partClass q && partMask p &&& partMask q != 0) ++ overlaps ps

/-- The refusals of a bundle by itself. -/
def bundleFails (i : List Byte) (o : Nat) : List VFail :=
  let g := Img.word i o
  let ps := bundleParts i o
  failUnless (globalFormOk g) (.whole o 0x0001) ++ ps.flatMap (partFails i o) ++ (overlaps ps).map (fun p => VFail.part o p 0x0008) ++
    failUnless ((Gp.kicks g).all fun k => decide (k.2 < Img.descNum i)) (.whole o 0x000B)

/-- Every chain of the descriptor table comes to a last bit within the table (R694, R697). -/
def chainsOk (i : List Byte) : Bool :=
  let t := imageDescs i
  (List.range t.length).all fun k =>
    let c := slotKicks.descIdx t (t.length + 1) k
    (c.getLast?.bind fun x => t[x]?).any Ds.last && decide (c.length ≤ t.length)

/-! ### Structure: loops, spans, mark and horizon (R256, R263, R266, R168) -/

/-- Walk the bundles with the stack of open loop levels: the first bundle that breaks R256. -/
def loopFault (i : List Byte) : List Nat → List Nat → Option Nat
  | [], [] => none
  | [], _ => some ((allBundles i).getLast?.getD 0)
  | o :: os, st =>
    let g := Img.word i o
    let st' := if Gp.loopBegin g then Gp.level g :: st else st
    if Gp.loopBegin g && st.any (fun l => decide (Gp.level g ≤ l)) then some o
    else if Gp.loopEnd g then
      (if st'.head? = some (Gp.level g) then loopFault i os (st'.drop 1) else some o)
    else loopFault i os st'

/-- Walk the bundles with the loops they lie in, innermost first, each by the bundle that begins it, and those of the open span (R266): a span ends in the loops it began in and leaves none of them on the way. -/
def spanFaults (i : List Byte) : List Nat → List Nat → Option (List Nat) → List VFail
  | [], _, none => []
  | [], _, some _ => [.whole ((allBundles i).getLast?.getD 0) 0x002F]
  | o :: os, d, sp =>
    let g := Img.word i o
    let op := Gp.seqOp g
    let d' := if Gp.loopBegin g then o :: d else d
    let sp' := if op = 3 then some d' else sp
    let bad := (op == 3 && sp.isSome) || (op == 4 && sp != some d') ||
      (sp'.isSome && (op == 1 || op == 2 || op == 6 || op == 8 || sp'.any (fun x => !x.isSuffixOf d') ||
        (bundleParts i o).any fun p => partKind p == 1 && (Br.wConsume p || Br.aConsume p)))
    failUnless (!bad) (.whole o 0x002F) ++ spanFaults i os (if Gp.loopEnd g then d'.drop 1 else d') (if op = 4 then none else sp')

/-- Walk the bundles with the loop depth: MARK and HORIZON where they may stand (R263). -/
def markFaults (i : List Byte) : List Nat → Nat → List VFail
  | [], _ => []
  | o :: os, d =>
    let g := Img.word i o
    let d' := d + b2n (Gp.loopBegin g)
    failUnless (!((Gp.seqOp g == 1 || Gp.seqOp g == 2) && (decide (0 < d') || Gp.rep g != 1))) (.whole o 0x0027) ++
      markFaults i os (d' - b2n (Gp.loopEnd g))

/-- The bundles from the mark to the horizon. -/
def regionOf (i : List Byte) : Option (List Nat) :=
  let bs := allBundles i
  match bs.find? fun o => Gp.seqOp (Img.word i o) == 1, bs.find? fun o => Gp.seqOp (Img.word i o) == 2 with
  | some m, some h => if m ≤ h then some (bs.filter fun o => decide (m ≤ o) && decide (o ≤ h)) else none
  | _, _ => none

/-- The layer records of the models a partition holds, in order of binding and layer. -/
def partLayers (s : State) (p : Nat) : List (List Byte) :=
  s.mdl.bindings.flatMap fun b => match b.2 with
    | some x => if x.part ≠ p then [] else
        let m := ((Tbl.get none s.mdl.images x.image).map Image.manifest).getD []
        (List.range (Mf.layers m)).map (Mf.layer m)
    | none => []

/-- A monitor layer of a partition has replay_en set, or a model it holds will set it at activation (R186, R342). -/
def mayReplay (s : State) (part l : Nat) : Bool :=
  (Tbl.opt .reset (npPart s part).cfg l).replayEn || (partLayers s part).any fun r => Ly.monitor r == l && Ly.replayEn r

/-- One mark and one horizon at most, in this order; the layers that may be replayed narrow between them; and what the region may not hold (R167, R168). -/
def regionFaults (s : State) (part : Nat) (i : List Byte) : List VFail :=
  let bs := allBundles i
  let op := fun o => Gp.seqOp (Img.word i o)
  let marks := bs.filter fun o => op o == 1
  let ends := bs.filter fun o => op o == 2
  let layers := fun o => (bundleParts i o).filter fun p => partKind p == 4 && Ep.monEn p && isBlockFmt (Ep.outFmt p) &&
    mayReplay s part (Img.layMon i (Ep.layer p))
  let replays := bs.filter fun o => !(layers o).isEmpty
  let t := imageDescs i
  let sends := fun o => (Gp.kicks (Img.word i o)).any fun k => (slotKicks.descIdx t 4096 k.2).any fun x =>
    let d := t.getD x .nothing
    Ds.remote d || Ds.hitchEn d || decide (0x400000000000 ≤ d.dst % 2 ^ 48) || decide (0x400000000000 ≤ d.aux % 2 ^ 48)
  ((marks.drop 1 ++ ends.drop 1).map fun o => VFail.whole o 0x0027) ++
  match regionOf i with
  | none => (replays.take 1 ++ if marks.isEmpty then [] else ends.take 1).map fun o => VFail.whole o 0x0027
  | some rs =>
    ((replays.filter fun o => !rs.contains o).map fun o => VFail.whole o 0x0027) ++
      (rs.filter fun o => op o == 7 || op o == 8 || op o == 9 || sends o).map fun o => VFail.whole o 0x0027

/-! ### Checks over every count (R246, R252 to R261, R271) -/

/-- The row spans a part names, before the row number wraps: first row, rows (R246). -/
def rowSpans (c : PartCtx) (p : Nat) : List (Nat × Nat) :=
  let at_ := fun reg off => c.base.getD reg 0 + off
  let n := countOf c.counts
  let map := fun l => (at_ (Img.layReg c.image l % 16) (Img.layRow c.image l), ceilDiv (Img.laySprout c.image l) 320)
  match partKind p with
  | 1 =>
    let t := n (Br.tiles p)
    let b := n (Br.batch p)
    if t = 0 ∨ b = 0 then [] else
    [(at_ (Br.wReg p) (Br.wOff p), if Br.mode p = 3 then 99 * ceilDiv t 3 else t * Br.planes p * Br.tileRows p),
     (at_ (Br.aReg p) (Br.aOff p), if mapRows c p = [] then (b - 1) * Br.aRpt p + tileSlice p (t - 1) / max 1 (slicesPerRow (Br.tblFmt p)) + 1
        else b * (Br.aRpt p + (mapRows c p).length))] ++
      (if Br.predEn p then [(at_ (Br.skipReg p) (Br.skipOff p), ceilDiv b 10)] else []) ++ (if Br.sproutEn p then [map (Br.layer p)] else [])
  | 2 =>
    let b := n (Pl.batch p)
    if b = 0 then [] else
    let per := perRow (Pl.srcFmt p)
    [(at_ (Pl.srcReg p) (Pl.srcOff p) + 512 * Pl.band p / per,
      (if Pl.perToken p then (b - 1) * Pl.srcRpt p else 0) + (ceilDiv (512 * Pl.band p + 512) per - 512 * Pl.band p / per))]
  | 4 =>
    let b := n (Ep.batch p)
    if b = 0 then [] else
    let nb := (if Ep.biasFmt p = 0 then 0 else if Ep.biasFmt p = 1 then 2 else 4) * (1 + b2n (Ep.gateEn p))
    let np := if Ep.outFmt p = 4 then 6 else 3
    let out := if Ep.plane p then
        (((b - 1) / 512 * Ep.outRpt p + (epHi p - 1) / 160) * np + np - 1) * 32 + min 511 (b - 1) / 16 + 1
      else if epSprout c p = 0 then (b - 1) * Ep.outRpt p + ceilDiv (epHi p) (epPer p) else b * (Ep.outRpt p + ceilDiv (epSprout c p) 320)
    [(at_ (Ep.vecReg p) (Ep.vecOff p), if Ep.oscaleEn p then 6 else if Ep.gateEn p then 4 else 2),
     (at_ (Ep.vecReg p) (Ep.biasOff p), nb), (at_ (Ep.outReg p) (Ep.outOff p), out)] ++
      (if Ep.resEn p then [(at_ (Ep.resReg p) (Ep.resOff p), (b - 1) * Ep.outRpt p + ceilDiv (epHi p) (perRow (Ep.resFmt p)))] else []) ++
      (if Ep.skipEn p then [(at_ (Ep.skipReg p) (Ep.skipOff p), ceilDiv b 10)] else []) ++ (if Ep.sproutOut p then [map (Ep.layer p)] else [])
  | 5 =>
    let r := n (Sl.rows p)
    if r = 0 then [] else
    [(at_ (Sl.inReg p) (Sl.inOff p), (Sl.partials p - 1) * Sl.inStride p + splRows (Sl.d p) r), (at_ (Sl.outReg p) (Sl.outOff p), splRows (Sl.d p) r)]
  | 6 => if n (Pm.batch p) = 0 then [] else [(at_ (Pm.outReg p) (Pm.outOff p), ceilDiv (n (Pm.batch p)) 10)]
  | _ => []

/-- What is wrong with a row that a program of a partition names (R211, R221, R231). A group without power is powered up for the load (R228), unless firmware does not manage its power. -/
def rowFault (s : State) (part f r : Nat) (changes : Bool) : Option Nat :=
  if inCacheBank s r || (!powered s f r && !(fld s f).autoPwr) then some 0x0015
  else if (fld s f).retired.contains r then some 0x0013
  else if suppressed s part f r changes then some 0x0040
  else none

/-- A row of a sprout map is not resident (R699). -/
def mapFault (s : State) (f r : Nat) : Option Nat := if (rangeOf s f r).isNone then some 0x0040 else none

/-- Refusals for the rows a part names in its field (R211, R221, R231, R246, R699). -/
def PartAt.rowFails (s : State) (x : PartAt) : List VFail :=
  let c := x.ctx
  failUnless ((rowSpans c x.word).all fun y => decide (y.1 + y.2 ≤ 32768)) (x.fail 0x0015) ++
    ((partUses c x.word).filterMap fun u => (rowFault s c.part x.field u.row (u.fill || u.consume)).map x.fail) ++
    (((if partKind x.word = 1 then mapRows c x.word else if partKind x.word = 4 then epMapRows c x.word else []).filterMap (mapFault s x.field)).map x.fail)

/-- Refusals for the rows the kicks of an issue name (R211, R221, R231, R699). -/
def kickFails (s : State) (part : Nat) (i : List Byte) (p : Pos) : List VFail :=
  ((kickUses part i p).filterMap fun u => (rowFault s part u.1 u.2.row (u.2.fill || u.2.consume)).map fun e => VFail.whole p.pc e) ++
    (issueKicks part i p).flatMap fun d => ((descMapRows d.2.1 d.2.2).filterMap (mapFault s 0)).map fun e => VFail.whole p.pc e

/-- What a walk over a run's parts keeps by field: the cycle each unit class is busy to, the bands drained of each output vector since it was begun, whether a BRAID part has run. -/
structure VWalk where
  busy : Tbl Nat
  bands : Tbl (List Nat)
  braided : List Nat
  fails : List VFail
  deriving DecidableEq, Repr

def VWalk.start : VWalk := { busy := [], bands := [], braided := [], fails := [] }

def VWalk.fail (w : VWalk) (ok : Bool) (x : VFail) : VWalk := if ok then w else { w with fails := w.fails ++ [x] }

/-- The bands of an output vector must come in ascending order (R151): a band that is not above the last one begins the next vector in the same rows, and must be the band that the last vector began with (log entry 12). -/
def bandNext (h : List Nat) (b : Nat) : Option (List Nat) :=
  match h.getLast? with
  | none => some [b]
  | some l => if l < b then some (h ++ [b]) else if h.head? = some b then some [b] else none

/-- One part in its field (R151, R259, R260). -/
def VWalk.part (s : State) (w : VWalk) (x : PartAt) : VWalk :=
  let p := x.word
  let k := 2 * x.field + partClass p
  let w := w.fail (decide (Tbl.get 0 w.busy k ≤ x.start)) (x.fail 0x0020)
  let w := { w with busy := Tbl.set 0 w.busy k (max (Tbl.get 0 w.busy k) (x.start + x.time s)) }
  match partKind p with
  | 1 =>
    let w := w.fail (!Br.warm p || w.braided.contains x.field) (x.fail 0x002D)
    { w with braided := if w.braided.contains x.field then w.braided else w.braided ++ [x.field] }
  | 4 =>
    let o := 32768 * x.field + rowOf x.ctx.base (Ep.outReg p) (Ep.outOff p)
    let h := bandNext (Tbl.get [] w.bands o) (Ep.band p)
    { w.fail h.isSome (x.fail 0x0026) with bands := Tbl.set [] w.bands o (h.getD [Ep.band p]) }
  | _ => w

/-- The credits of a partition for T1 and T2. -/
def creditsOf (s : State) (part : Nat) : Nat × Nat := (min 64 (Tbl.get 64 s.t1.credit part), min 64 (Tbl.get 64 s.t2.credit part))

/-- A sprout map as a field holds it is too large: more than 64 channels in a K segment of 4,096 (R159). -/
def mapTooLarge (s : State) (f : Nat) (rows : List Nat) (n : Nat) : Bool :=
  let ch := sproutMap (rows.map (readRow s f)) n
  (List.range 16).any fun k => decide (64 < (ch.filter fun x => x / 4096 == k).length)

/-- Refusals for the sprout maps that an issue uses: by BRAID and EPILOGUE parts in their fields, by a NARROW in field 0; the layer's padded K is taken from what the part or the NARROW works on (R159). -/
def PartAt.mapFails (s : State) (x : PartAt) : List VFail :=
  let c := x.ctx
  let p := x.word
  let n := fun l => Img.laySprout c.image l
  failUnless (!(match partKind p with
    | 1 => mapRows c p != [] && (decide (65536 < 160 * (Br.slice0 p + countOf c.counts (Br.tiles p))) || mapTooLarge s x.field (mapRows c p) (n (Br.layer p)))
    | 4 => epSprout c p != 0 && (decide (65536 < epHi p) || mapTooLarge s x.field (epMapRows c p) (n (Ep.layer p)))
    | _ => false)) (x.fail 0x0014)

def kickMapFails (s : State) (part : Nat) (i : List Byte) (p : Pos) : List VFail :=
  (issueKicks part i p).flatMap fun d =>
    failUnless (!(descMapRows d.2.1 d.2.2 != [] && (decide (65536 < descVals d.2.1 d.2.2) ||
      mapTooLarge s 0 (descMapRows d.2.1 d.2.2) (descChans d.2.1 d.2.2)))) (.whole p.pc 0x0014)

/-- The refusals for advances and fetches at some counts (R254, R261). -/
def fetchFails (i : List Byte) (counts : List Nat) : List VFail :=
  (allBundles i).flatMap fun o =>
    let g := Img.word i o
    let next := (if Img.bundleBytes i ≤ o + Gp.size g ∨ Gp.last g then [] else [o + Gp.size g]) ++ (if Gp.loopEnd g then (loopBeginOf i o).toList else [])
    failUnless (decide (advance counts g ≠ 0)) (.whole o 0x002E) ++
      failUnless (next.all fun x => decide (ceilDiv (Gp.size (Img.word i x)) 64 ≤ advance counts g)) (.whole o 0x002B)

/-- The refusals that one vector of counts shows (R271): the issues one by one, then the run in time, then where its data comes from. -/
def runFails (s : State) (part : Nat) (i : List Byte) (counts : List Nat) : List VFail :=
  let ps := partsAt part i counts
  let credits := creditsOf s part
  (ps.foldl (VWalk.part s) VWalk.start).fails ++ fetchFails i counts ++
    (ps.flatMap fun x => x.rowFails s ++ x.mapFails s ++ failUnless (x.slotsOk s) (x.fail 0x0021) ++ failUnless (x.podOk s) (x.fail 0x0022)) ++
    ((runTrace i counts).flatMap fun x => kickFails s part i x.1 ++ kickMapFails s part i x.1) ++
    lineFails s part i counts ++ aheadFails s credits part i counts ++ slotFails s part i counts ++ readOutFails s credits part i counts ++
    provFails s part i counts ++ drawFails s part i counts ++ regionRunFails s part i counts

/-! ### The cost formula (R273, R274) -/

namespace Formula

/-- A term at given counts; a coefficient is a signed number of 64 bits, which the spec does not say (DESIGN CHOICE, log entry 12). -/
def term (m : List Nat) (x : Nat × Nat × Nat) : Int :=
  toSigned 64 x.1 * (if x.2.1 = 0xFF then 1 else m.getD x.2.1 0 : Nat) * (if x.2.2 = 0xFF then 1 else m.getD x.2.2 0 : Nat)

/-- C(n) (R273). -/
def eval (f : Formula) (n : List Nat) : Nat :=
  let m := (List.range 8).map fun i => max (n.getD i 0) (f.knees.getD i 0)
  (((f.terms.map (term m)).sum + 255) / 256).toNat

/-- Terms within the form: at most 64, each once, a ≤ b, coefficients of 64 bits. -/
def formed (f : Formula) : Bool :=
  decide (f.terms.length ≤ 64) && f.knees.length == 8 && f.knees.all (fun q => decide (q < 2 ^ 32)) && decide (f.terms.map Prod.snd).Nodup &&
    f.terms.all fun t => decide (t.1 < 2 ^ 64) && (decide (t.2.1 < 8) || t.2.1 == 0xFF) && (decide (t.2.2 < 8) || t.2.2 == 0xFF) && decide (t.2.1 ≤ t.2.2)

end Formula

/-- A count field names a variable. -/
def namesVar (v x : Nat) : Bool := bit x 15 && x % 8 == v

/-- The count fields of a part (R247 to R249). -/
def partCounts (p : Nat) : List Nat :=
  match partKind p with
  | 1 => [Br.batch p, Br.tiles p]
  | 2 => [Pl.batch p]
  | 4 => [Ep.batch p]
  | 5 => [Sl.rows p]
  | 6 => [Pm.batch p]
  | _ => []

/-- The count variables a program names. -/
def usedVars (i : List Byte) : List Nat :=
  (List.range 8).filter fun v => (allBundles i).any fun o =>
    let g := Img.word i o
    (Gp.advVarEn g && Gp.advVar g == v) || namesVar v (Gp.rep g) || namesVar v (Gp.trips g) ||
      (bundleParts i o).any fun p => (partCounts p).any (namesVar v)

/-- The count from which on every advance that follows a variable has left its floor (R252, R273). -/
def advanceKnee (i : List Byte) (v : Nat) : Nat :=
  ((allBundles i).map fun o =>
    let g := Img.word i o
    if Gp.advVarEn g && Gp.advVar g == v && decide (0 < Gp.advMult g) then ceilDiv (Gp.advFloor g - Gp.advBase g) (Gp.advMult g) else 0).foldl max 0

/-- The batch from which on no tile of a variable's operations is bound by its load (R124, R163, R273). -/
def tileKnee (s : State) (part : Nat) (i : List Byte) (v : Nat) : Nat :=
  ((countVectors i).flatMap fun counts => ((partsAt part i counts).filter fun x => partKind x.word == 1 && namesVar v (Br.batch x.word)).flatMap fun x =>
    (List.range (braidUnits counts x.word)).map fun k =>
      let w := rowOf x.ctx.base (Br.wReg x.word) (Br.wOff x.word)
      let next := if k + 1 < braidUnits counts x.word then loadTime w x.word (k + 1) else (warmTime x.next).getD (loadTime w x.word k)
      ceilDiv next (tokenCycles x.word (x.chans s k) * Br.planes x.word)).foldl max 0

/-- The knees (R273): for each variable that is named, the least count from which on every max() that depends on it has left its other side. -/
def kneesOf (s : State) (part : Nat) (i : List Byte) : List Nat :=
  (List.range 8).map fun v => if (usedVars i).contains v then max (advanceKnee i v) (tileKnee s part i v) else 0

/-- The terms that agree with a cost at the knees and next to them, in 1/256 cycle; none where a coefficient does not fit in 64 bits (R273). -/
def fitFormula (cost : List Nat → Nat) (vars knees : List Nat) : Option Formula :=
  let up := fun (n : List Nat) (v : Nat) => n.mapIdx fun k x => if k = v then x + 1 else x
  let f := fun n => (256 * cost n : Int)
  let q := fun v => (knees.getD v 0 : Int)
  let z := f knees
  let ds := vars.map fun v => (v, f (up knees v) - z)
  let d := fun v => ((ds.find? fun x => x.1 == v).map Prod.snd).getD 0
  let ps := vars.flatMap fun a => (vars.filter fun b => decide (a ≤ b)).map fun b =>
    let h := f (up (up knees a) b) - z - d a - d b
    ((a, b), if a = b then h / 2 else h)
  let lin := vars.map fun v => (v, d v - (ps.map fun x =>
    if x.1.1 = v ∧ x.1.2 = v then x.2 * (2 * q v + 1)
    else if x.1.1 = v then x.2 * q x.1.2 else if x.1.2 = v then x.2 * q x.1.1 else 0).sum)
  let k0 := z - (lin.map fun x => x.2 * q x.1).sum - (ps.map fun x => x.2 * q x.1.1 * q x.1.2).sum
  let ones : List (Int × Nat × Nat) := lin.map fun x => (x.2, x.1, 0xFF)
  let twos : List (Int × Nat × Nat) := ps.map fun x => (x.2, x.1.1, x.1.2)
  let every : List (Int × Nat × Nat) := [(k0, 0xFF, 0xFF)] ++ ones ++ twos
  let all := every.filter fun x => x.1 != 0
  if all.all fun x => decide (-(2 ^ 63) ≤ x.1) && decide (x.1 < 2 ^ 63) then
    some { knees := knees, terms := all.map fun x => (ofSigned 64 x.1, x.2.1, x.2.2), exact := true } else none

/-- The formula bounds the cost at every vector of counts. -/
def Formula.bounds (f : Formula) (costs : List (List Nat × Nat)) : Bool := f.formed && costs.all fun n => decide (n.2 ≤ f.eval n.1)

/-- The formula is the cost wherever every count has reached its knee. -/
def Formula.isExact (f : Formula) (costs : List (List Nat × Nat)) : Bool :=
  costs.all fun n => !((List.range 8).all fun v => decide (f.knees.getD v 0 ≤ n.1.getD v 0)) || f.eval n.1 == n.2

/-- The verifier's formula (R273): exact above its knees where the cost fits the form and no SPLICE has a variable R;
else its own choice where that is an upper bound for every count, or the constant that is one (log entry 12). -/
def proveFormula (s : State) (part : Nat) (i : List Byte) : Formula :=
  let costs := (countVectors i).map fun n => (n, cycleCount s part i n)
  let splices := (allParts i).any fun p => partKind p == 5 && bit (Sl.rows p) 15
  match if splices then none else (fitFormula (cycleCount s part i) (usedVars i) (kneesOf s part i)).filter fun f => f.bounds costs && f.isExact costs with
  | some f => f
  | none =>
    let c := Config.verifierFormula i
    let f : Formula := { knees := c.1, terms := c.2, exact := false }
    if f.bounds costs then f else
      { knees := List.replicate 8 0, terms := [(256 * (costs.map Prod.snd).foldl max 0, 0xFF, 0xFF)], exact := false }

/-- The formula an image declares (R237, R276). -/
def declaredFormula (i : List Byte) : Option Formula :=
  let o := Img.formOff i
  let n := leAt i (o + 32) 2
  if o = 0 ∨ 64 < n then none else
  some { knees := (List.range 8).map fun v => leAt i (o + 4 * v) 4,
         terms := (List.range n).map fun k => (leAt i (o + 48 + 16 * k) 8, leAt i (o + 56 + 16 * k) 1, leAt i (o + 57 + 16 * k) 1), exact := false }

/-- The one-segment budget of a 1 s step (R274). -/
def costLimit : Nat := 2238794368

/-- Budgets of a partition's segments in a table: up to the first invalid entry (R45). -/
def segBudgets (segs : List SegEntry) (p : Nat) : List Nat :=
  ((segs.takeWhile (·.valid)).filter (·.partition == p)).map SegEntry.budget

/-- Budgets of a partition's segments in the configuration in force. -/
def budgetsOf (s : State) (p : Nat) : List Nat := segBudgets ((s.step.active.map StepCfg.segs).getD []) p

/-! ### Verification (R271) -/

/-- Every refusal of a program image by its bundles, at every vector of counts where its loops are sound (R271, R275). A predicted layer of R123 is a layer field of a BRAID part with pred_en, which the spec does not say (DESIGN CHOICE, log entry 12). -/
def imageFails (s : State) (part : Nat) (i : List Byte) : List VFail :=
  let bs := allBundles i
  if !headerOk i then [.whole 0 0x0009]
  else match bundlesDecode i with
  | some o => [.whole o 0x0001]
  | none =>
    if !chainsOk i then [.whole 0 0x000B] else
    let loop := match loopFault i bs [] with
      | some o => [VFail.whole o 0x002C]
      | none => failUnless (hasEnd i) (.whole (bs.getLast?.getD 0) 0x002C)
    let pred := (((allParts i).filter fun p => partKind p == 1 && Br.predEn p).map Br.layer).eraseDups
    bs.flatMap (bundleFails i) ++ loop ++ spanFaults i bs [] none ++ markFaults i bs 0 ++ regionFaults s part i ++
      failUnless (decide (pred.length ≤ 16)) (.whole ((bs.find? fun o => (bundleParts i o).any fun p => partKind p == 1 && Br.predEn p).getD 0) 0x0023) ++
      if loop.isEmpty then (countVectors i).flatMap (runFails s part i) else []

/-- The refusal of the image as a whole by its cost (R274). -/
def wholeFails (i : List Byte) (f : Formula) : List VFail :=
  failUnless (decide (f.eval (Img.minimums i) ≤ costLimit)) (.whole 0 0x002A)

/-- What verification of a verified load finds. -/
def verifyImage (s : State) (part : Nat) (i : List Byte) : Option VFail × Formula :=
  match VFail.first (imageFails s part i) with
  | some x => (some x, { knees := List.replicate 8 0, terms := [], exact := false })
  | none =>
    let f := proveFormula s part i
    (VFail.first (wholeFails i f), f)

/-- What the checks of an unverified load find (R276): a status and detail beside a refusal, or the declared formula. -/
def checkUnverified (i : List Byte) : Option VFail × Option Formula :=
  if !headerOk i then (some (.whole 0 0x0009), none)
  else match bundlesDecode i with
  | some o => (some (.whole o 0x0001), none)
  | none => if !hasEnd i then (some (.whole 0 0x002C), none) else (none, declaredFormula i)

/-! ### Reports (R279) -/

/-- Cycle of the first issue of a bundle at the minimums; not defined for refusals of the whole image or of its loops. -/
def firstCycle (i : List Byte) (x : VFail) : Nat :=
  if [0x0009, 0x002C, 0x0011, 0x002A].contains x.detail || !headerOk i ||
      (x.detail == 0x000B && !chainsOk i) || (loopFault i (allBundles i) []).isSome then 0xFFFFFFFF
  else (((runTrace i (Img.minimums i)).find? fun y => y.1.pc == x.off).map fun y => min y.2 0xFFFFFFFF).getD 0xFFFFFFFF

/-- The 4 KiB verification report: status, what was refused, the formula. -/
def reportBytes (i : List Byte) (st : Nat) (x : Option VFail) (f : Formula) : List Byte :=
  let head := [BitVec.ofNat 8 st, 0] ++ match x with
    | none => leBytes 2 0 ++ leBytes 4 0 ++ leBytes 2 0 ++ [0, 0] ++ leBytes 4 0xFFFFFFFF
    | some x => leBytes 2 x.shown ++ leBytes 4 x.off ++ leBytes 2 x.mask ++ [BitVec.ofNat 8 x.kind, 0] ++ leBytes 4 (firstCycle i x)
  padTo 4096 (padTo 128 (head ++ leBytes 8 (f.eval (Img.minimums i)) ++ leBytes 8 (f.eval (Img.maximums i)) ++ (List.range 8).flatMap (fun v => leBytes 4 (f.knees.getD v 0)) ++
      leBytes 2 f.terms.length ++ [BitVec.ofNat 8 (b2n f.exact)]) ++
    f.terms.flatMap fun t => leBytes 8 t.1 ++ [BitVec.ofNat 8 t.2.1, BitVec.ofNat 8 t.2.2] ++ List.replicate 6 0)

/-! ### The bundle store (R239) -/

/-- Bundle bytes of the store. -/
def storeBytes : Nat := 8388608

/-- The bytes an image's bundles take in the store, in whole 32-byte units (log entry 32). -/
def storeNeed (i : List Byte) : Nat := 32 * ceilDiv (Img.bundleBytes i) 32

/-- The extents in use: base and length. -/
def storeExtents (s : State) : List (Nat × Nat) := s.prog.progs.filterMap fun p => p.2.map fun g => (g.base, storeNeed g.image)

/-- The lowest free extent of a length (log entry 10). -/
def freeExtent (s : State) (len : Nat) : Option Nat :=
  let xs := storeExtents s
  ((0 :: xs.map fun x => x.1 + x.2).filter fun b => decide (b + len ≤ storeBytes) && xs.all fun x => decide (b + len ≤ x.1) || decide (x.1 + x.2 ≤ b)).min?

/-- A loaded and verified program of the issuing function's partition: the status that refuses the handle, or the program. -/
def progOf (s : State) (c : Cmd) (h : Nat) : Nat ⊕ Prog :=
  match Tbl.get none s.prog.progs h with
  | none => .inl stBadCommand
  | some g => if c.part ≠ some g.part then .inl stNotPermitted else if !g.verified then .inl stBadCommand else .inr g

/-! ### PROG_LOAD and VERIFICATION_COMPLETE (R238, R239, R276, R277) -/

def progLoad (c : Cmd) (s : State) : State × Ans :=
  let len := pNum c 8 4
  let part := cmdPart c
  let unv := pBit c 12 0
  let rep := pNum c 16 8
  if len = 0 then refuse stBadCommand s
  else if !hostOk s c rep 4096 then refuse stNotPermitted s
  else withHost c (pNum c 0 8) len s fun i =>
    if unv && !(s.isl.lc == 3 && vendorToken s) then (s, .done stNotPermitted 0x0041 [])
    else if len < 96 ∨ !imageSigned s (Img.signed i) (Img.signature i) then (s, .done stBadSignature 0x0050 [])
    else
      let all := s.prog.progs.filter fun p => p.2.isSome
      let mine := all.filter fun p => p.2.any fun g => g.part == part
      match (if 64 ≤ all.length ∨ 8 ≤ mine.length then none else freeExtent s (storeNeed i)), Tbl.free s.prog.progs 64 with
      | some b, some h =>
        later (modProg (fun x => { x with progs := Tbl.set none x.progs h (some
          { part := part, base := b, image := i, unverified := unv, verified := false,
            formula := { knees := List.replicate 8 0, terms := [], exact := false }, report := [], hostCounts := Img.minimums i, cmd := some c }) }) s)
      | _, _ =>
        let x := VFail.whole 0 0x0011
        (writeHost c.m.func rep (reportBytes i x.status (some x) { knees := List.replicate 8 0, terms := [], exact := false }) false s, .done x.status x.detail [])

def progLoadSpec : CmdSpec := { op := 0x0401, allow := [(0, 11, 0xFF), (12, 12, 1), (16, 23, 0xFF)], perm := byAny, body := progLoad }

/-- PROG_LOAD (R237 to R239, R276, R277): what VERIFICATION_COMPLETE finds completes it. -/
def execProgLoad (m : Mbx) (s : State) : Host.Outcome State Fault Refusal := .next (runCmd progLoadSpec m s)

/-- The bank groups whose rows a program names at any counts: field, group. -/
def groupsOf (part : Nat) (i : List Byte) : List (Nat × Nat) :=
  ((countVectors i).flatMap fun n => (issues i n).flatMap fun p => (issueUses part i n p).map fun u => (u.1, bankGroup u.2.row)).eraseDups

/-- VERIFICATION_COMPLETE (R228, R271, R275, R276, R279): the report is written, then PROG_LOAD completes with the handle or the refusal. Where the program needs bank groups without power they are powered up, and the load waits for the verification's completion 20 µs later. -/
def execVerificationComplete (h : Nat) (s : State) : Host.Outcome State Fault Refusal :=
  .next (match Tbl.get none s.prog.progs h with
    | none => s
    | some g => match g.cmd with
      | none => s
      | some c =>
        let drop := fun s => modProg (fun x => { x with progs := Tbl.set none x.progs h none }) s
        let v := if g.unverified then ((checkUnverified g.image).1, (checkUnverified g.image).2) else
          ((verifyImage s g.part g.image).1, some (verifyImage s g.part g.image).2)
        let v := match v with
          | (none, some f) => if g.unverified && decide (costLimit < f.eval (Img.minimums g.image)) then (some (VFail.whole 0 0x002A), some f) else v
          | _ => v
        let report := fun st => reportBytes g.image st v.1 (v.2.getD { knees := List.replicate 8 0, terms := [], exact := false })
        let tell := fun st s => writeHost c.m.func (pNum c 16 8) (report st) false s
        match v with
        | (some x, _) => complete c x.status x.shown [] (drop (tell x.status s))
        | (none, none) => complete c stBadCommand 0 [] (drop (tell stBadCommand s))
        | (none, some f) =>
          let gs := groupsOf g.part g.image
          let s := powerGroups gs s
          if !groupsReady gs s then s else
          complete c stOk 0 (leBytes 2 h)
            (modProg (fun x => { x with progs := Tbl.set none x.progs h (some { g with verified := true, formula := f, report := report stOk, cmd := none }) }) (tell stOk s)))

/-! ### Activation (R274, R278, R341) -/

/-- The nominal and actual homes in the tiers of every model a partition holds. -/
def partHomes (s : State) (p : Nat) : List Reloc :=
  s.mdl.bindings.flatMap fun b => match b.2 with
    | some x => if x.part ≠ p then [] else
        (List.range 1024).flatMap fun l =>
          match (Tbl.get none s.mdl.images (Tbl.get x.image x.layerImage l)).bind fun im => Tbl.get none im.layers l with
          | some ly => ly.homes.filterMap fun h => if h.tier < 2 then some { nominal := h.nominal, length := h.bytes, actual := h.actual } else none
          | none => []
    | none => []

/-- Each range of a descriptor's side lies in one nominal home, or meets none. -/
def sideBinds (hs : List Reloc) (xs : List (Nat × Nat)) : Bool :=
  let ts := xs.filter fun x => !inSp x.1 && !bit x.1 63
  hs.all fun h => ts.all (fun x => !meets x.1 x.2 h.nominal h.length) ||
    ts.all fun x => decide (h.nominal ≤ x.1) && decide (x.1 + x.2 ≤ h.nominal + h.length)

/-- Bind a program to the partition's models: the relocations, or nothing where a descriptor lies partly in a home (R341). -/
def bindProgram (s : State) (p : Nat) (i : List Byte) : Option (List Reloc) :=
  let hs := partHomes s p
  let t := imageDescs i
  let ch : Chain := { table := t, first := 0, base := Img.bases i, part := some p, background := false, image := i, seen := 0, poisoned := false, cmd := none }
  if t.all fun d => sideBinds hs (srcExtents ch d) && (Ds.remote d || sideBinds hs (dstExtents ch d)) then some hs else none

/-- Load a partition's layer table and predicted layers from its models (R342). -/
def loadNpTables (p : Nat) (s : State) : State :=
  let ls := partLayers s p
  modNpPart p (fun x =>
    { x with cfg := ls.foldl (fun t r => Tbl.set none t (Ly.monitor r) (some
               { replayEn := Ly.replayEn r, clipThresh := Ly.clipThresh r, nullThresh := Ly.nullThresh r })) x.cfg,
             pred := (((ls.filter Ly.predicted).take 16).mapIdx fun i r => (i, r)).foldl (fun t y => Tbl.set none t y.1 (some
               { layer := Ly.monitor y.2, auditShift := Ly.auditShift y.2, skipCap := Ly.skipCap y.2 })) x.pred }) s

/-- Activate a program in the reserve. -/
def applyActivate (c : Cmd) (s : State) : State × Ans :=
  let h := pNum c 0 2
  match progOf s c h with
  | .inl st => refuse st s
  | .inr g =>
    if (budgetsOf s g.part).any fun b => decide (b < g.formula.eval (Img.minimums g.image)) then (s, .done stRefusedSchedule 0x002A [])
    else match bindProgram s g.part g.image with
      | none => refuse stRefusedFormat s
      | some rs => done (loadNpTables g.part (modProg (fun x => { x with active := Tbl.set none x.active g.part (some { handle := h, relocs := rs, counts := [] }) }) s))

def progActivate (c : Cmd) (s : State) : State × Ans :=
  match progOf s c (pNum c 0 2) with
  | .inl st => refuse st s
  | .inr _ => if stepping s then later s else applyActivate c s

def progActivateSpec : CmdSpec := { op := 0x0402, allow := [(0, 1, 0xFF)], perm := byAny, body := progActivate }

/-- PROG_ACTIVATE (R274, R277, R278, R341, R342). -/
def execProgActivate (m : Mbx) (s : State) : Host.Outcome State Fault Refusal := .next (runCmd progActivateSpec m s)

/-- A partition's active program, by handle. -/
def activeHandle (s : State) (p : Nat) : Option Nat := (Tbl.get none s.prog.active p).map ActiveProg.handle

def progUnload (c : Cmd) (s : State) : State × Ans :=
  let h := pNum c 0 2
  match progOf s c h with
  | .inl st => refuse st s
  | .inr g =>
    if activeHandle s g.part = some h ∨ (s.seq.cur.any fun r => r.handle == h) then refuse stBusy s
    else done (modProg (fun x => { x with progs := Tbl.set none x.progs h none }) s)

def progUnloadSpec : CmdSpec := { op := 0x0403, allow := [(0, 1, 0xFF)], perm := byAny, body := progUnload }

/-- PROG_UNLOAD (R277). -/
def execProgUnload (m : Mbx) (s : State) : Host.Outcome State Fault Refusal := .next (runCmd progUnloadSpec m s)

def progGetReport (c : Cmd) (s : State) : State × Ans :=
  match progOf s c (pNum c 0 2) with
  | .inl st => refuse st s
  | .inr g => intoHost c (pNum c 8 8) 4096 g.report s

def progGetReportSpec : CmdSpec := { op := 0x0404, allow := [(0, 1, 0xFF), (8, 15, 0xFF)], perm := byAny, body := progGetReport }

/-- PROG_GET_REPORT (R279). -/
def execProgGetReport (m : Mbx) (s : State) : Host.Outcome State Fault Refusal := .next (runCmd progGetReportSpec m s)

/-- The counts of PROG_SET_COUNTS. -/
def countsParam (c : Cmd) : List Nat := (List.range 8).map fun v => pNum c (16 + 4 * v) 4

/-- Counts lie in their ranges and their cost within each budget (R274). -/
def countsFit (g : Prog) (ns budgets : List Nat) : Bool :=
  (List.range 8).all (fun v => decide (Img.cmin g.image v ≤ ns.getD v 0) && decide (ns.getD v 0 ≤ Img.cmax g.image v)) &&
    budgets.all fun b => decide (g.formula.eval ns ≤ b)

/-- Set a program's counts in the reserve. -/
def applyCounts (c : Cmd) (s : State) : State × Ans :=
  let h := pNum c 0 2
  match progOf s c h with
  | .inl st => refuse st s
  | .inr g =>
    if !Img.hostCounts g.image then refuse stNotPermitted s
    else if !countsFit g (countsParam c) (budgetsOf s g.part) then refuse stRefusedSchedule s
    else done (modProg (fun x => { x with progs := Tbl.set none x.progs h (some { g with hostCounts := countsParam c }) }) s)

def progSetCounts (c : Cmd) (s : State) : State × Ans :=
  match progOf s c (pNum c 0 2) with
  | .inl st => refuse st s
  | .inr g => if !Img.hostCounts g.image then refuse stNotPermitted s else if stepping s then later s else applyCounts c s

def progSetCountsSpec : CmdSpec := { op := 0x0405, allow := [(0, 1, 0xFF), (16, 47, 0xFF)], perm := byAny, body := progSetCounts }

/-- PROG_SET_COUNTS (R274, R277). -/
def execProgSetCounts (m : Mbx) (s : State) : Host.Outcome State Fault Refusal := .next (runCmd progSetCountsSpec m s)

/-- A serving configuration that names a program has live requests (R278). -/
def servedLive (s : State) (p h : Nat) : Bool :=
  s.srv.configs.any fun b => b.2.any (fun x => leAt x.block 0 2 == h) && (Tbl.get none s.mdl.bindings b.1).any (fun y => y.part == p) &&
    s.srv.requests.any fun r => r.2.any fun x => x.state != .free && x.binding == b.1

/-- End an activation in the reserve. -/
def applyDeactivate (c : Cmd) (s : State) : State × Ans :=
  let h := pNum c 0 2
  let p := cmdPart c
  if activeHandle s p ≠ some h then refuse stBadCommand s
  else if servedLive s p h then refuse stBusy s
  else done (modProg (fun x => { x with active := Tbl.set none x.active p none }) s)

def progDeactivate (c : Cmd) (s : State) : State × Ans :=
  let h := pNum c 0 2
  if (Tbl.get none s.prog.progs h).any (fun g => c.part != some g.part) then refuse stNotPermitted s
  else if activeHandle s (cmdPart c) ≠ some h then refuse stBadCommand s
  else if servedLive s (cmdPart c) h then refuse stBusy s
  else if stepping s then later s else applyDeactivate c s

def progDeactivateSpec : CmdSpec := { op := 0x0406, allow := [(0, 1, 0xFF)], perm := byAny, body := progDeactivate }

/-- PROG_DEACTIVATE (R278). -/
def execProgDeactivate (m : Mbx) (s : State) : Host.Outcome State Fault Refusal := .next (runCmd progDeactivateSpec m s)

end Sys2Proof.Machine
end

