-- ==== Sys2Proof/Machine/Model.lean ====
section
/-! DEFINITION. Loading, sharing, repair, swap, update and checkpoint of weight images (09_weight_images.md, R338 to R374). Readings of this chapter: log entry 34. -/
namespace Sys2Proof.Machine

/-! ### Images and bindings -/

def binding? (s : State) (h : Nat) : Option Binding := Tbl.get none s.mdl.bindings h
def setBinding (h : Nat) (b : Option Binding) (s : State) : State := modMdl (fun m => { m with bindings := Tbl.set none m.bindings h b }) s
def modBinding (h : Nat) (g : Binding → Binding) (s : State) : State :=
  match binding? s h with
  | some b => setBinding h (some (g b)) s
  | none => s
def modSwap (h : Nat) (g : Swap → Swap) (s : State) : State := modBinding h (fun b => { b with swap := b.swap.map g }) s

def image? (s : State) (i : Nat) : Option Image := Tbl.get none s.mdl.images i
def setImage (i : Nat) (x : Option Image) (s : State) : State := modMdl (fun m => { m with images := Tbl.set none m.images i x }) s
def modImage (i : Nat) (g : Image → Image) (s : State) : State :=
  match image? s i with
  | some x => setImage i (some (g x)) s
  | none => s
def manifestOf (s : State) (i : Nat) : List Byte := ((image? s i).map Image.manifest).getD []
def layer? (s : State) (i l : Nat) : Option LayerSt := (image? s i).bind fun x => Tbl.get none x.layers l
def setLayer (i l : Nat) (y : Option LayerSt) (s : State) : State := modImage i (fun x => { x with layers := Tbl.set none x.layers l y }) s

/-- The image whose version a binding runs in a layer. -/
def Binding.imageOf (b : Binding) (l : Nat) : Nat := Tbl.get b.image b.layerImage l

/-- A binding refers to an image. -/
def Binding.refersTo (b : Binding) (i : Nat) : Bool :=
  b.image == i || b.layerImage.any (fun x => x.2 == i) || b.journal.any (fun j => j.1 == i || j.2.1 == i) || b.swap.any fun w => w.image == i

/-- The partitions with a binding that refers to an image. -/
def partsOn (s : State) (i : Nat) : List Nat :=
  (List.range 16).filter fun p => s.mdl.bindings.any fun b => b.2.any fun x => x.part == p && x.refersTo i

/-- The homes of an image. -/
def imageHomes (x : Image) : List Home := x.layers.flatMap fun l => (l.2.map LayerSt.homes).getD []

/-- Images that binding entries alone count as loaded (R374). -/
def loadedImages (s : State) : Nat := ((s.mdl.bindings.filterMap fun b => b.2.map Binding.image).eraseDups).length

/-- Free the images no binding refers to. -/
def dropImages (s : State) : State :=
  s.mdl.images.foldl (fun s x => match x.2 with
    | some im => if s.mdl.bindings.any fun b => b.2.any fun y => y.refersTo x.1 then s else
        setImage x.1 none (im.layers.foldl (fun s l => match l.2 with
          | some ly => freeLayer im.loader true ly s
          | none => s) s)
    | none => s) s

/-- Bytes of a list of homes in a tier, in granules. -/
def homeCount (hs : List Home) (t : Nat) : Nat := ((hs.filter fun h => h.tier == t).map fun h => (homeGranules h).2).sum

/-- A partition without a binding to an image that stays loses its rights there; its charge moves on (R592). -/
def detach (p i : Nat) (s : State) : State :=
  match image? s i with
  | none => s
  | some im =>
    let hs := imageHomes im
    let ps := partsOn s i
    if ps.contains p || ps.isEmpty then s else
    let s := hs.foldl (fun s h => if h.tier < 2 then freeRun p h.tier (homeGranules h).1 (homeGranules h).2 s else
      ((List.range 16).filter (bit h.mask)).foldl (fun s f => modFld f (fun x =>
        { x with resRanges := x.resRanges.map fun y => (y.1, y.2.map fun z => if z.first = h.actual then { z with partitions := z.partitions - (z.partitions &&& 2 ^ p) } else z) }) s) s) s
    if im.loader ≠ p then s else
    let q := ps.headD p
    modImage i (fun x => { x with loader := q })
      ((List.range 2).foldl (fun s t => charge q t (homeCount hs t) (uncharge p t (homeCount hs t) s)) s)

/-- A partition bound to an image owns its homes and resident rows. -/
def attachHomes (p : Nat) (hs : List Home) (s : State) : State :=
  hs.foldl (fun s h => if h.tier < 2 then ownRun p h.tier (homeGranules h).1 (homeGranules h).2 s else
    ((List.range 16).filter (bit h.mask)).foldl (fun s f => modFld f (fun x =>
      { x with resRanges := x.resRanges.map fun y => (y.1, y.2.map fun z => if z.first = h.actual then { z with partitions := z.partitions ||| 2 ^ p } else z) }) s) s) s

/-- Events to a binding's partition (R373). -/
def tellBinding (code h : Nat) (s : State) : State :=
  match binding? s h with
  | some b => raiseTo code b.part [.prims b.part] [] s
  | none => s

/-- Hold a model's requests from now on (R354, R364). -/
def holdBinding (h : Nat) (s : State) : State :=
  if (binding? s h).any Binding.held then s else tellBinding evModelHeld h (modBinding h (fun b => { b with held := true }) s)
def releaseBinding (h : Nat) (s : State) : State :=
  if (binding? s h).any Binding.held then tellBinding evModelReleased h (modBinding h (fun b => { b with held := false }) s) else s

/-- Complete a command that may be there. -/
def finish (c : Option Cmd) (st : Nat) (results : List Byte) (s : State) : State :=
  match c with
  | some c => complete c st 0 results s
  | none => s

/-! ### Commands that bring a manifest (R333, R334, R338, R372) -/

/-- Read and check a manifest. -/
def withManifest (c : Cmd) (addr len : Nat) (s : State) (k : List Byte → State × Ans) : State × Ans :=
  if len < 96 ∨ 4194304 < len then refuse stRefusedFormat s
  else withHost c addr len s fun m =>
    if !imageSigned s (Mf.signed m) (Mf.signature m) then refuse stBadSignature s
    else if !manifestOk m then refuse stRefusedFormat s
    else k m

/-- A deadline in ms lies in its range (R372). -/
def deadlineOk (ms : Nat) : Bool := decide (1 ≤ ms) && decide (ms ≤ 3600000)

/-- Place every layer of a list, all or none. -/
def placeLayers (p i : Nat) (m : List Byte) (shared : Bool) : List Nat → State → Option State
  | [], s => some s
  | l :: ls, s => (placeLayer p m shared false false l s).bind fun x => placeLayers p i m shared ls (setLayer i l (some x.1) x.2)

/-- The nominal homes of the other models a partition holds meet those of a manifest (R339). -/
def nominalMeets (s : State) (p : Nat) (m : List Byte) : Bool :=
  let mine := s.mdl.bindings.filterMap fun b => b.2.bind fun x => if x.part = p then some (manifestOf s x.image) else none
  let recs := fun (m : List Byte) => (List.range (Mf.tensors m)).map (Mf.tensor m)
  mine.any fun o => (recs o).any fun a => (recs m).any fun b => homesOverlap a b

/-- A new binding. -/
def newBinding (p i : Nat) : Binding :=
  { part := p, image := i, layerImage := [], state := 0, held := false, retries := [], retryLimit := 0, deadline := none, swap := none, journal := none, repair := [], rowRepair := [], placed := [], cmd := none }

/-- A loaded shareable image with a digest, every layer active. -/
def sharedImage (s : State) (d : Nat) : Option (Nat × Image) :=
  (s.mdl.images.findSome? fun x => x.2.bind fun im =>
    if im.digest = d ∧ Mf.shareable im.manifest ∧ (List.range (Mf.layers im.manifest)).all fun l => (Tbl.get none im.layers l).any fun y => y.status == 1
    then some (x.1, im) else none)

def modelLoad (c : Cmd) (s : State) : State × Ans :=
  let p := cmdPart c
  let share := pNum c 18 2
  if !deadlineOk (pNum c 12 4) then refuse stBadCommand s
  else if share ≠ 0 ∧ c.m.func % 32 ≠ 0 then refuse stNotPermitted s
  else withManifest c (pNum c 0 8) (pNum c 8 4) s fun m =>
    let d := Config.sha384 m
    match Tbl.free s.mdl.bindings 256 with
    | none => refuse stRefusedCapacity s
    | some h =>
      match sharedImage s d with
      | some (i, im) =>
        if !bit im.shareMask p then refuse stNotPermitted s else
        let s := setBinding h (some { newBinding p i with state := 2 }) (attachHomes p (imageHomes im) s)
        doneWith (leBytes 2 h) (tellBinding evModelReady h s)
      | none =>
        if 64 ≤ loadedImages s ∨ nominalMeets s p m then refuse stRefusedCapacity s else
        match Tbl.free s.mdl.images 512 with
        | none => refuse stRefusedCapacity s
        | some i =>
          let im : Image := { manifest := m, digest := d, layers := [], shareMask := share, loader := p }
          match placeLayers p i m (Mf.shareable m) (List.range (Mf.layers m)) (setImage i (some im) s) with
          | none => refuse stRefusedCapacity s
          | some s => later (setBinding h (some { newBinding p i with retryLimit := pByte c 16, deadline := some (s.now + 1000000 * pNum c 12 4), cmd := some c }) s)

def modelLoadSpec : CmdSpec := { op := 0x0301, allow := [(0, 15, 0xFF), (16, 16, 7), (18, 19, 0xFF)], perm := byAny, body := modelLoad }

/-- MODEL_LOAD (R330 to R341, R349, R371, R372): attaches, or places the image; its shards complete it. -/
def execModelLoad (m : Mbx) (s : State) : Host.Outcome State Fault Refusal := .next (runCmd modelLoadSpec m s)

/-- Two manifests agree in everything but the sources of shards (R347). -/
def sameButSources (a b : List Byte) : Bool :=
  Mf.modelId a == Mf.modelId b && Mf.version a == Mf.version b && Mf.flags a == Mf.flags b && Mf.pageShift a == Mf.pageShift b &&
    Mf.layers a == Mf.layers b && Mf.tensors a == Mf.tensors b && Mf.shards a == Mf.shards b &&
    ((List.range (Mf.layers a)).all fun l => Mf.layer a l == Mf.layer b l) && ((List.range (Mf.tensors a)).all fun t => Mf.tensor a t == Mf.tensor b t) &&
    (List.range (Mf.shards a)).all fun h => let x := Mf.shard a h
      let y := Mf.shard b h
      Sh.tensor x == Sh.tensor y && Sh.encoding x == Sh.encoding y && Sh.dst x == Sh.dst y && Sh.length x == Sh.length y

/-- A swap that stages and flips: the common part of R353 to R369. -/
def newSwap (kind image first total : Nat) (descending : Bool) (c : Cmd) : Swap :=
  { kind := kind, image := image, staged := [], flipped := 0, first := first, total := total, descending := descending, flush := false, window := 0,
    retries := [], retryLimit := 0, deadline := none, func := c.m.func, source := 0, zeroed := 0, kept := 0, cmd := some c }

def modelReload (c : Cmd) (s : State) : State × Ans :=
  let h := pNum c 0 2
  if !deadlineOk (pNum c 20 4) then refuse stBadCommand s else
  match myBinding s c h with
  | none => refuse stBadCommand s
  | some b =>
    if b.state ≠ 1 then refuse stBadCommand s else
    withManifest c (pNum c 8 8) (pNum c 16 4) s fun m =>
      let dl := some (s.now + 1000000 * pNum c 20 4)
      if !sameButSources m (manifestOf s b.image) then refuse stRefusedFormat s
      else if b.repair ≠ [] ∨ b.rowRepair ≠ [] then
        later (modBinding h (fun b => { b with state := 5, retryLimit := pByte c 24, deadline := dl, cmd := some c })
          (modImage b.image (fun x => { x with manifest := m, digest := Config.sha384 m }) s))
      else
        let failed := (List.range (Mf.layers m)).filter fun l => (layer? s b.image l).any fun y => y.status == 2
        match placeLayers b.part b.image m (Mf.shareable m) failed (modImage b.image (fun x => { x with manifest := m, digest := Config.sha384 m }) s) with
        | none => refuse stRefusedCapacity s
        | some s => later (modBinding h (fun b => { b with state := 0, placed := failed, retries := [], retryLimit := pByte c 24, deadline := dl, cmd := some c }) s)

def modelReloadSpec : CmdSpec := { op := 0x0303, allow := [(0, 1, 0xFF), (8, 23, 0xFF), (24, 24, 7)], perm := byAny, body := modelReload }

/-- MODEL_RELOAD_LAYERS (R347, R366). -/
def execModelReloadLayers (m : Mbx) (s : State) : Host.Outcome State Fault Refusal := .next (runCmd modelReloadSpec m s)

/-! ### Layers that are fetched (R338, R343 to R347, R353, R359) -/

/-- A swap that repairs a layer (kind 2) or its resident rows (kind 5), R364. -/
def Swap.repairs (w : Swap) : Bool := w.kind == 2 || w.kind == 5

/-- The shards of a layer that a fetch waits for. -/
def fetchedShards (m : List Byte) (rowsOnly : Bool) (l : Nat) : List Nat :=
  (Mf.layerShards m l).filter fun k => (fetchedTensors m rowsOnly l).contains (Sh.tensor (Mf.shard m k))

/-- The layers of a swap in flip order. -/
def Swap.order (w : Swap) : List Nat := (List.range w.total).map fun i => if w.descending then w.first - i else w.first + i

/-- What a binding fetches: image, whether to staging homes, the layers to come. -/
def fetchOf (s : State) (h : Nat) : Option (Nat × Bool × List Nat) :=
  (binding? s h).bind fun b => match b.swap with
    | some w => if w.kind = 1 then none else some (w.image, true, w.order.drop w.flipped)
    | none => if b.state = 0 then
        some (b.image, false, (List.range (Mf.layers (manifestOf s b.image))).filter fun l => (layer? s b.image l).any fun y => y.status == 0)
      else none

/-- The layer that is fetched, and where it is kept. -/
def fetched (s : State) (h i : Nat) (staging : Bool) (l : Nat) : Option LayerSt :=
  if staging then (binding? s h).bind fun b => b.swap.bind fun w => Tbl.get none w.staged l else layer? s i l
def setFetched (h i : Nat) (staging : Bool) (l : Nat) (y : Option LayerSt) (s : State) : State :=
  if staging then modSwap h (fun w => { w with staged := Tbl.set none w.staged l y }) s else setLayer i l y s

/-- Bytes that a swap has staged and not yet flipped. -/
def stagedBytes (w : Swap) : Nat := (w.staged.map fun x => ((x.2.map LayerSt.homes).getD []).map Home.bytes |>.sum).sum

/-- Bytes of a layer's tensors. -/
def layerBytes (m : List Byte) (l : Nat) : Nat := ((Mf.layerTensors m l).map fun t => Ts.stored (Mf.tensor m t)).sum

/-- Place the staging homes of the next layer, in flip order and within the window (R353). -/
def stageLayer (h l : Nat) (s : State) : State :=
  match binding? s h with
  | none => s
  | some b => match b.swap with
    | none => s
    | some w =>
      let m := manifestOf s w.image
      let next := (w.order.drop w.flipped).find? fun x => (Tbl.get none w.staged x).isNone
      if next ≠ some l ∨ (w.window ≠ 0 ∧ w.window * 1048576 < stagedBytes w + layerBytes m l) then s else
      let p := if w.repairs then ((image? s w.image).map Image.loader).getD b.part else b.part
      match placeLayer p m false true (w.kind == 5) l s with
      | some x => modSwap h (fun w => { w with staged := Tbl.set none w.staged l (some x.1) }) x.2
      | none => s

/-- Free what a swap has staged. -/
def freeStaged (h : Nat) (s : State) : State :=
  match binding? s h with
  | none => s
  | some b => match b.swap with
    | none => s
    | some w =>
      let p := if w.repairs then ((image? s w.image).map Image.loader).getD b.part else b.part
      modSwap h (fun w => { w with staged := [] }) (w.staged.foldl (fun s x => match x.2 with
        | some ly => freeLayer p false ly s
        | none => s) s)

/-- MODEL_MIXED: both digests, then the new and the old layers (R362, R373, R573). -/
def tellMixed (h : Nat) (s : State) : State :=
  match binding? s h with
  | none => s
  | some b => match b.journal with
    | none => s
    | some (n, o, k) =>
      let dg := fun i => leBytes 48 (((image? s i).map Image.digest).getD 0)
      raiseTo evModelMixed b.part [.prims b.part, .pfs] (dg n ++ dg o ++ fields4 [0, k - 1, k, Mf.layers (manifestOf s n) - 1]) s

/-- How many layers are new once a swap ends early. -/
def newLayers (b : Binding) (w : Swap) : Nat :=
  match w.kind, b.journal with
  | 3, _ => w.first + w.flipped
  | 4, some j => j.2.2 - w.flipped
  | _, _ => w.first + w.flipped

/-- The other models that a swap of a shared resident tensor holds (R358). -/
def heldWith (s : State) (h : Nat) : List Nat :=
  match binding? s h with
  | none => []
  | some b => (s.mdl.bindings.filter fun x => x.1 != h && x.2.any fun y => y.held && y.swap.isNone && y.state == 2 && y.refersTo b.image).map Prod.fst

/-- A swap ends before its last flip (R359, R361, R366). -/
def failSwap (h st : Nat) (s : State) : State :=
  match binding? s h with
  | none => s
  | some b => match b.swap with
    | none => s
    | some w =>
      let s := freeStaged h s
      if w.repairs then
        let s := finish (b.cmd <|> w.cmd) st [] (modBinding h (fun b => { b with swap := none, cmd := none, deadline := none }) s)
        ((boundTo s w.image w.first).map Prod.fst).foldl (fun s x => modBinding x (fun b => { b with state := 1 }) s) s
      else
      let s := (heldWith s h).foldl (fun s x => releaseBinding x s) s
      if w.flipped = 0 ∧ b.journal.isNone then
        finish w.cmd st [] (dropImages (releaseBinding h (modBinding h (fun b => { b with swap := none, state := 2 }) s)))
      else
        let old := match b.journal with | some j => j.2.1 | none => b.image
        let new := match b.journal with | some j => j.1 | none => w.image
        let s := modBinding h (fun b => { b with swap := none, state := 4, journal := some (new, old, newLayers b w) }) s
        finish w.cmd st [] (tellMixed h (releaseBinding h (dropImages s)))

/-- The bank groups of an image's resident rows. -/
def imageGroups (s : State) (i : Nat) : List (Nat × Nat) :=
  (((image? s i).map Image.layers).getD []).flatMap fun l => ((l.2.map LayerSt.homes).getD []).flatMap fun h =>
    if h.tier = 2 then ((List.range 16).filter (bit h.mask)).flatMap fun f => groupsOfRun f h.actual h.rows else []

/-- A load or reload ends once no layer is still fetched and the bank groups it needs have had power for 20 µs (R228, R338); one that waits for that ends with a later SHARD_ARRIVED or MODEL_DEADLINE_EXPIRY. -/
def finishLoad (h : Nat) (s : State) : State :=
  match binding? s h with
  | none => s
  | some b =>
    let m := manifestOf s b.image
    let st := fun l => ((layer? s b.image l).map LayerSt.status).getD 2
    if b.state ≠ 0 ∨ (List.range (Mf.layers m)).any (fun l => st l == 0) ∨ !groupsReady (imageGroups s b.image) s then s else
    let ok := (List.range (Mf.layers m)).all fun l => st l == 1
    let s := modBinding h (fun b => { b with state := if ok then 2 else 1, cmd := none, deadline := none, retries := [] }) s
    let res := if b.cmd.any fun c => c.op == 0x0301 then leBytes 2 h else []
    finish b.cmd (if ok then stOk else stShardFailed) res (if ok then tellBinding evModelReady h s else s)

/-- A layer of a load fails: its data are freed, the others go on (R345). -/
def failLayer (h l : Nat) (s : State) : State :=
  match binding? s h with
  | none => s
  | some b => match layer? s b.image l with
    | none => s
    | some ly =>
      let ld := ((image? s b.image).map Image.loader).getD b.part
      let s := setLayer b.image l (some { LayerSt.empty with status := 2 }) (freeLayer ld true ly s)
      finishLoad h (raiseError 6 evLayerFailed b.part [.prims b.part] [] s)

/-- A load under way ends: its unfinished layers, and those of a list, are freed; the model is INCOMPLETE. -/
def stopLoad (h st : Nat) (ls : List Nat) (s : State) : State :=
  match binding? s h with
  | none => s
  | some b =>
    let ld := ((image? s b.image).map Image.loader).getD b.part
    let s := (List.range (Mf.layers (manifestOf s b.image))).foldl (fun s l => match layer? s b.image l with
      | some ly => if ly.status = 0 ∨ ls.contains l then setLayer b.image l (some { LayerSt.empty with status := 2 }) (freeLayer ld true ly s) else s
      | none => s) s
    finish b.cmd st [] (modBinding h (fun b => { b with state := 1, cmd := none, deadline := none, retries := [] }) s)

/-- A METADATA_FAULT ends the whole command: what it placed is freed (R346, R359). -/
def failMetadata (h : Nat) (s : State) : State :=
  match binding? s h with
  | none => s
  | some b =>
    if b.swap.isSome then failSwap h stMetadataFault s
    else if b.cmd.any fun c => c.op == 0x0301 then dropImages (setBinding h none (finish b.cmd stMetadataFault [] s))
    else stopLoad h stMetadataFault b.placed s

/-- Every tiled tensor that a layer has placed is stored soundly (R337), and so are the blocks of its resident ones (R57). -/
def layerTilesSound (s : State) (m : List Byte) (ly : LayerSt) (l : Nat) : Bool :=
  ((Mf.layerTensors m l).filter fun t => (ly.home t).isSome).all fun t =>
    let r := Mf.tensor m t
    let bs := tensorBytes s ly t (Ts.stored r)
    if tiled r then tilesSound (Mf.trainable m) r bs else blocksSound r bs

/-- The resident tensors of a layer are written to their rows, or to some of them. -/
def writeRows (which : Nat → Nat → Bool) (m : List Byte) (ly : LayerSt) (l : Nat) (s : State) : State :=
  (Mf.layerTensors m l).foldl (fun s t =>
    let r := Mf.tensor m t
    if Ts.resident r then writeResident which r (tensorBytes s ly t (Ts.stored r)) s else s) s

/-- The shards of a layer have all arrived: a loaded layer is checked and becomes active (R338). -/
def layerArrived (h i l : Nat) (s : State) : State :=
  match fetched s h i false l with
  | none => s
  | some ly =>
    let m := manifestOf s i
    if !layerTilesSound s m ly l then failMetadata h s
    else finishLoad h (setLayer i l (some { ly with status := 1, rowData := [] }) (writeRows (fun _ _ => true) m ly l s))

/-- A shard's data arrive for a binding. -/
def shardIn (h k : Nat) (data : List Byte) (s : State) : State :=
  match fetchOf s h with
  | none => s
  | some (i, staging, ls) =>
    if ls.isEmpty then finishLoad h s else
    let m := manifestOf s i
    let l := Mf.layerOf m (Sh.tensor (Mf.shard m k))
    if Mf.shards m ≤ k ∨ !ls.contains l then s else
    let s := if staging && (fetched s h i true l).isNone then stageLayer h l s else s
    match fetched s h i staging l with
    | none => s
    | some ly =>
      if ly.status ≠ 0 ∨ ly.arrived.contains k ∨ (ly.home (Sh.tensor (Mf.shard m k))).isNone then s else
      match shardPieces m k data with
      | none => failMetadata h s
      | some (ps, first, n) =>
        let put := fun a (x : Nat × Nat × List Byte) => putTensor x.1 x.2.1 x.2.2 a
        let a := ps.foldl put (ly, s)
        let t := Sh.tensor (Mf.shard m k)
        let r := Mf.tensor m t
        let a := if n = 0 then a else (tileHeads r (tensorBytes a.2 a.1 t (Ts.stored r)) first n).foldl (fun a x => putTensor t x.1 x.2 a) a
        let ly := { a.1 with arrived := a.1.arrived ++ [k] }
        let s := setFetched h i staging l (some ly) a.2
        if !staging && (Mf.layerShards m l).all (fun x => ly.arrived.contains x) then layerArrived h i l s else s

/-- The window that peers write shards through is given a new generation (R344). -/
def renewShardWindow (s : State) : State :=
  modWin 240 (fun x => { x with opened := true, fwOwned := true, inUse := true }) (closeWindow 240 s)

/-- A shard cannot be had: its layer fails (R345), or the swap or repair does (R359, R366). -/
def shardLost (h l : Nat) (staging : Bool) (s : State) : State := if staging then failSwap h stShardFailed s else failLayer h l s

/-- SHARD_TRANSFER_FAIL (R343 to R345): the shard is fetched again while retries are left; a peer's late writes are shut out. -/
def execShardTransferFail (handle shard status : Nat) (s : State) : Host.Outcome State Fault Refusal :=
  .next (match fetchOf s handle, binding? s handle with
    | some (i, staging, ls), some b =>
      let m := manifestOf s i
      let l := Mf.layerOf m (Sh.tensor (Mf.shard m shard))
      let got := (fetched s handle i staging l).any fun y => y.arrived.contains shard
      if s.host.state ≠ 2 ∨ Mf.shards m ≤ shard ∨ !ls.contains l ∨ got ∨ !(status == stPoisoned || status == stTimeout) then s else
      let s := if Sh.source (Mf.shard m shard) = 2 then renewShardWindow s else s
      let n := match b.swap with | some w => Tbl.get 0 w.retries shard | none => Tbl.get 0 b.retries shard
      let lim := match b.swap with | some w => w.retryLimit | none => b.retryLimit
      if lim ≤ n then shardLost handle l staging s
      else if staging then modSwap handle (fun w => { w with retries := Tbl.set 0 w.retries shard (n + 1) }) s
      else modBinding handle (fun b => { b with retries := Tbl.set 0 b.retries shard (n + 1) }) s
    | _, _ => s)

/-- MODEL_DEADLINE_EXPIRY (R345, R359, R366): what has not arrived by the deadline fails. -/
def execModelDeadlineExpiry (handle : Nat) (s : State) : Host.Outcome State Fault Refusal :=
  .next (match binding? s handle with
    | none => s
    | some b => match b.swap with
      | some w =>
        if (w.deadline <|> b.deadline).any fun t => decide (t ≤ s.now) then
          (if w.order.drop w.flipped |>.all fun l => (Tbl.get none w.staged l).any fun y => y.status == 3 then s else failSwap handle stShardFailed s)
        else s
      | none =>
        if b.state ≠ 0 ∨ !b.deadline.any (fun t => decide (t ≤ s.now)) then s else
        let ls := ((fetchOf s handle).map fun x => x.2.2).getD []
        if ls.isEmpty then finishLoad handle s else ls.foldl (fun s l => failLayer handle l s) s)

/-! ### Staged layers (R352, R354, R369) -/

/-- R369's commit of one byte: current, staged; the byte, whether it was forced to zero, whether it was kept. -/
def commitByte (cur new : Byte) : Byte × Nat × Nat := if cur = 0 then (0, b2n (new != 0), 0) else if new = 0 then (cur, 0, 1) else (new, 0, 0)

/-- The commit pass over one tile: the header stays. -/
def commitTile (cur new : List Byte) : List Byte × Nat × Nat :=
  let rs := (cur.drop 16).mapIdx fun i b => commitByte b (new.getD (16 + i) 0)
  (cur.take 16 ++ rs.map Prod.fst, (rs.map fun x => x.2.1).sum, (rs.map fun x => x.2.2).sum)

/-- Tensors of a layer that an update commits: its tiles and its row scales. -/
def updated (m : List Byte) (t : Nat) : Bool := tiled (Mf.tensor m t) || Ts.role (Mf.tensor m t) == 3

/-- Where the staged bytes of a tensor lie behind the staging address: the updated tensors of the named layers, one after another (log entry 34). -/
def stagedAt (m : List Byte) (first t : Nat) : Nat :=
  let ts := ((List.range (Mf.layerOf m t + 1)).drop first).flatMap (Mf.layerTensors m)
  ((ts.filter fun x => decide (x < t) && updated m x).map fun x => Ts.stored (Mf.tensor m x)).sum

/-- Commit a layer of an update into its staging homes; a byte that is no code of five trits fails it (R49, R359). -/
def commitLayer (h l : Nat) (s : State) : State :=
  match binding? s h with
  | none => s
  | some b => match b.swap, layer? s b.image l with
    | some w, some old =>
      match Tbl.get none w.staged l with
      | none => s
      | some ly =>
        let m := manifestOf s b.image
        let a := (Mf.layerTensors m l).foldl (fun (a : (LayerSt × State) × Nat × Nat) t =>
          let r := Mf.tensor m t
          let cur := storedForm s m old t
          let new := rdBytes s (w.source + stagedAt m w.first t) (Ts.stored r)
          let x := if tiled r then
              let ts := (cut (denseTile r) cur).mapIdx fun i c => commitTile c ((new.drop (i * denseTile r)).take (denseTile r))
              (ts.flatMap Prod.fst, (ts.map fun y => y.2.1).sum, (ts.map fun y => y.2.2).sum)
            else (if updated m t then new else cur, 0, 0)
          (putTensor t 0 x.1 a.1, a.2.1 + x.2.1, a.2.2 + x.2.2)) ((ly, s), 0, 0)
        if !layerTilesSound a.1.2 m a.1.1 l then failSwap h stMetadataFault a.1.2 else
        modSwap h (fun w => { w with zeroed := w.zeroed + a.2.1, kept := w.kept + a.2.2, staged := Tbl.set none w.staged l (some { a.1.1 with status := 3 }) }) a.1.2
    | _, _ => s

/-! ### Flips (R354 to R358, R364) -/

/-- Active programs of a partition follow a tensor to its new home. -/
def rebind (p : Nat) (old new : Home) (s : State) : State :=
  modProg (fun x => { x with active := x.active.map fun a => if a.1 ≠ p then a else
    (a.1, a.2.map fun y => { y with relocs := y.relocs.map fun r => if r.nominal = old.nominal ∧ r.actual = old.actual then { r with actual := new.actual } else r }) }) s

/-- The bindings that a flip of a layer changes: the swapping one, or, for a repair, every one that runs the layer. -/
def flipping (s : State) (h l : Nat) : List Nat :=
  match binding? s h with
  | none => []
  | some b => if b.swap.any Swap.repairs then (boundTo s (b.imageOf l) l).map Prod.fst else [h]

/-- The bindings that a flip of a layer holds: also every one bound to a shared resident tensor of it (R358). -/
def flipHolds (s : State) (h l : Nat) : List Nat :=
  match binding? s h with
  | none => []
  | some b =>
    let i := b.imageOf l
    let m := manifestOf s i
    if Mf.shareable m && (Mf.layerTensors m l).any (fun t => Ts.resident (Mf.tensor m t)) then (boundTo s i l).map Prod.fst else flipping s h l

/-- Rewrite the poisoned rows of a layer in place, for every model that runs it (R350, R364). -/
def rewriteRows (h l : Nat) (s : State) : State :=
  match binding? s h with
  | none => s
  | some b => match b.swap.bind fun w => (Tbl.get none w.staged l).map fun ly => (manifestOf s w.image, ly) with
    | none => s
    | some (m, ly) =>
      let s := (flipHolds s h l).foldl (fun s x => holdBinding x s) s
      let s := writeRows (fun f r => rowPoison s f r) m ly l s
      let s := (flipping s h l).foldl (fun s x => modBinding x (fun y => { y with rowRepair := y.rowRepair.filter (· != l) }) s) s
      modSwap h (fun w => { w with flipped := w.flipped + 1, staged := Tbl.set none w.staged l none }) s

/-- Flip one layer. -/
def flipLayer (h l : Nat) (s : State) : State :=
  match binding? s h with
  | none => s
  | some b => match b.swap with
    | none => s
    | some w =>
      let io := b.imageOf l
      match Tbl.get none w.staged l, layer? s io l with
      | some ly, some old =>
        let m := manifestOf s w.image
        let hs := flipping s h l
        let s := (flipHolds s h l).foldl (fun s x => holdBinding x s) s
        let s := hs.foldl (fun s x => match binding? s x with
          | none => s
          | some y =>
            let s := ly.homes.foldl (fun s n => match old.home n.tensor with
              | some o => if n.tier < 2 then rebind y.part o n (ownRun y.part n.tier (homeGranules n).1 (homeGranules n).2 s) else s
              | none => s) s
            clearOverride y.part (Ly.monitor (Mf.layer m l)) s) s
        let s := writeRows (fun _ _ => true) m ly l s
        let new := some { ly with status := 1, rowData := [] }
        let ld := ((image? s io).map Image.loader).getD b.part
        let inPlace := w.kind = 1 ∨ w.kind = 2
        let s := if inPlace then setLayer io l new (freeLayer ld false old s)
          else
            let s := modBinding h (fun b => { b with layerImage := Tbl.set b.image b.layerImage l w.image }) (setLayer w.image l new s)
            if (boundTo s io l).isEmpty then setLayer io l none (freeLayer ld false old s) else s
        let s := hs.foldl (fun s x => modBinding x (fun y => { y with repair := y.repair.filter (· != l), rowRepair := y.rowRepair.filter (· != l) }) s) s
        modSwap h (fun w => { w with flipped := w.flipped + 1, staged := Tbl.set none w.staged l none }) s
      | _, _ => s

/-- The last layer has flipped: the swap ends (R356). -/
def endSwap (h : Nat) (s : State) : State :=
  match binding? s h with
  | none => s
  | some b => match b.swap with
    | none => s
    | some w =>
      if w.repairs then
        let s := modBinding h (fun b => { b with swap := none }) s
        ((boundTo s w.image w.first).map Prod.fst).foldl (fun s x =>
          if (binding? s x).any fun y => (y.state == 5 || y.state == 1 && y.held) && y.repair.isEmpty && y.rowRepair.isEmpty then
            finish ((binding? s x).bind Binding.cmd) stOk [] (releaseBinding x (modBinding x (fun y => { y with state := 2, cmd := none, deadline := none }) s))
          else s) s
      else
        let others := heldWith s h
        let s := modBinding h (fun b => { b with swap := none, state := 2, journal := none, layerImage := [], image := w.image }) s
        let s := if w.kind = 1 then s else detach b.part b.image (dropImages s)
        let s := if w.flush then flushBinding h s else s
        let s := (h :: others).eraseDups.foldl (fun s x => releaseBinding x s) s
        finish w.cmd stOk (if w.kind = 1 then leBytes 8 w.zeroed ++ leBytes 8 w.kept else []) (tellBinding evSwapDone h s)

/-- Flip the layers of a binding that are due, at most `n`; the number left. -/
def flipDue : Nat → Nat → State → Nat × State
  | 0, _, s => (0, s)
  | n + 1, h, s =>
    match (binding? s h).bind Binding.swap with
    | none => (n + 1, s)
    | some w =>
      let left := w.order.drop w.flipped
      let ready := fun l => (Tbl.get none w.staged l).any fun y => y.status == 3
      match left with
      | [] => (n + 1, endSwap h s)
      | l :: _ =>
        if !ready l || (w.window == 0 && w.flipped == 0 && !left.all ready) then (n + 1, s)
        else flipDue n h (if w.kind = 5 then rewriteRows h l s else flipLayer h l s)

/-- Reserve action 3: at most 64 flips of the chip's models, then the ends of swaps (R33, R354, R356). -/
def flipReserve (s : State) : State :=
  let hs := (s.mdl.bindings.filter fun b => b.2.any fun x => x.swap.isSome).map Prod.fst
  let s := (hs.foldl (fun (a : Nat × State) h => flipDue a.1 h a.2) (64, s)).2
  hs.foldl (fun s h => if ((binding? s h).bind Binding.swap).any fun w => w.flipped == w.total then endSwap h s else s) s

/-- The swap that repairs a layer, or its rows alone. -/
def repairSwap (b : Binding) (rows : Bool) (i l : Nat) : Swap :=
  { kind := if rows then 5 else 2, image := i, staged := [], flipped := 0, first := l, total := 1, descending := false, flush := false, window := 0, retries := [],
    retryLimit := b.retryLimit, deadline := b.deadline, func := 64, source := 0, zeroed := 0, kept := 0, cmd := none }

/-- Begin the repairs that wait (R364 to R366): models are held, and the lowest binding of a layer drives its repair. -/
def startRepairs (s : State) : State :=
  s.mdl.bindings.foldl (fun s x => match binding? s x.1 with
    | none => s
    | some b =>
      let full := decide (256 ≤ s.t1.quarantine.length) || decide (256 ≤ s.t2.quarantine.length)
      match b.repair ++ b.rowRepair with
      | [] => s
      | l :: _ =>
        if !(b.state == 2 || b.state == 5) || b.swap.isSome then s else
        let fresh := b.state == 2
        let s := holdBinding x.1 (modBinding x.1 (fun b => { b with state := 5 }) s)
        if full then (if fresh then raiseTo evQuarantineFull 0xFF [.pfs] [] s else s) else
        let i := b.imageOf l
        let busy := (boundTo s i l).any fun y => y.2.swap.isSome
        if busy then s else
        modBinding x.1 (fun b => { b with swap := some (repairSwap b b.repair.isEmpty i l) }) s) s

/-- While stepping does not run there is no reserve: what is due happens at once (R698). -/
def idleModels (s : State) : State := if stepping s then s else flipReserve (startRepairs s)

/-- SHARD_ARRIVED (R338, R344 to R346, R353): the shard's bytes go through their encoding's transform to their tensor. -/
def execShardArrived (handle shard : Nat) (data : List Byte) (s : State) : Host.Outcome State Fault Refusal :=
  .next (if s.host.state = 2 then shardIn handle shard data (idleModels s) else s)

/-- A layer whose shards are all in is checked; an update's layer is committed. -/
def layerStaged (handle layer : Nat) (s : State) : State :=
  match binding? s handle with
    | none => s
    | some b => match b.swap with
      | none => s
      | some w =>
        if s.host.state ≠ 2 ∨ !(w.order.drop w.flipped).contains layer then s
        else if w.kind = 1 then
          let s := if (Tbl.get none w.staged layer).isNone then stageLayer handle layer s else s
          if ((binding? s handle).bind Binding.swap).any (fun w => (Tbl.get none w.staged layer).any fun y => y.status == 0) then commitLayer handle layer s else s
        else match Tbl.get none w.staged layer with
          | none => s
          | some ly =>
            let m := manifestOf s w.image
            if ly.status ≠ 0 ∨ !(fetchedShards m (w.kind == 5) layer).all (fun x => ly.arrived.contains x) then s
            else
              let run := b.imageOf layer
              let mo := manifestOf s run
              let same := (fetchedTensors m (w.kind == 5) layer).all fun t =>
                let r := Mf.tensor m t
                w.repairs || !(tiled r && Ts.masked r) || (layer? s run layer).all fun o =>
                  zeroPattern r (tensorBytes s ly t (Ts.stored r)) == zeroPattern r (storedForm s mo o t)
              if !layerTilesSound s m ly layer || !same then failSwap handle stMetadataFault s
              else modSwap handle (fun w => { w with staged := Tbl.set none w.staged layer (some { ly with status := 3 }) }) s

/-- LAYER_STAGED (R352 to R354, R359, R369). -/
def execLayerStaged (handle layer : Nat) (s : State) : Host.Outcome State Fault Refusal :=
  .next (idleModels (layerStaged handle layer (idleModels s)))

/-- End the swaps, updates and checkpoints of a partition, or of a function (R361, R604). -/
def abortSwaps (p : Nat → Binding → Bool) (st : Nat) (s : State) : State :=
  s.mdl.bindings.foldl (fun s x => match x.2 with
    | some b => if b.swap.any (fun w => !w.repairs) && p x.1 b then failSwap x.1 st s else s
    | none => s) s

/-! ### MODEL_SWAP, RESUME, REVERT, UPDATE (R352 to R363, R368, R369) -/

/-- Two tensor records agree as a swap asks, and keep tier, offset and rows (R340, R352). -/
def swapTensorOk (a b : List Byte) : Bool :=
  Ts.role a == Ts.role b && Ts.format a == Ts.format b && Ts.layout a == Ts.layout b && leAt a 3 1 == leAt b 3 1 && Ts.m a == Ts.m b && Ts.k a == Ts.k b &&
    Ts.stored a == Ts.stored b && Ts.rows a == Ts.rows b &&
    (if Ts.resident a then Ts.home a == Ts.home b else (tierHome a).map (fun x => (x.1, x.2 % 65536)) == (tierHome b).map fun x => (x.1, x.2 % 65536))

/-- A manifest may replace another (R352). -/
def swapOk (a b : List Byte) : Bool :=
  Mf.modelId a == Mf.modelId b && Mf.layers a == Mf.layers b && Mf.tensors a == Mf.tensors b &&
    ((List.range (Mf.layers a)).all fun l => Mf.layerTensors a l == Mf.layerTensors b l) &&
    (List.range (Mf.tensors a)).all fun t => swapTensorOk (Mf.tensor a t) (Mf.tensor b t)

/-- The quota holds the largest of some layers (R353). -/
def quotaHolds (s : State) (p : Nat) (m : List Byte) (ls : List Nat) : Bool :=
  ls.all fun l => (List.range 2).all fun t =>
    let need := ((Mf.layerTensors m l).filterMap fun x => (tierHome (Mf.tensor m x)).bind fun y =>
      if y.1 = t ∧ !Ts.resident (Mf.tensor m x) then some (ceilDiv (y.2 % 65536 + Ts.stored (Mf.tensor m x)) 65536) else none).sum
    decide (quotaUsed s p t + need ≤ quotaLimit s p t)

/-- A named layer has a shared resident tensor (R358). -/
def sharedResident (s : State) (i : Nat) (ls : List Nat) : Bool :=
  let m := manifestOf s i
  decide (1 < (partsOn s i).length) && ls.any fun l => (Mf.layerTensors m l).any fun t => Ts.resident (Mf.tensor m t)

/-- The status of a model that cannot be swapped. -/
def swapBusy (b : Binding) : Bool := b.state == 0 || b.state == 3 || b.state == 5

def modelSwap (c : Cmd) (s : State) : State × Ans :=
  let h := pNum c 0 2
  if !deadlineOk (pNum c 20 4) then refuse stBadCommand s else
  match myBinding s c h with
  | none => refuse stBadCommand s
  | some b =>
    if swapBusy b then refuse stBusy s
    else if b.state ≠ 2 then refuse stBadCommand s
    else withManifest c (pNum c 8 8) (pNum c 16 4) s fun m =>
      let n := Mf.layers m
      if !swapOk (manifestOf s b.image) m then refuse stRefusedFormat s
      else if sharedResident s b.image (List.range n) ∧ c.m.func % 32 ≠ 0 then refuse stNotPermitted s
      else if !quotaHolds s b.part m (List.range n) then refuse stRefusedCapacity s
      else match Tbl.free s.mdl.images 512 with
        | none => refuse stRefusedCapacity s
        | some i =>
          let s := setImage i (some { manifest := m, digest := Config.sha384 m, layers := [], shareMask := 0, loader := b.part }) s
          later (modBinding h (fun b => { b with state := 3, swap := some { newSwap 0 i 0 n false c with flush := pBit c 2 0, window := pNum c 28 4, retryLimit := pByte c 24, deadline := some (s.now + 1000000 * pNum c 20 4) } }) s)

def swapAllow : List (Nat × Nat × Nat) := [(0, 1, 0xFF), (2, 2, 1), (8, 23, 0xFF), (24, 24, 7), (28, 31, 0xFF)]

def modelSwapSpec : CmdSpec := { op := 0x0304, allow := swapAllow, perm := byAny, body := modelSwap }

/-- MODEL_SWAP (R352 to R358). -/
def execModelSwap (m : Mbx) (s : State) : Host.Outcome State Fault Refusal := .next (runCmd modelSwapSpec m s)

/-- Go on with a mixed model: forward to the new version, or back to the old one. -/
def continueSwap (back : Bool) (c : Cmd) (s : State) : State × Ans :=
  let h := pNum c 0 2
  if !deadlineOk (pNum c 20 4) then refuse stBadCommand s else
  match myBinding s c h with
  | none => refuse stBadCommand s
  | some b => match b.journal with
    | none => if swapBusy b then refuse stBusy s else refuse stBadCommand s
    | some (new, old, k) =>
      if b.state ≠ 4 then refuse stBusy s
      else withManifest c (pNum c 8 8) (pNum c 16 4) s fun m =>
        let i := if back then old else new
        let ls := if back then List.range k else (List.range (Mf.layers m)).drop k
        if (image? s i).map Image.digest ≠ some (Config.sha384 m) then refuse stBadCommand s
        else if sharedResident s i ls ∧ c.m.func % 32 ≠ 0 then refuse stNotPermitted s
        else if !quotaHolds s b.part m ls then refuse stRefusedCapacity s
        else later (modBinding h (fun b => { b with state := 3, swap := some { newSwap (if back then 4 else 3) i (if back then k - 1 else k) ls.length back c with flush := pBit c 2 0, window := pNum c 28 4, retryLimit := pByte c 24, deadline := some (s.now + 1000000 * pNum c 20 4) } }) s)

def modelSwapResumeSpec : CmdSpec := { op := 0x0305, allow := swapAllow, perm := byAny, body := continueSwap false }

/-- MODEL_SWAP_RESUME (R363). -/
def execModelSwapResume (m : Mbx) (s : State) : Host.Outcome State Fault Refusal := .next (runCmd modelSwapResumeSpec m s)

def modelSwapRevertSpec : CmdSpec := { op := 0x0306, allow := swapAllow, perm := byAny, body := continueSwap true }

/-- MODEL_SWAP_REVERT (R363). -/
def execModelSwapRevert (m : Mbx) (s : State) : Host.Outcome State Fault Refusal := .next (runCmd modelSwapRevertSpec m s)

/-- The layers a command names lie in the model. -/
def layersNamed (c : Cmd) (m : List Byte) : Option (Nat × Nat) :=
  let a := pNum c 2 2
  let b := pNum c 4 2
  if a ≤ b ∧ b < Mf.layers m then some (a, b + 1 - a) else none

def modelUpdate (c : Cmd) (s : State) : State × Ans :=
  let h := pNum c 0 2
  match myBinding s c h with
  | none => refuse stBadCommand s
  | some b =>
    let m := manifestOf s b.image
    if swapBusy b then refuse stBusy s
    else if b.state ≠ 2 then refuse stBadCommand s
    else if !Mf.trainable m ∨ 1 < (s.mdl.bindings.filter fun x => x.2.any fun y => y.refersTo b.image).length then refuse stNotPermitted s
    else match layersNamed c m with
      | none => refuse stBadCommand s
      | some (first, n) =>
        let ls := (List.range n).map (first + ·)
        let total := ((ls.flatMap (Mf.layerTensors m)).filter (updated m)).map (fun t => Ts.stored (Mf.tensor m t)) |>.sum
        let mine := match place (pNum c 8 8) (max 1 total) with | .tier t off => ownsExtent s b.part t off (max 1 total) | _ => false
        if !mine then refuse stNotPermitted s
        else if !quotaHolds s b.part m ls then refuse stRefusedCapacity s
        else later (modBinding h (fun b => { b with state := 3, swap := some { newSwap 1 b.image first n false c with source := pNum c 8 8 } }) s)

def modelUpdateSpec : CmdSpec := { op := 0x0307, allow := [(0, 5, 0xFF), (8, 15, 0xFF)], perm := byAny, body := modelUpdate }

/-- MODEL_UPDATE (R350, R368, R369): LAYER_STAGED makes the commit pass over each layer. -/
def execModelUpdate (m : Mbx) (s : State) : Host.Outcome State Fault Refusal := .next (runCmd modelUpdateSpec m s)

/-! ### MODEL_UNLOAD (R351) -/

/-- Remove a binding and what hangs on it. -/
def unbind (h : Nat) (s : State) : State :=
  match binding? s h with
  | none => s
  | some b =>
    let s := (bindingPrefixes s h).foldl (fun s i => freePrefix i false s) s
    let s := releaseSrv h b.part (releasePool h b.part s)
    let s := modSrv (fun x => { x with prefixes := x.prefixes.filter fun p => !p.2.any fun y => y.binding == h }) s
    let is_ := (s.mdl.images.map Prod.fst).filter b.refersTo
    let s := is_.foldl (fun s i => let m := manifestOf s i
      (List.range (Mf.layers m)).foldl (fun s l => clearOverride b.part (Ly.monitor (Mf.layer m l)) s) s) s
    is_.foldl (fun s i => detach b.part i s) (dropImages (setBinding h none s))

/-- An active program is bound to a model (R341, R372): its relocations name the model's homes, or the model has resident tensors. -/
def boundActive (s : State) (b : Binding) : Bool :=
  match Tbl.get none s.prog.active b.part with
  | none => false
  | some a =>
    let hs := s.mdl.images.flatMap fun x => if b.refersTo x.1 then (x.2.map imageHomes).getD [] else []
    hs.any fun h => h.tier == 2 || a.relocs.any fun r => r.nominal == h.nominal

def modelUnload (c : Cmd) (s : State) : State × Ans :=
  let h := pNum c 0 2
  match myBinding s c h with
  | none => refuse stBadCommand s
  | some b =>
    if swapBusy b || boundActive s b || bindingLive s h then refuse stBusy s
    else done (unbind h s)

def modelUnloadSpec : CmdSpec := { op := 0x0302, allow := [(0, 1, 0xFF)], perm := byAny, body := modelUnload }

/-- MODEL_UNLOAD (R351, R367, R372). -/
def execModelUnload (m : Mbx) (s : State) : Host.Outcome State Fault Refusal := .next (runCmd modelUnloadSpec m s)

/-! ### MODEL_CHECKPOINT (R370) and MODEL_QUERY -/

/-- The checkpointed form of a tensor: bytes and shard encoding. -/
def checkpointForm (s : State) (m : List Byte) (ly : LayerSt) (form t : Nat) : List Byte × Nat :=
  let r := Mf.tensor m t
  let bs := storedForm s m ly t
  let f := Ts.format r
  let vals := if isBlockFmt f then (cut (fmtBlockBytes f + 1) bs).flatMap fun b => blkVals (unpackBlk f b)
    else (List.range (bs.length / elemBytes f)).map fun i => elemVal f (leAt bs (elemBytes f * i) (elemBytes f))
  if form ≠ 0 ∧ Ts.role r = 8 ∧ !tiled r ∧ 1 ≤ f ∧ f ≤ 7 ∧ vals.length % 128 = 0 then (frcEncRow (if form = 1 then 0xC else 0xD) vals, 5) else (bs, 0)

/-- The shard records of a checkpointed tensor: at most 256 MiB each. -/
def checkpointShards (t enc source peer addr : Nat) : Nat → Nat → Nat → List (List Byte)
  | 0, _, _ => []
  | n + 1, off, left =>
    if left = 0 then [] else
    let k := min left 268435456
    (leBytes 2 t ++ leBytes 1 enc ++ leBytes 1 source ++ leBytes 2 peer ++ leBytes 2 0 ++ leBytes 8 (addr + off) ++ leBytes 8 off ++ leBytes 4 k ++ leBytes 4 0) ::
      checkpointShards t enc source peer addr n (off + k) (left - k)

/-- The manifest of a checkpoint: the named layers renumbered from 0, their data at an address, an empty signature. -/
def checkpointManifest (m : List Byte) (first n source peer addr : Nat) (forms : List (Nat × List Byte × Nat)) : List Byte :=
  let t0 := leAt (Mf.layer m first) 0 2
  let offs := (forms.mapIdx fun i _ => ((forms.take i).map fun x => x.2.1.length).sum)
  let layers := (List.range n).flatMap fun i => let r := Mf.layer m (first + i)
    leBytes 2 (leAt r 0 2 - t0) ++ r.drop 2
  let tensors := forms.flatMap fun x => Mf.tensor m x.1
  let shards := (forms.mapIdx fun i x => checkpointShards (x.1 - t0) x.2.2 source peer (addr + offs.getD i 0) (x.2.1.length / 268435456 + 1) 0 x.2.1.length).flatten
  let lo := 128
  let to_ := lo + 32 * n
  let so := to_ + 64 * forms.length
  leBytes 4 0x4D575856 ++ leBytes 2 1 ++ leBytes 2 (Mf.flags m) ++ leBytes 8 (Mf.modelId m) ++ leBytes 4 (Mf.version m) ++ leBytes 2 n ++ leBytes 2 forms.length ++
    leBytes 4 shards.length ++ leBytes 1 (Mf.pageShift m) ++ leBytes 3 0 ++ leBytes 4 lo ++ leBytes 4 to_ ++ leBytes 4 so ++ leBytes 4 (so + 32 * shards.length) ++
    leBytes 80 0 ++ layers ++ tensors ++ shards.flatten ++ List.replicate 96 0

/-- A checkpoint reads the model while it is held, and writes data and manifest (R370). -/
def applyCheckpoint (c : Cmd) (s : State) : State × Ans :=
  let h := pNum c 0 2
  match myBinding s c h with
  | none => refuse stBadCommand s
  | some b =>
    let m := manifestOf s b.image
    let addr := pNum c 8 8
    if swapBusy b then refuse stBusy s else
    match (if b.state = 2 ∧ pByte c 6 ≤ 2 then layersNamed c m else none) with
    | none => refuse stBadCommand s
    | some (first, n) =>
      let forms := ((List.range n).flatMap fun i => (Mf.layerTensors m (first + i)).map fun t =>
        let ly := ((layer? s (b.imageOf (first + i)) (first + i)).getD .empty)
        (t, checkpointForm s m ly (pByte c 6) t))
      let data := forms.flatMap fun x => x.2.1
      let mine := match place addr (max 1 data.length) with
        | .tier 1 off => ownsWritable s b.part 1 off (max 1 data.length)
        | .host _ => hostOk s c addr (max 1 data.length)
        | _ => false
      let source := match place addr 1 with | .host p => p | _ => 2
      let mf := checkpointManifest m first n source (if source = 2 then s.fab.chip else 0) addr forms
      if !mine || !hostOk s c (pNum c 16 8) mf.length then refuse stNotPermitted s
      else
        let s := holdBinding h s
        let s := match place addr (max 1 data.length) with
          | .tier 1 off => (tierWrite 1 off data false 0 s)
          | _ => writeHost c.m.func addr data false s
        done (releaseBinding h (writeHost c.m.func (pNum c 16 8) mf false s))

def modelCheckpoint (c : Cmd) (s : State) : State × Ans :=
  match myBinding s c (pNum c 0 2) with
  | none => refuse stBadCommand s
  | some b => if swapBusy b then refuse stBusy s else if stepping s then later s else applyCheckpoint c s

def modelCheckpointSpec : CmdSpec := { op := 0x0308, allow := [(0, 5, 0xFF), (6, 6, 3), (8, 23, 0xFF)], perm := byAny, body := modelCheckpoint }

/-- MODEL_CHECKPOINT (R370, R371). -/
def execModelCheckpoint (m : Mbx) (s : State) : Host.Outcome State Fault Refusal := .next (runCmd modelCheckpointSpec m s)

def modelQuery (c : Cmd) (s : State) : State × Ans :=
  match myBinding s c (pNum c 0 2) with
  | none => refuse stBadCommand s
  | some b =>
    let dg := fun i => ((image? s i).map Image.digest).getD 0
    let mixed := match b.journal with
      | some (n, o, k) => [dg n, dg o, 0, k - 1, k, Mf.layers (manifestOf s n) - 1]
      | none => [dg b.image]
    intoHost c (pNum c 8 8) 4096 (Config.queryImage 0x0309 ([b.state, b2n b.held] ++ mixed)) s

def modelQuerySpec : CmdSpec := { op := 0x0309, allow := [(0, 1, 0xFF), (8, 15, 0xFF)], perm := byAny, body := modelQuery }

/-- MODEL_QUERY (R362, R372); the buffer's layout is not given (log entry 11). -/
def execModelQuery (m : Mbx) (s : State) : Host.Outcome State Fault Refusal := .next (runCmd modelQuerySpec m s)

end Sys2Proof.Machine
end

