-- ==== Sys2Proof/Machine/Serve.lean ====
section
/-! DEFINITION. Requests as the host sees them: submission, cancellation, parking, prefixes, delivery, queries (11_serving.md, R410 to R416, R426, R431 to R440, R456, R457; 10_attention_kv_cache.md, R385, R402, R407). Readings of these chapters: log entry 35. -/
namespace Sys2Proof.Machine

/-! ### Submission (R413, R416) -/

/-- The bag records of a single-shot input. -/
def bagsOf (bs : List Byte) : List Bag := (Config.bagRecords bs).map fun x => { table := x.1, op := x.2.1, ids := x.2.2 }

/-- An ID is valid in its table (R416). -/
def idOk (cfg : List Byte) (t id : Nat) : Bool := decide (id < Sc.tblRows cfg t) && id != 0x0FFFFFFFFFFFFFFF

def bagOk (cfg : List Byte) (b : Bag) : Bool :=
  Sc.defined cfg b.table && decide (b.op ≤ 3) && decide (1 ≤ b.ids.length) && decide (b.ids.length ≤ 4096) && (b.op != 0 || b.ids.length == 1) &&
    b.ids.all (idOk cfg b.table)

/-- Live requests of a partition (R458). -/
def partLive (s : State) (p : Nat) : Nat := ((liveSlots s).filter fun k => (req s k).part == p).length

/-- Bytes of the record per input unit: a position, or a byte of a single-shot input. -/
def recUnit (cfg : List Byte) : Nat := if Sc.single cfg then 1 else Sc.tokenBytes cfg

/-- Map a prefix's page into a sequence: by reference, or copied where its count is full (R385); `false` where no table or page can be had. -/
def mapPage (k key page : Nat) (s : State) : Bool × State :=
  match seqp? s k with
  | none => (false, s)
  | some q =>
    match openPath k (keyLayer key) (keyPage key) s with
    | none => (false, s)
    | some s =>
      let e := fun n => some ({ state := 1, shared := false, tentative := false, poisoned := false, fill := 64, page := n } : PageEntry)
      match pool? s q.binding with
      | none => (false, s)
      | some p =>
        if 65535 ≤ Tbl.get 0 p.counts page then
          match allocPage q.binding s with
          | some x => (true, setEntry k key (e x.1) (wrLocal (p.pageAddr x.1) (rdBytes s (p.pageAddr page) p.payload) x.2))
          | none => (false, s)
        else (true, addCount q.binding page true (setEntry k key (e page) s))

/-- Start a sequence from a prefix: watermark P and its pages; from nothing where they cannot be mapped (R434). -/
def mapPrefix (k : Nat) (x : Prefix) (s : State) : State :=
  let a := x.pages.foldl (fun (a : Bool × State) g => let r := mapPage k g.1 g.2 a.2
    (a.1 && r.1, r.2)) (true, s)
  if a.1 then modReq k (fun r => { r with prefilled := x.positions }) (modSeqp k (fun q => { q with watermark := x.positions, written := x.positions }) a.2)
  else dropPages k false a.2

/-- Begin to restore a parked sequence: pages for its parked entries (R414, R440). -/
def startUnpark (k : Nat) (s : State) : Option State :=
  (seqp? s k).bind fun q =>
    let keys := (q.entries.filter fun e => e.2.any fun y => y.state == 3).map Prod.fst
    keys.foldlM (fun (a : List (Nat × Nat) × State) key => (allocPage q.binding a.2).map fun x => (a.1 ++ [(key, x.1)], x.2)) ([], s) |>.map fun a =>
      modReq k (fun r => { r with state := .unparking, moves := a.1, moved := false, wantUnpark := false }) a.2

/-- The new turn that a submission begins. -/
def beginTurn (k : Nat) (c : Cmd) (n : Nat) (bags : List Bag) (s : State) : State :=
  let f := pByte c 3
  modReq k (fun r =>
    { r with turnFunc := c.m.func, cls := pByte c 2, keep := bit f 0, spec := bit f 1, progress := bit f 2, admitted := rack s, order := s.srv.orderNext,
             inputs := r.inputs + n, copied := n == 0, inputAddr := pNum c 16 8, bags := bags, outAddr := pNum c 24 8, outBytes := pNum c 32 4, outUsed := 0,
             maxNew := pNum c 36 4, outputs := 0, endStatus := 0, delivered := 0, lastDelivery := none, ttft := 0, maxTbt := 0, lateTtft := false,
             lateTbt := false, specOff := false, specHist := [], specProbe := 0, firstStep := true })
    (modSrv (fun x => { x with orderNext := x.orderNext + 1, admitted := satAdd 64 x.admitted 1 }) s)

/-- A new request in a slot. -/
def newReq (k h : Nat) (c : Cmd) (pre : Option Prefix) (s : State) : State :=
  let cfg := (srvOf s h).getD []
  let s := modReq k (fun r => { Request.reset with gen := r.gen, state := .waiting, func := c.m.func, part := cmdPart c, binding := h }) s
  if Sc.single cfg then s else
  let s := newSeq k h s
  let s := match pByte c 3 &&& 2, Sc.draft cfg with
    | 2, some d => newSeq (draftKey k) d s
    | _, _ => s
  match pre with
  | none => s
  | some x =>
    let s := modReq k (fun r => { r with inputs := x.positions }) s
    mapPrefix k x ((extendRecord k x.record s).getD s)

/-- Refuse a submission. -/
def rejectSubmit (st : Nat) (s : State) : State × Ans := refuse st (modSrv (fun x => { x with rejected := satAdd 32 x.rejected 1 }) s)

/-- A submission whose input needs no further check (R416, from the second row of its table on). -/
def admitSubmit (c : Cmd) (h : Nat) (b : Binding) (cfg : List Byte) (bags : List Bag) (s : State) : State × Ans :=
  let p := cmdPart c
  let n := pNum c 12 4
  let id := pNum c 4 4
  let slot : Nat ⊕ Option Nat := if id = 0xFFFFFFFF then .inr none else match findReq s p id with
    | .inl st => .inl st
    | .inr k => if (req s k).binding = h then .inr (some k) else .inl stBadCommand
  let pre : Nat ⊕ Option Prefix := if pNum c 8 4 = 0xFFFFFFFF then .inr none else match findPrefix s p (pNum c 8 4) with
    | .inl st => .inl st
    | .inr x => if x.binding = h ∧ id = 0xFFFFFFFF ∧ !Sc.single cfg then .inr (some x) else .inl stBadCommand
  match slot, pre with
  | .inl st, _ => rejectSubmit st s
  | _, .inl st => rejectSubmit st s
  | .inr slot, .inr pre =>
    let have_ := match slot, pre with
      | some k, _ => (req s k).inputs
      | none, some x => x.positions
      | none, none => 0
    if slot.any fun k => !((req s k).state == .idle || ((req s k).state == .parked && !(req s k).wantUnpark)) then rejectSubmit stBusy s
    else if b.state = 0 then rejectSubmit stBusy s
    else if b.state = 1 then rejectSubmit stShardFailed s
    else if b.state = 4 then rejectSubmit stModelMixed s
    else if pre.any Prefix.poisoned then rejectSubmit stPoisoned s
    else if !Sc.single cfg && decide (16777215 < have_ + n + pNum c 36 4) then rejectSubmit stLengthLimit s
    else match slot with
      | some k =>
        let s := beginTurn k c n [] s
        let s := if (req s k).state == .parked then (startUnpark k s).getD (countDeferred (modReq k (fun r => { r with wantUnpark := true }) s))
          else modReq k (fun r => { r with state := .waiting }) s
        doneWith (leBytes 4 (reqId s k)) s
      | none =>
        if 262144 ≤ (liveSlots s).length ∨ ((part? s p).map Part.reqLimit).getD 0 ≤ partLive s p then rejectSubmit stNoResource s
        else
          let k := firstGap (liveSlots s) 0
          let s := beginTurn k c n bags (newReq k h c pre s)
          doneWith (leBytes 4 (reqId s k)) s

def srvSubmit (c : Cmd) (s : State) : State × Ans :=
  let h := pNum c 0 2
  match myBinding s c h, srvOf s h with
  | some b, some cfg =>
    let n := pNum c 12 4
    let len := n * recUnit cfg
    if 16 ≤ pByte c 2 then rejectSubmit stBadCommand s
    else if !hostOk s c (pNum c 16 8) len || !hostOk s c (pNum c 24 8) (pNum c 32 4) then rejectSubmit stNotPermitted s
    else if !Sc.single cfg then admitSubmit c h b cfg [] s
    else match c.m.host with
      | .ok bs =>
        let bags := bagsOf (padTo len bs)
        if bags.all (bagOk cfg) then admitSubmit c h b cfg bags s else rejectSubmit stBadCommand s
      | r => rejectSubmit ((hostStatus r).getD stOk) (countRead ((hostStatus r).getD stOk) s)
  | _, _ => rejectSubmit stBadCommand s

def srvSubmitSpec : CmdSpec := { op := 0x0503, allow := [(0, 2, 0xFF), (3, 3, 7), (4, 39, 0xFF)], perm := byAny, body := srvSubmit }

/-- A submission refused for a reserved bit counts as refused too (R416, R458). -/
def countReserved (m : Mbx) (s : State) : State :=
  onlyIf (canStart s m && (firstReserved srvSubmitSpec.allow 48 m.params).isSome) (modSrv fun x => { x with rejected := satAdd 32 x.rejected 1 }) s

/-- SRV_SUBMIT (R410 to R416, R434, R441). -/
def execSrvSubmit (m : Mbx) (s : State) : Host.Outcome State Fault Refusal := .next (runCmd srvSubmitSpec m (countReserved m s))

/-- The input of a submission is in the record, or could not be read (R303, R413, R416). -/
def inputCopied (k : Nat) (data : HostRead) (s : State) : State :=
  let r := req s k
  let st := fun status => if r.state == .waiting then endTurn k status (countRead status s) else endReq k status (countRead status s)
  if !r.live || r.copied || r.state == .ending then s else
  let fail := if enabled s r.turnFunc then none else some stAbortedDisable
  match fail <|> hostStatus data, data with
  | some x, _ => st x
  | none, .ok bs =>
    match extendRecord k (padTo (r.inputs * recUnit (reqCfg s k) - r.record.length) bs) s with
    | some s => modReq k (fun r => { r with copied := true }) s
    | none => countDeferred s
  | none, _ => s

/-- INPUT_COPY_COMPLETE (R303, R413, R416): the input stands in the token record, and the request is eligible. -/
def execInputCopyComplete (slot : Nat) (data : HostRead) (s : State) : Host.Outcome State Fault Refusal := .next (inputCopied slot data s)

/-! ### Cancellation (R421, R431) -/

/-- A turn is under way. -/
def Request.inTurn (r : Request) : Bool :=
  r.state == .waiting || r.state == .prefill || r.state == .decode || r.state == .unparking || r.wantUnpark

/-- Cancel in the reserve. -/
def applyCancel (c : Cmd) (s : State) : State × Ans :=
  match findReq s (cmdPart c) (pNum c 0 4) with
  | .inl st => refuse st s
  | .inr k =>
    let r := req s k
    if r.state == .ending then done s else
    let s := modSrv (fun x => { x with cancelled := satAdd 32 x.cancelled 1 }) s
    let s := if r.inTurn then modClassStat k (fun x => { x with turns := satAdd 32 x.turns 1 }) s else s
    done (endReq k (if r.inTurn then stAbortedCancel else stOk) s)

def srvCancel (c : Cmd) (s : State) : State × Ans :=
  match findReq s (cmdPart c) (pNum c 0 4) with
  | .inl st => refuse st s
  | .inr k => if (req s k).state == .ending then done s else if stepping s then later s else applyCancel c s

def srvCancelSpec : CmdSpec := { op := 0x0504, allow := [(0, 3, 0xFF)], perm := byAny, body := srvCancel }

/-- SRV_CANCEL (R412, R431). -/
def execSrvCancel (m : Mbx) (s : State) : Host.Outcome State Fault Refusal := .next (runCmd srvCancelSpec m s)

/-! ### Parking (R436 to R440) -/

/-- The address of a park block. -/
def parkAddr (p : Pool) (cfg : List Byte) (t3 : Bool) (i : Nat) : Nat :=
  if t3 then Sc.parkBase cfg + i * (p.payload / 4) else p.base + i * (p.payload / 4)

/-- The entries of a request that a park moves: every resident, unshared page (R437). -/
def parkKeys (s : State) (k : Nat) : List Nat :=
  match seqp? s k with
  | some q => (q.entries.filter fun (e : Nat × Option PageEntry) => e.2.any fun y => y.state == 1 && !y.shared).map Prod.fst
  | none => []

/-- Park blocks for entries, all or none (R438). -/
def takeParks (b : Nat) (t3 : Bool) (blocks : Nat) (keys : List Nat) (s : State) : Option (List (Nat × Nat) × State) :=
  keys.foldlM (fun a key => (allocPark b t3 blocks a.2).map fun x => (a.1 ++ [(key, x.1)], x.2)) ([], s)

/-- Begin to park: blocks for every resident, unshared page (R437, R438). -/
def applyPark (c : Cmd) (s : State) : State × Ans :=
  match findReq s (cmdPart c) (pNum c 0 4) with
  | .inl st => refuse st s
  | .inr k =>
    if (req s k).state != .idle then refuse stBusy s else
    match takeParks (req s k).binding (pByte c 4 == 1) (Sc.parkBlocks (reqCfg s k)) (parkKeys s k) s with
    | none => refuse stNoResource s
    | some a => done (modReq k (fun r =>
        { r with state := .parking, moves := a.1, moved := false, parkDest := pByte c 4, parkStart := rack s, parkTtl := pNum c 8 4 }) a.2)

def srvPark (c : Cmd) (s : State) : State × Ans :=
  match findReq s (cmdPart c) (pNum c 0 4) with
  | .inl st => refuse st s
  | .inr k =>
    if 1 < pByte c 4 ∨ pNum c 8 4 = 0 ∨ 1000000 < pNum c 8 4 then refuse stBadCommand s
    else if (req s k).state != .idle then refuse stBusy s
    else if stepping s then later s else applyPark c s

def srvParkSpec : CmdSpec := { op := 0x0505, allow := [(0, 4, 0xFF), (8, 11, 0xFF)], perm := byAny, body := srvPark }

/-- SRV_PARK (R436): the park begins in a reserve. -/
def execSrvPark (m : Mbx) (s : State) : Host.Outcome State Fault Refusal := .next (runCmd srvParkSpec m s)

/-- A page as it is parked: FRC-4 of its values, or unchanged (R437). -/
def parkForm (p : Pool) (page : List Byte) : List Byte :=
  let n := 128 * p.heads * p.dim
  if p.kvFmt = 6 then frcEncRow 0xD ((List.range n).map fun i => elemVal 6 (leAt page (2 * i) 2))
  else if p.kvFmt = 0xC then frcEncRow 0xD (frcDecRow 0xC (page.take n))
  else page

/-- A parked block as a page of the pool again (R439). -/
def unparkForm (p : Pool) (block : List Byte) : List Byte :=
  let n := 64 * p.heads * p.dim
  if p.kvFmt = 6 then (frcDecRow 0xD (block.take n)).flatMap fun v => leBytes 2 (bf16OfVal v)
  else if p.kvFmt = 0xC then frcEncRow 0xC (frcDecRow 0xD (block.take n))
  else block

/-- Completed moves, in the reserve (R414, R421). -/
def finishMoves (k : Nat) (s : State) : State :=
  let r := req s k
  let b := r.binding
  if !r.moved then s else
  let s := r.moves.foldl (fun s m => match (seqp? s k).bind fun q => Tbl.get none q.entries m.1 with
    | none => s
    | some e =>
      if r.state == .parking then addCount b e.page false (setEntry k m.1 (some { e with state := 3, shared := false, page := m.2 }) s)
      else freePark b (r.parkDest == 1) e.page (setEntry k m.1 (some { e with state := 1, page := m.2 }) s)) s
  modReq k (fun r => { r with state := if r.state == .parking then .parked else .waiting, moves := [], moved := false }) s

/-- Moves count at once while no reserve comes (R698). -/
def movesDone (k : Nat) (s : State) : State :=
  let s := modReq k (fun r => { r with moved := true }) s
  if stepping s then s else finishMoves k s

/-- Move one page to its park block, as it is parked. -/
def parkOne (slot : Nat) (q : SeqPages) (p : Pool) (m : Nat × Nat) (s : State) : State :=
  match Tbl.get none q.entries m.1 with
  | none => s
  | some e =>
    let t3 := (req s slot).parkDest == 1
    let bs := parkForm p (rdBytes s (p.pageAddr e.page) p.payload)
    let a := parkAddr p (reqCfg s slot) t3 m.2
    if !t3 then wrLocal a bs s else match partWindow s (req s slot).part a bs.length with
      | some w => writeWindow w a bs false s
      | none => s

/-- PARK_MOVE_COMPLETE (R437, R438): the last page has moved. -/
def execParkMoveComplete (slot : Nat) (s : State) : Host.Outcome State Fault Refusal :=
  .next (match seqp? s slot, pool? s (req s slot).binding with
    | some q, some p =>
      if (req s slot).state != .parking || (req s slot).moved then s else movesDone slot ((req s slot).moves.foldl (fun s m => parkOne slot q p m s) s)
    | _, _ => s)

/-- Restore one parked block to its page: the `i`th of a run the host answered, or the pool's. -/
def unparkOne (slot : Nat) (q : SeqPages) (p : Pool) (host : Option (List Byte)) (x : Nat × Nat × Nat) (s : State) : State :=
  match Tbl.get none q.entries x.2.1 with
  | none => s
  | some e =>
    let n := p.quarters * (p.payload / 4)
    let block := match host with | some bs => sliceBytes bs (x.1 * n) n | none => rdBytes s (parkAddr p (reqCfg s slot) false e.page) n
    wrLocal (p.pageAddr x.2.2) (unparkForm p block) s

/-- UNPARK_COMPLETE (R414, R439): the last page is restored; from T3 as the host's memory gives it, and pages that cannot be read are dropped (log entry 35). -/
def execUnparkComplete (slot : Nat) (data : HostRead) (s : State) : Host.Outcome State Fault Refusal :=
  .next (match seqp? s slot, pool? s (req s slot).binding with
    | some q, some p =>
      if (req s slot).state != .unparking || (req s slot).moved then s else
      let moves := (req s slot).moves.mapIdx fun i m => (i, m)
      if (req s slot).parkDest != 1 then movesDone slot (moves.foldl (fun s x => unparkOne slot q p none x s) s)
      else match data with
        | .ok bs => movesDone slot (moves.foldl (fun s x => unparkOne slot q p (some bs) x s) s)
        | h => dropReq slot (countRead ((hostStatus h).getD stOk) s)
    | _, _ => s)

/-- A parked request's time to live has ended at a tick (R440). -/
def parkExpired (s : State) (t k : Nat) : Bool :=
  let r := req s k
  r.state == .parked && decide (r.parkStart + 1000000000 * r.parkTtl ≤ t)

/-- It ends with EXPIRED, and its identifier reports so (R412, R440). -/
def expireReq (t k : Nat) (s : State) : State :=
  if !parkExpired s t k then s else
  endReq k stExpired (modReq k (fun r => { r with expired := true }) (modSrv (fun x => { x with expired := satAdd 32 x.expired 1 }) s))

/-- PARK_EXPIRY (R440): in a reserve, or at any time while stepping does not run. -/
def execParkExpiry (slot : Nat) (s : State) : Host.Outcome State Fault Refusal :=
  .next (if s.step.inReserve || !stepping s then expireReq (if stepping s then s.step.lastTick.getD (rack s) else rack s) slot s else s)

/-! ### Prefixes (R432 to R435) -/

/-- The entries that hold the prefix's positions: of a windowed layer only those within its window. -/
def prefixKeys (p : Pool) (n : Nat) : List Nat :=
  p.kvLayers.flatMap fun l =>
    let lo := if p.window l = 0 then 0 else n - 64 * p.window l
    (pagesOf lo (n - lo)).map (pageKey l)

/-- The pages of a prefix: every one resident, or none at all. -/
def prefixPages (q : SeqPages) (p : Pool) (n : Nat) : Option (List (Nat × Nat)) :=
  (prefixKeys p n).mapM fun key => (Tbl.get none q.entries key).bind fun e => if e.state = 1 then some (key, e.page) else none

/-- The live prefixes. -/
def livePrefixes (s : State) : List Nat := (s.srv.prefixes.filter fun x => x.2.any Prefix.live).map Prod.fst

/-- Create a prefix in the reserve (R433). -/
def applyPrefixCreate (c : Cmd) (s : State) : State × Ans :=
  match findReq s (cmdPart c) (pNum c 0 4) with
  | .inl _ => refuse stBadCommand s
  | .inr k =>
    let r := req s k
    let n := pNum c 4 4
    match seqp? s k, pool? s r.binding with
    | some q, some p =>
      if !(r.state == .idle || r.state == .decode) || n % 64 != 0 || decide (q.watermark < n) then refuse stBadCommand s else
      match prefixPages q p n, (if (livePrefixes s).length < 65536 then some (firstGap (livePrefixes s) 0) else none) with
      | some ps, some i =>
        let old := Tbl.get none s.srv.prefixes i
        let gen := (old.map fun x => (x.gen + 1) % 65535).getD 0
        let s := ps.foldl (fun s g => addCount r.binding g.2 true s) s
        doneWith (leBytes 2 i ++ leBytes 2 gen) (modSrv (fun v => { v with prefixes := Tbl.set none v.prefixes i (some
          { gen := gen, live := true, part := r.part, binding := r.binding, positions := n, pages := ps, record := r.record.take (n * Sc.tokenBytes (reqCfg s k)),
            poisoned := ps.any fun g => (Tbl.get none q.entries g.1).any PageEntry.poisoned, flushed := false }) }) s)
      | _, _ => refuse stNoResource s
    | _, _ => refuse stBadCommand s

def srvPrefixCreate (c : Cmd) (s : State) : State × Ans :=
  match findReq s (cmdPart c) (pNum c 0 4) with
  | .inl _ => refuse stBadCommand s
  | .inr k =>
    let wm := ((seqp? s k).map SeqPages.watermark).getD 0
    if !((req s k).state == .idle || (req s k).state == .decode) || pNum c 4 4 % 64 != 0 || decide (wm < pNum c 4 4) then refuse stBadCommand s
    else if stepping s then later s else applyPrefixCreate c s

def srvPrefixCreateSpec : CmdSpec := { op := 0x0506, allow := [(0, 7, 0xFF)], perm := byAny, body := srvPrefixCreate }

/-- SRV_PREFIX_CREATE (R432, R433). -/
def execSrvPrefixCreate (m : Mbx) (s : State) : Host.Outcome State Fault Refusal := .next (runCmd srvPrefixCreateSpec m s)

/-- Release a prefix in the reserve (R435). -/
def applyPrefixRelease (c : Cmd) (s : State) : State × Ans :=
  match findPrefix s (cmdPart c) (pNum c 0 4) with
  | .inl _ => refuse stBadCommand s
  | .inr _ => done (freePrefix (pNum c 0 4 % 65536) false s)

def srvPrefixRelease (c : Cmd) (s : State) : State × Ans :=
  match findPrefix s (cmdPart c) (pNum c 0 4) with
  | .inl _ => refuse stBadCommand s
  | .inr _ => if stepping s then later s else applyPrefixRelease c s

def srvPrefixReleaseSpec : CmdSpec := { op := 0x0507, allow := [(0, 3, 0xFF)], perm := byAny, body := srvPrefixRelease }

/-- SRV_PREFIX_RELEASE (R435). -/
def execSrvPrefixRelease (m : Mbx) (s : State) : Host.Outcome State Fault Refusal := .next (runCmd srvPrefixReleaseSpec m s)

/-! ### Delivery (R415, R426, R457) -/

/-- OUTPUT_DELIVERY (R426): the oldest output bytes of a request that wait go to its output buffer. -/
def execOutputDelivery (slot : Nat) (s : State) : Host.Outcome State Fault Refusal :=
  .next (
    let r := req s slot
    match r.deliveries with
    | [] => s
    | d :: ds =>
      let rest := (ds.map fun x => x.1.length).sum
      let on := enabled s r.turnFunc
      let s := writeHost r.turnFunc (r.outAddr + (r.outUsed - rest - d.1.length)) d.1 false s
      let s := if on then s else countDropped 1 s
      let s := modReq slot (fun r => { r with deliveries := ds, delivered := r.delivered + d.2 }) s
      let s := if r.progress && on then raiseTo evReqProgress r.part [.func r.func] (fields4 [reqId s slot, r.delivered + d.2]) s else s
      checkFree slot s)

/-! ### SRV_QUERY and KV_DROP -/

def reqStateCode : ReqState → Nat
  | .free => 0 | .waiting => 1 | .prefill => 2 | .decode => 3 | .idle => 4 | .parking => 5 | .parked => 6 | .unparking => 7 | .ending => 8

def srvQuery (c : Cmd) (s : State) : State × Ans :=
  match findReq s (cmdPart c) (pNum c 0 4) with
  | .inl st => refuse st s
  | .inr k =>
    let r := req s k
    intoHost c (pNum c 8 8) 4096 (Config.queryImage 0x0508 [reqStateCode r.state, r.cls, r.inputs, r.prefilled, r.outputs, r.delivered, r.ttft, r.maxTbt]) s

def srvQuerySpec : CmdSpec := { op := 0x0508, allow := [(0, 3, 0xFF), (8, 15, 0xFF)], perm := byAny, body := srvQuery }

/-- SRV_QUERY (R456); the buffer's layout is not given (log entry 11). -/
def execSrvQuery (m : Mbx) (s : State) : Host.Outcome State Fault Refusal := .next (runCmd srvQuerySpec m s)

/-- A request is in the committed batch of its partition. -/
def inBatch (s : State) (k : Nat) : Bool :=
  (Tbl.get [] s.srv.curBatches (req s k).part).any fun b => b.slots.any fun x => x.req == k && x.gen == (req s k).gen && x.kind != 3

def kvDrop (c : Cmd) (s : State) : State × Ans :=
  let k := pNum c 0 4
  match myRequest s c k, seqp? s k with
  | some _, some _ => if inBatch s k then refuse stBusy s else done (dropReq k s)
  | _, _ => refuse stBadCommand s

def kvDropSpec : CmdSpec := { op := 0x0683, allow := [(0, 3, 0xFF)], perm := byAny, body := kvDrop }

/-- KV_DROP (R402, R407). -/
def execKvDrop (m : Mbx) (s : State) : Host.Outcome State Fault Refusal := .next (runCmd kvDropSpec m s)

end Sys2Proof.Machine
end

