-- ==== Sys2Proof/Machine/Batch.lean ====
section
/-! DEFINITION. From cut-off to commit: composing batches, finalising them, and what the scheduler does in a boundary reserve (11_serving.md, R417 to R430, R441 to R444; 10_attention_kv_cache.md, R397 to R405). Readings of these chapters: log entry 35. -/
namespace Sys2Proof.Machine

/-! ### Who may run (R414, R416, R417, R424) -/

/-- The bindings of a partition that its active program serves. -/
def servedBindings (s : State) (p : Nat) : List Nat :=
  match activeHandle s p with
  | none => []
  | some h => (s.srv.configs.filter fun b => b.2.any (fun x => Sc.program x.block == h) && (binding? s b.1).any fun y => y.part == p).map Prod.fst

/-- The image of a partition's active program. -/
def activeProg (s : State) (p : Nat) : Option Prog := (activeHandle s p).bind fun h => Tbl.get none s.prog.progs h

/-- A cancellation of a request waits for the reserve. -/
def cancelWaits (s : State) (k : Nat) : Bool :=
  (waitingCmds s 0x0504).any fun c => match findReq s (cmdPart c) (pNum c 0 4) with | .inr j => j == k | .inl _ => false

/-- The slot a request has in the batch that runs, until its results are taken. -/
def curSlot (s : State) (k : Nat) : Option BatchSlot :=
  ((Tbl.get [] s.srv.curBatches (req s k).part).flatMap Batch.slots).find? fun x => x.req == k && x.gen == (req s k).gen && x.kind != 3

/-- The first position a request appends next, as far as the running step allows (log entry 35). -/
def projFirst (s : State) (k : Nat) : Nat :=
  match curSlot s k with
  | some x => if x.kind = 1 then x.first + 1 + x.k else (req s k).prefilled
  | none => (req s k).prefilled

/-- Positions a request has still to prefill. -/
def remaining (s : State) (k : Nat) : Nat := (req s k).inputs - (req s k).prefilled

/-- It decodes: its prefill is done but for the position its last output gave. -/
def decodes (s : State) (k : Nat) : Bool := (req s k).state == .decode && decide (remaining s k ≤ 1)

/-- A request may be considered: eligible, its model served, no copy or cancellation outstanding. -/
def eligible (s : State) (bs : List Nat) (k : Nat) : Bool :=
  let r := req s k
  bs.contains r.binding && r.copied && (r.state == .waiting || r.state == .prefill || r.state == .decode) && enabled s r.turnFunc &&
    (binding? s r.binding).any (fun b => !b.held && (b.state == 2 || b.state == 3)) && !cancelWaits s k &&
    (seqKeys k).all (fun q => (seqp? s q).all fun x => x.copying.isEmpty) &&
    (Sc.single (reqCfg s k) && r.state == .waiting || !Sc.single (reqCfg s k) && (r.state == .decode || decide (0 < remaining s k)))

/-! ### Slots and counts (R422, R424, R442) -/

/-- Speculation is on for a request, and its draft is resident (R441, R442). -/
def specDepth (s : State) (k : Nat) : Nat :=
  let r := req s k
  if r.spec && !r.specOff && (seqp? s (draftKey k)).isSome && !hasDropped s (draftKey k) then (reqClass s k).specDepth else 0

/-- The slot a request would take. -/
def slotFor (s : State) (k : Nat) : BatchSlot :=
  let r := req s k
  let first := projFirst s k
  let base : BatchSlot := { req := k, gen := r.gen, kind := 2, k := 0, positions := 0, lastChunk := false, first := first, bag0 := 0, bags := r.bags.length }
  if Sc.single (reqCfg s k) then base
  else if decodes s k then
    let d := min (specDepth s k) (16777215 - first)
    { base with kind := 1, k := d, positions := 1 + d }
  else
    let n := min (reqClass s k).prefillChunk (remaining s k)
    { base with kind := 0, positions := n, lastChunk := n == remaining s k }

/-- The request that a slot was given to is still in the table (R411). -/
def slotLive (s : State) (u : BatchSlot) : Bool := (req s u.req).live && (req s u.req).gen == u.gen

/-- A void slot. -/
def voidSlot : BatchSlot := { req := 0xFFFFFFFF, gen := 0, kind := 3, k := 0, positions := 0, lastChunk := false, first := 0, bag0 := 0, bags := 0 }

/-- The value of a role for a batch (R422). -/
def roleValue (s : State) (role fixed : Nat) (us : List BatchSlot) : Nat :=
  match role with
  | 0 => fixed
  | 1 => us.length
  | 2 => ((us.filter fun u => u.kind == 0).map BatchSlot.positions).sum
  | 3 => ((us.filter fun u => u.kind == 1).map fun u => 1 + u.k).sum
  | 4 => (us.map BatchSlot.k).foldl max 0
  | 5 => (us.map fun u => if u.kind < 2 then ceilDiv (u.first + u.positions) 2560 else 0).sum
  | 6 => (us.map BatchSlot.bags).sum
  | _ => (us.flatMap fun u => if u.kind = 2 then (req s u.req).bags.map fun b => b.ids.length else []).sum

/-- The batch padded with void slots to the declared minimums. -/
def padSlots (cfg i : List Byte) (us : List BatchSlot) : List BatchSlot :=
  let need := ((List.range 8).filter fun v => Sc.role cfg v == 1).map (Img.cmin i) |>.foldl max 0
  us ++ List.replicate (need - us.length) voidSlot

/-- The counts of a batch: each its role's value, no less than its declared minimum. -/
def countVec (s : State) (cfg i : List Byte) (us : List BatchSlot) : List Nat :=
  let us := padSlots cfg i us
  (List.range 8).map fun v => if Sc.role cfg v = 0 then Sc.fixed cfg v else max (Img.cmin i v) (roleValue s (Sc.role cfg v) 0 us)

/-- A batch fits a segment (R423, R454). -/
def batchFits (s : State) (g : Prog) (cfg : List Byte) (budget : Nat) (us : List BatchSlot) : Bool :=
  countsFit g (countVec s cfg g.image us) [budget] && decide (us.length ≤ Sc.maxSlots cfg) && decide (roleValue s 6 0 us ≤ Sc.maxBags cfg) &&
    decide (roleValue s 7 0 us ≤ Sc.maxIds cfg)

/-! ### Pages (R385, R401, R404) -/

/-- What a set of slots appends in a binding's pool: sequence key, first, positions. -/
def appendsIn (s : State) (b : Nat) (us : List BatchSlot) : List (Nat × Nat × Nat) :=
  us.flatMap fun u => if 2 ≤ u.kind then [] else
    (seqKeys u.req).filterMap fun q => if (seqp? s q).any fun x => x.binding == b then
      (if q = u.req ∨ !hasDropped s q then some (q, u.first, u.positions) else none) else none

/-- Pages and tables a set of slots needs of a pool. -/
def needIn (s : State) (b : Nat) (us : List BatchSlot) : Nat × Nat :=
  (appendsIn s b us).foldl (fun a x => match seqp? s x.1, pool? s b with
    | some q, some p => let n := appendNeed p q x.2.1 x.2.2
      (a.1 + n.1, a.2 + n.2)
    | _, _ => a) (0, 0)

/-- The pools a batch of a binding appends to: its own and its draft's. -/
def poolsOf (s : State) (b : Nat) : List Nat := (b :: ((srvOf s b).bind Sc.draft).toList).filter fun x => (pool? s x).isSome

/-- A sequence may be dropped for a batch (R401, R440). -/
def victimOk (s : State) (b : Nat) (chosen : List Nat) (k : Nat) : Bool :=
  let r := req s k
  (seqKeys k).any (fun q => (seqp? s q).any fun x => x.binding == b && x.entries.any fun e => e.2.any fun y => y.state == 1 || (y.state == 3 && r.parkDest == 0)) &&
    !chosen.contains k && r.state != .unparking && !(r.state == .parked && r.parkDest == 1) && r.state != .ending

/-- A victim goes before another: lower class priority, parked before idle before the rest, least recently run (R401). -/
def victimBefore (s : State) (a b : Nat) : Bool :=
  let rank := fun k => if (req s k).state == .parked then 0 else if (req s k).state == .idle then 1 else 2
  let pa := (reqClass s a).priority
  let pb := (reqClass s b).priority
  decide (pa < pb) || (pa == pb && (decide (rank a < rank b) || (rank a == rank b && decide ((req s a).lastRun < (req s b).lastRun))))

/-- Insert by an order, after what is equal. -/
def insertBy (before : Nat → Nat → Bool) (x : Nat) : List Nat → List Nat
  | [] => [x]
  | y :: ys => if before x y then x :: y :: ys else y :: insertBy before x ys

/-- Sort by an order, stably. -/
def sortBy (before : Nat → Nat → Bool) (xs : List Nat) : List Nat := xs.foldl (fun a x => insertBy before x a) []

def victims (s : State) (b : Nat) (chosen : List Nat) : List Nat := sortBy (victimBefore s) ((liveSlots s).filter (victimOk s b chosen))

/-- Drop victims until a pool meets a need (R401); whether it does. -/
def dropFor (b : Nat) (need : State → Nat × Nat) : List Nat → State → Bool × State
  | vs, s =>
    match pool? s b with
    | none => (true, s)
    | some p =>
      if (need s).1 ≤ freePages s p ∧ (need s).2 ≤ freeTables p then (true, s) else
      match vs with
      | [] => (false, s)
      | v :: vs => dropFor b need vs (dropReq v s)

/-- Granules of the token arena that a slot's outputs may need beyond those its request holds: one output for a last prefill chunk, one and its drafts for a decode slot (R413). -/
def granulesFor (s : State) (cfg : List Byte) (u : BatchSlot) : Nat :=
  let outs := if u.kind = 1 then 1 + u.k else if u.kind = 0 then b2n u.lastChunk else 0
  ceilDiv ((req s u.req).record.length + outs * Sc.tokenBytes cfg) 65536 - (req s u.req).granules.length

/-- The token arena covers a batch; a drop keeps the token record, so it frees none (R402, R413). -/
def granulesCover (s : State) (b : Nat) (us : List BatchSlot) : Bool :=
  let cfg := (srvOf s b).getD []
  decide ((us.map (granulesFor s cfg)).sum ≤ (freeGranules s cfg b).length)

/-- Free pages and granules, and the drops that could be made, cover a batch (R401, R404, R413). -/
def pagesCover (s : State) (b : Nat) (us : List BatchSlot) : Bool :=
  granulesCover s b us && (poolsOf s b).all fun x => (dropFor x (fun s => needIn s x us) (victims s x (us.map BatchSlot.req)) s).1

/-! ### Latency (R428 to R430) -/

/-- The request has had an output delivered in its turn. -/
def begun (r : Request) : Bool := r.lastDelivery.isSome

/-- At risk for its first output, or between outputs, at the cut-off for the step at `t` with period `P`. -/
def ttftRisk (s : State) (t P k : Nat) : Bool :=
  let r := req s k
  let c := reqClass s k
  let steps := max 1 (ceilDiv (remaining s k) c.prefillChunk)
  c.ttftGoal != 0 && !begun r && decide (c.risk * c.ttftGoal * 1000 < 100 * (t + (steps + 1) * P - r.admitted))
def tbtRisk (s : State) (t P k : Nat) : Bool :=
  let r := req s k
  let c := reqClass s k
  c.tbtGoal != 0 && r.lastDelivery.any fun l => decide (c.risk * c.tbtGoal * 1000 < 100 * (t + 2 * P - l))

/-- Count a request at risk, and say so once per goal and turn (R430). -/
def noteRisk (t P k : Nat) (s : State) : State :=
  let late := fun kind s => if bit (reqClass s k).policy 2 then raiseTo evReqLate (req s k).part [.func (req s k).func] (fields4 [reqId s k, (req s k).cls, kind]) s else s
  let s := if !ttftRisk s t P k then s else
    let s := modClassStat k (fun c => { c with ttftAtRisk := satAdd 32 c.ttftAtRisk 1 }) s
    if (req s k).lateTtft then s else late 0 (modReq k (fun r => { r with lateTtft := true }) s)
  if !tbtRisk s t P k then s else
    let s := modClassStat k (fun c => { c with tbtAtRisk := satAdd 32 c.tbtAtRisk 1 }) s
    if (req s k).lateTbt then s else late 1 (modReq k (fun r => { r with lateTbt := true }) s)

/-- A request sorts ahead of those not boosted. -/
def boosted (s : State) (t P k : Nat) : Bool := bit (reqClass s k).policy 0 && (ttftRisk s t P k || tbtRisk s t P k)

/-- R423's order: boosted, class priority, admission. -/
def runBefore (s : State) (t P a b : Nat) : Bool :=
  let ba := boosted s t P a
  let bb := boosted s t P b
  let pa := (reqClass s a).priority
  let pb := (reqClass s b).priority
  (ba && !bb) || (ba == bb && (decide (pb < pa) || (pa == pb && decide ((req s a).order < (req s b).order))))

/-! ### Building a batch (R418, R423) -/

/-- A batch being built: its slots in the order they were added, how many it displaced, how many it left out for pages. -/
structure Build where
  slots : List BatchSlot
  displaced : Nat
  short : Nat
  deriving DecidableEq, Repr

/-- Displace slots until one more fits. -/
def makeRoom (s : State) (fits : List BatchSlot → Bool) (t P : Nat) (u : BatchSlot) (may : Bool) : Nat → Build → Build
  | 0, b => b
  | n + 1, b =>
    if fits (b.slots ++ [u]) || !may then b else
    match b.slots.reverse.find? fun v => !boosted s t P v.req && decide ((reqClass s v.req).priority < (reqClass s u.req).priority) with
    | none => b
    | some v => makeRoom s fits t P u may n { b with slots := b.slots.filter (· != v), displaced := b.displaced + 1 }

/-- Consider one request. -/
def consider (s : State) (fits : List BatchSlot → Bool) (pages : List BatchSlot → Bool) (t P : Nat) (b : Build) (k : Nat) : Build :=
  let u := slotFor s k
  let b := makeRoom s fits t P u (boosted s t P k && bit (reqClass s k).policy 1) b.slots.length b
  if !fits (b.slots ++ [u]) then b
  else if !pages (b.slots ++ [u]) then { b with short := b.short + 1 }
  else { b with slots := b.slots ++ [u] }

/-- Give each slot its place in the gather list. -/
def placeBags : Nat → List BatchSlot → List BatchSlot
  | _, [] => []
  | n, u :: us => { u with bag0 := n } :: placeBags (n + u.bags) us

/-- The batch of one segment from the requests still eligible, in order. -/
def buildBatch (s : State) (p t P seg budget : Nat) (ks : List Nat) : Option (Batch × Build) :=
  (activeProg s p).bind fun g =>
    let lead := match ks with | k :: _ => some (req s k).binding | [] => (servedBindings s p).head?
    lead.bind fun b => (srvOf s b).map fun cfg =>
      let d := (ks.filter fun k => (req s k).binding == b).foldl (consider s (batchFits s g cfg budget) (pagesCover s b) t P) { slots := [], displaced := 0, short := 0 }
      let us := placeBags 0 (padSlots cfg g.image d.slots)
      ({ binding := b, seg := seg, slots := us, counts := countVec s cfg g.image d.slots, finalised := false,
         bags := d.slots.flatMap fun u => (req s u.req).bags, ran := false, status := none, results := [], poisoned := [] }, d)

/-- The segment table of the step that begins at the next tick. -/
def nextSegs (s : State) : List SegEntry :=
  let a := match s.step.staged with
    | some c => if c.origin ≤ s.step.nextTick then some c else s.step.active
    | none => s.step.active
  (a.map StepCfg.segs).getD []

/-- KV_POOL_SHORT, once for the step where a request was left out for pages (R404). -/
def tellShort (p : Nat) (short : Bool) (s : State) : State := if short then raiseTo evKvPoolShort p [.prims p] [] s else s

/-- Build every segment's batch of a partition; `short` says that a request has been left out for pages. -/
def buildAll (p t P : Nat) : List (Nat × SegEntry) → List Nat → Bool → State → State
  | [], _, short, s => tellShort p short s
  | x :: xs, ks, short, s =>
    match buildBatch s p t P x.1 x.2.budget ks with
    | none => tellShort p short s
    | some (b, d) =>
      let s := modSrv (fun v =>
        { v with nextBatches := Tbl.set [] v.nextBatches p (Tbl.get [] v.nextBatches p ++ [b]), preempted := satAdd 32 v.preempted d.displaced,
                 kvDeferred := satAdd 32 v.kvDeferred d.short }) s
      buildAll p t P xs (ks.filter fun k => !b.slots.any fun u => u.req == k) (short || d.short != 0) s

/-- The shared pages that a request's next slot would write in one of its sequences, and the pool (R385). -/
def copyTargets (s : State) (k q : Nat) : Option (Nat × List Nat) :=
  (seqp? s q).bind fun x => (pool? s x.binding).map fun p => (x.binding, sharedTargets p x (slotFor s k).first (slotFor s k).positions)

/-- Copies that an append into a shared page needs are begun, victims dropped for their pages; the request waits for them (R385, R401, R693). -/
def beginCopies (ks : List Nat) (s : State) : State :=
  ks.foldl (fun s k => (seqKeys k).foldl (fun s q => match copyTargets s k q with
    | none => s
    | some (b, ts) => if ts.isEmpty then s else startCopies q ts (dropFor b (fun _ => (ts.length, 0)) (victims s b ks) s).2) s) s

/-- A request has no append into a shared page to make. -/
def copiesDone (s : State) (k : Nat) : Bool := (seqKeys k).all fun q => (copyTargets s k q).all fun x => x.2.isEmpty

/-- A request is left out because a copy it needs finds no page (R385, R404). -/
def copiesShort (s : State) (k : Nat) : Bool := !copiesDone s k && (seqKeys k).all fun q => (seqp? s q).all fun x => x.copying.isEmpty

/-- The cut-off time of a partition before its tick: its served bindings' longest (log entry 35). -/
def cutoffOf (s : State) (p : Nat) : Nat := ((servedBindings s p).map fun b => Sc.cutoff ((srvOf s b).getD [])).foldl max 0

/-- What happens at a partition's cut-off (R417, R418, R423, R427 to R430). -/
def cutoff (p : Nat) (s : State) : State :=
  let mine := (waitingCmds s 0x0502).filter fun c => cmdPart c == p
  let s := mine.foldl (fun s c => answer c (applyClass c s)) s
  let bs := servedBindings s p
  let t := s.step.nextTick
  let P := (s.step.active.map StepCfg.period).getD 0
  if bs.isEmpty || !(Tbl.get [] s.srv.nextBatches p).isEmpty then s else
  let all := (liveSlots s).filter (eligible s bs)
  let s := all.foldl (fun s k => noteRisk t P k s) s
  let s := beginCopies all s
  let left := all.filter (copiesShort s)
  let ks := sortBy (runBefore s t P) (all.filter fun k => eligible s bs k && copiesDone s k)
  buildAll p t P (((nextSegs s).mapIdx fun i e => (i, e)).filter fun x => x.2.valid && x.2.partition == p) ks (!left.isEmpty)
    (left.foldl (fun s _ => countDeferred s) s)

/-- BATCH_CUTOFF (R417): once the cut-off before the next tick is reached. -/
def execBatchCutoff (p : Nat) (s : State) : Host.Outcome State Fault Refusal :=
  .next (if dieOn s && s.step.run && decide (s.step.nextTick ≤ rack s + cutoffOf s p) && decide (p < 16) then cutoff p s else s)

/-! ### Results (R398, R415, R426, R428, R443, R444) -/

/-- The fields of a result record. -/
def resValid (r : List Byte) : Bool := bit (leAt r 0 1) 0
def resEnded (r : List Byte) : Bool := bit (leAt r 0 1) 1

/-- Why a slot's result ends its turn at once, if it does (R415, R426, R453, R655). -/
def resultFault (cfg : List Byte) (b : Batch) (i : Nat) (u : BatchSlot) : Option Nat :=
  let x := b.results.getD i ([], [], false)
  let r := x.1
  if b.status.isSome then b.status
  else if x.2.2 || b.poisoned.contains i then some stPoisoned
  else if !resValid r || decide (u.k < leAt r 1 1) || (leAt r 4 4 != 0 && decide (Sc.outBytes cfg < leAt r 8 8 + leAt r 4 4)) then some stMetadataFault
  else none

/-- How a turn ends after a sound result: by its mark or its number of outputs, by the buffer, by the last position (R400, R415). -/
def turnEnds (s : State) (k outs len first : Nat) (ended : Bool) : Option Nat :=
  let r := req s k
  let room := r.outBytes - r.outUsed
  if ended || decide (r.maxNew ≤ r.outputs + outs) then some (if room < len then stLengthLimit else stOk)
  else if Sc.single (reqCfg s k) then some (if room < len then stLengthLimit else stOk)
  else if room < len ∨ (outs ≠ 0 ∧ room < len + ceilDiv len outs) then some stLengthLimit
  else if 16777216 ≤ first then some stLengthLimit
  else none

/-- An output is delivered at the tick `t` (R428). -/
def timeOutput (t k : Nat) (s : State) : State :=
  let r := req s k
  let c := reqClass s k
  match r.lastDelivery with
  | none =>
    let us := (t - r.admitted) / 1000
    modReq k (fun r => { r with lastDelivery := some t, ttft := us }) (modClassStat k (fun x =>
      { x with maxTtft := max x.maxTtft (min us 0xFFFFFFFF), ttftMissed := satAdd 32 x.ttftMissed (b2n (c.ttftGoal != 0 && decide (c.ttftGoal < us))) }) s)
  | some l =>
    let us := (t - l) / 1000
    modReq k (fun r => { r with lastDelivery := some t, maxTbt := max r.maxTbt us }) (modClassStat k (fun x =>
      { x with maxTbt := max x.maxTbt (min us 0xFFFFFFFF), tbtMissed := satAdd 32 x.tbtMissed (b2n (c.tbtGoal != 0 && decide (c.tbtGoal < us))) }) s)

/-- Speculation is cut off, or tried again (R444). -/
def noteSpec (u : BatchSlot) (a : Nat) (s : State) : State :=
  let k := u.req
  let c := reqClass s k
  let r := req s k
  if 0 < u.k then
    let h := (r.specHist ++ [(u.k, a)]).reverse.take c.specWindow |>.reverse
    let off := h.length == c.specWindow && decide ((h.map Prod.snd).sum * 100 < c.specFloor * (h.map Prod.fst).sum)
    if off then
      modClassStat k (fun x => { x with specOff := satAdd 32 x.specOff 1 }) (modSrv (fun v => { v with specOff := satAdd 32 v.specOff 1 })
        (modReq k (fun r => { r with specOff := true, specHist := [], specProbe := 0 }) s))
    else modReq k (fun r => { r with specHist := h }) s
  else if r.specOff then
    if c.specProbe ≤ r.specProbe + 1 then modReq k (fun r => { r with specOff := false, specHist := [], specProbe := 0 }) s
    else modReq k (fun r => { r with specProbe := r.specProbe + 1 }) s
  else s

/-- Take positions from `w` on back, in a request's own sequence and its draft. -/
def settleReq (k w : Nat) (s : State) : State :=
  modReq k (fun r => { r with prefilled := w }) ((seqKeys k).foldl (fun s q => if (seqp? s q).any fun x => !x.entries.isEmpty || !x.fresh.isEmpty then settleSeq q w s else s) s)

/-- The result of one slot at the tick `t`. -/
def takeResult (t : Nat) (b : Batch) (i : Nat) (u : BatchSlot) (s : State) : State :=
  let k := u.req
  let r := req s k
  let x := b.results.getD i ([], [], false)
  let cfg := (srvOf s b.binding).getD []
  let outs := leAt x.1 2 2
  if u.kind = 3 then s
  else if !slotLive s u || r.state == .ending then countDropped outs s
  else if !b.ran then settleReq k u.first s
  else match resultFault cfg b i u with
    | some st => endTurn k st (if u.kind = 2 then s else settleReq k u.first s)
    | none =>
      let a := if u.kind = 1 then leAt x.1 1 1 else 0
      let len := leAt x.1 4 4
      let w := if u.kind = 1 then u.first + 1 + a else u.first + u.positions
      let s := if u.kind = 2 then s else settleReq k w s
      let s := noteSpec u a s
      let endsWith := turnEnds s k outs len w (resEnded x.1)
      let fitsOut := decide (len ≤ r.outBytes - r.outUsed)
      let s := if outs = 0 ∧ len = 0 then s
        else if !fitsOut then countDropped outs s
        else timeOutput t k (modReq k (fun r => { r with outputs := r.outputs + outs, outUsed := r.outUsed + len, deliveries := r.deliveries ++ [(x.2.1, outs)] }) s)
      let s := if u.kind = 2 ∨ outs = 0 then s else
        match extendRecord k (padTo (outs * Sc.tokenBytes cfg) x.2.1) s with
        | some s => modReq k (fun r => { r with inputs := r.inputs + outs }) s
        | none => countDeferred s
      match endsWith with
      | some st => endTurn k st s
      | none => s

/-- A slot that ran has had the first step of its turn (R425). -/
def pastFirst (b : Batch) (u : BatchSlot) (s : State) : State :=
  if b.ran && u.kind != 3 && slotLive s u then modReq u.req (fun r => { r with firstStep := false }) s else s

/-- The results of a partition's step, once it is over. -/
def takeResults (t p : Nat) (s : State) : State :=
  (Tbl.get [] s.srv.curBatches p).foldl (fun s b => (b.slots.mapIdx fun i u => (i, u)).foldl (fun s x => takeResult t b x.1 x.2 (pastFirst b x.2 s)) s)
    (modSrv (fun v => { v with curBatches := Tbl.set [] v.curBatches p [] }) s)

/-- At a segment's end its result records and output bytes are read (R419, R425, R426). -/
def readResults (p seg : Nat) (status : Option Nat) (s : State) : State :=
  let bs := Tbl.get [] s.srv.curBatches p
  match bs.find? fun b => b.seg == seg with
  | none => s
  | some b =>
    let cfg := (srvOf s b.binding).getD []
    let rd := fun a n s => match place a (max 1 n) with
      | .tier t off => if n = 0 then (([], false), s) else tierRead t off n 0 s
      | _ => ((List.replicate n 0, false), s)
    let a := (b.slots.mapIdx fun i _ => i).foldl (fun (a : List (List Byte × List Byte × Bool) × State) i =>
      let r := rd (Sc.resultBase cfg + 32 * i) 32 a.2
      let len := leAt r.1.1 4 4
      let off := leAt r.1.1 8 8
      let o := if Sc.outBytes cfg < off + len then (([], false), r.2) else rd (Sc.outBase cfg + off) len r.2
      (a.1 ++ [(r.1.1, o.1.1, r.1.2 || o.1.2)], o.2)) ([], s)
    modSrv (fun v => { v with curBatches := Tbl.set [] v.curBatches p (bs.map fun x => if x.seg = seg then { x with ran := true, status := status, results := a.1 } else x) }) a.2

/-! ### Finalisation (R419) -/

/-- A request's running slot ends its turn, as its result stands. -/
def endingSoon (s : State) (k : Nat) : Bool :=
  (Tbl.get [] s.srv.curBatches (req s k).part).any fun b => b.ran && (b.slots.mapIdx fun i u => (i, u)).any fun x =>
    let cfg := (srvOf s b.binding).getD []
    let r := (b.results.getD x.1 ([], [], false)).1
    x.2.req == k && slotLive s x.2 && x.2.kind != 3 && ((resultFault cfg b x.1 x.2).isSome ||
      (turnEnds s k (leAt r 2 2) (leAt r 4 4) (if x.2.kind = 1 then x.2.first + 1 + leAt r 1 1 else x.2.first + x.2.positions) (resEnded r)).isSome)

/-- The partition has no segment of the current step left. -/
def stepDone (s : State) (p : Nat) : Bool :=
  match s.step.running with
  | none => true
  | some r => !(r.segs.mapIdx fun i e => (i, e)).any fun x => x.2.valid && x.2.partition == p && decide (r.next ≤ x.1)

/-- Turn the slots of requests that are over into void ones. -/
def voidOver (s : State) (b : Batch) : Batch :=
  { b with finalised := true, slots := b.slots.map fun u =>
      if u.kind != 3 && (!slotLive s u || (req s u.req).state == .ending || endingSoon s u.req || cancelWaits s u.req) then { u with kind := 3 } else u }

/-- BATCH_FINALISE (R419): after the partition's last segment of the step. -/
def execBatchFinalise (p : Nat) (s : State) : Host.Outcome State Fault Refusal :=
  .next (if stepDone s p then modSrv (fun v => { v with nextBatches := Tbl.set [] v.nextBatches p ((Tbl.get [] v.nextBatches p).map (voidOver s)) }) s else s)

/-! ### Commit (R388, R391, R421, R425) -/

/-- A batch-list entry (R425). -/
def batchEntry (s : State) (cfg : List Byte) (u : BatchSlot) : List Byte :=
  let r := req s u.req
  if u.kind = 3 then leBytes 4 0xFFFFFFFF ++ leBytes 1 3 ++ leBytes 27 0 else
  let g := if u.kind = 2 then r.granules.headD 0 else r.granules.getD (u.first * Sc.tokenBytes cfg / 65536) 0
  leBytes 4 (reqId s u.req) ++ leBytes 1 u.kind ++ leBytes 1 u.k ++ leBytes 2 (b2n u.lastChunk + 2 * b2n r.firstStep) ++ leBytes 4 u.first ++
    leBytes 4 u.positions ++ leBytes 4 (u.first + u.positions) ++ leBytes 4 g ++ leBytes 4 u.bag0 ++ leBytes 4 u.bags

/-- A slot as the page manager sees it, in the pool of a binding. -/
def useOf (s : State) (b : Nat) (u : BatchSlot) : KvUse :=
  let q := (seqKeys u.req).find? fun q => (seqp? s q).any fun x => x.binding == b
  { key := if 2 ≤ u.kind then none else q, first := u.first, n := u.positions, visible := u.first + u.positions }

/-- Write a batch's list, page lists and masks; again at its segment's entry, which its areas then serve (log entry 31). -/
def writeBatch (p : Nat) (b : Batch) (s : State) : State :=
  match srvOf s b.binding, activeProg s p with
  | some cfg, some g =>
    let s := wrLocal (Sc.batchBase cfg) (b.slots.flatMap (batchEntry s cfg)) s
    (poolsOf s b.binding).foldl (fun s x =>
      let us := b.slots.map (useOf s x)
      writeMasks x us (writeLists x b.seg g.image b.counts us s)) s
  | _, _ => s

/-- A slot at the commit: void where its request cannot run it now, else its first position where the request stands. -/
def slotNow (s : State) (u : BatchSlot) : BatchSlot :=
  let r := req s u.req
  if u.kind = 3 then u
  else if !slotLive s u || !(r.state == .waiting || r.state == .prefill || r.state == .decode) || (binding? s r.binding).any Binding.held then { u with kind := 3 }
  else if u.kind = 2 then u
  else if u.kind = 1 then (if decodes s u.req then { u with first := r.prefilled } else { u with kind := 3 })
  else if r.prefilled ≠ u.first ∨ decodes s u.req ∨ remaining s u.req < u.positions then { u with kind := 3 }
  else u

/-- A request enters a batch: its state moves on, its pages are allocated (R396, R414). -/
def enterSlot (u : BatchSlot) (s : State) : State :=
  if u.kind = 3 then s else
  let k := u.req
  let s := if u.kind = 2 then s else (seqKeys k).foldl (fun s q =>
    if (seqp? s q).isSome && (q == k || !hasDropped s q) then reserveAppend q u.first u.positions s else s) s
  modReq k (fun r =>
    { r with lastRun := s.step.count, prefilled := if u.kind = 0 then u.first + u.positions else r.prefilled,
             state := if u.kind = 0 then (if u.lastChunk then .decode else .prefill) else .decode }) s

/-- Commit one batch: drops that its appends need, then the slots and the areas. -/
def commitBatch (p : Nat) (b : Batch) (s : State) : State :=
  let us := b.slots.map (slotNow s)
  let ks := (us.filter fun u => u.kind != 3).map BatchSlot.req
  let a := (poolsOf s b.binding).foldl (fun (a : Bool × State) x => let r := dropFor x (fun s => needIn s x us) (victims a.2 x ks) a.2
    (a.1 && r.1, r.2)) (true, s)
  let us := if a.1 then us else us.map fun u => if u.kind < 2 then { u with kind := 3 } else u
  let s := if a.1 then a.2 else countDeferred a.2
  let b := { b with slots := us }
  let s := us.foldl (fun s u => enterSlot u s) s
  let s := writeBatch p b s
  modSrv (fun v => { v with curBatches := Tbl.set [] v.curBatches p (Tbl.get [] v.curBatches p ++ [b]) })
    (modProg (fun x => { x with active := Tbl.set none x.active p ((Tbl.get none x.active p).map fun y => { y with counts := Tbl.set [] y.counts b.seg b.counts }) }) s)

/-- The committed counts of a partition's program go back to the declared minimums. -/
def clearCounts (p : Nat) (s : State) : State :=
  modProg (fun x => { x with active := Tbl.set none x.active p ((Tbl.get none x.active p).map fun y => { y with counts := [] }) }) s

/-- A partition's batches at the reserve: committed, or skipped where they are not finalised (R420). -/
def commitPart (p : Nat) (s : State) : State :=
  let bs := Tbl.get [] s.srv.nextBatches p
  let s := clearCounts p s
  if bs.isEmpty then s
  else if !bs.all Batch.finalised then
    let s := modStep (fun t => { t with running := t.running.map fun r => { r with skipped := r.skipped ++ [p] } }) s
    raiseError 7 evBatchSkipped p [.prims p] (fields4 [p, s.step.count]) (modSrv (fun v => { v with finalLate := satAdd 32 v.finalLate 1 }) s)
  else
    let s := modSrv (fun v => { v with nextBatches := Tbl.set [] v.nextBatches p [] }) s
    bs.foldl (fun s b => commitBatch p b s) s

/-! ### Reserve action 5 (R33, R421) -/

/-- Sequences with a poisoned page are dropped (R405). -/
def dropPoisoned (s : State) : State :=
  (liveSlots s).foldl (fun s k => if (seqKeys k).any fun q => (seqp? s q).any fun x => x.entries.any fun e => e.2.any PageEntry.poisoned then
    dropReq k ((seqKeys k).foldl (fun s q => modSeqp q (fun x => { x with entries := x.entries.map fun e => (e.1, e.2.map fun y => { y with poisoned := false }) }) s) s) else s) s

/-- Parked requests whose submission waits are restored, with drops where they help (R440). -/
def retryUnparks (s : State) : State :=
  (liveSlots s).foldl (fun s k =>
    if !(req s k).wantUnpark then s else
    match seqp? s k with
    | none => s
    | some q =>
      let n := (q.entries.filter fun e => e.2.any fun y => y.state == 3).length
      let a := dropFor q.binding (fun _ => (n, 0)) (victims s q.binding [k]) s
      match startUnpark k (if a.1 then a.2 else s) with
      | some s => s
      | none => countDeferred s) s

/-- Requests of a model left mixed complete with MODEL_MIXED (R348, R363). -/
def endMixed (s : State) : State :=
  (liveSlots s).foldl (fun s k => if (binding? s (req s k).binding).any fun b => b.state == 4 then
    (if (req s k).inTurn then endTurn k stModelMixed s else s) else s) s

/-- The scheduler's part of a boundary reserve at tick `t`. -/
def serveReserve (t : Nat) (s : State) : State :=
  let s := applyWaiting 0x0504 applyCancel s
  let s := (liveSlots s).foldl (fun s k => expireReq t k s) s
  let s := applyWaiting 0x0507 applyPrefixRelease (applyWaiting 0x0506 applyPrefixCreate s)
  let s := (List.range 16).foldl (fun s p => takeResults t p s) s
  let s := endMixed s
  let s := applyWaiting 0x0505 applyPark s
  let s := (liveSlots s).foldl (fun s k => finishMoves k s) s
  let s := (s.kv.seqs.map Prod.fst).foldl (fun s q => slideWindows q s) s
  let s := retryUnparks (dropPoisoned s)
  (List.range 16).foldl (fun s p => commitPart p s) s

end Sys2Proof.Machine
end

