-- ==== Sys2Proof/Machine/Gather.lean ====
section
/-! DEFINITION. The gather engine: jobs, waves of bags with duplicates removed, pooling (11_serving.md, R445 to R454). Readings: log entry 35. -/
namespace Sys2Proof.Machine

/-! ### The job (R445, R452) -/

/-- The output rows of bag `b`: field, first row. -/
def bagRow (cfg : List Byte) (b : Nat) : Nat × Nat :=
  let fs := (List.range 16).filter (bit (Sc.outFields cfg))
  (fs.getD (b % max 1 fs.length) 0, Sc.goutBase cfg + b / max 1 fs.length * Sc.goutRpt cfg)

/-- The await code of a table's tier. -/
def tableAwait (cfg : List Byte) (t : Nat) : Nat :=
  match place (Sc.tblBase cfg t) 1 with | .tier 0 _ => slTaLate | _ => slTbLate

/-- A segment's program starts: its gather job starts, every output row empty with its tier's await code. A job still unfinished is given up. -/
def startGather (p : Nat) (b : Batch) (s : State) : State :=
  if b.bags.isEmpty then s else
  let cfg := (srvOf s b.binding).getD []
  let s := modGth (fun g => { g with busy := true, partition := p, wave := 0, job := some { part := p, binding := b.binding, bags := b.bags, wave := 0, next := 0, buffer := [], ready := [] } }) s
  (b.bags.mapIdx fun i g => (i, g)).foldl (fun s x =>
    let a := bagRow cfg x.1
    (List.range (Sc.goutRpt cfg)).foldl (fun s i => setTag a.1 (a.2 + i) (mkTag false false (tableAwait cfg x.2.table)) s) s) s

/-! ### Fetching (R449, R450, R453) -/

/-- Fetch a row of a table: by cache lines where the table names a region, and from its tier otherwise. -/
def fetchRow (p : Nat) (cfg : List Byte) (t id : Nat) (s : State) : (List Byte × Bool) × State :=
  let a := Sc.tblBase cfg t + id * Sc.tblBytes cfg t
  let n := Sc.tblBytes cfg t
  match place a n with
  | .tier tr off => if Sc.tblRegion cfg t = 0xFF then tierRead tr off n 0 s else cachedRead p tr off n 0 s
  | _ => ((List.replicate n 0, false), s)

/-- Fetch one ID into a buffer slot: zeros for an ID that is not valid. -/
def fetchId (p : Nat) (cfg : List Byte) (t id slot : Nat) (s : State) : State :=
  if !idOk cfg t id then
    modGth (fun g => { g with invalidIds := satAdd 32 g.invalidIds 1, job := g.job.map fun j => { j with buffer := Tbl.set ([], false) j.buffer slot ([], false) } }) s
  else
    let r := fetchRow p cfg t id s
    modGth (fun g => { g with unique := satAdd 64 g.unique 1, poison := satAdd 32 g.poison (b2n r.1.2),
                              job := g.job.map fun j => { j with buffer := Tbl.set ([], false) j.buffer slot r.1 } }) r.2

/-! ### A wave (R446 to R448) -/

/-- The dedup row of an ID: field, row, and the number q of the row. -/
def dedupRow (cfg : List Byte) (id : Nat) : Nat × Nat × Nat :=
  let q := id % Sc.dedupRows cfg
  (q % 16, Sc.dedupBase cfg + q / 16, q)

/-- A dedup row takes empty markers, clean ones (R198); without power it takes nothing (R229). -/
def clearDedupRow (f r : Nat) (s : State) : State :=
  if powered s f r then setTag f r (rowTag s f r % 32) (storeRow f r (List.replicate 640 255) s) else countDown f s

/-- Before a wave every dedup row holds empty markers. -/
def clearDedup (cfg : List Byte) (s : State) : State :=
  (List.range (Sc.dedupRows cfg)).foldl (fun s q => clearDedupRow (q % 16) (Sc.dedupBase cfg + q / 16) s) s

/-- A dedup row whose bank an insertion of debug access holds (R209), or whose bank serves cache mode alone (R211). -/
def dedupHeld (s : State) (cfg : List Byte) : List Nat :=
  ((List.range (Sc.dedupRows cfg)).filter fun q => dbgHeld s (q % 16) (Sc.dedupBase cfg + q / 16)).map (· % 16)

/-- The IDs of a bag, one after another; the slots they fill, or nothing at a full row. -/
def dedupIds (p : Nat) (cfg : List Byte) (t : Nat) : List Nat → List Nat → State → Option (List Nat) × State
  | [], acc, s => (some acc, s)
  | id :: ids, acc, s =>
    let d := dedupRow cfg id
    let key := t * 2 ^ 60 + id
    let s := modFld d.1 (fun x => { x with ccOps := satAdd 64 x.ccOps 1 }) s
    let r := ccIns 8 key (readRow s d.1 d.2.1)
    if r.1 = 0xFF then (none, s)
    else
      let slot := 80 * d.2.2 + r.1
      let s := if r.2 then fetchId p cfg t id slot (ccWrite d.1 d.2.1 8 r.1 key s) else s
      dedupIds p cfg t ids (acc ++ [slot]) s

/-- Fetch every ID of a bag from a slot on. -/
def fetchAll (p : Nat) (cfg : List Byte) (t first : Nat) (ids : List Nat) (s : State) : List Nat × State :=
  (ids.mapIdx fun i id => (i, id)).foldl (fun (a : List Nat × State) x => (a.1 ++ [first + x.1], fetchId p cfg t x.2 (first + x.1) a.2)) ([], s)

/-- A bag of the wave is fetched. -/
def bagTaken (b ids : Nat) (slots : List Nat) (nodedup : Bool) (s : State) : State :=
  modGth (fun g => { g with ids := satAdd 64 g.ids ids, nodedup := satAdd 32 g.nodedup (b2n nodedup), job := g.job.map fun j => { j with next := b + 1, ready := j.ready ++ [(b, slots)] } }) s

/-- The bags of a wave with deduplication, from bag `b` on. -/
def dedupBags (p : Nat) (cfg : List Byte) : List Bag → Nat → Bool → State → State
  | [], _, _, s => s
  | g :: gs, b, first, s =>
    match dedupIds p cfg g.table g.ids [] s with
    | (some slots, s) => dedupBags p cfg gs (b + 1) false (bagTaken b g.ids.length slots false s)
    | (none, s) =>
      if !first then s else
      let a := fetchAll p cfg g.table 0 g.ids s
      bagTaken b g.ids.length a.1 true a.2

/-- The pitch of a job: that of the widest table its bags name (R449). -/
def jobPitch (cfg : List Byte) (bags : List Bag) : Nat := (bags.map fun g => ceilDiv (Sc.tblBytes cfg g.table) 64 * 64).foldl max 0

/-- The bags of a wave without deduplication: as many as fit in the buffer's slots. -/
def plainBags (p : Nat) (cfg : List Byte) (slots : Nat) : List Bag → Nat → Nat → State → State
  | [], _, _, s => s
  | g :: gs, b, used, s =>
    if slots < used + g.ids.length ∧ 0 < used then s else
    let a := fetchAll p cfg g.table used g.ids s
    plainBags p cfg slots gs (b + 1) (used + g.ids.length) (bagTaken b g.ids.length a.1 true a.2)

/-- GATHER_WAVE (R446 to R450): once the bags of the last wave are pooled. -/
def execGatherWave (s : State) : Host.Outcome State Fault Refusal :=
  .next (match s.gth.job with
    | none => s
    | some j =>
      let left := j.bags.drop j.next
      if !j.ready.isEmpty || left.isEmpty then s else
      let cfg := (srvOf s j.binding).getD []
      let held := dedupHeld s cfg
      if !held.isEmpty then held.eraseDups.foldl (fun s f => countBlocked f s) s else
      let found := (freeFinds s).1
      let s := tierCorrected found.blocks (eccIn ((List.range (Sc.dedupRows cfg)).map fun q => (q % 16, Sc.dedupBase cfg + q / 16)) found.ecc (freeFinds s).2)
      let w := if j.next = 0 then 0 else j.wave + 1
      let s := modGth (fun g => { g with wave := w % 65536, waves := satAdd 32 g.waves 1, job := g.job.map fun j => { j with wave := w, buffer := [] } }) s
      if Sc.dedupRows cfg = 0 then plainBags j.part cfg (8388608 / max 1 (jobPitch cfg j.bags)) left j.next 0 s
      else dedupBags j.part cfg left j.next true (clearDedup cfg s))

/-! ### Pooling (R451 to R453) -/

/-- The packed blocks of a fetched row in a block format. -/
def rowBlks (f : Nat) (bs : List Byte) : List Blk :=
  (List.range (bs.length / (fmtBlockBytes f + 1))).map fun i => unpackBlk f (sliceBytes bs ((fmtBlockBytes f + 1) * i) (fmtBlockBytes f + 1))

/-- The values of a fetched row as binary32 codes, exactly (R451). -/
def rowCodes (cfg : List Byte) (t : Nat) (bs : List Byte) : List Nat :=
  let f := Sc.tblFmt cfg t
  let xs := if f = 0xC ∨ f = 0xD then (frcDecRow f bs).map (f32OfVal false)
    else if isBlockFmt f then (rowBlks f bs).flatMap fun b => (List.range 32).map fun i => f32OfVal false (b.read i)
    else (srcCodes f false bs).map (elemF32 f)
  (List.range (Sc.tblValues cfg t)).map fun i => xs.getD i 0

/-- How many blocks of a fetched row break R57. -/
def rowBadBlocks (cfg : List Byte) (t : Nat) (bs : List Byte) : Nat :=
  if isBlockFmt (Sc.tblFmt cfg t) then ((rowBlks (Sc.tblFmt cfg t) bs).filter Blk.bad).length else 0

/-- Add or compare two rows element by element. -/
def poolTwo (op : Nat) (a b : List Nat) : Lvu (List Nat) := (a.zip b).mapM fun x => if op = 3 then pure (Lv.fmax x.1 x.2) else Lv.fadd x.1 x.2

/-- Pool the rows of a bag in ID order. -/
def poolBag (op : Nat) : List (List Nat) → Lvu (List Nat)
  | [] => pure []
  | r :: rs => do
    let sum ← rs.foldlM (poolTwo op) r
    if op = 2 then
      let w := (lnsMake false (-(logOf (rs.length + 1) 0))).1
      sum.mapM fun x => Lv.scale x w
    else pure sum

/-- The slot of a batch that holds a bag. -/
def bagSlot (s : State) (j : GthJob) (b : Nat) : Option Nat :=
  ((Tbl.get [] s.srv.curBatches j.part).find? fun x => x.binding == j.binding && x.seg == s.step.segment).bind fun x =>
    x.slots.findIdx? fun u => decide (u.bag0 ≤ b) && decide (b < u.bag0 + u.bags)

/-- Note that a bag's rows were poisoned: its request's turn ends POISONED (R453). -/
def poisonBag (j : GthJob) (b : Nat) (s : State) : State :=
  match bagSlot s j b with
  | none => s
  | some i => modSrv (fun v => { v with curBatches := Tbl.set [] v.curBatches j.part ((Tbl.get [] v.curBatches j.part).map fun x =>
      if x.binding == j.binding && x.seg == s.step.segment then { x with poisoned := x.poisoned ++ [i] } else x) }) s

/-- A pooled bag as the rows of its output format, narrowed in dynamic mode, with the NaNs that narrowing counts (R66, R67, R451). -/
def poolRows (f : Nat) (xs : List Nat) : List (List Byte) × Nat :=
  if isBlockFmt f then (layVals f true none (xs.map f32Val), (xs.filter fun x => f32Val x == .nan).length)
  else if f = 7 then (layElems 4 true xs, 0) else (layElems 2 true (xs.map bf16OfF32), 0)

/-- Pool one fetched bag into its output rows. -/
def poolOne (j : GthJob) (b : Nat) (slots : List Nat) (s : State) : State :=
  let cfg := (srvOf s j.binding).getD []
  let bag := j.bags.getD b { table := 0, op := 0, ids := [] }
  let got := slots.map fun i => Tbl.get ([], false) j.buffer i
  let bad := got.any Prod.snd
  let r := poolBag bag.op (got.map fun g => rowCodes cfg bag.table g.1) { sat := 0, flush := 0, nan := 0, ovf := 0 }
  let out := poolRows (Sc.goutFmt cfg) r.1
  let rows := out.1
  let a := bagRow cfg b
  let s := badBlockFaults j.part 1 a.1 (got.map fun g => rowBadBlocks cfg bag.table g.1).sum (addLvu a.1 (ceilDiv r.1.length 32) { r.2 with nan := r.2.nan + out.2 } s)
  let s := (List.range (Sc.goutRpt cfg)).foldl (fun s i => putRow false j.part a.1 (a.2 + i) (padTo 640 (rows.getD i [])) bad true s) s
  let s := if bad then poisonBag j b s else s
  modGth (fun g =>
    let left := g.job.map fun j => { j with ready := j.ready.filter fun x => x.1 != b }
    let last := left.any fun j => j.ready.isEmpty && decide (j.bags.length ≤ j.next)
    { g with busy := !last, job := if last then none else left }) s

/-- BAG_POOL (R451 to R453). -/
def execBagPool (bag : Nat) (s : State) : Host.Outcome State Fault Refusal :=
  .next (match s.gth.job with
    | none => s
    | some j => match j.ready.find? fun x => x.1 == bag with
      | none => s
      | some x => poolOne j bag x.2 s)

end Sys2Proof.Machine
end

