-- ==== Sys2Proof/Machine/Part.lean ====
section
/-! DEFINITION. Partitions: quotas, draining, the reset ladder, and the commands of group 0x02 (15_partitions_qos.md, R587 to R611). Readings: log entry 36. -/
namespace Sys2Proof.Machine

/-! ### Registers (R610) -/

/-- PRT_CFG of a partition. -/
def prtCfg (s : State) (p : Nat) : Nat :=
  match part? s p with
  | none => 0
  | some x => 2 ^ 63 + b2n x.draining * 2 ^ 62 + b2n (bit s.step.suspended p) * 2 ^ 61 + b2n x.resetPend.isSome * 2 ^ 60 +
      b2n x.primA.isSome * 2 ^ 55 + x.primA.getD 0 * 2 ^ 50 + b2n x.primB.isSome * 2 ^ 49 + x.primB.getD 0 * 2 ^ 44

/-- PRT_FN of a function. -/
def prtFn (s : State) (f : Nat) : Nat :=
  let off := b2n (func s f).disabled
  (match Tbl.get none s.part.funcs f with
  | some x => 2 ^ 31 + b2n x.2 * 2 ^ 30 + x.1 % 16 * 2 ^ 16
  | none => 0) + 2 * off + off

/-- PRT_QUOTA of a partition. -/
def prtQuota (s : State) (p : Nat) : Nat :=
  match part? s p with
  | none => 0
  | some x => x.t2Limit * 2 ^ 104 + x.t2Used * 2 ^ 80 + x.t1Limit * 2 ^ 60 + x.t1Used * 2 ^ 40 + x.reqLimit * 2 ^ 21 + x.resRows

/-- Remove a function's BAR2 map (R554, R588). -/
def unmapBar2 (f : Nat) (s : State) : State := modFunc f (fun x => { x with bar2 := none }) s

/-! ### Ending commands (R601, R604) -/

/-- End the running commands that a test names: swaps and updates (R361), loads, verifications, copies, and all the rest. -/
def abortCommands (p : Cmd → Bool) (st : Nat) (s : State) : State :=
  let s := s.mdl.bindings.foldl (fun s x => match binding? s x.1 with
    | none => s
    | some b => if (b.swap.bind Swap.cmd).any p || b.swap.isSome && b.cmd.any p then failSwap x.1 st s
      else if b.cmd.any p then stopLoad x.1 st [] s else s) s
  let s := modProg (fun x => { x with progs := x.progs.filter fun g => !g.2.any fun y => y.cmd.any p }) s
  completeAll p st (dropChains (fun c => c.cmd.any p) s)

/-- The command acts for its function's partition: it is of no group that acts on the device or on partitions. -/
def actsForPart (p : Nat) (c : Cmd) : Bool := c.part == some p && !(#[1, 2, 9, 10].contains (c.op / 256))

/-- The partition commands of an opcode that wait and name a partition. -/
def waitingFor (s : State) (op p : Nat) : List Cmd := (waitingCmds s op).filter fun c => pByte c 0 == p

/-- An event of R598. -/
def tellPart (code p : Nat) (payload : List Byte) (s : State) : State := raiseTo code p [.prims p, .primaryPf] payload s

/-! ### The partition reset (R602 to R605) -/

/-- End the live requests that a test names. -/
def abortReqs (q : Request → Bool) (st : Nat) (s : State) : State :=
  ((liveSlots s).filter fun k => q (req s k)).foldl (fun s k => abortReq k st s) s

/-- The partition's batches and gather job are given up. -/
def dropBatches (p : Nat) (s : State) : State :=
  let s := modSrv (fun v => { v with nextBatches := Tbl.set [] v.nextBatches p [], curBatches := Tbl.set [] v.curBatches p [] }) s
  modGth (fun g => if g.job.any fun j => j.part == p then { g with job := none, busy := false } else g) (clearCounts p s)

/-- R604, in its order; the commands PART_RESET that wait for it complete with the rack time of the reserve. -/
def resetPartition (p cause : Nat) (s : State) : State :=
  let s := abortReqs (fun r => r.part == p) stAbortedReset s
  let s := ((s.srv.prefixes.filter fun x => x.2.any fun y => y.live && y.part == p).map Prod.fst).foldl (fun s i => freePrefix i false s) s
  let s := dropKnots (· == p) (dropChains (fun c => c.part == some p) s)
  let s := abortSwaps (fun _ b => b.part == p) stAbortedReset s
  let s := resetSync p s
  let s := abortCommands (actsForPart p) stAbortedReset s
  let s := modStep (fun t => { t with suspended := t.suspended - (t.suspended &&& 2 ^ p), streak := Tbl.set 0 t.streak p 0 }) s
  let s := dropBatches p (modNpPart p (fun x => { x with exps := [] }) s)
  let s := modPart (fun x => { x with resets := Tbl.inc 32 x.resets p }) (modPartn p (fun x => { x with resetPend := none }) s)
  let s := tellPart evPartitionReset p (fields4 [p, cause] ++ leBytes 8 (rack s)) s
  (waitingFor s 0x0206 p).foldl (fun s c => complete c stOk 0 (leBytes 8 (rack s)) s) s

/-! ### Draining (R601) -/

/-- What the reserve does for a draining partition. -/
def drainPart (p : Nat) (s : State) : State :=
  match part? s p with
  | none => s
  | some x =>
    if !x.draining then s else
    let gone := fun f => x.drainFuncs.contains f
    let n := (liveSlots s).length
    let d := s.srv.droppedOutputs
    let s := abortReqs (fun r => r.part == p && (gone r.func || r.inTurn && gone r.turnFunc)) stAbortedDisable s
    let s := abortCommands (fun c => gone c.m.func) stAbortedDisable s
    let s := dropKnots (· == p) (dropChains (fun c => c.part == some p) s)
    let s := completeAll (fun c => c.op == 0x0601 && c.part == some p) stAbortedDisable s
    let ended := n - (liveSlots s).length
    if (primaries s p).any (enabled s) then
      tellPart evPartitionDrained p (fields4 [p, ended, s.srv.droppedOutputs - d])
        (modPartn p (fun x => { x with draining := false, drainFuncs := [] }) s)
    else
      modPartn p (fun x => { x with draining := false, drainFuncs := [], resetPend := some (x.resetPend.getD 3) })
        (abortReqs (fun r => r.part == p) stAbortedDisable s)

/-! ### PART_DESTROY (R587, R592, R609) -/

/-- After its reset, a partition to be destroyed gives back all it holds; it is gone once what it freed is zeroed. -/
def destroyPart (p : Nat) (s : State) : State :=
  let cs := waitingFor s 0x0203 p
  if cs.isEmpty || (part? s p).isNone then s else
  let s := modProg (fun x => { x with active := Tbl.set none x.active p none, progs := x.progs.filter fun g => !g.2.any fun y => y.part == p }) s
  let hs := (s.mdl.bindings.filter fun b => b.2.any fun y => y.part == p).map Prod.fst
  let s := hs.foldl (fun s h => unbind h (failSwap h stAbortedReset s)) s
  let s := modFab (fun f => { f with knots := f.knots.filter (fun k => !k.2.any fun y => y.part == p), credit := Tbl.set 64 f.credit p 64 }) s
  let s := modHch (fun h =>
    { h with bars := h.bars.filter fun b => !b.2.any fun y => y.partition == p
             wins := h.wins.map fun w => (w.1, w.2.map fun x => if x.partition = p ∧ !x.fwOwned then { x with inUse := false } else x) }) s
  let s := (List.range 2).foldl (fun s t => modTier t (fun x => { x with credit := Tbl.set 64 x.credit p 64 }) s) s
  let s := modNp (fun x => { x with parts := Tbl.set none x.parts p none }) s
  let s := modSrv (fun x => { x with classes := x.classes.filter fun c => c.1 / 16 != p }) s
  let s := (functionsOf s p).foldl (fun s f => unmapBar2 f s) s
  let s := modPart (fun x => { x with funcs := x.funcs.filter fun f => !f.2.any fun y => y.1 == p }) s
  let s := modPartn p (fun x => { x with primA := none, primB := none, draining := false, drainFuncs := [] }) s
  let left := s.t1.zeroing.map (0, ·) ++ s.t2.zeroing.map (1, ·)
  finishDestroys (modPart (fun x => { x with destroys := x.destroys ++ cs.map (·, left) }) s)

/-- GRANULE_ZERO_COMPLETE (R608): the granule is zero and free. -/
def execGranuleZeroComplete (t granule : Nat) (s : State) : Host.Outcome State Fault Refusal :=
  .next (if 1 < t ∨ !(tier s t).zeroing.contains granule then s else zeroGranule t granule s)

/-! ### Step 4 of the reserve (R33, R40, R607) -/

/-- Suspend a partition that overran too often in a row (R40). -/
def suspendPart (p : Nat) (s : State) : State :=
  let n := Tbl.get 0 s.step.streak p
  if s.step.overrunLimit = 0 ∨ n < s.step.overrunLimit ∨ (part? s p).isNone ∨ bit s.step.suspended p then s
  else tellPart evPartitionSuspended p (fields4 [p, n]) (modStep (fun t => { t with suspended := t.suspended ||| 2 ^ p }) s)

/-- One partition: drain, reset, suspension. -/
def settlePart (p : Nat) (s : State) : State :=
  let s := drainPart p s
  let s := (s.part.resetFuncs.filter fun f => funcPart s f == some p).foldl (fun s f =>
    abortReqs (fun r => r.part == p && (r.func == f || r.inTurn && r.turnFunc == f)) stAbortedReset s) s
  let s := match (part? s p).bind Part.resetPend with
    | some cause => destroyPart p (resetPartition p cause s)
    | none => s
  suspendPart p s

/-- All partitions, in ascending number. -/
def settleParts (s : State) : State :=
  modPart (fun x => { x with resetFuncs := [] }) ((List.range 16).foldl (fun s p => settlePart p s) s)

/-- While stepping does not run there is no reserve to wait for (R698). -/
def settleIdle (s : State) : State := if stepping s then s else settleParts s

/-- A reset awaits the next reserve; further causes merge into the first (R602, R611). -/
def pendReset (p cause : Nat) (s : State) : State := modPartn p (fun x => { x with resetPend := some (x.resetPend.getD cause) }) s

/-! ### Quotas (R590) -/

/-- Granules of a tier, and resident rows, that quotas may share. -/
def usableGranules (s : State) (t : Nat) : Nat := tierGranules t - Config.reservedGranules t - (tier s t).retired.length
def usableRows (s : State) : Nat := 32768 - 1024 * s.sp.cacheBanks

/-- The quotas given to partitions but one. -/
def quotaSum (s : State) (p : Nat) (g : Part → Nat) : Nat := (s.part.parts.map fun x => if x.1 = p then 0 else (x.2.map g).getD 0).sum

/-- Quotas for a partition fit beside the others'. -/
def quotasFit (s : State) (p t1 t2 rows : Nat) : Bool :=
  decide (quotaSum s p Part.t1Limit + t1 ≤ usableGranules s 0) && decide (quotaSum s p Part.t2Limit + t2 ≤ usableGranules s 1) &&
    decide (quotaSum s p Part.resRows + rows ≤ usableRows s)

/-! ### PART_CREATE, PART_DESTROY, PART_FUNC (R587 to R590, R609) -/

/-- A primary function as a command names it: 0xFF none. -/
def primOf (x port : Nat) : Option (Option Nat) := if x = 0xFF then some none else if x / 32 = port then some (some (x % 32)) else none

def partCreate (c : Cmd) (s : State) : State × Ans :=
  let p? := if pBit c 1 0 then Tbl.free s.part.parts 16 else some (pByte c 0)
  match p?, primOf (pByte c 2) 0, primOf (pByte c 3) 1 with
  | none, _, _ => refuse stNoResource s
  | some p, some a, some b =>
    let fs := a.toList ++ b.toList.map (32 + ·)
    if 16 ≤ p ∨ fs = [] ∨ 262144 < pNum c 12 4 ∨ fs.any (fun f => (funcPart s f).isSome) then refuse stBadCommand s
    else if (part? s p).isSome then refuse stBusy s
    else if !quotasFit s p (pNum c 4 4) (pNum c 8 4) (pNum c 16 2) then refuse stRefusedCapacity s
    else
      let s := modPart (fun x => { x with
        parts := Tbl.set none x.parts p (some { draining := false, drainFuncs := [], resetPend := none, primA := a, primB := b,
                                                 t1Limit := pNum c 4 4, t2Limit := pNum c 8 4, t1Used := 0, t2Used := 0,
                                                 reqLimit := pNum c 12 4, resRows := pNum c 16 2 }),
        funcs := fs.foldl (fun t f => Tbl.set none t f (some (p, true))) x.funcs }) s
      doneWith [BitVec.ofNat 8 p] s
  | _, _, _ => refuse stBadCommand s

def partCreateSpec : CmdSpec := { op := 0x0202, allow := [(0, 0, 0xFF), (1, 1, 1), (2, 17, 0xFF)], perm := byPrimary, body := partCreate }

/-- PART_CREATE (R587, R589, R590). -/
def execPartCreate (m : Mbx) (s : State) : Host.Outcome State Fault Refusal := .next (runCmd partCreateSpec m s)

/-- A reset with a cause, in the next reserve or now. -/
def resetFor (cause : Nat) (c : Cmd) (s : State) : State × Ans :=
  if (part? s (pByte c 0)).isNone then refuse stBadCommand s
  else later (settleIdle (pendReset (pByte c 0) cause s))

def partDestroySpec : CmdSpec := { op := 0x0203, allow := [(0, 0, 0xFF)], perm := byPrimary, body := resetFor 4 }

/-- PART_DESTROY (R587, R592, R604, R609). -/
def execPartDestroy (m : Mbx) (s : State) : Host.Outcome State Fault Refusal := .next (runCmd partDestroySpec m s)

/-- A function has an enabled ring or live requests. -/
def funcBusy (s : State) (f : Nat) : Bool :=
  (List.range 17).any (fun k => (ring s f k).enable) || (liveSlots s).any fun k => (req s k).func == f

/-- Set a partition's primary on a function's port. -/
def setPrim (p f : Nat) (on : Bool) (s : State) : State :=
  modPartn p (fun x => if f < 32 then { x with primA := if on then some f else none } else { x with primB := if on then some (f % 32) else none }) s

/-- Take a function from its partition. -/
def releaseFunc (f : Nat) (s : State) : State :=
  match Tbl.get none s.part.funcs f with
  | none => s
  | some (p, prim) =>
    let s := onlyIf prim (setPrim p f false) (unmapBar2 f s)
    modPart (fun x => { x with funcs := Tbl.set none x.funcs f none }) s

def partFunc (c : Cmd) (s : State) : State × Ans :=
  let f := pByte c 0
  let p := pByte c 1
  let prim := pBit c 2 0
  let old := Tbl.get none s.part.funcs f
  if 64 ≤ f ∨ p ≠ 0xFF ∧ (part? s p).isNone then refuse stBadCommand s
  else if funcBusy s f then refuse stBusy s
  else
    let loses := old.any fun o => o.2 && (o.1 != p || !prim)
    let last := loses && old.any fun o => (primaries s o.1).length == 1
    let other := p != 0xFF && prim && (primaries s p).any fun g => g / 32 == f / 32 && g != f
    if last || other then refuse stBadCommand s
    else if p = 0xFF then done (releaseFunc f s)
    else
      let s := if old.any fun o => o.1 == p then onlyIf loses (setPrim p f false) s else releaseFunc f s
      done (onlyIf prim (setPrim p f true) (modPart (fun x => { x with funcs := Tbl.set none x.funcs f (some (p, prim)) }) s))

def partFuncSpec : CmdSpec := { op := 0x0204, allow := [(0, 1, 0xFF), (2, 2, 1)], perm := byPrimary, body := partFunc }

/-- PART_FUNC (R588, R589, R609). -/
def execPartFunc (m : Mbx) (s : State) : Host.Outcome State Fault Refusal := .next (runCmd partFuncSpec m s)

/-! ### PART_QOS (R590, R595) -/

/-- The credits of PART_QOS break what R272 proved of the active program. -/
def creditBreaks (s : State) (p a b : Nat) : Bool :=
  (decide (a < min 64 (Tbl.get 64 s.t1.credit p)) || decide (b < min 64 (Tbl.get 64 s.t2.credit p))) &&
    (activeProg s p).any fun g => !g.unverified && (countVectors g.image).any fun n => !(aheadFails s (a, b) p g.image n).isEmpty

/-- A quota is lowered below what the partition uses. -/
def belowUse (s : State) (p t1 t2 reqs rows : Nat) : Bool :=
  decide (t1 < quotaUsed s p 0) || decide (t2 < quotaUsed s p 1) || decide (reqs < partLive s p) ||
    (List.range 16).any fun f => decide (rows < residentUsed s p f)

def applyQos (c : Cmd) (s : State) : State × Ans :=
  let p := pByte c 0
  let t1 := pNum c 8 4
  let t2 := pNum c 12 4
  let rows := pNum c 20 2
  if (part? s p).isNone then refuse stBadCommand s
  else if pBit c 1 1 && (!quotasFit s p t1 t2 rows || belowUse s p t1 t2 (pNum c 16 4) rows) then refuse stRefusedCapacity s
  else if pBit c 1 0 && creditBreaks s p (pByte c 2) (pByte c 3) then refuse stRefusedSchedule s
  else
    let s := onlyIf (pBit c 1 0) (fun s =>
      modFab (fun x => { x with credit := Tbl.set 64 x.credit p (pByte c 4) })
        (modTier 1 (fun x => { x with credit := Tbl.set 64 x.credit p (pByte c 3) })
          (modTier 0 (fun x => { x with credit := Tbl.set 64 x.credit p (pByte c 2) }) s))) s
    done (onlyIf (pBit c 1 1) (modPartn p fun x => { x with t1Limit := t1, t2Limit := t2, reqLimit := pNum c 16 4, resRows := rows }) s)

def partQos (c : Cmd) (s : State) : State × Ans :=
  if (part? s (pByte c 0)).isNone || pBit c 1 0 && (decide (64 < pByte c 2) || decide (64 < pByte c 3) || decide (64 < pByte c 4)) ||
      pBit c 1 1 && decide (262144 < pNum c 16 4) then refuse stBadCommand s
  else if stepping s then later s else applyQos c s

def partQosSpec : CmdSpec := { op := 0x0205, allow := [(0, 0, 0xFF), (1, 1, 3), (2, 4, 0xFF), (8, 21, 0xFF)], perm := byPrimary, body := partQos }

/-- PART_QOS (R590, R595). -/
def execPartQos (m : Mbx) (s : State) : Host.Outcome State Fault Refusal := .next (runCmd partQosSpec m s)

/-! ### PART_RESET, PART_RESUME, PART_QUERY (R602, R609) -/

def partResetSpec : CmdSpec := { op := 0x0206, allow := [(0, 0, 0xFF)], perm := byPartPrimary, body := resetFor 1 }

/-- PART_RESET (R602, R604). -/
def execPartReset (m : Mbx) (s : State) : Host.Outcome State Fault Refusal := .next (runCmd partResetSpec m s)

def applyResume (c : Cmd) (s : State) : State × Ans :=
  let p := pByte c 0
  if !bit s.step.suspended p then done s
  else done (tellPart evPartitionResumed p (fields4 [p])
    (modStep (fun t => { t with suspended := t.suspended - 2 ^ p, streak := Tbl.set 0 t.streak p 0 }) s))

def partResume (c : Cmd) (s : State) : State × Ans :=
  if (part? s (pByte c 0)).isNone then refuse stBadCommand s else if stepping s then later s else applyResume c s

def partResumeSpec : CmdSpec := { op := 0x0207, allow := [(0, 0, 0xFF)], perm := byPartPrimary, body := partResume }

/-- PART_RESUME (R40, R609). -/
def execPartResume (m : Mbx) (s : State) : Host.Outcome State Fault Refusal := .next (runCmd partResumeSpec m s)

def partQuery (c : Cmd) (s : State) : State × Ans :=
  let p := pByte c 0
  if (part? s p).isNone then refuse stBadCommand s
  else intoHost c (pNum c 8 8) 4096 (Config.queryImage 0x0208 ([prtCfg s p, prtQuota s p, Tbl.get 0 s.part.resets p, Tbl.get 0 s.part.fenced p,
    Tbl.get 0 s.part.eventsLost p] ++ functionsOf s p)) s

def partQuerySpec : CmdSpec := { op := 0x0208, allow := [(0, 0, 0xFF), (8, 15, 0xFF)], perm := byPartPrimary, body := partQuery }

/-- PART_QUERY (R609). -/
def execPartQuery (m : Mbx) (s : State) : Host.Outcome State Fault Refusal := .next (runCmd partQuerySpec m s)

end Sys2Proof.Machine
end

