-- ==== Sys2Proof/Machine/Host.lean ====
section
/-! DEFINITION. Host ports and functions, command queues and event rings, interrupts, BAR2, the primary role, and the device commands that need no step (14_host_ports_and_mailbox.md, R543 to R586). Readings: log entry 37. -/
namespace Sys2Proof.Machine

/-! ### Rings (R558 to R565, R572, R585) -/

/-- The smallest size_log2 of a ring: 6 for the event ring. -/
def minLog (k : Nat) : Nat := if k < 16 then 4 else 6

/-- The fields of HIF_Q_CTRL but enable. -/
def ringCtrl (ctrl : Nat) (r : Ring) : Ring :=
  { r with sizeLog2 := bits ctrl 24 4, coalUs := bits ctrl 16 8, coalCount := bits ctrl 8 8, irqEn := bit ctrl 5, vector := bits ctrl 0 5 }

/-- A ring put in use: head and tail 0, phase 1, no error. -/
def Ring.start (r : Ring) : Ring :=
  { r with enable := true, error := false, errCause := 0, phase := true, head := 0, tail := 0, sqTail := 0, cqHead := 0,
           unreturned := 0, inflight := 0, waiting := [], unreported := 0, epoch := r.epoch + 1 }

/-- The configuration of a ring is one that R565 accepts. -/
def ringOk (k : Nat) (r : Ring) : Bool :=
  r.sqBase % 4096 == 0 && (decide (16 ≤ k) || r.cqBase % 4096 == 0) && decide (minLog k ≤ r.sizeLog2) && decide (r.sizeLog2 ≤ 12)

/-- enable written to 1: the ring starts, or stops on a bad configuration; a function whose disabling has ended is enabled again (R549, R559, R565). On a ring in use only the other fields change. -/
def enableRing (f k ctrl : Nat) (s : State) : State :=
  if (ring s f k).enable then
    let s := modRing f k (ringCtrl ctrl) s
    onlyIf (decide (0 < (ring s f k).unreported)) (checkReport f k) s
  else
    let s := modRing f k (fun r => (ringCtrl ctrl r).start) s
    if !ringOk k (ring s f k) then queueError f k 1 s
    else onlyIf (!disableCond s f) (modFunc f fun x => { x with disabled := false }) s

/-- enable written to 0: commands read run on, their completions are not written (R559, R566). -/
def disableRing (f k : Nat) (s : State) : State :=
  if !(ring s f k).enable then s else
  let n := (ring s f k).waiting.length
  modFunc f (fun x => { x with cplDropped := satAdd 32 x.cplDropped n })
    (modRing f k (fun r => { r with enable := false, epoch := r.epoch + 1, waiting := [], inflight := 0 }) s)

/-- QUEUE_ENABLE (R549, R558, R559, R565). -/
def execQueueEnable (f q ctrl : Nat) (s : State) : Host.Outcome State Fault Refusal :=
  .next (if f < 64 ∧ q < 16 then enableRing f q ctrl s else s)

/-- QUEUE_DISABLE (R559). -/
def execQueueDisable (f q : Nat) (s : State) : Host.Outcome State Fault Refusal :=
  .next (if f < 64 ∧ q < 16 then disableRing f q s else s)

/-- EVENT_RING_ENABLE (R549, R565, R572). -/
def execEventRingEnable (f ctrl : Nat) (s : State) : Host.Outcome State Fault Refusal :=
  .next (if f < 64 then enableRing f 16 ctrl s else s)

/-- A doorbell: ignored in BOOT, counted on a ring that is not enabled, an error beyond the ring (R556, R565, R566). -/
def doorbell (f k v : Nat) (act : State → State) (s : State) : State :=
  let r := ring s f k
  if s.host.state = 0 ∨ 64 ≤ f then s
  else if !r.enable then modFunc f (fun x => { x with doorbellIgnored := satAdd 32 x.doorbellIgnored 1 }) s
  else if r.error then s
  else if r.size ≤ v then queueError f k 2 s
  else act s

/-- Entries that a new head returns; the old head on a full ring returns them all (R563). -/
def returned (r : Ring) (old v : Nat) : Nat :=
  let n := (v + r.size - old) % r.size
  min r.unreturned (if n = 0 ∧ r.size ≤ r.unreturned then r.size else n)

/-- A new command tail. -/
def ringSq (f q v : Nat) (s : State) : State := doorbell f q v (modRing f q fun r => { r with sqTail := v }) s

/-- A new completion head: completions that wait are written (R564). -/
def ringCq (f q v : Nat) (s : State) : State :=
  doorbell f q v (fun s =>
    let s := modRing f q (fun r => { r with cqHead := v, unreturned := r.unreturned - returned r r.cqHead v }) s
    flushCompletions f q (ring s f q).waiting s) s

/-- A new event head. -/
def ringEq (f v : Nat) (s : State) : State :=
  doorbell f 16 v (modRing f 16 fun r => { r with head := v, unreturned := r.unreturned - returned r r.head v }) s

/-- SQ_DOORBELL (R556, R560, R565, R566): bits 11:0 are the new tail. -/
def execSqDoorbell (f q tail : Nat) (s : State) : Host.Outcome State Fault Refusal := .next (if q < 16 then ringSq f q (tail % 4096) s else s)

/-- CQ_DOORBELL (R563 to R566). -/
def execCqDoorbell (f q head : Nat) (s : State) : Host.Outcome State Fault Refusal := .next (if q < 16 then ringCq f q (head % 4096) s else s)

/-- EQ_DOORBELL (R572, R574). -/
def execEqDoorbell (f head : Nat) (s : State) : Host.Outcome State Fault Refusal := .next (ringEq f (head % 4096) s)

/-! ### Interrupts (R577, R578) -/

/-- INTERRUPT_COALESCE_TIMER (R577): the oldest unreported entry of a ring is coal_us old. -/
def execInterruptCoalesceTimer (f k : Nat) (s : State) : Host.Outcome State Fault Refusal :=
  let r := ring s f k
  .next (if f < 64 ∧ k < 17 ∧ r.irqEn ∧ r.coalUs ≠ 0 ∧ 0 < r.unreported ∧ r.oldest + 1000 * r.coalUs ≤ s.now then reportRing f k s else s)

/-- Write a vector's MSI-X entry; an unmasked vector sends what it held pending (R578). -/
def setMsix (f v : Nat) (e : Msix) (s : State) : State :=
  let s := modFunc f (fun x => { x with msix := Tbl.set none x.msix v (some e) }) s
  if !e.masked && bit (func s f).pba v then emit (.msix f v) (modFunc f (fun x => { x with pba := x.pba - 2 ^ v }) s) else s

def msixOf (s : State) (f v : Nat) : Msix := Tbl.opt { addr := 0, data := 0, masked := true } (func s f).msix v

/-- MSIX_VECTOR_UNMASK (R578). -/
def execMsixVectorUnmask (f v : Nat) (s : State) : Host.Outcome State Fault Refusal :=
  .next (if f < 64 ∧ v < 32 then setMsix f v { msixOf s f v with masked := false } s else s)

/-! ### Disabling functions (R549, R599) -/

/-- The functions of a port. -/
def portFuncs (p : Nat) : List Nat := (List.range 32).map (32 * p + ·)

/-- A function that was enabled is disabled: its partition drains and hears of it. -/
def noteDisabled (f : Nat) (s : State) : State :=
  match funcPart s f with
  | none => s
  | some p => tellPart evPartitionDraining p (fields4 [p, f]) (modPartn p (fun x => { x with draining := true, drainFuncs := x.drainFuncs ++ [f] }) s)

/-- A change to conditions of R549, and what it disables among some functions. -/
def disabling (fs : List Nat) (change : State → State) (s : State) : State :=
  let was := fs.filter (enabled s)
  let s := change s
  let s := (fs.filter fun f => disableCond s f).foldl (fun s f => modFunc f (fun x => { x with disabled := true }) s) s
  settleIdle ((was.filter fun f => !enabled s f).foldl (fun s f => noteDisabled f s) s)

/-- Both PFs hear that the primary role moved (R580). -/
def moveRole (p : Nat) (s : State) : State := raiseTo evPrimaryChanged 0xFF [.pfs] [] (modHost (fun h => { h with primary := some p }) s)

/-- A port's link goes down: its functions are disabled, the other PF hears of it; with both down no PF holds the role (R549, R580, R581). -/
def linkDown (p : Nat) (s : State) : State :=
  if !(hostPort s p).linkUp then s else
  let s := disabling (portFuncs p) (modHostPort p fun x => { x with linkUp := false, downSince := some s.now, upSince := none, atc := [] }) s
  let s := raiseTo evHostLinkDown 0xFF [.func (32 * (1 - p))] [] s
  if (hostPort s (1 - p)).linkUp then s else modHost (fun h => { h with primary := none }) s

/-- PCIE_LINK_DOWN (R549, R581, R583). -/
def execPcieLinkDown (p : Nat) (s : State) : Host.Outcome State Fault Refusal := .next (if p < 2 then linkDown p s else s)

/-- PCIE_LINK_UP (R579 to R581): the functions stay disabled until their host enables them; the first port to train takes a free role, Port A where both trained within the same millisecond after cold reset. -/
def execPcieLinkUp (p : Nat) (s : State) : Host.Outcome State Fault Refusal :=
  .next (
    let x := hostPort s p
    let y := hostPort s (1 - p)
    if 2 ≤ p ∨ x.linkUp ∨ x.perst ∨ !s.pwr.pgOut ∨ s.now < s.pwr.pgOutAt + 100000000 then s else
    let s := modHostPort p (fun x => { x with linkUp := true, upSince := some s.now, downSince := none }) s
    let s := (portFuncs p).foldl (fun s f => modFunc f (fun z => { z with disabled := true }) s) s
    let s := raiseTo evHostLinkUp 0xFF [.func (32 * (1 - p))] [] s
    let first := x.downSince.isNone
    match s.host.primary with
    | none => if first then modHost (fun h => { h with primary := some p }) s else moveRole p s
    | some q =>
      if first && p == 0 && q == 1 && y.upSince.any (fun t => t / 1000000 == s.now / 1000000)
      then modHost (fun h => { h with primary := some 0 }) s else s)

/-- PRIMARY_ROLE_TIMEOUT (R580): the holder's link has been down for 100 ms and the other is up. -/
def execPrimaryRoleTimeout (s : State) : Host.Outcome State Fault Refusal :=
  .next (match s.host.primary with
    | some p => if (hostPort s p).downSince.any (fun t => decide (t + 100000000 ≤ s.now)) && (hostPort s (1 - p)).linkUp then moveRole (1 - p) s else s
    | none => s)

/-- FUNCTION_DISABLE (R549, R599): a condition of R549 sets in. -/
def execFunctionDisable (f : Nat) (cause : DisableCause) (s : State) : Host.Outcome State Fault Refusal :=
  .next (if 64 ≤ f then s else
    match cause with
    | .busMaster => disabling [f] (modFunc f fun x => { x with bme := false }) s
    | .d3hot => disabling [f] (modFunc f fun x => { x with d3hot := true }) s
    | .vfEnable => disabling (portFuncs (f / 32)) (modFunc (f / 32 * 32) fun x => { x with vfEnable := false }) s
    | .portDown => linkDown (f / 32) s)

/-! ### Resets of functions and ports (R550, R557, R583, R602, R603) -/

/-- BAR0 registers, queues, event ring and MSI-X of a function at reset; its commands are abandoned. -/
def resetFuncRegs (f : Nat) (s : State) : State :=
  let s := abandonCmds (fun c => c.m.func == f) s
  modFunc f (fun x =>
    let es := (List.range 16).map fun q => (q, some { Ring.reset with epoch := (ring s f q).epoch + 1 })
    { Func.reset with bme := x.bme, d3hot := x.d3hot, vfEnable := x.vfEnable, numVfs := x.numVfs, ats := x.ats, disabled := x.disabled,
                      suppressed := x.suppressed, eventSeq := x.eventSeq, bar2 := x.bar2, queues := es }) s

/-- FUNCTION_LEVEL_RESET (R550, R597, R602, R603): registers and queues at once; the partition's part in the next reserve. -/
def execFunctionLevelReset (f : Nat) (s : State) : Host.Outcome State Fault Refusal :=
  .next (if 64 ≤ f then s else
    let s := resetFuncRegs f s
    match funcPart s f with
    | none => s
    | some p => settleIdle (if (primaries s p).contains f then pendReset p 2 s
        else modPart (fun x => { x with resetFuncs := x.resetFuncs ++ [f] }) s))

/-- PERST_ASSERT (R549, R557, R583): as link down, and the port's functions and configuration space are reset; never the chip. -/
def execPerstAssert (p : Nat) (s : State) : Host.Outcome State Fault Refusal :=
  .next (if 2 ≤ p then s else
    let s := disabling (portFuncs p) (modHostPort p fun x => { x with perst := true, readyAt := none }) (linkDown p s)
    (portFuncs p).foldl (fun s f => modFunc f (fun x => { x with bme := false, d3hot := false, vfEnable := false, numVfs := 0, ats := false }) (resetFuncRegs f s)) s)

/-- When a port leaves reset: at the deassertion of its PERST_x_N, but 100 ms after PG_OUT at the earliest (R680). -/
def leaveReset (s : State) : Nat := max s.now (s.pwr.pgOutAt + 100000000)

/-- The port leaves reset: its configuration space is ready within 500 ms of that (R557). -/
def startPort (p : Nat) (s : State) : State :=
  modHostPort p (fun x => { x with readyAt := some (leaveReset s + Config.cfgReadyNs p % 500000001) }) s

/-- PERST_DEASSERT (R557, R680). -/
def execPerstDeassert (p : Nat) (s : State) : Host.Outcome State Fault Refusal :=
  .next (if 2 ≤ p ∨ !(hostPort s p).perst then s
    else onlyIf s.pwr.pgOut (startPort p) (modHostPort p (fun x => { x with perst := false }) s))

/-! ### Configuration space (R546, R548, R549, R557) -/

/-- A virtual function that its PF has enabled, or a PF. -/
def funcPresent (s : State) (f : Nat) : Bool :=
  f % 32 == 0 || ((func s (f / 32 * 32)).vfEnable && decide (f % 32 ≤ (func s (f / 32 * 32)).numVfs))

/-- Class code 0x120000 above the device ID: 0x4D40 of a PF, 0x4D41 of a VF (R548). -/
def identity (f : Nat) : Nat := 0x120000 * 65536 + if f % 32 = 0 then 0x4D40 else 0x4D41

def configWrite (f : Nat) : CfgReq → State → State
  | .readId, s => emit (.cfg f (identity f)) s
  | .readOther r, s => emit (.cfg f (Config.cfgValue f r)) s
  | .setBme on, s => disabling [f] (modFunc f fun x => { x with bme := on }) s
  | .setD3hot on, s => disabling [f] (modFunc f fun x => { x with d3hot := on }) s
  | .setVf en n, s => if f % 32 ≠ 0 then s else disabling (portFuncs (f / 32)) (modFunc f fun x => { x with vfEnable := en, numVfs := min n 31 }) s
  | .setAts on, s => modHostPort (f / 32) (fun p => { p with atc := if on then p.atc else p.atc.filter fun e => e.1 != f }) (modFunc f (fun x => { x with ats := on }) s)

/-- CONFIG_REQUEST (R546, R548, R549, R557): Request Retry Status until the port's configuration space is ready. -/
def execConfigRequest (f : Nat) (r : CfgReq) (s : State) : Host.Outcome State Fault Refusal :=
  .next (if 64 ≤ f ∨ !(hostPort s (f / 32)).linkUp then s
    else if !(hostPort s (f / 32)).readyAt.any (fun t => decide (t ≤ s.now)) then emit (.cfgRetry f) s
    else if !funcPresent s f then emit (.unsupported f) s
    else configWrite f r s)

/-- ATS_INVALIDATION (R546): the port's translations of the pages named are dropped. -/
def execAtsInvalidation (p base len : Nat) (s : State) : Host.Outcome State Fault Refusal :=
  .next (if 2 ≤ p then s else modHostPort p (fun x => { x with atc := x.atc.filter fun e => !meets (4096 * e.2) 4096 base len }) s)

/-! ### BAR2 (R545, R554, R555) -/

/-- Where an extent of a function's BAR2 lies: tier and offset, in the allocation of its partition. -/
def bar2Place (s : State) (f off len : Nat) : Option (Nat × Nat) :=
  match (func s f).bar2, funcPart s f with
  | some (base, l), some p =>
    if l < off + len then none else
    match place (base + off) len with
    | .tier t o => if ownsExtent s p t o len then some (t, o) else none
    | _ => none
  | _, _ => none

/-- BAR2_READ (R545, R554, R651): data with EP where they are poisoned; Unsupported Request outside the map. -/
def execBar2Read (f off : Nat) (read : LenRead) (s : State) : Host.Outcome State Fault Refusal :=
  .next (if 64 ≤ f ∨ read.len = 0 ∨ !(hostPort s (f / 32)).linkUp then s else
    match bar2Place s f off read.len with
    | some (t, o) => let a := tierRead t o read.len 0 (readFinds [] [(tierBase t + o, read.len)] read.found s)
      emit (.bar2Data f a.1.1 a.1.2) a.2
    | none => emit (.advisory f) (emit (.unsupported f) (countError 8 s)))

/-- BAR2_WRITE (R217, R292, R350, R554, R555): the write is in effect once the controller accepts it; dropped outside the map, and in the home of a shareable image. -/
def execBar2Write (f off : Nat) (data : List Byte) (s : State) : Host.Outcome State Fault Refusal :=
  .next (if 64 ≤ f ∨ data = [] ∨ !(hostPort s (f / 32)).linkUp then s else
    match bar2Place s f off data.length with
    | some (t, o) => if sharedHome s t o data.length then emit (.advisory f) (countError 8 s) else tierWrite t o data false 0 s
    | none => emit (.advisory f) (countError 8 s))

/-! ### Device commands (R576, R580, R584) -/

def devIdentify (c : Cmd) (s : State) : State × Ans :=
  let v := s.host.fwVersion
  let chip := if s.fab.assigned then s.fab.chip else 0xFFFF
  doneWith (leBytes 2 0x4230 ++ leBytes 3 v ++ [BitVec.ofNat 8 c.m.func, BitVec.ofNat 8 (c.part.getD 0xFF), BitVec.ofNat 8 s.host.state] ++ leBytes 2 chip) s

def devIdentifySpec : CmdSpec := { op := 0x0101, allow := [], perm := byAny, body := devIdentify }

/-- DEV_IDENTIFY (R584). -/
def execDevIdentify (m : Mbx) (s : State) : Host.Outcome State Fault Refusal := .next (runCmd devIdentifySpec m s)

/-- The port of the device primary as a result byte (R571). -/
def rolePort (s : State) : Nat := s.host.primary.getD 0xFF

def devPrimary (c : Cmd) (s : State) : State × Ans :=
  let p := c.m.func / 32
  let tell := fun s => doneWith [BitVec.ofNat 8 (rolePort s)] s
  match pByte c 0 with
  | 0 => tell s
  | 1 =>
    if s.host.primary ≠ some p then refuse stNotPermitted s
    else if !(hostPort s (1 - p)).linkUp then refuse stBusy s
    else tell (moveRole (1 - p) s)
  | 2 =>
    match s.host.primary with
    | none => tell (moveRole p s)
    | some q =>
      if q = p then tell s
      else if !(hostPort s q).linkUp && (hostPort s q).downSince.any (fun t => decide (t + 100000000 ≤ s.now)) then tell (moveRole p s)
      else refuse stNotPermitted s
  | _ => refuse stBadCommand s

def devPrimarySpec : CmdSpec := { op := 0x0106, allow := [(0, 0, 0xFF)], perm := byPf, body := devPrimary }

/-- DEV_PRIMARY (R580, R584). -/
def execDevPrimary (m : Mbx) (s : State) : Host.Outcome State Fault Refusal := .next (runCmd devPrimarySpec m s)

def devEventMask (c : Cmd) (s : State) : State × Ans :=
  let e := pNum c 0 2
  if !eventCodes.contains e || e == evDeviceState || e == evHostLinkDown || e == evPrimaryChanged then refuse stBadCommand s
  else done (modFunc c.m.func (fun x => { x with suppressed := (x.suppressed.filter (· != e)) ++ (if pBit c 2 0 then [e] else []) }) s)

def devEventMaskSpec : CmdSpec := { op := 0x0107, allow := [(0, 1, 0xFF), (2, 2, 1)], perm := byAny, body := devEventMask }

/-- DEV_EVENT_MASK (R576, R584). -/
def execDevEventMask (m : Mbx) (s : State) : Host.Outcome State Fault Refusal := .next (runCmd devEventMaskSpec m s)

def devNopSpec : CmdSpec := { op := 0x0108, allow := [], perm := byAny, body := fun _ s => done s }

/-- DEV_NOP (R584). -/
def execDevNop (m : Mbx) (s : State) : Host.Outcome State Fault Refusal := .next (runCmd devNopSpec m s)

def devBar2Map (c : Cmd) (s : State) : State × Ans :=
  let f := pByte c 0
  let base := pNum c 8 8
  let len := pNum c 16 8
  let set := fun b => done (modFunc f (fun x => { x with bar2 := b }) s)
  if 64 ≤ f then refuse stBadCommand s
  else if !pBit c 1 0 then set none
  else if base % 2097152 ≠ 0 ∨ len % 2097152 ≠ 0 ∨ len = 0 ∨ 68719476736 < len then refuse stBadCommand s
  else match funcPart s f, place base len with
    | none, _ => refuse stNotPermitted s
    | some p, .tier t off => if ownsExtent s p t off len then set (some (base, len)) else refuse stNotPermitted s
    | some _, _ => refuse stBadCommand s

def devBar2MapSpec : CmdSpec := { op := 0x0109, allow := [(0, 0, 0xFF), (1, 1, 1), (8, 23, 0xFF)], perm := byPf, body := devBar2Map }

/-- DEV_BAR2_MAP (R554, R584). -/
def execDevBar2Map (m : Mbx) (s : State) : Host.Outcome State Fault Refusal := .next (runCmd devBar2MapSpec m s)

end Sys2Proof.Machine
end

