-- ==== Sys2Proof/Machine/RegVal.lean ====
section
/-! DEFINITION. What every register of chip control space and of BAR0 reads as, and the counter mirror (R6, R43, R128, R157, R158, R185, R235, R280, R328, R329, R458, R493, R541, R551 to R553, R585, R610, R645, R666, R690). -/
namespace Sys2Proof.Machine

/-! ### Rows of a register table -/

/-- Who sees a register through the counter mirror (R551, R552): nobody, everybody, a PF alone (a chip-wide counter), or whoever owns the partition that an entry of an array belongs to. -/
inductive Vis where
  | hidden
  | plain
  | chip
  | part (of : Nat → Nat)

/-- A register or an array of them: first offset, stride, entries, bytes of one, who sees it, value of entry i. -/
structure RegRow where
  base : Nat
  stride : Nat
  count : Nat
  bytes : Nat
  vis : Vis
  val : Nat → Nat

/-- A single register. -/
def reg1 (base bytes : Nat) (vis : Vis) (v : Nat) : RegRow :=
  { base := base, stride := bytes, count := 1, bytes := bytes, vis := vis, val := fun _ => v }

/-- An array of registers. -/
def regArr (base stride count bytes : Nat) (vis : Vis) (f : Nat → Nat) : RegRow :=
  { base := base, stride := stride, count := count, bytes := bytes, vis := vis, val := f }

/-- An array with one entry for each partition. -/
def perPart (base bytes : Nat) (f : Nat → Nat) : RegRow := regArr base bytes 16 bytes (.part id) f

/-- The entry of a row that holds an offset. -/
def RegRow.entry (r : RegRow) (off : Nat) : Option Nat :=
  if off < r.base ∨ r.base + r.stride * r.count ≤ off then none else
  if (off - r.base) % r.stride < r.bytes then some ((off - r.base) / r.stride) else none

/-- The 32-bit word at a word-aligned offset of a table; elsewhere zero. -/
def regWordOf (rows : List RegRow) (off : Nat) : Nat :=
  match rows.findSome? fun r => (r.entry off).map fun i => bits (r.val i) (8 * ((off - r.base) % r.stride)) 32 with
  | some v => v
  | none => 0

/-- A field that starts at a bit. -/
abbrev at_ (lo v : Nat) : Nat := v * 2 ^ lo

/-- Retired units with their entries: those that a register write has placed, then the lowest free entries, as firmware fills them (R231, R325). -/
def retiredEntries (placed xs : List Nat) : List (Nat × Nat) :=
  let at_ := placed.take xs.length
  let free := (List.range (2 * xs.length)).filter fun k => !at_.contains k
  (at_ ++ free).zip xs

/-- The unit that entry `k` holds. -/
def retiredEntry (placed xs : List Nat) (k : Nat) : Option Nat := (retiredEntries placed xs).lookup k

/-- A flag at a bit. -/
def flagAt (lo : Nat) (b : Bool) : Nat := b2n b * 2 ^ lo

/-! ### Clock and step, sequencer (R43, R280) -/

def stepCtrl (s : State) : Nat := at_ 8 s.step.overrunLimit + flagAt 2 s.step.lateEvents + flagAt 0 s.step.run

def stepStatus (s : State) : Nat :=
  let t := s.step
  at_ 28 t.topCause + at_ 24 t.segment + flagAt 23 t.inSegment + flagAt 22 t.inReserve + flagAt 21 t.holdover + flagAt 20 t.timeLocked +
    flagAt 19 s.seq.halt + t.suspended % 65536

def stepRows (s : State) : List RegRow :=
  let t := s.step
  [reg1 0x000 4 .hidden (stepCtrl s), reg1 0x008 4 .hidden t.periodNs, reg1 0x010 8 .hidden t.origin, reg1 0x018 8 .plain (rack s),
   reg1 0x020 8 .hidden t.syncLoad, reg1 0x028 4 .plain (stepStatus s), reg1 0x030 8 .chip t.count, reg1 0x038 4 .chip t.missed,
   reg1 0x040 4 .hidden t.spread, regArr 0x100 8 16 8 .hidden (Tbl.get 0 t.segRegs), perPart 0x200 4 (Tbl.get 0 t.partLate),
   perPart 0x240 4 (Tbl.get 0 t.partOverrun)]

def seqStatus (s : State) : Nat :=
  let q := s.seq
  at_ 16 q.partition + at_ 12 q.cause + flagAt 11 q.stalled + flagAt 10 q.inSpan + at_ 8 (q.loopDepth % 4) + flagAt 7 q.loopActive + flagAt 6 q.ended +
    flagAt 5 q.issuing

def seqStallInfo (s : State) : Nat :=
  let q := s.seq
  if q.halt && q.cur.any (!·.pos.ended) then at_ 28 slDebugHalt
  else at_ 28 q.stallCause + at_ 24 q.stallField + at_ 19 q.stallBank + at_ 4 q.stallRow

def seqRows (s : State) : List RegRow :=
  let q := (slackNow s).seq
  [reg1 0x000 4 .plain (seqStatus s), reg1 0x008 4 .hidden (b2n q.halt), reg1 0x010 4 .plain q.pc, reg1 0x018 8 .chip q.issued,
   reg1 0x020 4 .hidden (seqStallInfo s), regArr 0x040 4 4 4 .hidden (Tbl.get 0 q.loopRegs), regArr 0x060 4 8 4 .hidden (Tbl.get 0 q.countRegs),
   regArr 0x080 4 16 4 .hidden (fun r => Tbl.get 0 q.baseRegs r % 65536), regArr 0x100 8 16 8 .chip (Tbl.get 0 q.slack),
   regArr 0x180 4 16 4 .chip (Tbl.get 0 q.stepSlack), regArr 0x200 8 256 8 (.part (· / 16)) (Tbl.get 0 q.partSlack)]

/-! ### Fields (R128, R157, R158, R235) -/

/-- A part of one of some kinds still runs in a field (R258). -/
def partBusy (s : State) (f : Nat) (kinds : List Nat) : Bool :=
  s.seq.cur.any fun r => r.parts.any fun p => kinds.contains p.kind && bit p.mask f && decide (r.work < p.endWork)

/-- A load into the buffer the lanes do not read goes on: its time has not passed, or it waits for rows (R93, R94). -/
def spoolLoading (s : State) (f : Nat) : Bool :=
  s.seq.cur.any fun r => r.flights.any fun x =>
    x.field == f && partKind x.word == 1 && x.step != 0 && !(!x.idleNext.isEmpty && x.idleNext.all id) &&
      (decide (r.work < x.loadEnd) || (!x.loaded && (x.step == 1 || decide (x.unit + 1 < unitCount (flightCtx s r x) x.word))))

def brdStatus (s : State) (f : Nat) : Nat :=
  let x := fld s f
  let on := partBusy s f [1]
  (if on then at_ 9 x.brdMode + flagAt 6 x.wide + flagAt 5 x.predicted else 0) + flagAt 8 x.spoolBuf + flagAt 7 (spoolLoading s f)

def brdRows (s : State) (f : Nat) : List RegRow :=
  let x := fld s f
  [reg1 0x000 4 .plain (brdStatus s f),
   reg1 0x008 4 .plain (flagAt 31 x.brdFaultValid + at_ 24 x.brdFaultCause + at_ 15 x.brdFaultRow + at_ 10 x.brdFaultLane),
   reg1 0x00C 4 .hidden x.brdFaultBundle, reg1 0x010 8 .chip x.activeCycles, reg1 0x018 8 .chip x.laneGated, reg1 0x020 8 .chip x.rowSkips,
   reg1 0x028 4 .chip x.tblSat, reg1 0x02C 4 .chip x.metaFaults, reg1 0x030 4 .chip x.podPeak]

def accRows (s : State) (f : Nat) : List RegRow :=
  let x := fld s f
  [reg1 0x000 4 .hidden (flagAt 13 (partBusy s f [5]) + flagAt 12 (partBusy s f [4]) + openLines s f % 4096),
   reg1 0x008 4 .plain (flagAt 31 x.accFaultValid + at_ 24 x.accFaultCause + at_ 20 x.accNamedFmt + at_ 16 x.accTagFmt + x.accFaultLine),
   reg1 0x00C 4 .hidden x.accFaultBundle, reg1 0x010 8 .chip x.accSat, reg1 0x018 4 .chip x.formatFaults, reg1 0x01C 4 .hidden (b2n x.debugHalf),
   reg1 0x020 8 .chip x.linesDrained, reg1 0x028 8 .chip x.preloadLines, reg1 0x800 8 .chip x.lvuActive, reg1 0x808 4 .chip x.lnsSat,
   reg1 0x80C 4 .chip x.lnsFlush, reg1 0x810 4 .chip x.lvuNan, reg1 0x814 4 .chip x.fpOvf, reg1 0x818 4 .chip x.splices]

def rangeNat (r : ResRange) : Nat := flagAt 63 r.valid + flagAt 62 r.readOnly + at_ 32 r.partitions + at_ 16 r.count + r.first

def regionNat (r : Region) : Nat := at_ 255 1 + at_ 192 r.gen + at_ 176 r.partitions + at_ 64 r.length + r.base

def spStatus (s : State) (f : Nat) : Nat := at_ 24 (fld s f).pwrOn + flagAt 20 (decide (s.now < s.sp.scrubEnd)) + flagAt 19 (fld s f).spStalled + s.sp.cacheBanks

/-- A field's scratchpad block; the cache registers stand in field 0's alone. -/
def spRows (s : State) (f : Nat) : List RegRow :=
  let x := fld s f
  [reg1 0x000 4 .plain (spStatus s f), reg1 0x008 4 .hidden (flagAt 1 x.patrolEn + flagAt 0 x.autoPwr), reg1 0x010 8 .chip x.eccCorrected,
   reg1 0x018 4 .chip x.eccUncorrected, reg1 0x01C 4 .plain (flagAt 31 x.eccRecValid + at_ 15 x.eccRecWord + x.eccRecRow),
   reg1 0x020 8 .chip x.tagBlocks, reg1 0x028 4 .chip x.isoViol, reg1 0x02C 4 .chip x.downAccess, reg1 0x030 8 .chip x.ccOps,
   reg1 0x038 8 .chip x.cacheHits, reg1 0x040 8 .chip x.cacheMisses,
   regArr 0x100 8 64 8 .hidden (fun i => ((Tbl.get none x.resRanges i).map rangeNat).getD 0),
   regArr 0x500 4 64 4 .hidden (fun k => ((retiredEntry x.retiredAt x.retired k).map fun r => at_ 31 1 + r).getD 0),
   reg1 0x800 4 .hidden (flagAt 30 x.dbgWrite + flagAt 28 x.dbgWaits.isSome + flagAt 29 x.dbgSetTag + at_ 16 x.dbgTag + x.dbgRow),
   regArr 0x900 4 160 4 .hidden (fun w => leNat ((List.range 4).map fun i => Tbl.get 0 x.dbgData (4 * w + i)))] ++
  (if f = 0 then
    [reg1 0x050 4 .hidden (s.sp.cacheCfg), regArr 0x300 32 16 32 .hidden (fun j => ((Tbl.get none s.sp.regions j).map regionNat).getD 0)]
  else [])

/-! ### Narrow precision (R185) -/

def npRows (s : State) : List RegRow :=
  let x := s.np
  [reg1 0x000 4 .hidden (at_ 8 x.firstLayer + flagAt 3 x.replayedBit + flagAt 2 x.breach + flagAt 1 x.inReplay + flagAt 0 x.inRegion),
   reg1 0x008 4 .plain (flagAt 31 x.recValid + at_ 28 x.recReason + at_ 26 x.recKind + at_ 16 x.recPartition + at_ 8 x.recLayer + x.recNewE),
   reg1 0x010 8 .chip x.predAudits, reg1 0x018 8 .chip x.predMisses, reg1 0x020 4 .chip x.predMissMax, reg1 0x028 8 .chip x.sproutAdds,
   perPart 0x100 4 (Tbl.get 0 x.partReplays), perPart 0x140 4 (Tbl.get 0 x.partUnreplayed),
   regArr 0x180 4 16 4 .hidden (fun i => let p := Tbl.opt .reset x.predCfg i
     at_ 16 p.layer + at_ 12 p.auditShift + p.skipCap),
   regArr 0x1000 8 256 8 .hidden (fun l => let c := Tbl.opt .reset x.layerCfg l
     flagAt 55 c.replayEn + at_ 24 c.clipThresh + c.nullThresh),
   regArr 0x1800 16 256 16 .chip (fun l => let c := Tbl.get (0, 0, 0, 0) x.stats l
     at_ 96 c.2.2.2 + at_ 64 c.2.2.1 + at_ 32 c.2.1 + c.1),
   regArr 0x2800 4 256 4 .hidden (fun l => ((Tbl.get none x.layerExp l).map fun e => at_ 16 1 + at_ 8 e).getD 0),
   reg1 0x2C00 8 .hidden x.seed]

/-! ### Tiers, stream engines (R328, R329) -/

def tierRows (s : State) (t : Nat) : List RegRow :=
  let x := tier s t
  [reg1 0x000 4 .plain (at_ 8 x.wcb.length + flagAt 3 x.patrol + flagAt 2 x.offline + flagAt 1 x.wcbFull + flagAt 0 x.trained),
   reg1 0x008 4 .hidden x.mode, reg1 0x010 8 .chip x.eccCorrected, reg1 0x018 4 .chip x.eccRetries, reg1 0x01C 4 .chip x.eccUncorrected,
   reg1 0x020 8 .plain (flagAt 63 x.recValid + at_ 40 x.recChannel + x.recOffset), reg1 0x028 8 .chip x.bytesRead, reg1 0x030 8 .chip x.bytesWritten,
   reg1 0x038 8 .chip x.wcbMerges, reg1 0x040 8 .chip x.hintHits, reg1 0x048 4 .chip x.retiredAccess, reg1 0x04C 4 .chip x.retired.length,
   regArr 0x080 4 16 4 .hidden (Tbl.get 64 x.credit), regArr 0x100 8 8 8 .hidden (Tbl.get 0 x.lock),
   regArr 0x10000 8 4096 8 .hidden (fun i => ((retiredEntry x.retiredAt x.retired i).map fun g => at_ 63 1 + g).getD 0)]

def strStatus (s : State) : Nat := ((List.range 32).filter fun e => (engine s e).cur.isSome).foldl (fun a e => a + 2 ^ e) 0

def strEng (s : State) (e : Nat) : Nat :=
  let g := engine s e
  at_ 32 g.queue.length + (g.cur.map fun r => at_ 44 (r.chain.part.getD 0) + at_ 20 r.idx + b2n r.chain.background).getD 0

def strRows (s : State) : List RegRow :=
  let x := s.str
  [reg1 0x000 4 .plain (strStatus s),
   reg1 0x008 8 .plain (flagAt 63 x.faultValid + at_ 36 x.faultPart + at_ 28 x.faultCause + at_ 23 x.faultEngine + at_ 11 x.faultDesc + flagAt 0 x.faultBack),
   reg1 0x010 8 .chip x.bytes, reg1 0x018 8 .chip x.descs, reg1 0x020 4 .chip x.failed, reg1 0x024 4 .chip x.poisonRows,
   regArr 0x100 8 32 8 .plain (strEng s)]

/-! ### Serving, gather (R458) -/

def classStatNat (c : ClassStat) : Nat :=
  at_ 224 c.tbtMissed + at_ 192 c.tbtAtRisk + at_ 160 c.ttftMissed + at_ 128 c.ttftAtRisk + at_ 96 c.turns + at_ 64 c.maxTbt + at_ 32 c.maxTtft + c.specOff

def srvRows (s : State) : List RegRow :=
  let x := s.srv
  [reg1 0x000 4 .plain (liveSlots s).length, reg1 0x008 8 .chip x.admitted, reg1 0x010 4 .chip x.rejected, reg1 0x014 4 .chip x.cancelled,
   reg1 0x018 4 .chip x.expired, reg1 0x01C 4 .chip x.kvDeferred, reg1 0x020 4 .chip x.preempted, reg1 0x024 4 .chip x.finalLate,
   reg1 0x028 4 .chip x.droppedOutputs, reg1 0x02C 4 .chip x.specOff,
   perPart 0x100 4 (fun p => ((liveSlots s).filter fun k => (req s k).part == p).length),
   regArr 0x1000 32 256 32 (.part (· / 16)) (fun i => ((Tbl.get none x.classStat i).map classStatNat).getD 0)]

def gthRows (s : State) : List RegRow :=
  let x := s.gth
  [reg1 0x000 4 .plain (flagAt 20 x.busy + at_ 16 x.partition + x.wave % 65536), reg1 0x008 8 .chip x.ids, reg1 0x010 8 .chip x.unique,
   reg1 0x018 4 .chip x.waves, reg1 0x01C 4 .chip x.nodedup, reg1 0x020 4 .chip x.invalidIds, reg1 0x024 4 .chip x.poison]

/-! ### Synchronisation (R493) -/

def hchStatus (s : State) : Nat := flagAt 17 s.hch.onBarrier + flagAt 16 s.hch.waiting + at_ 12 s.hch.partition + s.hch.object % 4096

def winNat (w : Win) : Nat :=
  flagAt 127 w.opened + flagAt 126 w.fwOwned + at_ 120 w.partition + flagAt 119 w.anySender + at_ 104 w.sender + at_ 88 w.gen + at_ 48 w.length + w.base

def outNat (o : OutBind) : Nat :=
  at_ 63 1 + flagAt 62 o.stale + at_ 50 o.chip + at_ 42 o.window + at_ 26 o.gen + at_ 22 o.partition + flagAt 21 o.fwOwned

def barNat (b : Barrier) : Nat :=
  flagAt 127 b.proxy + at_ 115 b.homeChip + at_ 105 b.homeBar + at_ 95 b.partIndex + at_ 63 1 + flagAt 62 b.broken + at_ 58 b.partition +
    at_ 47 b.slots.length + at_ 31 b.slotBase + at_ 16 (b.epoch % 256) + b.gen % 65536

/-- The offset of HCH_PSLOT[i] in control space. -/
def pslotOff (i : Nat) : Nat := 0xB40000 + 4 * i

/-- Participant slot `i`: the slot of the barrier whose slots take it in; elsewhere what software wrote last. Bit 32 of the kept value says that software cleared valid of a slot of a barrier. -/
def pslotNat (s : State) (i : Nat) : Nat :=
  let kept := Tbl.get 0 s.shadow (pslotOff i)
  (s.hch.bars.findSome? fun x => x.2.bind fun b => if b.slotBase ≤ i then b.slots[i - b.slotBase]? else none).elim (kept % 2 ^ 32) fun p =>
    flagAt 31 (!bit kept 32) + at_ 28 p.kind + flagAt 27 p.next + flagAt 26 p.cur + p.chip

def hchRows (s : State) : List RegRow :=
  let x := s.hch
  [reg1 0x000 4 .plain (hchStatus s),
   reg1 0x008 8 .plain (flagAt 63 x.faultValid + at_ 60 x.faultKind + at_ 56 x.faultPart + at_ 48 x.faultStatus + at_ 36 x.faultChip + x.faultObject),
   reg1 0x010 4 .chip x.overflows, reg1 0x014 4 .chip x.manualSets, reg1 0x018 4 .chip x.trackFull, reg1 0x01C 4 .chip x.abandoned,
   reg1 0x020 4 .chip x.barOverruns, reg1 0x024 4 .chip x.barStale, reg1 0x028 4 .chip x.badEntry, reg1 0x030 8 .chip x.remoteIncs,
   perPart 0x100 4 (Tbl.get 0 x.partImbalance), regArr 0x10000 16 256 16 .hidden (fun w => ((Tbl.get none x.wins w).map winNat).getD 0),
   regArr 0x12000 8 256 8 .chip (fun w => ((Tbl.get none x.wins w).map fun w => at_ 32 w.dropped + w.arrivals).getD 0),
   regArr 0x14000 8 256 8 .hidden (fun o => ((Tbl.get none x.outs o).map outNat).getD 0),
   regArr 0x20000 16 1024 16 .hidden (fun b => (Tbl.get none x.bars b).elim (at_ 16 (Tbl.get 0 x.barEpoch b % 256)) barNat),
   regArr 0x40000 4 65536 4 .hidden (pslotNat s), regArr 0x80000 8 65536 8 .hidden (fun h => at_ 32 (hitchTgt s h) + hitchVal s h)]

/-! ### Fabric (R541) -/

def portsUp (s : State) : Nat := ((List.range 12).filter (portUp s)).foldl (fun a n => a + 2 ^ n) 0

def fabStatus (s : State) : Nat :=
  at_ 4 (portsUp s) + flagAt 3 s.fab.timeRoot + flagAt 2 s.fab.stagedE.isSome + flagAt 1 (s.fab.inject.any fun j => j.2.any Inject.enable) + flagAt 0 s.fab.assigned

def fabIdent (s : State) : Nat :=
  let f := s.fab
  flagAt 63 f.assigned + at_ 48 f.rack + at_ 42 f.sled + at_ 38 f.slot + f.chip

def portNat (p : Port) : Nat := at_ 60 p.state + at_ 36 p.peerChip + at_ 32 p.peerPort + at_ 16 p.lanesUp + p.retrains

def engNat (g : FabEng) : Nat :=
  flagAt 63 g.busy + flagAt 62 g.failed + at_ 58 g.partition + at_ 50 g.status + at_ 38 g.knot + at_ 30 g.op + at_ 25 g.queue.length

def fabRows (s : State) : List RegRow :=
  let x := s.fab
  let route := fun (t : Tbl (Option Route)) (c : Nat) => ((Tbl.get none t c).map routeNat).getD 0
  [reg1 0x000 4 .plain (fabStatus s), reg1 0x008 8 .plain (fabIdent s), reg1 0x010 8 .hidden x.systemId, reg1 0x018 4 .hidden (ofSigned 32 x.timeOffset),
   reg1 0x020 8 .chip x.pktsTx, reg1 0x028 8 .chip x.pktsRx, reg1 0x030 4 .chip x.dropsAge, reg1 0x034 4 .chip x.dropsHops,
   reg1 0x038 4 .chip x.dropsNoRoute, reg1 0x03C 4 .chip x.badPkt, reg1 0x040 4 .chip x.knotBad, regArr 0x100 8 12 8 .plain (fun n => portNat (port s n)),
   regArr 0x200 4 12 4 .chip (fun n => (port s n).replays), regArr 0x240 4 12 4 .chip (fun n => (port s n).injected),
   regArr 0x300 8 6 8 .hidden (fun g => let m := Tbl.get 0 x.bonds g
     at_ 12 (portsUp s &&& m) + m),
   regArr 0x400 8 4 8 .hidden (fun e => ((Tbl.get none x.engines e).map engNat).getD 0), regArr 0x800 4 16 4 .hidden (Tbl.get 64 x.credit),
   regArr 0x1000 16 12 16 .hidden (fun n => ((Tbl.get none x.inject n).map injectNat).getD 0), regArr 0x10000 8 4096 8 .hidden (route x.routes),
   regArr 0x20000 8 4096 8 .hidden (route x.stagedRoutes)]

/-! ### Partitions, management, errors (R610, R645, R666, R690) -/

def prtActive (s : State) : Nat :=
  (List.range 16).foldl (fun a p => match part? s p with
    | some x => a + 2 ^ p + flagAt (16 + p) x.draining
    | none => a) 0

/-- Which partition a function's entry belongs to; 16 is none. -/
def fnPart (s : State) (f : Nat) : Nat := (funcPart s f).getD 16

/-- The offset of PRT_QUOTA[p] in control space. -/
def quotaOff (p : Nat) : Nat := 0xE00300 + 16 * p

def prtRows (s : State) : List RegRow :=
  [reg1 0x000 4 .chip (prtActive s), perPart 0x100 8 (prtCfg s), regArr 0x200 4 64 4 (.part (fnPart s)) (prtFn s), perPart 0x300 16 (fun p => if (part? s p).isSome then prtQuota s p else Tbl.get 0 s.shadow (quotaOff p)),
   perPart 0x400 4 (Tbl.get 0 s.part.resets), perPart 0x440 4 (Tbl.get 0 s.part.fenced), perPart 0x480 4 (Tbl.get 0 s.part.eventsLost)]

def mgtStatus (s : State) : Nat := at_ 8 s.isl.tripCause + flagAt 7 s.isl.erasing + at_ 6 s.isl.slot + flagAt 5 s.isl.fallback

/-- The owner slots that hold a key that is not revoked (R628). -/
def ownerSlots (s : State) : Nat := ((List.range 4).filter fun k => (Tbl.get none s.isl.ownerKeys k).isSome).foldl (fun a k => a + 2 ^ k) 0

def mgtLc (s : State) : Nat :=
  flagAt 9 s.isl.erasePending + flagAt 8 (ownerSlots s != 0) + at_ 4 (ownerSlots s) + at_ 2 s.isl.vendorRevoked + s.isl.lc

def mgtSvn (s : State) : Nat := at_ 8 (s.isl.runningSvn % 64) + s.isl.fwSvn

/-- Seconds of a token's lifetime left. -/
def tokenLeft (s : State) (t : Token) : Nat := t.lifetime - (s.now - t.since) / 1000000000

def mgtToken (s : State) : Nat :=
  match s.isl.token with
  | some t => at_ 63 1 + at_ 56 t.signer + at_ 54 (t.scope % 4) + at_ 38 t.hitchParts + at_ 22 t.injectParts + tokenLeft s t
  | none => 0

def mgtPower (s : State) : Nat := at_ 16 (s.isl.vinReg % 65536) + min s.isl.powerAvg 65535

def mgtAlert (s : State) : Nat := s.isl.alert

def mgtPowerCfg (s : State) : Nat := at_ 16 s.isl.gate + s.isl.cap

/-- The default gating threshold of a sensor in 1/16 °C; none for the coolant inlet and the island (R619). -/
def defaultThreshold (i : Nat) : Option Nat :=
  if i ≤ 19 then some 1520 else if i = 20 then some 1360 else if i = 22 then some 960 else none

def threshold (s : State) (i : Nat) : Option Nat :=
  match Tbl.get none s.isl.thresholds i with
  | some v => some v
  | none => defaultThreshold i

def mgtTemp (s : State) (i : Nat) : Nat := at_ 16 ((threshold s i).getD 0x8000) + Tbl.get 0 s.isl.temps i % 65536

/-- die_state: off, rising, on, falling. -/
def dieState (s : State) : Nat := if s.pwr.phase ≤ 3 then 0 else if s.pwr.phase ≤ 5 then 1 else if s.pwr.phase ≤ 8 then 2 else 3

def mgtSupply (s : State) : Nat :=
  at_ 20 s.pwr.lastFault + at_ 16 (dieState s) + flagAt 15 s.pwr.pwrEn + flagAt 14 s.pwr.lowMargin + s.pwr.faults

def mgtRows (s : State) : List RegRow :=
  let x := s.isl
  [reg1 0x000 4 .plain (mgtStatus s), reg1 0x008 4 .plain (mgtLc s), reg1 0x00C 4 .plain (mgtSvn s), reg1 0x010 8 .plain (mgtToken s),
   reg1 0x018 4 .plain (mgtPower s), reg1 0x01C 4 .hidden (mgtPowerCfg s), reg1 0x020 4 .hidden (mgtAlert s), reg1 0x028 8 .chip x.gatedTurns,
   reg1 0x030 4 .plain (mgtSupply s), reg1 0x040 32 .hidden (leNat x.challengeReg), regArr 0x100 4 24 4 .plain (mgtTemp s),
   regArr 0x200 48 8 48 .hidden (Tbl.get 0 x.meas)]

def errStatus (s : State) : Nat := at_ 16 ((s.err.hang.map HangRec.cause).getD 0) + s.err.log.length

def errRows (s : State) : List RegRow :=
  let x := s.err
  [reg1 0x000 4 .plain (errStatus s), reg1 0x008 4 .plain x.hangMs, reg1 0x010 8 .chip x.logSeq, reg1 0x018 4 .chip x.logOverwritten,
   reg1 0x01C 4 .chip x.hangCaptures, regArr 0x024 4 9 4 .chip (fun i => Tbl.get 0 x.classCount (i + 1)), perPart 0x080 4 (Tbl.get 0 x.segFaults)]

/-! ### BAR0 (R578, R585) -/

def hifStatus (s : State) (f : Nat) : Nat :=
  let drain := (funcPart s f).any fun p => (part? s p).any Part.draining
  at_ 12 s.host.failCause + flagAt 8 (func s f).disabled + flagAt 7 drain + flagAt 6 (hostPort s 1).linkUp + flagAt 5 (hostPort s 0).linkUp +
    flagAt 4 (primaryPf s == some f) + s.host.state

def hifFunc (s : State) (f : Nat) : Nat :=
  (match Tbl.get none s.part.funcs f with
  | some x => at_ 31 1 + flagAt 30 x.2 + at_ 16 x.1
  | none => 0) + f

def ringCtrlNat (r : Ring) : Nat :=
  flagAt 31 r.enable + at_ 24 r.sizeLog2 + at_ 16 r.coalUs + at_ 8 r.coalCount + flagAt 5 r.irqEn + r.vector

def ringStatusNat (r : Ring) : Nat := flagAt 31 r.error + at_ 28 r.errCause + flagAt 24 r.phase + at_ 12 r.head + r.tail

def msixNat (m : Msix) : Nat := at_ 96 (b2n m.masked) + at_ 64 m.data + m.addr

/-- A function's BAR0 but for the mirror and the debug window; the doorbells read as zero. -/
def bar0Rows (s : State) (f : Nat) : List RegRow :=
  let x := func s f
  let v := Vis.hidden
  [reg1 0x0000 4 v 0x4230, reg1 0x0004 4 v s.host.fwVersion, reg1 0x0008 4 v (hifStatus s f), reg1 0x000C 4 v (hifFunc s f), reg1 0x0010 8 v (rack s),
   reg1 0x0018 8 v x.cmds, reg1 0x0020 4 v x.cplDropped, reg1 0x0024 4 v x.eventLost, reg1 0x0028 4 v x.doorbellIgnored, reg1 0x0040 4 v x.mirrorSel,
   reg1 0x0044 4 v (if f % 32 = 0 then x.dbgSel else 0), regArr 0x2000 64 16 8 v (fun q => (ring s f q).sqBase),
   regArr 0x2008 64 16 8 v (fun q => (ring s f q).cqBase), regArr 0x2010 64 16 4 v (fun q => ringCtrlNat (ring s f q)),
   regArr 0x2014 64 16 4 v (fun q => ringStatusNat (ring s f q)), regArr 0x4000 16 32 16 v (fun i => msixNat (msixOf s f i)), reg1 0x4800 8 v x.pba,
   reg1 0x8000 8 v (ring s f 16).sqBase, reg1 0x8008 4 v (ringCtrlNat (ring s f 16)), reg1 0x800C 4 v (ringStatusNat (ring s f 16))]

/-- BAR0's registers with the doorbells, which read as zero. -/
def bar0All (s : State) (f : Nat) : List RegRow :=
  bar0Rows s f ++ [regArr 0x1000 8 16 4 .hidden fun _ => 0, regArr 0x1004 8 16 4 .hidden fun _ => 0, reg1 0x1080 4 .hidden 0]

/-! ### Fields that software may set before an object exists (R6) -/

/-- The registers whose object exists while a valid bit is set: block, first offset, that bit, and the read-write fields beside it. -/
def keptRows : List (Nat × Nat × Nat × Nat) :=
  [(0x04, 0x2800, 16, 0xFF00), (0x05, 0x100, 63, 0x4000FFFFFFFF7FFF), (0x05, 0x300, 255, at_ 176 0xFFFF + at_ 64 0xFFFFFFFFFFFF + 0xFFFFFFFFFFFF),
   (0x05, 0x500, 31, 0x7FFF), (0x07, 0x10000, 63, 0xFFFFFF), (0x08, 0x10000, 63, 0xFFFFFF), (0x0B, 0x14000, 63, 0x7FFFFFFFFFE00000),
   (0x0B, 0x20000, 63, at_ 95 0x1FFFFFFFF + at_ 31 0x7FFFFFF + at_ 58 0xF), (0x0E, 0x100, 63, 0xFFF00000000000), (0x0E, 0x200, 31, 0x400F0000)]

/-- The valid bit and the kept fields of a row of a block. -/
def keptOf (blk base : Nat) : Option (Nat × Nat) := (keptRows.find? fun k => k.1 == blk && k.2.1 == base).map fun k => k.2.2

/-- A row at its place in control space: while the valid bit of an entry is clear, its other fields read as software last wrote them (log entry 42). -/
def keptRow (s : State) (org : Nat) (r : RegRow) : RegRow :=
  match keptOf (org / 0x100000) r.base with
  | none => r
  | some (v, _) => { r with val := fun i => let x := r.val i
                                            if bit x v then x else x ||| Tbl.get 0 s.shadow (org + r.base + r.stride * i) }

/-- What a write leaves of such an entry: the fields while its valid bit is clear, nothing once it is set. -/
def keepFields (off n : Nat) (k : Nat × Nat) (s : State) : State :=
  { s with shadow := Tbl.set 0 s.shadow off (if bit n k.1 then 0 else n &&& k.2) }

/-! ### Chip control space -/

/-- The table that covers an offset of control space, and the offset within its block: blocks lie 1 MiB apart, those of a field 64 KiB apart; where a function's registers stand in the host interface's block is Config.hifPlace (log entry 37). -/
def ctlTable (s : State) (off : Nat) : List RegRow × Nat :=
  let w := off % 0x100000
  let f := w / 0x10000
  let o := w % 0x10000
  match off / 0x100000 with
  | 0x00 => (stepRows s, w)
  | 0x01 => (seqRows s, w)
  | 0x02 => (brdRows s f, o)
  | 0x03 => (accRows s f, o)
  | 0x04 => (npRows s, w)
  | 0x05 => (spRows s f, o)
  | 0x06 => (strRows s, w)
  | 0x07 => (tierRows s 0, w)
  | 0x08 => (tierRows s 1, w)
  | 0x09 => (gthRows s, w)
  | 0x0A => (srvRows s, w)
  | 0x0B => (hchRows s, w)
  | 0x0C => (fabRows s, w)
  | 0x0D => match Config.hifPlace w with
    | some (g, x) => (bar0All s (g % 64), x)
    | none => ([], w)
  | 0x0E => (prtRows s, w)
  | 0x0F => (mgtRows s, w)
  | 0x10 => (errRows s, w)
  | _ => ([], w)

/-- The rows at an offset of control space, with the fields that software set before their object exists. -/
def ctlRows (s : State) (off : Nat) : List RegRow × Nat :=
  let a := ctlTable s off
  (a.1.map (keptRow s (off - a.2)), a.2)

/-- The 32-bit word at an offset of control space. -/
def ctlWord (s : State) (off : Nat) : Nat := regWordOf (ctlRows s off).1 (ctlRows s off).2

/-- A register of up to 64 bits read with one access. -/
def ctlRead (s : State) (off width : Nat) : Nat :=
  if width = 8 then ctlWord s off + 2 ^ 32 * ctlWord s (off + 4) else ctlWord s off

/-! ### The counter mirror (R551, R552) -/

/-- A function sees an entry through the mirror. -/
def Vis.shows (v : Vis) (s : State) (f i : Nat) : Bool :=
  match v with
  | .hidden => false
  | .plain => true
  | .chip => f % 32 == 0
  | .part of => f % 32 == 0 || funcPart s f == some (of i)

/-- A function's view of a table. -/
def mirrorRows (s : State) (f : Nat) (rows : List RegRow) : List RegRow :=
  rows.map fun r => { r with val := fun i => if r.vis.shows s f i then r.val i else 0 }

/-- The word at an offset of a function's mirror. -/
def mirrorWord (s : State) (f off : Nat) : Nat :=
  let c := (func s f).mirrorSel * 0x10000 + off
  regWordOf (mirrorRows s f (ctlRows s c).1) (ctlRows s c).2

/-! ### Words of BAR0 (R578, R585, R586) -/

/-- The word at an offset of a function's BAR0. -/
def bar0Word (s : State) (f off : Nat) : Nat :=
  if off < 0x10000 then regWordOf (bar0Rows s f) off
  else if off < 0x20000 then mirrorWord s f (off - 0x10000)
  else if off < 0x40000 ∧ f % 32 = 0 ∧ debugOpen s then ctlWord s ((func s f).dbgSel * 0x20000 + (off - 0x20000))
  else 0

end Sys2Proof.Machine
end

