-- ==== Sys2Proof/Machine/Error.lean ====
section
/-! DEFINITION. Errors: clearing counters and first-fault records, the error log, the hang record and its triggers, the watchdogs (17_errors_and_limits.md, R646 to R648, R656 to R666). Readings: log entry 38. -/
namespace Sys2Proof.Machine

/-! ### The island's alert (R613, R645) -/

/-- Set a bit of MGT_ALERT; MGT_ALERT_N is asserted while any bit is set. -/
def setAlert (b : Nat) (s : State) : State :=
  onlyIf (mgtAlert s == 0) (emit .alertN) (modIsl (fun i => { i with alert := i.alert ||| 2 ^ b }) s)

/-! ### The hang record (R657 to R659) -/

/-- A number of `n` bytes, held at its largest value. -/
def satBytes (n v : Nat) : List Byte := leBytes n (min v (2 ^ (8 * n) - 1))

/-- The eight control cores. -/
def cores : List Nat := [0, 1, 2, 3, 4, 5, 6, 7]

/-- Milliseconds since a control core last refreshed its watchdog. -/
def coreMs (s : State) (k : Nat) : Nat := (s.now - (Tbl.get (0, 0) s.isl.coreRefresh k).2) / 1000000

/-- The 4,864 bytes of R659. -/
def hangBytes (cause : Nat) (s : State) : List Byte :=
  let q := (slackNow s).seq
  let head := leBytes 4 0x4B475856 ++ leBytes 2 1 ++ [BitVec.ofNat 8 cause, 0] ++ leBytes 8 (rack s) ++ leBytes 8 s.step.count ++
    fields4 [stepStatus s, seqStatus s, q.pc, seqStallInfo s, hchStatus s, mgtStatus s] ++
    (List.range 16).flatMap (fun c => leBytes 4 (Tbl.get 0 q.stepSlack c)) ++ (List.range 4).flatMap (fun i => leBytes 4 (Tbl.get 0 q.loopRegs i)) ++
    (List.range 8).flatMap (fun v => leBytes 4 (Tbl.get 0 q.countRegs v)) ++ (List.range 16).flatMap (fun r => leBytes 2 (Tbl.get 0 q.baseRegs r))
  let core := cores.flatMap fun k => leBytes 4 (Tbl.get (0, 0) s.isl.coreRefresh k).1 ++ satBytes 4 (coreMs s k)
  let units := (List.range 16).flatMap (fun f => leBytes 4 (spStatus s f)) ++ fields4 [strStatus s, fabStatus s]
  let queues := (List.range 64).flatMap fun f => (List.range 16).flatMap fun k => leBytes 2 (ring s f k).head ++ leBytes 2 (ring s f k).sqTail
  let rings := (List.range 64).flatMap fun f => leBytes 2 (ring s f 16).head ++ leBytes 2 (ring s f 16).tail
  padTo 192 head ++ padTo 320 (core ++ units) ++ queues ++ rings

/-- A record that a power-off, reset or command leaves in place (R658). -/
def keepHang (cause : Nat) (s : State) : Bool :=
  (cause == 3 || cause == 5) && s.err.hang.any fun h => (h.cause == 1 || h.cause == 2 || h.cause == 4) && decide (s.now < h.at_ + 60000000000)

/-- Capture a hang record (R657, R658). -/
def captureHang (cause : Nat) (s : State) : State :=
  let rec_ : HangRec := { cause := cause, at_ := s.now, bytes := hangBytes cause s }
  let hang := if keepHang cause s then s.err.hang else some rec_
  let s := modErr (fun e => { e with hang := hang, hangCaptures := satAdd 32 e.hangCaptures 1 }) (setAlert 2 s)
  raiseError 9 evHangCaptured 0xFF [.pfs] (fields4 [cause] ++ leBytes 8 (rack s)) s

/-- How long the stream has stalled without an issue, halts not counted. -/
def stalledNs (s : State) : Nat := s.seq.stallNs + if s.seq.halt then 0 else s.now - s.seq.stallSince

/-- HANG_STALL_TIMEOUT (R657): once for each stall. -/
def execHangStallTimeout (s : State) : Host.Outcome State Fault Refusal :=
  .next (if dieOn s && (s.seq.cur.bind SeqRun.stall).isSome && !s.seq.hangNoted && decide (1000000 * max 10 (min 60000 s.err.hangMs) ≤ stalledNs s)
    then captureHang 1 (modSeq (fun q => { q with hangNoted := true }) s) else s)

/-- WATCHDOG_REFRESH (R660): a control core says where it is. -/
def execWatchdogRefresh (core pc : Nat) (s : State) : Host.Outcome State Fault Refusal :=
  .next (if 8 ≤ core ∨ !dieOn s then s
    else modIsl (fun i => { i with coreRefresh := Tbl.set (0, 0) i.coreRefresh core (pc % 2 ^ 32, s.now), coreMissed := i.coreMissed.filter (· != core) }) s)

/-- WATCHDOG_EXPIRY (R660): a released core has not refreshed for 100 ms; the record is captured and nothing else done, once until it refreshes again. -/
def execWatchdogExpiry (core : Nat) (s : State) : Host.Outcome State Fault Refusal :=
  .next (if 8 ≤ core ∨ s.pwr.phase < 7 ∨ 8 < s.pwr.phase ∨ s.isl.coreMissed.contains core ∨ coreMs s core < 100 then s
    else
      let pay := fields4 [core, coreMs s core]
      let s := captureHang 2 (modIsl (fun i => { i with coreMissed := i.coreMissed ++ [core] }) s)
      raiseTo evCoreWatchdog 0xFF [.pfs] pay (logError evCoreWatchdog 9 0xFF pay s))

/-! ### Clearing (R44, R129, R166, R270, R664) -/

/-- Every field's registers changed alike. -/
def modFields (g : FieldSt → FieldSt) (s : State) : State := { s with fields := s.fields.map fun x => (x.1, x.2.map g) }

def modTiers (t : Nat) (g : TierSt → TierSt) (s : State) : State := modTier t g s

def modFuncs (g : Func → Func) (s : State) : State :=
  modHost (fun h => { h with funcs := h.funcs.map fun x => (x.1, x.2.map g) }) s

/-- Counters of a block at zero; STEP_COUNT and ERR_LOG_SEQ stay (R44, R664). -/
def clearBlock (blk : Nat) (s : State) : State :=
  match blk with
  | 0x00 => modStep (fun x => { x with missed := 0, partLate := [], partOverrun := [] }) s
  | 0x01 => modSeq (fun x => { x with issued := 0, slack := [], stepSlack := [], partSlack := [] }) (slackNow s)
  | 0x02 => modFields (fun x => { x with activeCycles := 0, laneGated := 0, rowSkips := 0, tblSat := 0, metaFaults := 0, podPeak := 0 }) s
  | 0x03 => modFields (fun x =>
      { x with accSat := 0, formatFaults := 0, linesDrained := 0, preloadLines := 0, lvuActive := 0, lnsSat := 0, lnsFlush := 0, lvuNan := 0, fpOvf := 0,
               splices := 0 }) s
  | 0x04 => modNp (fun x =>
      { x with predAudits := 0, predMisses := 0, predMissMax := 0, sproutAdds := 0, partReplays := [], partUnreplayed := [], stats := [] }) s
  | 0x05 => modFields (fun x =>
      { x with eccCorrected := 0, eccUncorrected := 0, tagBlocks := 0, isoViol := 0, downAccess := 0, ccOps := 0, cacheHits := 0, cacheMisses := 0 }) s
  | 0x06 => modStr (fun x => { x with bytes := 0, descs := 0, failed := 0, poisonRows := 0 }) s
  | 0x07 | 0x08 => modTiers (blk - 7) (fun x =>
      { x with eccCorrected := 0, eccRetries := 0, eccUncorrected := 0, bytesRead := 0, bytesWritten := 0, wcbMerges := 0, hintHits := 0, retiredAccess := 0 }) s
  | 0x09 => modGth (fun x => { x with ids := 0, unique := 0, waves := 0, nodedup := 0, invalidIds := 0, poison := 0 }) s
  | 0x0A => modSrv (fun x =>
      { x with admitted := 0, rejected := 0, cancelled := 0, expired := 0, kvDeferred := 0, preempted := 0, finalLate := 0, droppedOutputs := 0, specOff := 0,
               classStat := [] }) s
  | 0x0B => modHch (fun x =>
      { x with overflows := 0, manualSets := 0, trackFull := 0, abandoned := 0, barOverruns := 0, barStale := 0, badEntry := 0, remoteIncs := 0,
               partImbalance := [], wins := x.wins.map fun w => (w.1, w.2.map fun y => { y with dropped := 0, arrivals := 0 }) }) s
  | 0x0C => modFab (fun x =>
      { x with pktsTx := 0, pktsRx := 0, dropsAge := 0, dropsHops := 0, dropsNoRoute := 0, badPkt := 0, knotBad := 0,
               ports := x.ports.map fun p => (p.1, p.2.map fun y => { y with retrains := 0, replays := 0, injected := 0 }) }) s
  | 0x0D => modFuncs (fun x => { x with cmds := 0, cplDropped := 0, eventLost := 0, doorbellIgnored := 0 }) s
  | 0x0E => modPart (fun x => { x with resets := [], fenced := [], eventsLost := [] }) s
  | 0x0F => modPwr (fun x => { x with faults := 0 }) (modIsl (fun x => { x with gatedTurns := 0 }) s)
  | _ => modErr (fun x => { x with logOverwritten := 0, hangCaptures := 0, classCount := [], segFaults := [] }) s

/-- The valid bits of a block's first-fault records. -/
def clearRecords (blk : Nat) (s : State) : State :=
  match blk with
  | 0x02 => modFields (fun x => { x with brdFaultValid := false }) s
  | 0x03 => modFields (fun x => { x with accFaultValid := false }) s
  | 0x04 => modNp (fun x => { x with recValid := false }) s
  | 0x05 => modFields (fun x => { x with eccRecValid := false }) s
  | 0x06 => modStr (fun x => { x with faultValid := false }) s
  | 0x07 | 0x08 => modTiers (blk - 7) (fun x => { x with recValid := false }) s
  | 0x0B => modHch (fun x => { x with faultValid := false }) s
  | _ => s

/-- A partition's entries of a block's arrays at zero. -/
def clearPart (blk p : Nat) (s : State) : State :=
  let z := fun t => Tbl.set 0 t p 0
  match blk with
  | 0x00 => modStep (fun x => { x with partLate := z x.partLate, partOverrun := z x.partOverrun }) s
  | 0x01 => modSeq (fun x => { x with partSlack := x.partSlack.filter fun e => e.1 / 16 ≠ p }) (slackNow s)
  | 0x04 => modNp (fun x => { x with partReplays := z x.partReplays, partUnreplayed := z x.partUnreplayed }) s
  | 0x0A => modSrv (fun x => { x with classStat := x.classStat.filter fun e => e.1 / 16 ≠ p }) s
  | 0x0B => modHch (fun x => { x with partImbalance := z x.partImbalance }) s
  | 0x0E => modPart (fun x => { x with resets := z x.resets, fenced := z x.fenced, eventsLost := z x.eventsLost }) s
  | 0x10 => modErr (fun x => { x with segFaults := z x.segFaults }) s
  | _ => s

/-- Whole blocks for the device primary PF; a partition's entries for it and for the partition's own functions. -/
def errCounterClear (c : Cmd) (s : State) : State × Ans :=
  let blk := pByte c 0
  let p := pByte c 2
  if 0x10 < blk ∨ (15 < p ∧ p ≠ 0xFF) then refuse stBadCommand s
  else if p = 0xFF then
    if !byPrimary s c then refuse stNotPermitted s
    else done (onlyIf (pBit c 1 1) (clearRecords blk) (onlyIf (pBit c 1 0) (clearBlock blk) s))
  else if !byPrimary s c && c.part != some p then refuse stNotPermitted s
  else done (onlyIf (pBit c 1 0) (clearPart blk p) s)

def errCounterClearSpec : CmdSpec := { op := 0x0A01, allow := [(0, 0, 0xFF), (1, 1, 3), (2, 2, 0xFF)], perm := byAny, body := errCounterClear }

/-- ERR_COUNTER_CLEAR (R44, R129, R664). -/
def execErrCounterClear (m : Mbx) (s : State) : Host.Outcome State Fault Refusal := .next (runCmd errCounterClearSpec m s)

/-! ### Reading the log and the record (R648, R664) -/

/-- A log entry by its sequence number modulo 2^32; one the log does not hold reads as zero. -/
def logBytes (s : State) (n : Nat) : List Byte :=
  ((s.err.log.find? fun e => e.seq % 2 ^ 32 == n % 2 ^ 32).map LogEntry.bytes).getD (List.replicate 64 0)

def errLogRead (c : Cmd) (s : State) : State × Ans :=
  let n := pNum c 4 2
  if n = 0 ∨ 4096 < n then refuse stBadCommand s
  else intoHost c (pNum c 8 8) (64 * n) ((List.range n).flatMap fun i => logBytes s (pNum c 0 4 + i)) s

def errLogReadSpec : CmdSpec := { op := 0x0A02, allow := [(0, 5, 0xFF), (8, 15, 0xFF)], perm := byAny, body := errLogRead }

/-- ERR_LOG_READ (R648, R664). -/
def execErrLogRead (m : Mbx) (s : State) : Host.Outcome State Fault Refusal := .next (runCmd errLogReadSpec m s)

def errHangRead (c : Cmd) (s : State) : State × Ans :=
  match s.err.hang with
  | none => refuse stNoResource s
  | some h => intoHost c (pNum c 8 8) 8192 h.bytes s

def errHangReadSpec : CmdSpec := { op := 0x0A03, allow := [(8, 15, 0xFF)], perm := byAny, body := errHangRead }

/-- ERR_HANG_READ (R659, R664). -/
def execErrHangRead (m : Mbx) (s : State) : Host.Outcome State Fault Refusal := .next (runCmd errHangReadSpec m s)

def errHangCaptureSpec : CmdSpec := { op := 0x0A04, allow := [], perm := byPf, body := fun _ s => done (captureHang 5 s) }

/-- ERR_HANG_CAPTURE (R657, R664). -/
def execErrHangCapture (m : Mbx) (s : State) : Host.Outcome State Fault Refusal := .next (runCmd errHangCaptureSpec m s)

def errCfgSet (c : Cmd) (s : State) : State × Ans :=
  let ms := pNum c 0 2
  if ms < 10 ∨ 60000 < ms then refuse stBadCommand s else done (modErr (fun e => { e with hangMs := ms }) s)

def errCfgSetSpec : CmdSpec := { op := 0x0A05, allow := [(0, 1, 0xFF)], perm := byPrimary, body := errCfgSet }

/-- ERR_CFG_SET (R657, R664, R666). -/
def execErrCfgSet (m : Mbx) (s : State) : Host.Outcome State Fault Refusal := .next (runCmd errCfgSetSpec m s)

end Sys2Proof.Machine
end

