-- ==== Sys2Proof/Machine/Power.lean ====
section
/-! DEFINITION. The 40 V input, the die rails, bring-up, cold reset and power-down (16_management_security_lifecycle.md R617, R618, R624; 18_module_hardware.md, R674 to R690). Readings: log entry 39. -/
namespace Sys2Proof.Machine

/-! ### The island's flash (R624, R630, R632) -/

/-- What a slot of the island flash holds. -/
def flashOf (s : State) (k : Nat) : Flash :=
  match Tbl.get none s.isl.flash k with
  | some f => f
  | none => let x := Config.factoryFlash k
    { islandDigest := x.1, avporDigest := x.2.1, version := x.2.2.1, svn := x.2.2.2 }

def setMeas (m v : Nat) (s : State) : State := modIsl (fun i => { i with meas := Tbl.set 0 i.meas m v }) s

/-- Measurement 2: the life-cycle state, the vendor revocation fuses and the owner key store. -/
def measureKeys (s : State) : State :=
  let keys := (List.range 4).flatMap fun k => match Tbl.get none s.isl.ownerKeys k with
    | some b => BitVec.ofNat 8 (k + 1) :: b
    | none => [0]
  setMeas 2 (Config.sha384 ([BitVec.ofNat 8 s.isl.lc, BitVec.ofNat 8 s.isl.vendorRevoked] ++ keys)) s

/-- The slot that boots and whether it is the other one: signature sound, security version at least the floor. -/
def bootSlot (s : State) (okA okB : Bool) : Option (Nat × Bool) :=
  let fits := fun k => (if k = 0 then okA else okB) && decide (s.isl.fwSvn ≤ (flashOf s k).svn)
  let a := s.isl.activeSlot
  if fits a then some (a, false) else if fits (1 - a) then some (1 - a, true) else none

/-- The island boots from a slot; without one the device is FAILED (R624, R556). -/
def bootIsland (okA okB : Bool) (s : State) : State :=
  let s := measureKeys (setMeas 3 0 (setMeas 1 0 (modIsl (fun i => { i with activeSlot := i.nextSlot.getD i.activeSlot, nextSlot := none }) s)))
  match bootSlot s okA okB with
  | some (k, f) => setMeas 0 (flashOf s k).islandDigest (modIsl (fun i => { i with slot := k, fallback := f, runningSvn := (flashOf s k).svn }) s)
  | none => setDeviceState 3 3 (setMeas 0 0 s)

/-! ### What a loss of power and a cold reset leave (R360, R606, R617, R618, R679) -/

/-- A host port as it stands with the die off: its PERST_x_N is a pin. -/
def portOff (p : HostPort) : HostPort := { HostPort.reset with perst := p.perst }

/-- The die and the memories without power: every block at reset, every running command abandoned. The hang record, the island and the pins stay. -/
def dieLost (s : State) : State :=
  { s with
    mem := [], step := { StepSt.reset with rackref := s.step.rackref, rackrefEver := s.step.rackref }, prog := ProgSt.reset, seq := SeqSt.reset,
    fields := [], sp := SpSt.reset, acc := AccSt.reset, np := NpSt.reset, t1 := State.reset.t1, t2 := State.reset.t2, str := StrSt.reset,
    mdl := ModelSt.reset, kv := KvSt.reset, srv := SrvSt.reset, gth := GthSt.reset, hch := SyncSt.reset, fab := FabSt.reset, part := PartSt.reset,
    host := { HostSt.reset with ports := s.host.ports.map fun p => (p.1, p.2.map portOff), nextId := s.host.nextId },
    err := { ErrSt.reset with hang := s.err.hang }, shadow := [] }

/-- Cold reset: the island's registers too take their Reset values, but for those kept (R7, R620, R623), and the island boots from the active slot (R626). -/
def coldReset (s : State) : State :=
  bootIsland true true (modIsl (fun i =>
    { i with challenge := none, challengeReg := [], token := none, alert := 0, gate := 0, gateReason := 0, turnsInWindow := 0, gatedTurns := 0,
             temps := [], powerAvg := 0, vinReg := 0, coreRefresh := [], coreMissed := [], erasing := i.erasePending }) (dieLost s))

/-! ### Starting and stopping the die (R677, R678, R683 to R685) -/

/-- The first rail rises. -/
def startDie (s : State) : State :=
  modPwr (fun p => { p with phase := 4, rails := 0, railAt := s.now, pgOut := false, downCause := 0, restartDue := false, heldStart := false, heldReset := false })
    (coldReset s)

/-- A start of the die, held back after a trip or a supply fault (R684). -/
def tryStart (s : State) : State :=
  if s.pwr.tripHold || s.pwr.supplyHold then modPwr (fun p => { p with heldStart := true }) s else startDie s

/-- A hold has ended: the start it held back begins. -/
def releaseHold (s : State) : State :=
  onlyIf (s.pwr.heldStart && !s.pwr.tripHold && !s.pwr.supplyHold && decide (s.pwr.phase = 3)) startDie s

/-- A graceful power-down begins: a running die tells its peers that it leaves (R502), PG_OUT falls, and the rails follow in reverse order. -/
def fallGraceful (cause : Nat) (s : State) : State :=
  modPwr (fun p => { p with phase := 9, pgOut := false, downCause := cause }) (dieLost (onlyIf (dieOn s) (sendLeave 1) s))

/-- A fast power-down: the rails fall within 1 ms. A lifeline reset that was held goes with it. -/
def fallFast (cause : Nat) (s : State) : State :=
  if s.pwr.phase < 4 then s
  else modPwr (fun p => { p with phase := 3, rails := 0, pgOut := false, downCause := cause, offAt := s.now, restartDue := false, heldReset := false }) (dieLost s)

/-- LL_COLD_RESET with the die on: its peers hear that it leaves (R502), PG_OUT falls, die reset is held for 10 ms with the rails on, and bring-up resumes at step 6 (R679). -/
def lifelineReset (s : State) : State :=
  let s := coldReset (sendLeave 2 (captureHang 3 s))
  modPwr (fun p => { p with phase := 5, railAt := s.now + 9000000, pgOut := false, heldReset := false }) s

/-- A supply fault: recorded, the die held off until the input is stable, and down fast (R676, R677, R684). -/
def faultSupply (kind : Nat) (s : State) : State :=
  fallFast 4 (modPwr (fun p => { p with lastFault := kind, faults := satAdd 14 p.faults 1, supplyHold := true }) s)

/-! ### Input and island (R612, R676, R678) -/

/-- VIN_RISE (R675, R678): VIN_40 reaches 36.0 V. -/
def execVinRise (s : State) : Host.Outcome State Fault Refusal :=
  .next (if s.pwr.phase ≠ 0 then s else modPwr (fun p => { p with phase := 1, vin := 3600 }) s)

/-- ISLAND_SUPPLY_GOOD (R612, R624, R637, R678): the island boots; an interrupted erase starts again. -/
def execIslandSupplyGood (slotAOk slotBOk : Bool) (s : State) : Host.Outcome State Fault Refusal :=
  .next (if s.pwr.phase ≠ 1 then s
    else bootIsland slotAOk slotBOk (modIsl (fun i => { i with erasing := i.erasePending }) (modPwr (fun p => { p with phase := 2 }) s)))

/-- ISLAND_READY (R614, R678, R688): the management bus answers, MGT_ADDR is sampled, a PWR_EN already high is acted on. -/
def execIslandReady (mgtAddr : Nat) (s : State) : Host.Outcome State Fault Refusal :=
  .next (if s.pwr.phase ≠ 2 ∨ s.host.state = 3 then s
    else
      let s := modPwr (fun p => { p with phase := 3, mgtAddr := mgtAddr % 8 }) s
      onlyIf s.pwr.pwrEn tryStart s)

/-- ISLAND_SUPPLY_LOSS (R612, R676, R685): all is lost but fuses, flash, secure storage and the pins. -/
def execIslandSupplyLoss (s : State) : Host.Outcome State Fault Refusal :=
  .next (
    let d := dieLost s
    let i := s.isl
    { d with
      err := ErrSt.reset,
      isl := { IslSt.reset with lc := i.lc, erasePending := i.erasePending, ownerKeys := i.ownerKeys, vendorRevoked := i.vendorRevoked,
                                fwSvn := i.fwSvn, deviceId := i.deviceId, secret := i.secret, flash := i.flash, activeSlot := i.activeSlot, nextSlot := i.nextSlot },
      pwr := { PwrSt.reset with pwrEn := s.pwr.pwrEn, pwrEnSince := s.pwr.pwrEnSince } })

/-- LOW_MARGIN_CHANGE (R676): VIN_40 in 10 mV. -/
def execLowMarginChange (vin : Nat) (s : State) : Host.Outcome State Fault Refusal :=
  .next (if s.pwr.phase < 2 then s
    else modPwr (fun p => { p with vin := vin % 65536, lowMargin := decide (3500 ≤ vin % 65536) && decide (vin % 65536 < 3600) }) s)

/-- SUPPLY_FAULT (R676): kinds 1 undervoltage, 2 overvoltage, 3 overcurrent. -/
def execSupplyFault (kind : Nat) (s : State) : Host.Outcome State Fault Refusal :=
  .next (if s.pwr.phase < 2 ∨ kind < 1 ∨ 3 < kind then s else faultSupply kind s)

/-- SUPPLY_STABLE (R684): VIN_40 has stayed within 36.0 V to 44.0 V for 100 ms. -/
def execSupplyStable (s : State) : Host.Outcome State Fault Refusal :=
  .next (if s.pwr.phase < 2 then s else releaseHold (modPwr (fun p => { p with supplyHold := false }) s))

/-! ### PWR_EN and the rails (R677, R678, R683 to R685) -/

/-- PWR_EN_RISE (R678, R684, R685): starts the die where it is off and, once it has been on, PWR_EN was low for 10 ms; ignored during a power-down. -/
def execPwrEnRise (s : State) : Host.Outcome State Fault Refusal :=
  .next (if s.pwr.pwrEn then s
    else
      let low := s.now - s.pwr.pwrEnSince
      let s := modPwr (fun p => { p with pwrEn := true, pwrEnSince := s.now }) s
      onlyIf (s.pwr.phase == 3 && (s.pwr.downCause == 0 || decide (10000000 ≤ low))) tryStart s)

/-- PWR_EN_FALL (R683, R685): a powered die goes down gracefully. -/
def execPwrEnFall (s : State) : Host.Outcome State Fault Refusal :=
  .next (if !s.pwr.pwrEn then s
    else
      let s := modPwr (fun p => { p with pwrEn := false, pwrEnSince := s.now, restartDue := false, heldStart := false }) s
      onlyIf (decide (4 ≤ s.pwr.phase) && decide (s.pwr.phase ≤ 8)) (fallGraceful 1) s)

/-- RAIL_POWER_GOOD (R677): the rail that rises is good; the next starts 0.5 ms later. -/
def execRailPowerGood (s : State) : Host.Outcome State Fault Refusal :=
  .next (if s.pwr.phase ≠ 4 ∨ (s.pwr.rails ≠ 0 ∧ s.now < s.pwr.railAt + 500000) then s
    else modPwr (fun p => { p with rails := p.rails + 1, railAt := s.now, phase := if 5 ≤ p.rails + 1 then 5 else 4 }) s)

/-- RAIL_GOOD_TIMEOUT (R677): 5 ms after its start the rail is not good. -/
def execRailGoodTimeout (s : State) : Host.Outcome State Fault Refusal :=
  .next (if s.pwr.phase ≠ 4 ∨ s.now < s.pwr.railAt + (if s.pwr.rails = 0 then 0 else 500000) + 5000000 then s else faultSupply 4 s)

/-- DIE_RESET_RELEASE (R678 to R680, R684, R685): 1 ms after the last rail; a lifeline reset that waited is performed. -/
def execDieResetRelease (s : State) : Host.Outcome State Fault Refusal :=
  .next (if s.pwr.phase ≠ 5 ∨ s.now < s.pwr.railAt + 1000000 then s
    else
      let s := modPwr (fun p => { p with phase := 6, pgOut := true, pgOutAt := s.now, thermTrip := false }) s
      if s.pwr.heldReset then lifelineReset s
      else ([0, 1].filter fun p => !(hostPort s p).perst).foldl (fun s p => startPort p s) s)

/-- A row that self-test found bad: poisoned and counted, the first one recorded (R681). -/
def badRow (fr : Nat × Nat) (s : State) : State :=
  let w := freshFree s
  eccHit { field := fr.1, row := fr.2, word := w.1, corrected := false } w.2

/-- The fabric ports that are down begin to train (R682). -/
def trainPorts (s : State) : State :=
  modFab (fun f => { f with ports := (List.range 12).foldl (fun t n =>
    let p := Tbl.opt .reset t n
    if p.state = 0 then Tbl.set none t n (some { p with state := 1 }) else t) f.ports }) s

/-- The control cores run: the device takes commands, the fabric ports train, and the device hears of the transition that led here (R556, R624, R635, R682). -/
def startCores (s : State) : State :=
  let s := trainPorts s
  let f := flashOf s s.isl.slot
  let s := modPwr (fun p => { p with phase := 7 }) (modHost (fun h => { h with fwVersion := f.version }) (setMeas 1 f.avporDigest s))
  let s := modIsl (fun i => { i with coreRefresh := cores.foldl (fun t k => Tbl.set (0, 0) t k (0, s.now)) [] }) s
  let s := setDeviceState 1 0 s
  match s.isl.lcEvent with
  | some (old, new) => raiseTo evLcChanged 0xFF [.pfs] (fields4 [old, new]) (modIsl (fun i => { i with lcEvent := none }) s)
  | none => s

/-- SELF_TEST_COMPLETE (R556, R624, R681): FAILED with cause 4 where anything but a row fails, with cause 3 where the Avpor image is refused. -/
def execSelfTestComplete (failedRows : List (Nat × Nat)) (ok avporOk : Bool) (s : State) : Host.Outcome State Fault Refusal :=
  .next (if s.pwr.phase ≠ 6 ∨ s.host.state ≠ 0 then s
    else if !ok then setDeviceState 3 4 s
    else if !avporOk then setDeviceState 3 3 s
    else startCores (failedRows.foldl (fun s r => badRow r s) s))

/-- MEMORY_TRAINING_COMPLETE (R295, R556, R637, R682): both controllers go into service; while the return erase runs the device stays in MAILBOX. -/
def execMemoryTrainingComplete (t1Ok t2Ok : Bool) (s : State) : Host.Outcome State Fault Refusal :=
  .next (if s.pwr.phase ≠ 7 ∨ s.host.state ≠ 1 then s
    else
      let train := fun ok (x : TierSt) => { x with trained := ok, offline := !ok, mode := if t1Ok && t2Ok then 0 else x.mode }
      let s := modTier 1 (train t2Ok) (modTier 0 (train t1Ok) s)
      if !t1Ok then setDeviceState 3 1 s
      else if !t2Ok then setDeviceState 3 2 s
      else
        let s := modPwr (fun p => { p with phase := 8 }) s
        onlyIf (!s.isl.erasing) (setDeviceState 2 0) s)

/-- POWER_DOWN_COMPLETE (R684, R685): the die is off; a lifeline reset that was held starts it again. -/
def execPowerDownComplete (s : State) : Host.Outcome State Fault Refusal :=
  .next (if s.pwr.phase ≠ 9 then s
    else
      let held := s.pwr.heldReset
      let s := modPwr (fun p =>
        { p with phase := 3, rails := 0, offAt := s.now, heldReset := false, restartDue := decide (p.downCause = 1) && p.pwrEn && !held }) s
      onlyIf held tryStart s)

/-- POWER_UP_RESTART (R684): 100 ms after a power-down that PWR_EN caused and that found it high again. -/
def execPowerUpRestart (s : State) : Host.Outcome State Fault Refusal :=
  .next (if s.pwr.phase ≠ 3 ∨ !s.pwr.restartDue ∨ s.now < s.pwr.offAt + 100000000 then s
    else tryStart (modPwr (fun p => { p with restartDue := false }) s))

/-! ### The lifeline's two (R615 to R618, R679, R683 to R685) -/

/-- An answer on the management bus: status, then what the command adds. -/
def llAnswer (code seq status : Nat) (bs : List Byte) (s : State) : State := emit (.mgmt code (seq % 256) (BitVec.ofNat 8 status :: bs)) s

/-- The management bus answers (R614). -/
def busUp (s : State) : Bool := decide (3 ≤ s.pwr.phase)

/-- LL_POWER_OFF (R615, R617, R618, R683): answered, the hang record captured, then down as for PWR_EN. -/
def execLlPowerOff (seq : Nat) (_ : List Byte) (s : State) : Host.Outcome State Fault Refusal :=
  .next (if !busUp s then s
    else
      let s := captureHang 3 (llAnswer 0x02 seq stOk [] s)
      onlyIf (decide (4 ≤ s.pwr.phase) && decide (s.pwr.phase ≤ 8)) (fallGraceful 2) s)

/-- LL_COLD_RESET (R615 to R618, R679, R684, R685): BUSY while a trip or fault holds the die off; held during an erase, during bring-up to step 6 and during a power-down; else performed. -/
def execLlColdReset (seq : Nat) (_ : List Byte) (s : State) : Host.Outcome State Fault Refusal :=
  .next (if !busUp s then s
    else if s.pwr.phase = 3 ∧ (s.pwr.tripHold ∨ s.pwr.supplyHold) then llAnswer 0x03 seq stBusy [] s
    else
      let s := llAnswer 0x03 seq stOk [] s
      let hold := modPwr (fun p => { p with heldReset := true })
      if s.isl.erasing ∧ s.host.state = 1 then hold s
      else match s.pwr.phase with
        | 3 => startDie (captureHang 3 s)
        | 4 | 5 | 9 => hold s
        | _ => lifelineReset s)

end Sys2Proof.Machine
end

