-- ==== Sys2Proof/Machine/Island.lean ====
section
/-! DEFINITION. The management island: life cycle, keys, attestation, debug tokens, firmware slots, power cap, sensors and the gate, and its commands on the mailbox and on the management bus (16_management_security_lifecycle.md, R612 to R645, R700). Readings: log entry 40. -/
namespace Sys2Proof.Machine

/-! ### Signed authorisations (R627, R628, R639) -/

namespace Auth

def kind (a : List Byte) : Nat := leAt a 4 1
def signer (a : List Byte) : Nat := leAt a 5 1
def target (a : List Byte) : Nat := leAt a 6 1
def deviceId (a : List Byte) : Nat := leAt a 8 16
def challenge (a : List Byte) : List Byte := sliceBytes a 24 32
def lifetime (a : List Byte) : Nat := leAt a 56 4
def scope (a : List Byte) : Nat := leAt a 60 2
def slot (a : List Byte) : Nat := leAt a 68 1
def op (a : List Byte) : Nat := leAt a 69 1
def key (a : List Byte) : List Byte := sliceBytes a 72 96
/-- The bytes the signature covers. -/
def body (a : List Byte) : List Byte := sliceBytes a 0 224
def signature (a : List Byte) : List Byte := sliceBytes a 224 96
/-- No reserved bit is set (R9). -/
def clean (a : List Byte) : Bool :=
  cleanBytes [(0, 6, 0xFF), (8, 60, 0xFF), (60, 60, 3), (62, 66, 0xFF), (67, 67, 0x0F), (68, 69, 0xFF), (72, 167, 0xFF), (224, 319, 0xFF)] 320 a &&
    decide (scope a < 4)

end Auth

/-- An authorisation of 320 bytes by vendor slot `k`. -/
def byVendorSlot (s : State) (a : List Byte) (k : Nat) : Bool :=
  decide (k < 2) && Auth.signer a == k && !bit s.isl.vendorRevoked k && Config.ecdsaVerify (Config.vendorKey k) (Config.sha384 (Auth.body a)) (Auth.signature a)

/-- Signed by a vendor slot that is not revoked. -/
def vendorAuth (s : State) (a : List Byte) : Bool := byVendorSlot s a 0 || byVendorSlot s a 1

/-- Signed by an owner slot that holds a key that is not revoked. -/
def ownerAuth (s : State) (a : List Byte) : Bool :=
  decide (0x10 ≤ Auth.signer a) && decide (Auth.signer a ≤ 0x13) && slotSigned s (Auth.signer a - 0x10) (Config.sha384 (Auth.body a)) (Auth.signature a)

/-- It names this chip and the last challenge, issued less than 600 s ago. -/
def authFresh (s : State) (kind : Nat) (a : List Byte) : Bool :=
  leAt a 0 4 == 0x41555856 && Auth.kind a == kind && Auth.deviceId a == s.isl.deviceId &&
    s.isl.challenge.any fun c => decide (c.1 = Auth.challenge a) && decide (s.now < c.2 + 600000000000)

/-- A key that the life cycle accepts for debug tokens signed it (R627). -/
def tokenAuth (s : State) (a : List Byte) : Bool :=
  match s.isl.lc with
  | 0 => vendorAuth s a || ownerAuth s a
  | 1 | 2 => ownerAuth s a
  | _ => vendorAuth s a

/-- The challenge is consumed in the attempt. -/
def useChallenge (s : State) : State := modIsl (fun i => { i with challenge := none }) s

/-! ### Debug tokens (R638 to R641) -/

/-- What the loss of a token brings with it: halt and injection end, and the PFs hear of it. -/
def endToken (cause : Nat) (s : State) : State :=
  if s.isl.token.isNone then s else
  let s := modIsl (fun i => { i with token := none }) s
  let s := setHalt false s
  let s := modFab (fun f => { f with inject := f.inject.map fun j => (j.1, j.2.map fun x => { x with enable := false }) }) s
  raiseTo evTokenEnded 0xFF [.pfs] (fields4 [cause]) (setMeas 3 0 (setAlert 3 s))

/-- TOKEN_EXPIRY (R640, R641): the lifetime of the token in force is over. -/
def execTokenExpiry (s : State) : Host.Outcome State Fault Refusal :=
  .next (if s.isl.token.any fun t => decide (t.since + 1000000000 * t.lifetime ≤ s.now) then endToken 1 s else s)

/-- Put a token in force; it replaces the one before. -/
def setToken (a : List Byte) (s : State) : State :=
  let t : Token := { signer := Auth.signer a, scope := Auth.scope a, hitchParts := leAt a 62 2, injectParts := leAt a 64 2, injectPorts := leAt a 66 2,
                     lifetime := Auth.lifetime a, since := s.now, digest := Config.sha384 (Auth.body a) }
  let s := setMeas 3 t.digest (modIsl (fun i => { i with token := some t }) (endToken 3 s))
  raiseTo evTokenInForce 0xFF [.pfs] (fields4 [t.signer, t.scope, t.lifetime]) s

/-! ### What a security operation answers, over the mailbox and over the bus (R642, R643) -/

/-- Status, result bytes, output data, and whether a cold reset follows. -/
structure SecAns where
  status : Nat
  results : List Byte
  output : List Byte
  reset : Bool

def secOk (s : State) : State × SecAns := (s, { status := stOk, results := [], output := [], reset := false })
def secRefuse (st : Nat) (s : State) : State × SecAns := (s, { status := st, results := [], output := [], reset := false })
def secOut (out : List Byte) (s : State) : State × SecAns := (s, { status := stOk, results := [], output := out, reset := false })
def secResults (r : List Byte) (s : State) : State × SecAns := (s, { status := stOk, results := r, output := [], reset := false })

/-! ### Identity, challenge, status (R630, R631, R639, R642) -/

/-- A certificate preceded by its length. -/
def certBytes (c : List Byte) : List Byte := leBytes 4 c.length ++ c

def secIdentityOp (s : State) : State × SecAns :=
  secOut (certBytes (Config.identityCert s.isl.deviceId) ++ certBytes (Config.aliasCert s.isl.secret (Tbl.get 0 s.isl.meas 0) (Tbl.get 0 s.isl.meas 1))) s

def secChallengeOp (s : State) : State × SecAns :=
  let c := padTo 32 (Config.challenge s.freeCount)
  secResults (c.take 16) (modIsl (fun i => { i with challenge := some (c, s.now), challengeReg := c }) { s with freeCount := s.freeCount + 1 })

/-- MGT_LC and MGT_TOKEN. -/
def lcBytes (s : State) : List Byte := leBytes 4 (mgtLc s) ++ leBytes 8 (mgtToken s)

/-! ### Attestation (R632 to R634) -/

/-- The digests of a partition-scope report: of its active program, or zero, then of each binding's manifest, up to 63. -/
def attestDigests (s : State) (p : Nat) : List Nat :=
  let prog := ((Tbl.get none s.prog.active p).bind fun a => Tbl.get none s.prog.progs a.handle).elim 0 fun g => Config.sha384 (Img.signed g.image)
  let mans := s.mdl.bindings.filterMap fun x => (x.2.filter fun b => b.part == p).bind fun b => (image? s b.image).map fun i => Config.sha384 (Mf.signed i.manifest)
  prog :: mans.take 63

/-- The report of R633. -/
def attestReport (s : State) (scope part : Nat) (nonce : List Byte) : List Byte :=
  let ds := if scope = 1 then attestDigests s part else []
  let v := s.host.fwVersion
  let head := leBytes 4 0x54415856 ++ leBytes 2 1 ++ [BitVec.ofNat 8 scope, if scope = 1 then BitVec.ofNat 8 part else 0xFF, BitVec.ofNat 8 s.isl.lc,
      BitVec.ofNat 8 (b2n s.isl.token.isSome + 2 * b2n s.isl.erasePending), 0, 0] ++ leBytes 4 s.isl.fwSvn ++ leBytes 8 (rack s) ++ leBytes 16 s.isl.deviceId ++
    padTo 32 nonce ++ ((List.range 8).flatMap fun m => leBytes 48 (Tbl.get 0 s.isl.meas m)) ++ leBytes 3 v ++ [0] ++ leBytes 2 0x4230 ++ leBytes 2 ds.length
  let bytes := padTo 512 head ++ ds.flatMap (leBytes 48)
  bytes ++ padTo 96 (Config.aliasSign s.isl.secret (Tbl.get 0 s.isl.meas 0) (Tbl.get 0 s.isl.meas 1) (Config.sha384 bytes))

/-- Device scope for a PF or the bus, partition scope for the partition's own function. -/
def secAttestOp (who : Option Nat) (scope part : Nat) (nonce : List Byte) (s : State) : State × SecAns :=
  if 1 < scope ∨ (scope = 1 ∧ 15 < part) then secRefuse stBadCommand s
  else
    let may := match who with
      | none => scope == 0
      | some f => if scope = 0 then f % 32 == 0 else funcPart s f == some part
    if may then secOut (attestReport s scope part nonce) s else secRefuse stNotPermitted s

/-! ### Life cycle (R635 to R637) -/

/-- A transition that the table of R635 has. -/
def lcStep (old new : Nat) : Bool := (old == 0 && new == 1) || (old == 1 && (new == 2 || new == 3)) || (old == 2 && new == 3)

/-- The signatures it needs. -/
def lcSigned (s : State) (new : Nat) (as_ : List (List Byte)) : Bool :=
  let vendor := as_.any (vendorAuth s)
  let owner := as_.any (ownerAuth s)
  match s.isl.lc, new with
  | 0, _ => vendor && as_.all (vendorAuth s)
  | 1, 2 => owner && as_.all (ownerAuth s)
  | 1, _ => vendor && (owner || ownerSlots s == 0) && as_.all fun a => vendorAuth s a || ownerAuth s a
  | _, _ => vendor && owner && as_.all fun a => vendorAuth s a || ownerAuth s a

/-- The new state stands; in RETURN the erase becomes pending. -/
def enterLc (new : Nat) (s : State) : State :=
  measureKeys (modIsl (fun i => { i with lc := new, erasePending := i.erasePending || new == 3, lcEvent := some (i.lc, new) }) s)

def secTransitionOp (as_ : List (List Byte)) (s : State) : State × SecAns :=
  let new := Auth.target (as_.headD [])
  if !as_.all Auth.clean then secRefuse stBadCommand s
  else
    let t := useChallenge s
    if !lcStep s.isl.lc new then secRefuse stNotPermitted t
    else if !as_.all (fun a => authFresh s 1 a && Auth.target a == new) || !lcSigned s new as_ then secRefuse stBadSignature t
    else (enterLc new t, { status := stOk, results := [], output := [], reset := true })

/-- RETURN_ERASE_COMPLETE (R617, R637): owner keys, tiers, scratchpads, accumulators, bundle and knot stores are gone; a lifeline reset that waited is performed. -/
def execReturnEraseComplete (s : State) : Host.Outcome State Fault Refusal :=
  .next (if !s.isl.erasing ∨ s.pwr.phase ≠ 8 ∨ s.host.state ≠ 1 then s
    else
      let s := measureKeys (modIsl (fun i => { i with erasing := false, erasePending := false, ownerKeys := [] }) s)
      let s := { s with mem := [], sp := SpSt.reset, acc := AccSt.reset, prog := ProgSt.reset, seq := { s.seq with cur := none } }
      let s := modFab (fun f => { f with knots := [] }) s
      if s.pwr.heldReset then lifelineReset s else setDeviceState 2 0 s)

/-! ### Owner keys, tokens (R628, R629, R640, R642) -/

/-- An owner key change is signed by an owner key of another slot, or, the first, by the key being installed. -/
def keyAuth (s : State) (a : List Byte) : Bool :=
  if ownerSlots s == 0 then Auth.op a == 0 && Auth.signer a == 0x10 + Auth.slot a && Config.ecdsaVerify (Auth.key a) (Config.sha384 (Auth.body a)) (Auth.signature a)
  else ownerAuth s a && Auth.signer a != 0x10 + Auth.slot a

def secOwnerKeysOp (a : List Byte) (s : State) : State × SecAns :=
  if s.isl.lc = 3 then secRefuse stNotPermitted s
  else if !Auth.clean a ∨ 3 < Auth.slot a ∨ 1 < Auth.op a then secRefuse stBadCommand s
  else
    let t := useChallenge s
    if Auth.op a = 1 ∧ Auth.signer a = 0x10 + Auth.slot a then secRefuse stBadCommand t
    else if !authFresh s 2 a || !keyAuth s a then secRefuse stBadSignature t
    else secOk (measureKeys (modIsl (fun i => { i with ownerKeys := Tbl.set none i.ownerKeys (Auth.slot a) (if Auth.op a = 0 then some (Auth.key a) else none) }) t))

def secRevokeOp (s : State) : State × SecAns := if s.isl.erasing then secRefuse stBusy s else secOk (endToken 2 s)

def secTokenOp (a : List Byte) (s : State) : State × SecAns :=
  if s.isl.erasing then secRefuse stBusy s
  else if !Auth.clean a then secRefuse stBadCommand s
  else
    let t := useChallenge s
    if !authFresh s 0 a || !tokenAuth s a || Auth.lifetime a == 0 || decide (86400 < Auth.lifetime a) then secRefuse stBadSignature t
    else secOk (setToken a t)

/-! ### Firmware and security version (R624 to R626) -/

/-- The slot that is not active. -/
def idleSlot (s : State) : Nat := 1 - s.isl.activeSlot

/-- A digest is signed by a vendor key, and the version is at least the floor (R624). -/
def fwSound (s : State) (i : List Byte) : Bool :=
  let x := Config.fwImage i
  vendorSigned s (Config.sha384 x.1) x.2.2.2.2.1 && vendorSigned s (Config.sha384 x.2.1) x.2.2.2.2.2 && decide (s.isl.fwSvn ≤ x.2.2.2.1)

def secFwUpdateOp (i : List Byte) (s : State) : State × SecAns :=
  let x := Config.fwImage i
  let v := x.2.2.1 % 2 ^ 24
  if !fwSound s i then secRefuse stBadSignature s
  else
    let f : Flash := { islandDigest := Config.sha384 x.1, avporDigest := Config.sha384 x.2.1, version := v, svn := x.2.2.2.1 }
    secOk (raiseTo evFwStaged 0xFF [.pfs] (fields4 [idleSlot s, v, f.svn])
      (modIsl (fun i => { i with flash := Tbl.set none i.flash (idleSlot s) (some f) }) s))

def secFwActivateOp (s : State) : State × SecAns :=
  if (flashOf s (idleSlot s)).svn < s.isl.fwSvn then secRefuse stBadSignature s
  else secOk (modIsl (fun i => { i with nextSlot := some (idleSlot s) }) s)

def secSvnCommitOp (s : State) : State × SecAns :=
  if 63 < s.isl.runningSvn then secRefuse stNoResource s
  else secOk (modIsl (fun i => { i with fwSvn := max i.fwSvn i.runningSvn }) s)

/-! ### Power cap and gating thresholds (R619, R623) -/

/-- The range of a sensor's gating threshold in 1/16 °C. -/
def thresholdRange (i : Nat) : Option (Nat × Nat) :=
  if i ≤ 19 then some (1120, 1600) else if i = 20 then some (1120, 1520) else if i = 22 then some (640, 1120) else none

/-- A threshold a sensor takes. -/
def thresholdOk (i : Nat) (v : Int) : Bool := (thresholdRange i).any fun r => decide ((r.1 : Int) ≤ v) && decide (v ≤ (r.2 : Int))

def setThreshold (i : Nat) (v : Int) (s : State) : State := modIsl (fun x => { x with thresholds := Tbl.set none x.thresholds i (some v.toNat) }) s

def secPowerCfgOp (cap : Nat) (th : Option (Nat × Int)) (s : State) : State × SecAns :=
  if cap < 300 ∨ 750 < cap ∨ th.any (fun x => !thresholdOk x.1 x.2) then secRefuse stBadCommand s
  else
    let s := modIsl (fun i => { i with cap := cap }) s
    secOk (match th with
      | some (i, v) => setThreshold i v s
      | none => s)

/-! ### Security commands of the mailbox (R642) -/

/-- The transition's cold reset: as LL_COLD_RESET performs one, without a hang record (R502, R635, R679). -/
def transitionReset (s : State) : State :=
  modPwr (fun p => { p with phase := 5, railAt := s.now + 9000000, pgOut := false }) (coldReset (sendLeave 2 s))

/-- Answer a mailbox command; one that resets the chip completes before the reset. -/
def secAnswer (c : Cmd) : State × SecAns → State × Ans
  | (s, a) => if a.reset then later (transitionReset (complete c a.status 0 a.results s)) else (s, .done a.status 0 a.results)

def secIdentitySpec : CmdSpec :=
  { op := 0x0901, allow := [(8, 15, 0xFF)], perm := byAny, body := fun c s => intoHost c (pNum c 8 8) 16384 (secIdentityOp s).2.output s }

/-- SEC_IDENTITY (R630, R631, R642). -/
def execSecIdentity (m : Mbx) (s : State) : Host.Outcome State Fault Refusal := .next (runCmd secIdentitySpec m s)

def secAttest (c : Cmd) (s : State) : State × Ans :=
  let a := secAttestOp (some c.m.func) (pByte c 0) (pByte c 1) (sliceBytes c.m.params 8 32) s
  if a.2.status = stOk then intoHost c (pNum c 40 8) 4096 a.2.output a.1 else refuse a.2.status a.1

def secAttestSpec : CmdSpec := { op := 0x0902, allow := [(0, 1, 0xFF), (8, 47, 0xFF)], perm := byAny, body := secAttest }

/-- SEC_ATTEST (R633, R634). -/
def execSecAttest (m : Mbx) (s : State) : Host.Outcome State Fault Refusal := .next (runCmd secAttestSpec m s)

def secChallengeSpec : CmdSpec := { op := 0x0903, allow := [], perm := byAny, body := fun c s => secAnswer c (secChallengeOp s) }

/-- SEC_CHALLENGE (R639, R642). -/
def execSecChallenge (m : Mbx) (s : State) : Host.Outcome State Fault Refusal := .next (runCmd secChallengeSpec m s)

def secLcStatusSpec : CmdSpec := { op := 0x0904, allow := [], perm := byAny, body := fun _ s => doneWith (lcBytes s) s }

/-- SEC_LC_STATUS (R642). -/
def execSecLcStatus (m : Mbx) (s : State) : Host.Outcome State Fault Refusal := .next (runCmd secLcStatusSpec m s)

def secLcTransition (c : Cmd) (s : State) : State × Ans :=
  let n := pByte c 0
  if n < 1 ∨ 2 < n then refuse stBadCommand s
  else withHost c (pNum c 8 8) (320 * n) s fun bs => secAnswer c (secTransitionOp ((List.range n).map fun i => sliceBytes bs (320 * i) 320) s)

def secLcTransitionSpec : CmdSpec := { op := 0x0905, allow := [(0, 0, 0xFF), (8, 15, 0xFF)], perm := byPrimary, body := secLcTransition }

/-- SEC_LC_TRANSITION (R635 to R637). -/
def execSecLcTransition (m : Mbx) (s : State) : Host.Outcome State Fault Refusal := .next (runCmd secLcTransitionSpec m s)

def secOwnerKeys (c : Cmd) (s : State) : State × Ans :=
  withHost c (pNum c 8 8) 320 s fun a => secAnswer c (secOwnerKeysOp a s)

def secOwnerKeysSpec : CmdSpec := { op := 0x0906, allow := [(8, 15, 0xFF)], perm := byPrimary, body := secOwnerKeys }

/-- SEC_OWNER_KEYS (R628, R642). -/
def execSecOwnerKeys (m : Mbx) (s : State) : Host.Outcome State Fault Refusal := .next (runCmd secOwnerKeysSpec m s)

def secToken (c : Cmd) (s : State) : State × Ans :=
  if s.isl.erasing then refuse stBusy s
  else if pBit c 0 0 then secAnswer c (secRevokeOp s)
  else withHost c (pNum c 8 8) 320 s fun a => secAnswer c (secTokenOp a s)

def secTokenSpec : CmdSpec := { op := 0x0907, allow := [(0, 0, 1), (8, 15, 0xFF)], perm := byPrimary, body := secToken }

/-- SEC_TOKEN (R637, R640, R641). -/
def execSecToken (m : Mbx) (s : State) : Host.Outcome State Fault Refusal := .next (runCmd secTokenSpec m s)

def secFwUpdate (c : Cmd) (s : State) : State × Ans :=
  let n := pNum c 16 4
  if n = 0 ∨ 16777216 < n then refuse stBadCommand s
  else withHost c (pNum c 8 8) n s fun i => secAnswer c (secFwUpdateOp i s)

def secFwUpdateSpec : CmdSpec := { op := 0x0908, allow := [(8, 19, 0xFF)], perm := byPrimary, body := secFwUpdate }

/-- SEC_FW_UPDATE (R626). -/
def execSecFwUpdate (m : Mbx) (s : State) : Host.Outcome State Fault Refusal := .next (runCmd secFwUpdateSpec m s)

def secFwActivateSpec : CmdSpec := { op := 0x0909, allow := [], perm := byPrimary, body := fun c s => secAnswer c (secFwActivateOp s) }

/-- SEC_FW_ACTIVATE (R626). -/
def execSecFwActivate (m : Mbx) (s : State) : Host.Outcome State Fault Refusal := .next (runCmd secFwActivateSpec m s)

def secSvnCommitSpec : CmdSpec := { op := 0x090A, allow := [], perm := byPrimary, body := fun c s => secAnswer c (secSvnCommitOp s) }

/-- SEC_SVN_COMMIT (R625). -/
def execSecSvnCommit (m : Mbx) (s : State) : Host.Outcome State Fault Refusal := .next (runCmd secSvnCommitSpec m s)

/-- The threshold that parameter bytes ask for. -/
def thresholdParam (ps : List Byte) : Option (Nat × Int) := if bit (leAt ps 3 1) 0 then some (leAt ps 2 1, toSigned 16 (leAt ps 4 2)) else none

def secPowerCfgSpec : CmdSpec :=
  { op := 0x090B, allow := [(0, 2, 0xFF), (3, 3, 1), (4, 5, 0xFF)], perm := byPrimary,
    body := fun c s => secAnswer c (secPowerCfgOp (pNum c 0 2) (thresholdParam c.m.params) s) }

/-- SEC_POWER_CFG (R623). -/
def execSecPowerCfg (m : Mbx) (s : State) : Host.Outcome State Fault Refusal := .next (runCmd secPowerCfgSpec m s)

/-! ### Security messages on the management bus (R614, R643) -/

/-- The operation of a message: opcode, parameter bytes, inline data. -/
def busOp (op : Nat) (ps data : List Byte) (s : State) : State × SecAns :=
  let dirty := fun allow => (firstReserved allow 48 ps).isSome
  let need := fun n => decide (data.length < n)
  let n := leAt ps 0 1
  match op with
  | 0x0901 => if dirty [] then secRefuse stBadCommand s else secIdentityOp s
  | 0x0902 => if dirty [(0, 1, 0xFF), (8, 39, 0xFF)] then secRefuse stBadCommand s else secAttestOp none n (leAt ps 1 1) (sliceBytes ps 8 32) s
  | 0x0903 => if dirty [] then secRefuse stBadCommand s else secChallengeOp s
  | 0x0904 => if dirty [] then secRefuse stBadCommand s else secResults (lcBytes s) s
  | 0x0905 => if dirty [(0, 0, 0xFF)] || n == 0 || decide (2 < n) || need (320 * n) then secRefuse stBadCommand s
      else secTransitionOp ((List.range n).map fun i => sliceBytes data (320 * i) 320) s
  | 0x0906 => if dirty [] || need 320 then secRefuse stBadCommand s else secOwnerKeysOp (data.take 320) s
  | 0x0907 => if dirty [(0, 0, 1)] then secRefuse stBadCommand s
      else if bit n 0 then secRevokeOp s else if need 320 then secRefuse stBadCommand s else secTokenOp (data.take 320) s
  | 0x090A => if dirty [] then secRefuse stBadCommand s else secSvnCommitOp s
  | 0x090B => if dirty [(0, 2, 0xFF), (3, 3, 1), (4, 5, 0xFF)] then secRefuse stBadCommand s else secPowerCfgOp (leAt ps 0 2) (thresholdParam ps) s
  | _ => secRefuse stBadCommand s

/-- SEC_REQUEST (R643): the island answers, keeps the output for SEC_READ, and performs a transition's reset after its answer. -/
def execSecRequest (seq : Nat) (req : List Byte) (s : State) : Host.Outcome State Fault Refusal :=
  .next (if !busUp s then s
    else
      let r := if req.length < 50 ∨ 1074 < req.length then secRefuse stBadCommand s else busOp (leAt req 0 2) (sliceBytes req 2 48) (req.drop 50) s
      let s := modIsl (fun i => { i with secOut := r.2.output }) r.1
      let s := llAnswer 0x10 seq r.2.status (padTo 16 r.2.results ++ leBytes 4 r.2.output.length) s
      if r.2.reset then transitionReset s else s)

/-- SEC_READ (R643): up to 48 bytes of the last output. -/
def execSecRead (seq chunk : Nat) (s : State) : Host.Outcome State Fault Refusal :=
  .next (if !busUp s then s else llAnswer 0x11 seq stOk ((s.isl.secOut.drop (48 * (chunk % 65536))).take 48) s)

/-! ### Lifeline commands (R474, R614 to R616) -/

/-- The codes of the table of lifeline commands (R615) and of the two security messages of the same bus (R643). -/
def llCodes : List Nat := [0x01, 0x02, 0x03, 0x04, 0x05, 0x06, 0x10, 0x11]

/-- LL_TELEMETRY (R615); a code outside the table is malformed and answered BAD_COMMAND with the sequence number copied (R616).
A code of another row is that row's message, and nothing here. -/
def execLlTelemetry (code seq : Nat) (req : List Byte) (s : State) : Host.Outcome State Fault Refusal :=
  let first := leAt req 0 1
  let n := leAt req 1 1
  .next (if !busUp s then s
    else if code ∉ llCodes then llAnswer code seq stBadCommand [] s
    else if code ≠ 0x01 then s
    else if req.length < 2 ∨ n < 1 ∨ 24 < first + n then llAnswer 0x01 seq stBadCommand [] s
    else llAnswer 0x01 seq stOk (((List.range n).flatMap fun i => leBytes 4 (mgtTemp s (first + i))) ++ leBytes 4 (mgtPower s)) s)

/-- LL_HANG_RECORD (R615, R659). -/
def execLlHangRecord (seq : Nat) (req : List Byte) (s : State) : Host.Outcome State Fault Refusal :=
  let k := leAt req 0 2
  let len := (s.err.hang.map fun h => h.bytes.length).getD 0
  .next (if !busUp s then s
    else if req.length < 2 then llAnswer 0x04 seq stBadCommand [] s
    else if 101 < k then llAnswer 0x04 seq stBadCommand (leBytes 2 len) s
    else match s.err.hang with
      | none => llAnswer 0x04 seq stNoResource (leBytes 2 0) s
      | some h => llAnswer 0x04 seq stOk (leBytes 2 len ++ (h.bytes.drop (48 * k)).take 48) s)

/-- LL_LC_STATUS (R615). -/
def execLlLcStatus (seq : Nat) (_ : List Byte) (s : State) : Host.Outcome State Fault Refusal :=
  .next (if !busUp s then s else llAnswer 0x05 seq stOk (lcBytes s) s)

/-- LL_HITCH_SET (R473, R474, R616). -/
def execLlHitchSet (seq : Nat) (req : List Byte) (s : State) : Host.Outcome State Fault Refusal :=
  let p := leAt req 0 1
  let v := leAt req 2 2
  .next (if !busUp s then s
    else if req.length < 12 ∨ 15 < p ∨ 4095 < v ∨ 1 < leAt req 1 1 then llAnswer 0x06 seq stBadCommand [] s
    else if !handPermitted s p then llAnswer 0x06 seq stNotPermitted [] s
    else llAnswer 0x06 seq stOk [] (handSet p v (leAt req 4 4) (if bit (leAt req 1 1) 0 then some (leAt req 8 4) else none) s))

/-! ### PLDM (R613, R623, R626) -/

/-- An answer of PLDM, whose bytes its own standard gives. -/
def pldmAnswer (req : List Byte) (vals : List Nat) (s : State) : State := emit (.pldm (Config.pldmReply req vals)) s

def pldm : PldmReq → State → State
  | .discovery r, s => pldmAnswer r [] s
  | .readSensor i, s => pldmAnswer [BitVec.ofNat 8 i] (if i < 24 then [mgtTemp s i] else [mgtPower s, mgtSupply s]) s
  | .setCap w, s =>
    let r := secPowerCfgOp w none s
    pldmAnswer [] [r.2.status] r.1
  | .setThreshold i v, s => if thresholdOk i v then pldmAnswer [] [stOk] (setThreshold i v s) else pldmAnswer [] [stBadCommand] s
  | .fwUpdate i, s =>
    let r := if i.length = 0 ∨ 16777216 < i.length then secRefuse stBadCommand s else secFwUpdateOp i s
    pldmAnswer [] [r.2.status] r.1
  | .fwActivate, s =>
    let r := secFwActivateOp s
    pldmAnswer [] [r.2.status] r.1

/-- PLDM_REQUEST (R613, R614, R623, R626). -/
def execPldmRequest (req : PldmReq) (s : State) : Host.Outcome State Fault Refusal := .next (if busUp s then pldm req s else s)

/-! ### Sensors, trips, gating (R619 to R622, R684) -/

/-- The trip threshold of a sensor in 1/16 °C. -/
def tripAt (i : Nat) : Option Int :=
  if i ≤ 18 then some 1760 else if i ≤ 20 then some 1680 else if i = 22 then some 1200 else if i = 23 then some 2000 else none

/-- trip_cause of a sensor: die, memory, coolant, island. -/
def tripCause (i : Nat) : Nat := if i ≤ 18 then 1 else if i ≤ 20 then 2 else if i = 22 then 3 else 4

def temp (s : State) (i : Nat) : Int := toSigned 16 (Tbl.get 0 s.isl.temps i)

/-- Every sensor is at least 10 °C below its trip threshold. -/
def tripCooled (s : State) : Bool := (List.range 24).all fun i => (tripAt i).all fun t => decide (temp s i + 160 ≤ t)

/-- A thermal trip (R620): hang record, THERMTRIP_N, a fast power-down, and the die is held off. -/
def thermalTrip (i : Nat) (s : State) : State :=
  let s := setAlert 1 (modIsl (fun x => { x with tripCause := tripCause i }) (captureHang 4 s))
  fallFast 3 (modPwr (fun p => { p with thermTrip := true, tripHold := true }) s)

/-- SENSOR_SAMPLE (R619, R620, R684): sensors 0 to 23 in 1/16 °C; 24 the input power in W, 25 VIN_40 in 10 mV. -/
def execSensorSample (i : Nat) (v : Int) (s : State) : Host.Outcome State Fault Refusal :=
  .next (if s.pwr.phase < 2 then s
    else if i = 24 then modIsl (fun x => { x with powerAvg := v.toNat }) s
    else if i = 25 then modIsl (fun x => { x with vinReg := v.toNat % 65536 }) s
    else if 25 < i then s
    else
      let s := modIsl (fun x => { x with temps := Tbl.set 0 x.temps i (ofSigned 16 v) }) s
      if (tripAt i).any (fun t => decide (t ≤ temp s i)) && !s.pwr.tripHold then thermalTrip i s
      else if s.pwr.tripHold && tripCooled s then releaseHold (modPwr (fun p => { p with tripHold := false }) s)
      else s)

/-- Sensors above their gating thresholds. -/
def hotSensors (s : State) : List Nat := (List.range 24).filter fun i => (threshold s i).any fun t => decide ((t : Int) < temp s i)

/-- Every sensor is at least 2 °C below its gating threshold. -/
def gateCooled (s : State) : Bool := (List.range 24).all fun i => (threshold s i).all fun t => decide (temp s i + 32 ≤ (t : Int))

/-- The power cap in force: what MGT_POWER_CFG holds, a value outside 300 to 750 W acting as the nearest limit (R645). -/
def powerCap (s : State) : Nat := max 300 (min 750 s.isl.cap)

/-- The next gate and its reason (R621, R622). -/
def nextGate (s : State) (watts : Nat) : Nat × Nat :=
  let g := s.isl.gate
  let cap := powerCap s
  let hot := !(hotSensors s).isEmpty
  if !dieOn s then (0, slPowerCap)
  else if hot || decide (cap < watts) then (min 63 (g + 1), if hot then slThermal else slPowerCap)
  else if decide (100 * watts < 98 * cap) && gateCooled s then (g - 1, slPowerCap)
  else (g, if gateCooled s then slPowerCap else slThermal)

/-- GATE_RECOMPUTE (R621, R622, R700): once for each 100 µs interval, with the input power averaged over the last 1 ms. -/
def execGateRecompute (watts : Nat) (s : State) : Host.Outcome State Fault Refusal :=
  .next (if s.pwr.phase < 2 then s
    else
      let old := s.isl.gate
      let g := nextGate s watts
      let s := onlyIf (decide (0 < g.1)) (setAlert 0) s
      let hot := (hotSensors s).headD 0
      let s := modIsl (fun i => { i with gate := g.1, gateReason := g.2, powerAvg := watts }) s
      if old = 0 ∧ 0 < g.1 then
        (if g.2 = slThermal then raiseTo evThermalGating 0xFF [.pfs] (fields4 [hot, ofSigned 32 (temp s hot)]) s
         else raiseTo evPowerGating 0xFF [.pfs] (fields4 [watts]) s)
      else s)

end Sys2Proof.Machine
end

