-- ==== Sys2Proof/Machine/SpCmd.lean ====
section
/-! DEFINITION. Cache mode, retirement and power of the scratchpad as firmware manages them (06_field_scratchpad.md, R211, R212, R217, R227, R228, R231 to R234). -/
namespace Sys2Proof.Machine

/-! ### Rows that loaded programs name -/

/-- The scratchpad rows that an image names at any count, by its parts and by the chains it kicks: field, row. -/
def namedRows (part : Nat) (i : List Byte) : List (Nat × Nat) :=
  ((countVectors i).flatMap fun n => (issues i n).flatMap fun p => (issueUses part i n p).map fun u => (u.1, u.2.row)).eraseDups

/-- The programs loaded. -/
def loadedProgs (s : State) : List Prog := s.prog.progs.filterMap Prod.snd

/-- A row is named by a loaded program. -/
def rowNamed (s : State) (f : Nat) (p : Nat → Bool) : Bool :=
  (loadedProgs s).any fun g => (namedRows g.part g.image).any fun x => x.1 == f && p x.2

/-- A row that a test names lies in a resident range of a field. -/
def rowResident (s : State) (f : Nat) (p : Nat → Bool) : Bool :=
  ((fld s f).resRanges.filterMap Prod.snd).any fun x => x.valid && (List.range x.count).any fun i => p (x.first + i)

/-! ### Power (R227) -/

/-- At a reserve, bank groups that hold nothing are powered down where firmware manages power; their contents are lost. -/
def powerDownIdle (s : State) : State :=
  (List.range 16).foldl (fun s f =>
    if !(fld s f).autoPwr then s else
    (List.range 8).foldl (fun s g =>
      let mine := fun r => bankGroup r == g
      if !bit (fld s f).pwrOn g || decide (32 - s.sp.cacheBanks < 4 * g + 4) || rowResident s f mine || rowNamed s f mine then s else
        modFld f (fun x => { x with pwrOn := x.pwrOn - 2 ^ g }) (scrubWhere (fun f' r => f' == f && bankGroup r == g) s)) s) s

/-! ### SP_CACHE_CONFIG (R212, R217, R233) -/

/-- A bank that would enter cache mode is in use (R212). -/
def cacheBanksTaken (s : State) (m : Nat) : Bool :=
  let enters := fun r => decide (32 - m ≤ r % 32) && !inCacheBank s r
  (List.range 16).any fun f => rowResident s f enters || rowNamed s f enters

/-- A declared region meets an extent. -/
def regionMeets (s : State) (base len : Nat) : Bool := s.sp.regions.any fun r => r.2.any fun x => meets base len x.base x.length

/-- Why a region cannot be declared (R233). -/
def regionFault (s : State) (c : Cmd) : Option Nat :=
  let j := pByte c 2
  let base := pNum c 8 8
  let len := pNum c 16 8
  let inTier := match place base len with
    | .tier _ _ => true
    | _ => false
  if 16 ≤ j ∨ base % 512 ≠ 0 ∨ len % 512 ≠ 0 ∨ len = 0 ∨ !inTier ∨ regionMeets s base len ∨ (Tbl.get none s.sp.regions j).isSome then some stBadCommand else none

/-- A function that is no PF may name its own partition alone (R233). -/
def ownParts (c : Cmd) (mask : Nat) : Bool := c.m.func % 32 == 0 || mask == 2 ^ cmdPart c || mask == 0

/-- What refuses the command. -/
def cacheRefusal (c : Cmd) (s : State) : Option Nat :=
  let m := pByte c 1
  let j := pByte c 2
  if pBit c 0 0 && c.m.func % 32 ≠ 0 then some stNotPermitted
  else if pBit c 0 0 && !(m == 0 || m == 4 || m == 8 || m == 16) then some stBadCommand
  else if pBit c 0 1 && !ownParts c (pNum c 4 2) then some stNotPermitted
  else if pBit c 0 2 && !ownParts c (((Tbl.get none s.sp.regions j).map Region.partitions).getD 0) then some stNotPermitted
  else if pBit c 0 2 && (Tbl.get none s.sp.regions j).isNone then some stBadCommand
  else if pBit c 0 1 then regionFault (onlyIf (pBit c 0 2) (modSp fun p => { p with regions := Tbl.set none p.regions j none }) s) c
  else none

/-- The command's effect. A dropped region's lines are invalidated, so that a later region of its number finds none (log entry 33). -/
def applyCache (c : Cmd) (s : State) : State × Ans :=
  match cacheRefusal c s with
  | some st => refuse st s
  | none =>
    let j := pByte c 2
    if pBit c 0 0 && cacheBanksTaken s (pByte c 1) then refuse stRefusedCapacity s else
    let s := if pBit c 0 2 then invalidateRegion j (modSp (fun p => { p with regions := Tbl.set none p.regions j none }) s) else s
    let s := if pBit c 0 1 then modSp (fun p => { p with regions := Tbl.set none p.regions j (some
        { gen := 0, partitions := pNum c 4 2, length := pNum c 16 8, base := pNum c 8 8 }) }) s else s
    done (if pBit c 0 0 then applyCacheBanks (pByte c 1) s else s)

def spCacheConfig (c : Cmd) (s : State) : State × Ans :=
  match cacheRefusal c s with
  | some st => refuse st s
  | none => if pBit c 0 0 && cacheBanksTaken s (pByte c 1) then refuse stRefusedCapacity s
    else if pBit c 0 0 && stepping s then later s else applyCache c s

def spCacheConfigSpec : CmdSpec := { op := 0x0660, allow := [(0, 0, 7), (1, 2, 0xFF), (4, 5, 0xFF), (8, 23, 0xFF)], perm := byAny, body := spCacheConfig }

/-- SP_CACHE_CONFIG (R212, R217, R233). -/
def execSpCacheConfig (m : Mbx) (s : State) : Host.Outcome State Fault Refusal := .next (runCmd spCacheConfigSpec m s)

/-! ### SP_RETIRE_ROW (R231, R232, R234) -/

/-- Retire a row: each partition with a loaded program that names it hears of it. -/
def retireRow (f r : Nat) (s : State) : State :=
  let ps := (((loadedProgs s).filter fun g => (namedRows g.part g.image).contains (f, r)).map Prog.part).eraseDups
  ps.foldl (fun s p => raiseTo evRowRetired p [.prims p] [] s) (modFld f (fun x => { x with retired := x.retired ++ [r] }) s)

def spRetireRow (c : Cmd) (s : State) : State × Ans :=
  let f := pByte c 0
  let r := pNum c 2 2
  if 15 < f ∨ 32767 < r then refuse stBadCommand s
  else if (fld s f).retired.contains r then done s
  else if 64 ≤ (fld s f).retired.length then refuse stNoResource s
  else done (retireRow f r s)

def spRetireRowSpec : CmdSpec := { op := 0x0661, allow := [(0, 0, 0xFF), (2, 3, 0xFF)], perm := byPf, body := spRetireRow }

/-- SP_RETIRE_ROW (R231, R232, R234). -/
def execSpRetireRow (m : Mbx) (s : State) : Host.Outcome State Fault Refusal := .next (runCmd spRetireRowSpec m s)

end Sys2Proof.Machine
end

