-- ==== Sys2Proof/Machine/StepTime.lean ====
section
/-! DEFINITION. Rack time, ticks, boundary reserves, segments, and the device commands that set them (01_architecture_and_step.md, R19 to R45; 14_host_ports_and_mailbox.md, R584; R691, R698). Readings: log entry 41. -/
namespace Sys2Proof.Machine

/-! ### ACLK's spread (R20, R691) -/

/-- Depth of ACLK's down-spread in steps of 0.005 %: the setting, above 10 as 10, clamped at 0.495 %, in holdover at 0.49 %. -/
def spreadDepth (s : State) : Nat := min (10 * s.step.spreadNow) (if s.step.holdover then 98 else 99)

/-- Set the depth: in the next reserve while stepping runs, at once while it does not. -/
def setSpread (v : Nat) (s : State) : State :=
  if stepping s then modStep (fun t => { t with spread := v, spreadPending := true }) s
  else modStep (fun t => { t with spread := v, spreadNow := v, spreadPending := false }) s

/-! ### Which ticks there are (R24, R27, R34, R35) -/

/-- The first tick of a grid at or after a time. -/
def tickFrom (c : StepCfg) (t : Nat) : Nat := if t ≤ c.origin then c.origin else c.origin + ceilDiv (t - c.origin) c.period * c.period

/-- The last tick of a grid at or before a time. -/
def tickUpTo (c : StepCfg) (t : Nat) : Nat := c.origin + (t - c.origin) / c.period * c.period

/-- The configuration whose grid holds at a time: from E onward the staged one (R34). -/
def gridAt (s : State) (t : Nat) : Option StepCfg :=
  match s.step.staged with
  | some c => if c.origin ≤ t then some c else s.step.active
  | none => s.step.active

/-- Ticks of a grid that have fired, whichever way rack time was corrected since, are not waited for again (R24). -/
def unfired (s : State) (c : StepCfg) (t : Nat) : Nat :=
  match s.step.lastTick with
  | some l => if s.step.lastGrid == (c.origin, c.period) then max t (l + 1) else t
  | none => t

/-- The first tick at or after a time that has not fired: of the grid in force, from E onward of the staged one (R27, R34). -/
def gridFrom (s : State) (t : Nat) : Option Nat :=
  match s.step.active, s.step.staged with
  | none, none => none
  | some a, none => some (tickFrom a (unfired s a t))
  | none, some c => some (tickFrom c (unfired s c t))
  | some a, some c =>
    let old := tickFrom a (unfired s a t)
    some (if old < c.origin ∧ s.step.lastGrid ≠ (c.origin, c.period) then old else tickFrom c (unfired s c t))

/-- The next tick that has not fired, when stepping starts or a configuration is staged. -/
def rearm (s : State) : State := modStep (fun x => { x with nextTick := (gridFrom s (rack s)).getD 0 }) s

/-! ### Step configurations (R28, R30, R34, R45, R593) -/

/-- A STEP_SEG entry from its 64 bits. -/
def segOfNat (x : Nat) : SegEntry := { valid := bit x 63, partition := bits x 32 4, budget := bits x 0 32 }

/-- The segment table: it ends at its first entry with valid clear (R45). -/
def segTable (xs : List Nat) : List SegEntry := (xs.map segOfNat).takeWhile (·.valid)

/-- What R28, R30, R34, R45 and R593 ask of a configuration. -/
def configFits (s : State) (c : StepCfg) : Bool :=
  decide (20000 ≤ c.period) && decide (c.period ≤ 1000000000) && decide (rack s + 100000 ≤ c.origin) && !c.segs.isEmpty &&
    decide ((c.segs.map fun e => 1152 + e.budget).sum + 4480 ≤ c.period * 22388 / 10000) &&
    c.segs.all fun e => (part? s e.partition).isSome && (activeProg s e.partition).all fun g => decide (g.formula.eval (Img.minimums g.image) ≤ e.budget)

/-- Stage a configuration; from E onward its grid holds. A tick already due stays due. -/
def stageConfig (c : StepCfg) (s : State) : State :=
  onlyIf (s.step.run && decide (rack s < s.step.nextTick)) rearm (modStep (fun t => { t with staged := some c }) s)

/-- Stage what the registers hold (R43). -/
def commitRegs (s : State) : State :=
  stageConfig
    { period := s.step.periodNs, origin := s.step.origin, segs := segTable ((List.range 16).map (Tbl.get 0 s.step.segRegs)),
      overrunLimit := s.step.overrunLimit, lateEvents := s.step.lateEvents } s

/-- The staged configuration takes effect; DEV_STEP_CONFIG completes with the first tick under it. -/
def applyConfig (t : Nat) (s : State) : State :=
  match s.step.staged with
  | none => s
  | some c =>
    let s := modStep (fun x => { x with active := some c, staged := none, overrunLimit := c.overrunLimit, lateEvents := c.lateEvents }) s
    (waitingCmds s 0x0102).foldl (fun s k => complete k stOk 0 (leBytes 8 t) s) s

/-! ### The boundary reserve (R33, R698) -/

/-- What a command that waits for a reserve does there, beside those the scheduler's part takes; `none` for one that does not wait for it. -/
def reserveApply : Nat → Option (Cmd → State → State × Ans)
  | 0x0105 => some fun _ s => done s
  | 0x0205 => some applyQos
  | 0x0207 => some applyResume
  | 0x0308 => some applyCheckpoint
  | 0x0402 => some applyActivate
  | 0x0405 => some applyCounts
  | 0x0406 => some applyDeactivate
  | 0x0607 => some applyLock
  | 0x0660 => some applyCache
  | 0x0801 => some applyHitchConfig
  | _ => none

/-- The waiting commands of the reserve, in the order they came. -/
def applyReserved (s : State) : State :=
  s.host.cmds.foldl (fun s c => match reserveApply c.op with
    | some f => if cmdLive s c then answer c (f c s) else s
    | none => s) s

/-- A partition has a segment of the running step that runs its program. -/
def runsIn (s : State) (r : StepRun) (p : Nat) : Bool :=
  (r.segs.any fun e => e.partition == p) && (part? s p).isSome && !bit s.step.suspended p && (activeProg s p).isSome && !r.skipped.contains p

/-- NP_CONFIG of a partition that runs no segment in the step (R698). -/
def applyNpIdle (s : State) : State :=
  (waitingCmds s 0x0380).foldl (fun s c =>
    if s.step.running.any fun r => runsIn s r (cmdPart c) then s else if cmdLive s c then answer c (applyNpConfig c s) else s) s

/-- The actions of the reserve at tick `t`, each seeing the results of those before it. -/
def reserveActions (t : Nat) (s : State) : State :=
  let s := onlyIf (s.step.staged.any fun c => decide (c.origin ≤ t)) (applyConfig t) s
  let s := modStep (fun x => { x with running := x.running.map fun r => { r with segs := (x.active.map StepCfg.segs).getD [] } }) s
  let s := onlyIf (s.fab.stagedE.any fun e => decide (e ≤ t)) applyRoutes s
  let s := flipReserve (startRepairs s)
  let s := applyReserved (settleParts s)
  let s := onlyIf s.sp.cachePending.isSome (fun s => modSp (fun p => { p with cachePending := none }) (applyCacheBanks (s.sp.cachePending.getD 0) s)) s
  let s := modStep (fun x => { x with spreadNow := if x.spreadPending then x.spread else x.spreadNow, spreadPending := false }) (powerDownIdle s)
  applyNpIdle (serveReserve t s)

/-- The slack cause with the most cycles, the lower on a tie (R270). -/
def topSlack (t : Tbl Nat) : Nat := (List.range 16).foldl (fun m c => if Tbl.get 0 t m < Tbl.get 0 t c then c else m) 0

/-- The step that a tick starts. -/
def StepRun.start : StepRun :=
  { segs := [], next := 0, cycle := 4480, scheduled := 4480, actual := 0, inSeg := false, late := [], blamed := [], skipped := [],
    segSlack := [], missedHere := false }

/-! ### The end of a step (R38 to R42) -/

/-- What waited for a reserve that now does not come, once stepping has stopped (R698): batches not yet run are given up. -/
def stopStepping (s : State) : State :=
  let s := (waitingCmds s 0x0502).foldl (fun s c => answer c (applyClass c s)) (modSrv (fun v => { v with nextBatches := [] }) s)
  let s := reserveActions (rack s) s
  (waitingCmds s 0x0103).foldl (fun s c => completeOk c s) s

/-- An overrunning step is charged to the partitions that ran late in it. -/
def chargeOverrun (r : StepRun) (p : Nat) (s : State) : State :=
  let charged := r.missedHere && r.late.contains p
  let n := if !charged then 0 else if r.blamed.contains p then Tbl.get 0 s.step.streak p + 1 else Tbl.get 0 s.step.streak p
  let s := modStep (fun x => { x with streak := Tbl.set 0 x.streak p n }) s
  if !charged then s else
    raiseError 7 evStepOverrun p [.prims p, .pfs] (fields4 [p, s.step.count])
      (modStep (fun x => { x with partOverrun := Tbl.inc 32 x.partOverrun p }) s)

/-- The step is over once its last segment is. -/
def endStep (s : State) : State :=
  match s.step.running with
  | none => s
  | some r =>
    if r.next < r.segs.length then s else
    let s := modStep (fun x => { x with running := none, inReserve := false }) ((List.range 16).foldl (fun s p => chargeOverrun r p s) s)
    if s.step.run then s else stopStepping s

/-! ### STEP_TICK (R24, R27, R31, R33, R38, R42) -/

/-- A tick at time `t` while a step runs: missed, and charged unless the debugger halts the sequencer. -/
def missTick (s : State) : State :=
  modStep (fun x => { x with missed := satAdd 32 x.missed 1, running := x.running.map fun r => { r with missedHere := r.missedHere || !s.seq.halt } }) s

/-- A tick at time `t` starts a step. -/
def startStep (t : Nat) (s : State) : State :=
  let s := modStep (fun x => { x with count := (x.count + 1) % 2 ^ 64, topCause := topSlack s.seq.stepSlack, running := some .start, inReserve := true }) s
  let s := modNp (fun x => { x with replayedParts := [] }) (modSeq (fun q => { q with stepSlack := [] }) s)
  let s := (waitingCmds s 0x0103).foldl (fun s c => completeOk c s) s
  endStep (reserveActions t s)

/-- STEP_TICK (R24, R27, R38). -/
def execStepTick (s : State) : Host.Outcome State Fault Refusal :=
  .next (match gridAt s (rack s) with
    | none => s
    | some c =>
      if !dieOn s || !s.step.run || c.period == 0 || decide (rack s < s.step.nextTick) then s else
      let t := max s.step.nextTick (tickUpTo c (rack s))
      let s := modStep (fun x => { x with lastTick := some t, lastGrid := (c.origin, c.period) }) s
      let s := modStep (fun x => { x with nextTick := (gridFrom s (t + 1)).getD 0 }) s
      if s.step.running.isSome then missTick s else startStep t s)

/-! ### SEGMENT_START (R29, R31, R134, R166, R182, R186, R223, R240, R257, R445, R594) -/

/-- Move past the segment at hand to the cycle it ended at. -/
def passSegment (e : SegEntry) (cycle : Nat) (s : State) : State :=
  modStep (fun x => { x with inSegment := false, running := x.running.map fun r =>
    { r with cycle := cycle, scheduled := r.scheduled + 1152 + e.budget, next := r.next + 1, inSeg := false } }) s

/-- Every generator's window at zero, its key derived anew. -/
def reseed (s : State) : State :=
  (List.range 16).foldl (fun s f => modFld f (fun x =>
    { x with genWindow := [], genKey := (List.range 64).foldl (fun t g => Tbl.set 0 t g (windowKey s f g 0)) [] }) s) s

/-- The narrow-precision tables of the partition, with nothing counted. -/
def enterNp (p : Nat) (s : State) : State :=
  let n := npPart s p
  modNp (fun x =>
    { x with predCfg := n.pred, layerCfg := n.cfg, layerExp := n.exps, seed := n.seed, stats := [], breaches := [], usedExp := [], firstLayer := 0, breach := false,
             inReplay := false, inRegion := false, recOpen := false, replayedBit := x.replayedParts.contains p }) s

/-- The counts committed for a segment: its batch's, else those the host set where C of them fits the segment's budget; where it does not, as after a configuration with a smaller budget, the declared minimums (R274, log entry 41). -/
def segCounts (a : ActiveProg) (g : Prog) (seg budget : Nat) : List Nat :=
  match Tbl.get [] a.counts seg with
  | [] => if g.formula.eval g.hostCounts ≤ budget then g.hostCounts else Img.minimums g.image
  | ns => ns

/-- The budget of a segment of the running step. -/
def segBudget (s : State) (seg : Nat) : Nat := ((s.step.running.bind fun r => r.segs[seg]?).map SegEntry.budget).getD 0

/-- A segment's entry and the start of its program. -/
def enterSegment (p seg : Nat) (a : ActiveProg) (g : Prog) (s : State) : State :=
  let s := ((waitingCmds s 0x0380).filter fun c => cmdPart c == p).foldl (fun s c => answer c (applyNpConfig c s)) s
  let s := reseed (enterNp p (emptyAllLines (scrubWhere (transient s) s)))
  let run : SeqRun :=
    { part := p, handle := a.handle, pos := .start g.image, counts := segCounts a g seg (segBudget s seg), work := 0, ready := 0, resume := 0, parts := [],
      flights := [], adds := [], goal := 0, ahead := [], masks := [],
      inSpan := false, stall := none, waitHorizon := false, mark := none, kvNext := [], fault := none, faultRec := (0, 0, 0), hitchEntry := [] }
  let s := modSeq (fun q => { q with cur := some run, ended := false }) (modStep (fun x => { x with inSegment := true }) s)
  let s := match segBatch s p with
    | some b => startGather p b (writeBatch p b s)
    | none => s
  syncSeq s

/-- SEGMENT_START (R31): the next segment of the step starts, or passes idle. -/
def execSegmentStart (s : State) : Host.Outcome State Fault Refusal :=
  .next (match s.step.running with
    | none => s
    | some r =>
      match r.segs[r.next]? with
      | none => s
      | some e =>
        if !dieOn s || r.inSeg then s else
        let start := max r.cycle r.scheduled
        let s := modStep (fun x => { x with segment := r.next, inReserve := false }) s
        let p := e.partition
        match runsIn s r p, Tbl.get none s.prog.active p, activeProg s p with
        | true, some a, some g =>
          enterSegment p r.next a g (modStep (fun x => { x with running := some { r with inSeg := true, actual := start, segSlack := [] } }) s)
        | _, _, _ => endStep (passSegment e (start + 1152 + e.budget) s))

/-! ### PROGRAM_END (R37, R41, R173, R174, R262, R472, R654) -/

/-- The cycles of a slack table. -/
def slackSum (t : Tbl Nat) : Nat := (t.map Prod.snd).sum

/-- A segment that ended after its budget (R37, R41). -/
def noteLate (e : SegEntry) (r : StepRun) (work : Nat) (s : State) : State :=
  let p := e.partition
  let used := work + slackSum r.segSlack
  if used ≤ e.budget then s else
    let excused := 2 * (Tbl.get 0 r.segSlack slThermal + Tbl.get 0 r.segSlack slPowerCap + Tbl.get 0 r.segSlack slDebugHalt)
    let s := modStep (fun x => { x with
      partLate := Tbl.inc 32 x.partLate p,
      running := x.running.map fun r => { r with late := r.late ++ [p], blamed := if used - e.budget < excused then r.blamed else r.blamed ++ [p] } }) s
    if s.step.lateEvents then raiseError 7 evSegmentLate p [.prims p] (fields4 [p, r.next, used - e.budget]) s else countError 7 s

/-- Hitches that end the segment at another value than they had at its entry (R472). -/
def noteImbalance (r : SeqRun) (s : State) : State :=
  let bad := r.hitchEntry.filter fun h => hitchVal s h.1 + 1 ≠ h.2
  match bad with
  | [] => s
  | h :: _ =>
    raiseError 5 evHitchImbalance r.part [.prims r.part] (fields4 [bad.length, h.1 % 4096, h.2 - 1, hitchVal s h.1])
      (modHch (fun x => { x with partImbalance := Tbl.inc 32 x.partImbalance r.part }) s)

/-- The segment was faulted (R654). -/
def noteFault (r : SeqRun) (s : State) : State :=
  match r.fault with
  | none => s
  | some st =>
    let pay := fields4 [r.part, st, s.step.count, r.faultRec.1, r.faultRec.2.1, r.faultRec.2.2]
    raiseTo evSegmentFault r.part [.prims r.part] pay (logError evSegmentFault (if st = stNotPermitted then 4 else if st = stBarrierOverrun ∨ st = stTimeout then 5 else 3) r.part pay
      (modErr (fun x => { x with segFaults := Tbl.inc 32 x.segFaults r.part }) s))

/-- Breaches outside the region, and those no horizon tested (R174). -/
def endBreaches (r : SeqRun) (s : State) : State :=
  (s.np.breaches.filter fun b => b.2.2.2 == 0).foldl (fun s b => breachUnreplayed r.part 3 b (newExp s (runImage s r) b.1) s) s

/-- The program has ended: its issues are over, nothing stalls it, no horizon waits. -/
def programOver (r : SeqRun) : Bool := r.pos.ended && r.stall.isNone && !r.waitHorizon

/-- PROGRAM_END (R262): the end bundle's advance has run and every part has finished. -/
def execProgramEnd (s : State) : Host.Outcome State Fault Refusal :=
  .next (match s.seq.cur, s.step.running with
    | some r, some _ =>
      if !dieOn s || !programOver r then s else
      let s := finishParts r s
      if heldUp s then s else
      match s.seq.cur, s.step.running with
      | some r, some sr =>
        let e := sr.segs.getD sr.next { valid := true, partition := r.part, budget := 0 }
        let s := noteImbalance r (noteLate e sr r.work s)
        let s := modNpPart r.part (fun x => { x with exps := s.np.layerExp }) (noteFault r (endBreaches r s))
        let s := readResults r.part sr.next r.fault s
        let s := syncSeq (modSeq (fun q => { q with cur := none, ended := true }) s)
        endStep (passSegment e (sr.actual + 1152 + r.work + slackSum sr.segSlack) s)
      | _, _ => s
    | _, _ => s)

/-! ### Run control (R43, R584) -/

/-- Stepping is told to run, both tier controllers put into service before (R295), or to stop after the current step. -/
def setRun (on : Bool) (s : State) : State :=
  if s.step.run = on then s
  else if on then rearm (modStep (fun x => { x with run := true }) (serviceTiers s))
  else onlyIf s.step.running.isNone stopStepping (modStep (fun x => { x with run := false }) s)

/-- STEP_RUN_CONTROL (R43). -/
def execStepRunControl (run : Bool) (s : State) : Host.Outcome State Fault Refusal := .next (onlyIf (dieOn s) (setRun run) s)

/-- STEP_COMMIT (R43): STEP_CTRL.commit stages the registers. -/
def execStepCommit (s : State) : Host.Outcome State Fault Refusal := .next (onlyIf (dieOn s) commitRegs s)

/-- STEP_CONFIG_TAKES_EFFECT (R34): at E, while stepping does not run. -/
def execStepConfigTakesEffect (s : State) : Host.Outcome State Fault Refusal :=
  .next (match s.step.staged with
    | some c => if dieOn s && !stepping s && decide (c.origin ≤ rack s) then applyConfig c.origin s else s
    | none => s)

/-! ### Device commands (R28, R30, R34, R45, R584, R691) -/

def devStepConfig (c : Cmd) (s : State) : State × Ans :=
  withHost c (pNum c 16 8) 128 s fun bs =>
    let xs := (List.range 16).map fun i => leAt bs (8 * i) 8
    let cfg : StepCfg := { period := pNum c 0 4, origin := pNum c 8 8, segs := segTable xs, overrunLimit := pByte c 4, lateEvents := pBit c 5 0 }
    if xs.any fun x => bits x 36 27 != 0 then refuse stBadCommand s
    else if s.step.staged.isSome then refuse stBusy s
    else if !configFits s cfg then refuse stRefusedSchedule s
    else later (stageConfig cfg (modStep (fun t =>
      { t with periodNs := cfg.period, origin := cfg.origin, segRegs := (xs.mapIdx fun i x => (i, x)).foldl (fun a y => Tbl.set 0 a y.1 y.2) [] }) s))

def devStepConfigSpec : CmdSpec := { op := 0x0102, allow := [(0, 4, 0xFF), (5, 5, 1), (8, 23, 0xFF)], perm := byPrimary, body := devStepConfig }

/-- DEV_STEP_CONFIG (R28, R30, R34, R45, R584). -/
def execDevStepConfig (m : Mbx) (s : State) : Host.Outcome State Fault Refusal := .next (runCmd devStepConfigSpec m s)

/-- A start completes in the reserve of the first step, a stop once no step runs. -/
def devStepRun (c : Cmd) (s : State) : State × Ans :=
  if s.step.active.isNone then refuse stRefusedSchedule s
  else if s.step.run = pBit c 0 0 then (if !s.step.run && s.step.running.isSome then later s else done s)
  else later (setRun (pBit c 0 0) s)

def devStepRunSpec : CmdSpec := { op := 0x0103, allow := [(0, 0, 1)], perm := byPrimary, body := devStepRun }

/-- DEV_STEP_RUN (R584). -/
def execDevStepRun (m : Mbx) (s : State) : Host.Outcome State Fault Refusal := .next (runCmd devStepRunSpec m s)

/-- The host is the time source while the chip has had no RACKREF and has no fabric peer (R26). -/
def hostKeepsTime (s : State) : Bool := !s.step.rackrefEver && !(List.range 12).any fun n => decide ((port s n).state = 3)

def devTimeSet (c : Cmd) (s : State) : State × Ans :=
  if !hostKeepsTime s then refuse stNotPermitted s
  else done (setRack (pNum c 0 8) (modFab (fun f => { f with slewRest := 0 }) s))

def devTimeSetSpec : CmdSpec := { op := 0x0104, allow := [(0, 7, 0xFF)], perm := byPrimary, body := devTimeSet }

/-- DEV_TIME_SET (R24, R26, R584). -/
def execDevTimeSet (m : Mbx) (s : State) : Host.Outcome State Fault Refusal := .next (runCmd devTimeSetSpec m s)

def devClock (c : Cmd) (s : State) : State × Ans :=
  if 10 < pByte c 0 then refuse stBadCommand s
  else if stepping s then later (setSpread (pByte c 0) s) else done (setSpread (pByte c 0) s)

def devClockSpec : CmdSpec := { op := 0x0105, allow := [(0, 0, 0xFF)], perm := byPrimary, body := devClock }

/-- DEV_CLOCK (R20, R584, R691). -/
def execDevClock (m : Mbx) (s : State) : Host.Outcome State Fault Refusal := .next (runCmd devClockSpec m s)

/-! ### RACKREF and RACKSYNC (R23, R25, R689) -/

/-- The distance of two rack times. -/
def timeGap (a b : Nat) : Nat := max a b - min a b

/-- RACKSYNC_EDGE (R23, R25, R689). -/
def execRacksyncEdge (s : State) : Host.Outcome State Fault Refusal :=
  .next (if !dieOn s || s.step.lastSync.any fun l => decide (s.now < l + 500000000) then s else
    let old := rack s
    let new := s.step.syncLoad
    let s := modFab (fun f => { f with slewRest := 0 }) (setRack new (modStep (fun x => { x with lastSync := some s.now }) s))
    let s := onlyIf (decide (20 < timeGap old new)) (raiseTo evTimeCorrected 0xFF [.pfs] (leBytes 8 old ++ leBytes 8 new)) s
    if !s.step.rackref then s
    else if s.step.holdover then raiseTo evTimeLocked 0xFF [.pfs] [] (modStep (fun x => { x with timeLocked := true, holdover := false }) s)
    else modStep (fun x => { x with timeLocked := true }) s)

/-- RACKREF_LOSS (R25): no edge for 10 µs. -/
def execRackrefLoss (s : State) : Host.Outcome State Fault Refusal :=
  .next (
    let locked := !s.step.holdover
    let s := modStep (fun x => { x with rackref := false, holdover := true, timeLocked := false }) s
    onlyIf (locked && dieOn s) (raiseTo evTimeUnlocked 0xFF [.pfs] []) s)

/-- RACKREF_ARRIVAL (R25): RACKREF is there; the next RACKSYNC pulse locks to it. -/
def execRackrefArrival (s : State) : Host.Outcome State Fault Refusal :=
  .next (modStep (fun x => { x with rackref := true, rackrefEver := true }) s)

end Sys2Proof.Machine
end

