-- ==== Sys2Proof/Machine/RegWrite.lean ====
section
/-! DEFINITION. Register writes: which fields a write sets, in chip control space and in BAR0, and the PF debug window (R6, R18, and the register tables of the chapters; R585, R586). Readings: log entry 42. -/
namespace Sys2Proof.Machine

/-! ### How a write reaches a register (R6) -/

/-- What a write does to entry i of a row: the register's value with the written bytes replaced, and the written bits alone, for fields that are write-1-to-clear or write-only. -/
abbrev Put := Nat → Nat → Nat → State → State

/-- Bytes `o` to `o + n - 1` of a register replaced. -/
def mergeBytes (old o n v : Nat) : Nat := old - bits old (8 * o) (8 * n) * 2 ^ (8 * o) + v % 2 ^ (8 * n) * 2 ^ (8 * o)

/-- Write up to `width` bytes into the register at an offset: how many bytes it took, and the effect. A row without a `Put` is read-only. `org` is where the table starts in control space, or beyond it for BAR0. -/
def putOne (org : Nat) (rows : List RegRow) (puts : List (Nat × Put)) (off width v : Nat) (s : State) : Nat × State :=
  match rows.findSome? fun r => (r.entry off).map fun i => (r, i) with
  | none => (width, s)
  | some (r, i) =>
    let o := (off - r.base) % r.stride
    let n := min width (r.bytes - o)
    match puts.find? fun p => p.1 == r.base with
    | some p =>
      let x := mergeBytes (r.val i) o n v
      let s := p.2 i x (v % 2 ^ (8 * n) * 2 ^ (8 * o)) s
      (n, match keptOf (org / 0x100000) r.base with
        | some k => keepFields (org + r.base + r.stride * i) x k s
        | none => s)
    | none => (n, s)

/-- An access is 4 or 8 bytes, at a multiple of its width; any other does nothing (log entry 42). -/
def accessOk (off width : Nat) : Bool := (width == 4 || width == 8) && off % width == 0

/-! ### Clock and step, sequencer (R43, R280) -/

def stepPuts : List (Nat × Put) :=
  [(0x000, fun _ n w s =>
      let s := modStep (fun t => { t with overrunLimit := bits n 8 8, lateEvents := bit n 2 }) s
      setRun (bit n 0) (onlyIf (bit w 1) commitRegs s)),
   (0x008, fun _ n _ => modStep fun t => { t with periodNs := n }),
   (0x010, fun _ n _ => modStep fun t => { t with origin := n }),
   (0x020, fun _ n _ => modStep fun t => { t with syncLoad := n }),
   (0x040, fun _ n _ => setSpread (bits n 0 4)),
   (0x100, fun i n _ => modStep fun t => { t with segRegs := Tbl.set 0 t.segRegs i (n - bits n 36 27 * 2 ^ 36) })]

def seqPuts : List (Nat × Put) :=
  [(0x008, fun _ n w s =>
      let s := setHalt (bit n 0) s
      onlyIf (bit w 1 && s.seq.halt && mayIssue s) (issueNow []) s)]

/-! ### Fields, narrow precision, tiers (R128, R157, R158, R185, R235, R328, R329) -/

def brdPuts (f : Nat) : List (Nat × Put) :=
  [(0x008, fun _ _ w => onlyIf (bit w 31) (modFld f fun x => { x with brdFaultValid := false }))]

def accPuts (f : Nat) : List (Nat × Put) :=
  [(0x008, fun _ _ w => onlyIf (bit w 31) (modFld f fun x => { x with accFaultValid := false })),
   (0x01C, fun _ n _ => modFld f fun x => { x with debugHalf := bit n 0 })]

/-- Write entry `k` of a list of retired units, the others staying where they are: the units, and their entries. -/
def putRetired (placed xs : List Nat) (k : Nat) (valid : Bool) (v : Nat) : List Nat × List Nat :=
  let es := (retiredEntries placed xs).filter (·.1 != k) ++ (if valid then [(k, v)] else [])
  (es.map Prod.snd, es.map Prod.fst)

/-- The cache banks that SP_CACHE_CFG asks for: in the next reserve while stepping runs, at once while it does not (R212). -/
def putCacheBanks (n : Nat) (s : State) : State :=
  let m := bits n 0 5
  let m := if m = 4 ∨ m = 8 ∨ m = 16 then m else 0
  let s := modSp (fun p => { p with cacheCfg := bits n 0 5 }) s
  if stepping s then modSp (fun p => { p with cachePending := some m }) s else applyCacheBanks m s

/-- SP_RES_RANGE and SP_REGION from their bits; a region's generation stays. -/
def rangeOfNat (n : Nat) : Option ResRange :=
  if bit n 63 then some { valid := true, readOnly := bit n 62, partitions := bits n 32 16, count := bits n 16 16, first := bits n 0 15 } else none

def regionOfNat (old : Option Region) (n : Nat) : Option Region :=
  if bit n 255 then some { gen := (old.map Region.gen).getD 0, partitions := bits n 176 16, length := bits n 64 48, base := bits n 0 48 } else none

def spPuts (f : Nat) : List (Nat × Put) :=
  [(0x008, fun _ n _ => modFld f fun x => { x with patrolEn := bit n 1, autoPwr := bit n 0 }),
   (0x01C, fun _ _ w => onlyIf (bit w 31) (modFld f fun x => { x with eccRecValid := false })),
   (0x100, fun i n _ => modFld f fun x => { x with resRanges := Tbl.set none x.resRanges i (rangeOfNat n) }),
   (0x500, fun k n _ => modFld f fun x =>
      let p := putRetired x.retiredAt x.retired k (bit n 31) (bits n 0 15)
      { x with retired := p.1, retiredAt := p.2 }),
   (0x800, fun _ n w => dbgRowAccess f (n % 2 ^ 31 + bits w 31 1 * 2 ^ 31)),
   (0x900, fun k n _ => modFld f fun x => { x with dbgData := putBytes x.dbgData (4 * k) (leBytes 4 n) }),
   (0x050, fun _ n _ => putCacheBanks n),
   (0x300, fun j n _ => modSp fun p => { p with regions := Tbl.set none p.regions j (regionOfNat (Tbl.get none p.regions j) n) })]

def npPuts : List (Nat × Put) :=
  [(0x008, fun _ _ w => onlyIf (bit w 31) (modNp fun x => { x with recValid := false })),
   (0x180, fun i n _ => modNp fun x =>
      let c : NpPredCfg := { layer := bits n 16 8, auditShift := bits n 12 4, skipCap := bits n 0 9 }
      { x with predCfg := Tbl.set none x.predCfg i (some c) }),
   (0x1000, fun l n _ => modNp fun x =>
      let c : NpLayerCfg := { replayEn := bit n 55, clipThresh := bits n 24 24, nullThresh := bits n 0 24 }
      { x with layerCfg := Tbl.set none x.layerCfg l (some c) }),
   (0x2800, fun l n _ => modNp fun x => { x with layerExp := Tbl.set none x.layerExp l (if bit n 16 then some (bits n 8 8) else none) }),
   (0x2C00, fun _ n _ => modNp fun x => { x with seed := n })]

def tierPuts (t : Nat) : List (Nat × Put) :=
  [(0x008, fun _ n _ => modTier t fun x => { x with mode := bits n 0 2 }),
   (0x020, fun _ _ w => onlyIf (bit w 63) (modTier t fun x => { x with recValid := false })),
   (0x080, fun p n _ => modTier t fun x => { x with credit := Tbl.set 64 x.credit p (bits n 0 7) }),
   (0x100, fun g n _ => modTier t fun x => { x with lock := Tbl.set 0 x.lock g n }),
   (0x10000, fun k n _ => modTier t fun x =>
      let p := putRetired x.retiredAt x.retired k (bit n 63) (bits n 0 24)
      { x with retired := p.1, retiredAt := p.2 })]

def strPuts : List (Nat × Put) :=
  [(0x008, fun _ _ w => onlyIf (bit w 63) (modStr fun x => { x with faultValid := false }))]

/-! ### Synchronisation and fabric (R493, R541) -/

/-- A window's fields from its register; its generation and counts stay. -/
def winOfNat (old : Option Win) (n : Nat) : Win :=
  { opened := bit n 127, fwOwned := bit n 126, partition := bits n 120 4, anySender := bit n 119, sender := bits n 104 12, gen := (old.map Win.gen).getD 0,
    length := bits n 48 40, base := bits n 0 48, inUse := bit n 127 || old.any Win.inUse, closedAt := old.bind Win.closedAt,
    dropped := (old.map Win.dropped).getD 0, arrivals := (old.map Win.arrivals).getD 0 }

def outOfNat (n : Nat) : Option OutBind :=
  if bit n 63 then some
    { stale := bit n 62, chip := bits n 50 12, window := bits n 42 8, gen := bits n 26 16, partition := bits n 22 4, fwOwned := bit n 21 }
  else none

/-- A participant slot as its register sets it. -/
def pslotOfNat (n : Nat) (p : PSlot) : PSlot := { p with kind := bits n 28 3, chip := bits n 0 12 }

/-- A barrier's fields from its register; what runs at it stays, and it has as many slots as it has participants, new ones as their registers hold them. -/
def barOfNat (shadow : Tbl Nat) (old : Option Barrier) (epoch n : Nat) : Option Barrier :=
  let ss := (old.map Barrier.slots).getD []
  let k := bits n 47 11
  if bit n 63 then some
    { proxy := bit n 127, homeChip := bits n 115 12, homeBar := bits n 105 10, partIndex := bits n 95 10, broken := old.any Barrier.broken,
      partition := bits n 58 4, slots := (ss ++ (List.range (k - ss.length)).map fun i =>
        pslotOfNat (Tbl.get 0 shadow (pslotOff (bits n 31 16 + ss.length + i))) (PSlot.mk 0 0 false false)).take k,
      slotBase := bits n 31 16, epoch := (old.map Barrier.epoch).getD epoch, gen := (old.map Barrier.gen).getD 0,
      waiters := (old.map Barrier.waiters).getD [], outstanding := (old.map Barrier.outstanding).getD 0 }
  else none

/-- Participant slot `i`, of the barrier whose slots take it in. -/
def putPslot (i n : Nat) (b : Barrier) : Barrier :=
  if b.slotBase ≤ i then
    { b with slots := b.slots.modify (i - b.slotBase) (pslotOfNat n) }
  else b

/-- HCH_PSLOT: the slot of a barrier, whose valid bit stays beside it, or a slot that no barrier takes in. -/
def writePslot (i n : Nat) (s : State) : State :=
  let held := s.hch.bars.any fun x => x.2.any fun b => decide (b.slotBase ≤ i) && decide (i < b.slotBase + b.slots.length)
  let kept := if held then (if bit n 31 then 0 else 2 ^ 32) else n &&& 0xF0000FFF
  modHch (fun x => { x with bars := x.bars.map fun b => (b.1, b.2.map (putPslot i n)) }) { s with shadow := Tbl.set 0 s.shadow (pslotOff i) kept }

def hchPuts : List (Nat × Put) :=
  [(0x008, fun _ _ w => onlyIf (bit w 63) (modHch fun x => { x with faultValid := false })),
   (0x10000, fun i n _ => modHch fun x => { x with wins := Tbl.set none x.wins i (some (winOfNat (Tbl.get none x.wins i) n)) }),
   (0x14000, fun i n _ => modHch fun x => { x with outs := Tbl.set none x.outs i (outOfNat n) }),
   (0x20000, fun i n _ s => modHch (fun x => { x with bars := Tbl.set none x.bars i (barOfNat s.shadow (Tbl.get none x.bars i) (Tbl.get 0 x.barEpoch i) n) }) s),
   (0x40000, fun i n _ => writePslot i n),
   (0x80000, fun h n _ s => setTarget h (bits n 32 32) (setHitch h (bits n 0 32) s))]

/-- A route entry; one whose bits are all zero is no entry. -/
def routeEntry (n : Nat) : Option Route := if routeNat (routeOfNat n) = 0 then none else some (routeOfNat n)

def fabPuts : List (Nat × Put) :=
  [(0x300, fun g n _ s => checkBonds (modFab (fun f => { f with bonds := Tbl.set 0 f.bonds g (bits n 0 12) }) s)),
   (0x800, fun p n _ => modFab fun f => { f with credit := Tbl.set 64 f.credit p (bits n 0 7) }),
   (0x1000, fun k n _ => modFab fun f => { f with inject := Tbl.set none f.inject k (some (injectOfNat n)) }),
   (0x20000, fun c n _ => modFab fun f => { f with stagedRoutes := Tbl.set none f.stagedRoutes c (routeEntry n) })]

/-! ### Partitions, management, errors (R610, R645, R666) -/

/-- The quotas that PRT_QUOTA sets. -/
def quotaOfNat (n : Nat) (x : Part) : Part :=
  { x with t2Limit := bits n 104 24, t1Limit := bits n 60 20, reqLimit := bits n 21 19, resRows := bits n 0 16 }

/-- The read-write fields of PRT_QUOTA. -/
def quotaMask : Nat := at_ 104 0xFFFFFF + at_ 60 0xFFFFF + at_ 21 0x7FFFF + 0xFFFF

/-- PRT_CFG: the partition exists or not, and who its primaries are; a new one has the quotas its register holds. -/
def putPart (p n : Nat) (s : State) : State :=
  let a := if bit n 55 then some (bits n 50 5) else none
  let b := if bit n 49 then some (bits n 44 5) else none
  let old := (part? s p).getD <| quotaOfNat (Tbl.get 0 s.shadow (quotaOff p))
    { draining := false, drainFuncs := [], resetPend := none, primA := none, primB := none, t1Limit := 0, t2Limit := 0, t1Used := 0, t2Used := 0,
      reqLimit := 0, resRows := 0 }
  modPart (fun x => { x with parts := Tbl.set none x.parts p (if bit n 63 then some { old with primA := a, primB := b } else none) }) s

def prtPuts : List (Nat × Put) :=
  [(0x100, fun p n _ => putPart p n),
   (0x200, fun f n _ => modPart fun x => { x with funcs := Tbl.set none x.funcs f (if bit n 31 then some (bits n 16 4, bit n 30) else none) }),
   (0x300, fun p n _ s => if (part? s p).isSome then modPartn p (quotaOfNat n) s
      else { s with shadow := Tbl.set 0 s.shadow (quotaOff p) (n &&& quotaMask) })]

def mgtPuts : List (Nat × Put) :=
  [(0x01C, fun _ n _ => modIsl fun i => { i with cap := bits n 0 10 }),
   (0x020, fun _ _ w => modIsl fun i => { i with alert := i.alert - (i.alert &&& w) })]

def errPuts : List (Nat × Put) :=
  [(0x008, fun _ n _ => modErr fun e => { e with hangMs := bits n 0 16 })]

/-! ### BAR0 (R578, R585) -/

/-- A ring's base address: a ring in use keeps it. -/
def setBase (f k : Nat) (g : Ring → Ring) (s : State) : State := if (ring s f k).enable then s else modRing f k g s

/-- A ring's control register. -/
def setRingCtrl (f k n : Nat) (s : State) : State :=
  if bit n 31 then enableRing f k n s else modRing f k (ringCtrl n) (disableRing f k s)

/-- An entry of the MSI-X table. -/
def msixOfNat (n : Nat) : Msix := { addr := bits n 0 64, data := bits n 64 32, masked := bit n 96 }

def bar0Puts (f : Nat) : List (Nat × Put) :=
  [(0x0040, fun _ n _ => modFunc f fun x => { x with mirrorSel := bits n 0 12 }),
   (0x0044, fun _ n _ => onlyIf (f % 32 == 0) (modFunc f fun x => { x with dbgSel := bits n 0 11 })),
   (0x2000, fun q n _ => setBase f q fun r => { r with sqBase := n - n % 4096 }),
   (0x2008, fun q n _ => setBase f q fun r => { r with cqBase := n - n % 4096 }),
   (0x2010, fun q n _ => setRingCtrl f q n),
   (0x4000, fun v n _ => setMsix f v (msixOfNat n)),
   (0x8000, fun _ n _ => setBase f 16 fun r => { r with sqBase := n - n % 4096 }),
   (0x8008, fun _ n _ => setRingCtrl f 16 n),
   (0x1000, fun q n _ => ringSq f q (bits n 0 12)),
   (0x1004, fun q n _ => ringCq f q (bits n 0 12)),
   (0x1080, fun _ n _ => ringEq f (bits n 0 12))]

/-! ### Chip control space -/

/-- What a write to an offset of control space sets. -/
def ctlPuts (off : Nat) : List (Nat × Put) :=
  let f := off % 0x100000 / 0x10000
  match off / 0x100000 with
  | 0x00 => stepPuts
  | 0x01 => seqPuts
  | 0x02 => brdPuts f
  | 0x03 => accPuts f
  | 0x04 => npPuts
  | 0x05 => spPuts f
  | 0x06 => strPuts
  | 0x07 => tierPuts 0
  | 0x08 => tierPuts 1
  | 0x0B => hchPuts
  | 0x0C => fabPuts
  | 0x0D => match Config.hifPlace (off % 0x100000) with
    | some (g, _) => bar0Puts (g % 64)
    | none => []
  | 0x0E => prtPuts
  | 0x0F => mgtPuts
  | 0x10 => errPuts
  | _ => []

/-- A write to control space: the register there, and what an 8-byte write reaches beyond a 32-bit register. -/
def ctlWrite (off width v : Nat) (s : State) : State :=
  if !accessOk off width then s else
  let put := fun off width v s =>
    let r := ctlRows s off
    putOne (off - r.2) r.1 (ctlPuts off) r.2 width v s
  let a := put off width v s
  if width ≤ a.1 then a.2 else (put (off + a.1) (width - a.1) (v / 2 ^ (8 * a.1)) a.2).2

/-- Control space that answers: the island's block always, the rest while the die runs. -/
def ctlOn (s : State) (off : Nat) : Bool := dieOn s || (off / 0x100000 == 0x0F && decide (3 ≤ s.pwr.phase))

/-! ### Accesses to BAR0 (R578, R585, R586) -/

/-- Stands for a place outside control space. -/
def bar0Org : Nat := 0xFFF00000

/-- A function answers its host: its port's link is up and it is there. -/
def funcAnswers (s : State) (f : Nat) : Bool := decide (f < 64) && (hostPort s (f / 32)).linkUp && funcPresent s f

/-- The PF debug window is open to a function (R586). -/
def windowOpen (s : State) (f : Nat) : Bool := f % 32 == 0 && debugOpen s

/-- The offset in control space that a debug-window offset shows. -/
def debugOff (s : State) (f off : Nat) : Nat := (func s f).dbgSel * 0x20000 + off

/-- A write to BAR0: registers, and the debug window where it is open; the mirror is read-only. -/
def bar0Write (f off width v : Nat) (s : State) : State :=
  if !funcAnswers s f || !accessOk off width then s
  else if off < 0x10000 then
    let a := putOne bar0Org (bar0All s f) (bar0Puts f) off width v s
    if width ≤ a.1 then a.2 else (putOne bar0Org (bar0All a.2 f) (bar0Puts f) (off + a.1) (width - a.1) (v / 2 ^ (8 * a.1)) a.2).2
  else if 0x20000 ≤ off ∧ off < 0x40000 ∧ windowOpen s f then ctlWrite (debugOff s f (off - 0x20000)) width v s
  else s

/-- REGISTER_WRITE (R6, R18). -/
def execRegisterWrite (t : RegTarget) (off width value : Nat) (s : State) : Host.Outcome State Fault Refusal :=
  .next (match t with
    | .bar0 f => bar0Write f off width value s
    | .control => onlyIf (ctlOn s off) (ctlWrite off width value) s)

/-- PF_DEBUG_WINDOW_ACCESS (R586): full read and write access to the selected page; closed, it reads as zero and ignores writes. -/
def execPfDebugWindowAccess (f off width : Nat) (write : Option Nat) (s : State) : Host.Outcome State Fault Refusal :=
  .next (if !funcAnswers s f || f % 32 != 0 || !accessOk off width || decide (0x20000 ≤ off) then s else
    match write with
    | some v => onlyIf (windowOpen s f) (ctlWrite (debugOff s f off) width v) s
    | none => emit (.reg f (0x20000 + off) (if windowOpen s f then ctlRead s (debugOff s f off) width else 0)) s)

end Sys2Proof.Machine
end

