-- ==== Sys2Proof/Machine/Mailbox.lean ====
section
/-! DEFINITION. FAB_QUERY, and how firmware reads a command from its queue (13_fabric.md, R540; 14_host_ports_and_mailbox.md, R561, R562, R565, R567, R569). -/
namespace Sys2Proof.Machine

/-! ### FAB_QUERY (R540, R541) -/

/-- The first 64 KiB of the fabric block, which end where the route tables begin (log entry 11). -/
def fabImage (s : State) : List Byte := (List.range 16384).flatMap fun i => leBytes 4 (regWordOf (fabRows s) (4 * i))

def fabQuery (c : Cmd) (s : State) : State × Ans := intoHost c (pNum c 8 8) 65536 (fabImage s) s

def fabQuerySpec : CmdSpec := { op := 0x0730, allow := [(8, 15, 0xFF)], perm := byAny, body := fabQuery }

/-- FAB_QUERY (R540). -/
def execFabQuery (m : Mbx) (s : State) : Host.Outcome State Fault Refusal := .next (runCmd fabQuerySpec m s)

/-! ### COMMAND_READ -/

/-- Every mailbox command, by opcode. -/
def mailboxSpecs : List CmdSpec :=
  [devIdentifySpec, devStepConfigSpec, devStepRunSpec, devTimeSetSpec, devClockSpec, devPrimarySpec, devEventMaskSpec, devNopSpec, devBar2MapSpec,
   partCreateSpec, partDestroySpec, partFuncSpec, partQosSpec, partResetSpec, partResumeSpec, partQuerySpec, modelLoadSpec, modelUnloadSpec,
   modelReloadSpec, modelSwapSpec, modelSwapResumeSpec, modelSwapRevertSpec, modelUpdateSpec, modelCheckpointSpec, modelQuerySpec, npConfigSpec,
   progLoadSpec, progActivateSpec, progUnloadSpec, progGetReportSpec, progSetCountsSpec, progDeactivateSpec, srvConfigSpec, srvClassSpec,
   srvSubmitSpec, srvCancelSpec, srvParkSpec, srvPrefixCreateSpec, srvPrefixReleaseSpec, srvQuerySpec, memCopySpec, memRetireSpec, memRetireReadSpec,
   memT3MapSpec, memT3UnmapSpec, memModeSpec, memLockSpec, spCacheConfigSpec, spRetireRowSpec, kvPoolConfigSpec, kvSeqQuerySpec, kvPoolStatusSpec,
   kvDropSpec, fabRouteLoadSpec, fabBondSpec, fabPortCtrlSpec, fabTimeCfgSpec, knotLoadSpec, knotUnloadSpec, knotAbortSpec, fabInjectSpec,
   fabQuerySpec, hitchConfigSpec, hitchReadSpec, hitchSetSpec, winOpenSpec, winCloseSpec, winBindSpec, barConfigSpec, barFreeSpec, barForceSpec,
   secIdentitySpec, secAttestSpec, secChallengeSpec, secLcStatusSpec, secLcTransitionSpec, secOwnerKeysSpec, secTokenSpec, secFwUpdateSpec,
   secFwActivateSpec, secSvnCommitSpec, secPowerCfgSpec, errCounterClearSpec, errLogReadSpec, errHangReadSpec, errHangCaptureSpec, errCfgSetSpec]

/-- The command of an opcode. -/
def specOf (op : Nat) : Option CmdSpec := mailboxSpecs.find? fun x => x.op == op

/-- A descriptor as a command of a queue (R567). -/
def descMbx (f q : Nat) (d : List Byte) (host : HostRead) : Mbx :=
  { func := f, queue := q, tag := leAt d 2 2, cookie := leAt d 8 8, fence := bit (leAt d 4 1) 0, params := sliceBytes d 16 48, host := host }

/-- The first byte of bytes 4 to 7 with a reserved bit set (R567). -/
def descReserved (d : List Byte) : Option Nat := ([(4, 0xFE), (5, 0xFF), (6, 0xFF), (7, 0xFF)].find? fun x => leAt d x.1 1 &&& x.2 != 0).map Prod.fst

/-- A command that fails before its own meaning is reached. -/
def failCmd (m : Mbx) (detail : Nat) (s : State) : State :=
  let c := newCmd s 0 m
  complete c stBadCommand detail [] (takeCmd c s)

/-- Start the command of a descriptor. -/
def startDesc (f q : Nat) (d : List Byte) (host : HostRead) (s : State) : State :=
  let m := descMbx f q d host
  match specOf (leAt d 0 2), descReserved d with
  | none, _ => failCmd m 0x8000 s
  | some _, some i => failCmd m (0x8000 + i) s
  | some sp, none => runCmd sp m s

/-- A queue holds a command that firmware may read. -/
def mayRead (s : State) (f q : Nat) : Bool :=
  decide (f < 64) && decide (q < 16) && enabled s f && (ring s f q).live && (ring s f q).head != (ring s f q).sqTail

/-- Firmware starts the command of a descriptor now: the queue allows it, and a window it opens was not closed less than 20 µs ago (R478, R561). -/
def mayStart (d : List Byte) (m : Mbx) (s : State) : Bool := canStart s m && !(leAt d 0 2 == 0x0810 && winSoon m s)

/-- COMMAND_READ (R561, R562, R565, R567, R569): the descriptor at the head of a queue, as host memory holds it, is checked and started; a failed read of the ring stops the queue. -/
def execCommandRead (f q : Nat) (desc host : HostRead) (s : State) : Host.Outcome State Fault Refusal :=
  .next (if !mayRead s f q then s else
    match desc with
    | .ok d =>
      let d := padTo 64 d
      if !mayStart d (descMbx f q d host) s then s
      else startDesc f q d host (modRing f q (fun r => { r with head := (r.head + 1) % r.size }) s)
    | _ => queueError f q 3 s)

end Sys2Proof.Machine
end

