-- ==== Sys2Proof/Machine/Dispatch.lean ====
section
/-! DEFINITION. One arm per command, each a call of its meaning. -/
namespace Sys2Proof.Machine

def exec (i : Instr) (s : State) : Host.Outcome State Fault Refusal :=
  match i with
  | .stepTick => Sys2Proof.Machine.execStepTick s
  | .routeApplyUnstepped => Sys2Proof.Machine.execRouteApplyUnstepped s
  | .segmentStart => Sys2Proof.Machine.execSegmentStart s
  | .programEnd => Sys2Proof.Machine.execProgramEnd s
  | .racksyncEdge => Sys2Proof.Machine.execRacksyncEdge s
  | .rackrefLoss => Sys2Proof.Machine.execRackrefLoss s
  | .stepCommit => Sys2Proof.Machine.execStepCommit s
  | .stepRunControl run => Sys2Proof.Machine.execStepRunControl run s
  | .bundleIssue ecc => Sys2Proof.Machine.execBundleIssue ecc s
  | .horizon => Sys2Proof.Machine.execHorizon s
  | .blockedAccessRetry ecc => Sys2Proof.Machine.execBlockedAccessRetry ecc s
  | .hitchWaitProceed => Sys2Proof.Machine.execHitchWaitProceed s
  | .seqHalt halt => Sys2Proof.Machine.execSeqHalt halt s
  | .seqSingleStep => Sys2Proof.Machine.execSeqSingleStep s
  | .spDebugAccess field access => Sys2Proof.Machine.execSpDebugAccess field access s
  | .scratchpadPatrol ecc => Sys2Proof.Machine.execScratchpadPatrol ecc s
  | .ccInsWrite field row => Sys2Proof.Machine.execCcInsWrite field row s
  | .cacheFill region line => Sys2Proof.Machine.execCacheFill region line s
  | .streamChainStart engine => Sys2Proof.Machine.execStreamChainStart engine s
  | .streamCopy engine found => Sys2Proof.Machine.execStreamCopy engine found s
  | .expandTile engine found => Sys2Proof.Machine.execExpandTile engine found s
  | .packT5p engine found => Sys2Proof.Machine.execPackT5p engine found s
  | .quant engine found => Sys2Proof.Machine.execQuant engine found s
  | .narrow engine found => Sys2Proof.Machine.execNarrow engine found s
  | .widen engine found => Sys2Proof.Machine.execWiden engine found s
  | .mxIn engine found => Sys2Proof.Machine.execMxIn engine found s
  | .frcEnc engine found => Sys2Proof.Machine.execFrcEnc engine found s
  | .frcDec engine found => Sys2Proof.Machine.execFrcDec engine found s
  | .plane engine found => Sys2Proof.Machine.execPlane engine found s
  | .fill engine found => Sys2Proof.Machine.execFill engine found s
  | .descriptorComplete engine => Sys2Proof.Machine.execDescriptorComplete engine s
  | .descriptorFail engine status => Sys2Proof.Machine.execDescriptorFail engine status s
  | .tierReadRetry tier block clean => Sys2Proof.Machine.execTierReadRetry tier block clean s
  | .wcbLineWrite tier line => Sys2Proof.Machine.execWcbLineWrite tier line s
  | .tierPatrol tier block corrected => Sys2Proof.Machine.execTierPatrol tier block corrected s
  | .bar2Read func off read => Sys2Proof.Machine.execBar2Read func off read s
  | .bar2Write func off data => Sys2Proof.Machine.execBar2Write func off data s
  | .shardArrived handle shard data => Sys2Proof.Machine.execShardArrived handle shard data s
  | .shardTransferFail handle shard status => Sys2Proof.Machine.execShardTransferFail handle shard status s
  | .modelDeadlineExpiry handle => Sys2Proof.Machine.execModelDeadlineExpiry handle s
  | .layerStaged handle layer => Sys2Proof.Machine.execLayerStaged handle layer s
  | .cowCopyComplete slot => Sys2Proof.Machine.execCowCopyComplete slot s
  | .granuleZeroComplete tier granule => Sys2Proof.Machine.execGranuleZeroComplete tier granule s
  | .inputCopyComplete slot data => Sys2Proof.Machine.execInputCopyComplete slot data s
  | .batchCutoff part => Sys2Proof.Machine.execBatchCutoff part s
  | .batchFinalise part => Sys2Proof.Machine.execBatchFinalise part s
  | .outputDelivery slot => Sys2Proof.Machine.execOutputDelivery slot s
  | .parkMoveComplete slot => Sys2Proof.Machine.execParkMoveComplete slot s
  | .unparkComplete slot data => Sys2Proof.Machine.execUnparkComplete slot data s
  | .parkExpiry slot => Sys2Proof.Machine.execParkExpiry slot s
  | .gatherWave => Sys2Proof.Machine.execGatherWave s
  | .bagPool bag => Sys2Proof.Machine.execBagPool bag s
  | .writePacketReceived port p => Sys2Proof.Machine.execWritePacketReceived port p s
  | .remoteTransferComplete chip tag => Sys2Proof.Machine.execRemoteTransferComplete chip tag s
  | .transferAbandon chip tag => Sys2Proof.Machine.execTransferAbandon chip tag s
  | .doneReceived p => Sys2Proof.Machine.execDoneReceived p s
  | .nakReceived p => Sys2Proof.Machine.execNakReceived p s
  | .busyResend tag => Sys2Proof.Machine.execBusyResend tag s
  | .senderTimeout tag => Sys2Proof.Machine.execSenderTimeout tag s
  | .routerForward port p => Sys2Proof.Machine.execRouterForward port p s
  | .barEntryReceived p => Sys2Proof.Machine.execBarEntryReceived p s
  | .barReleaseReceived p => Sys2Proof.Machine.execBarReleaseReceived p s
  | .flitCrcError port => Sys2Proof.Machine.execFlitCrcError port s
  | .portRetrain port => Sys2Proof.Machine.execPortRetrain port s
  | .laneTrainingDone port ok lanes => Sys2Proof.Machine.execLaneTrainingDone port ok lanes s
  | .linkIdSend port => Sys2Proof.Machine.execLinkIdSend port s
  | .linkIdReceived port p => Sys2Proof.Machine.execLinkIdReceived port p s
  | .heartbeatSend => Sys2Proof.Machine.execHeartbeatSend s
  | .heartbeatReceived p => Sys2Proof.Machine.execHeartbeatReceived p s
  | .heartbeatTimeout chip => Sys2Proof.Machine.execHeartbeatTimeout chip s
  | .leaveReceived p => Sys2Proof.Machine.execLeaveReceived p s
  | .timeExchangeSend port => Sys2Proof.Machine.execTimeExchangeSend port s
  | .timeReceived port p => Sys2Proof.Machine.execTimeReceived port p s
  | .fabricIdentityAssign rack sled slot chip systemId => Sys2Proof.Machine.execFabricIdentityAssign rack sled slot chip systemId s
  | .knotSend engine src => Sys2Proof.Machine.execKnotSend engine src s
  | .knotCombine engine src dst => Sys2Proof.Machine.execKnotCombine engine src dst s
  | .knotCopy engine src => Sys2Proof.Machine.execKnotCopy engine src s
  | .knotWait engine => Sys2Proof.Machine.execKnotWait engine s
  | .knotInc engine => Sys2Proof.Machine.execKnotInc engine s
  | .knotBarrier engine => Sys2Proof.Machine.execKnotBarrier engine s
  | .knotSetreg engine => Sys2Proof.Machine.execKnotSetreg engine s
  | .knotAdvreg engine => Sys2Proof.Machine.execKnotAdvreg engine s
  | .knotLoop engine => Sys2Proof.Machine.execKnotLoop engine s
  | .knotEnd engine => Sys2Proof.Machine.execKnotEnd engine s
  | .sqDoorbell func queue tail => Sys2Proof.Machine.execSqDoorbell func queue tail s
  | .cqDoorbell func queue head => Sys2Proof.Machine.execCqDoorbell func queue head s
  | .eqDoorbell func head => Sys2Proof.Machine.execEqDoorbell func head s
  | .queueEnable func queue ctrl => Sys2Proof.Machine.execQueueEnable func queue ctrl s
  | .queueDisable func queue => Sys2Proof.Machine.execQueueDisable func queue s
  | .eventRingEnable func ctrl => Sys2Proof.Machine.execEventRingEnable func ctrl s
  | .commandRead func queue desc host => Sys2Proof.Machine.execCommandRead func queue desc host s
  | .interruptCoalesceTimer func ring => Sys2Proof.Machine.execInterruptCoalesceTimer func ring s
  | .msixVectorUnmask func vector => Sys2Proof.Machine.execMsixVectorUnmask func vector s
  | .pfDebugWindowAccess func off width write => Sys2Proof.Machine.execPfDebugWindowAccess func off width write s
  | .configRequest func req => Sys2Proof.Machine.execConfigRequest func req s
  | .atsInvalidation port base len => Sys2Proof.Machine.execAtsInvalidation port base len s
  | .functionDisable func cause => Sys2Proof.Machine.execFunctionDisable func cause s
  | .functionLevelReset func => Sys2Proof.Machine.execFunctionLevelReset func s
  | .pcieLinkUp port => Sys2Proof.Machine.execPcieLinkUp port s
  | .pcieLinkDown port => Sys2Proof.Machine.execPcieLinkDown port s
  | .perstAssert port => Sys2Proof.Machine.execPerstAssert port s
  | .perstDeassert port => Sys2Proof.Machine.execPerstDeassert port s
  | .primaryRoleTimeout => Sys2Proof.Machine.execPrimaryRoleTimeout s
  | .devIdentify m => Sys2Proof.Machine.execDevIdentify m s
  | .devStepConfig m => Sys2Proof.Machine.execDevStepConfig m s
  | .devStepRun m => Sys2Proof.Machine.execDevStepRun m s
  | .devTimeSet m => Sys2Proof.Machine.execDevTimeSet m s
  | .devClock m => Sys2Proof.Machine.execDevClock m s
  | .devPrimary m => Sys2Proof.Machine.execDevPrimary m s
  | .devEventMask m => Sys2Proof.Machine.execDevEventMask m s
  | .devNop m => Sys2Proof.Machine.execDevNop m s
  | .devBar2Map m => Sys2Proof.Machine.execDevBar2Map m s
  | .partCreate m => Sys2Proof.Machine.execPartCreate m s
  | .partDestroy m => Sys2Proof.Machine.execPartDestroy m s
  | .partFunc m => Sys2Proof.Machine.execPartFunc m s
  | .partQos m => Sys2Proof.Machine.execPartQos m s
  | .partReset m => Sys2Proof.Machine.execPartReset m s
  | .partResume m => Sys2Proof.Machine.execPartResume m s
  | .partQuery m => Sys2Proof.Machine.execPartQuery m s
  | .modelLoad m => Sys2Proof.Machine.execModelLoad m s
  | .modelUnload m => Sys2Proof.Machine.execModelUnload m s
  | .modelReloadLayers m => Sys2Proof.Machine.execModelReloadLayers m s
  | .modelSwap m => Sys2Proof.Machine.execModelSwap m s
  | .modelSwapResume m => Sys2Proof.Machine.execModelSwapResume m s
  | .modelSwapRevert m => Sys2Proof.Machine.execModelSwapRevert m s
  | .modelUpdate m => Sys2Proof.Machine.execModelUpdate m s
  | .modelCheckpoint m => Sys2Proof.Machine.execModelCheckpoint m s
  | .modelQuery m => Sys2Proof.Machine.execModelQuery m s
  | .npConfig m => Sys2Proof.Machine.execNpConfig m s
  | .progLoad m => Sys2Proof.Machine.execProgLoad m s
  | .progActivate m => Sys2Proof.Machine.execProgActivate m s
  | .progUnload m => Sys2Proof.Machine.execProgUnload m s
  | .progGetReport m => Sys2Proof.Machine.execProgGetReport m s
  | .progSetCounts m => Sys2Proof.Machine.execProgSetCounts m s
  | .progDeactivate m => Sys2Proof.Machine.execProgDeactivate m s
  | .srvConfig m => Sys2Proof.Machine.execSrvConfig m s
  | .srvClass m => Sys2Proof.Machine.execSrvClass m s
  | .srvSubmit m => Sys2Proof.Machine.execSrvSubmit m s
  | .srvCancel m => Sys2Proof.Machine.execSrvCancel m s
  | .srvPark m => Sys2Proof.Machine.execSrvPark m s
  | .srvPrefixCreate m => Sys2Proof.Machine.execSrvPrefixCreate m s
  | .srvPrefixRelease m => Sys2Proof.Machine.execSrvPrefixRelease m s
  | .srvQuery m => Sys2Proof.Machine.execSrvQuery m s
  | .memCopy m => Sys2Proof.Machine.execMemCopy m s
  | .memRetire m => Sys2Proof.Machine.execMemRetire m s
  | .memRetireRead m => Sys2Proof.Machine.execMemRetireRead m s
  | .memT3Map m => Sys2Proof.Machine.execMemT3Map m s
  | .memT3Unmap m => Sys2Proof.Machine.execMemT3Unmap m s
  | .memMode m => Sys2Proof.Machine.execMemMode m s
  | .memLock m => Sys2Proof.Machine.execMemLock m s
  | .spCacheConfig m => Sys2Proof.Machine.execSpCacheConfig m s
  | .spRetireRow m => Sys2Proof.Machine.execSpRetireRow m s
  | .kvPoolConfig m => Sys2Proof.Machine.execKvPoolConfig m s
  | .kvSeqQuery m => Sys2Proof.Machine.execKvSeqQuery m s
  | .kvPoolStatus m => Sys2Proof.Machine.execKvPoolStatus m s
  | .kvDrop m => Sys2Proof.Machine.execKvDrop m s
  | .fabRouteLoad m => Sys2Proof.Machine.execFabRouteLoad m s
  | .fabBond m => Sys2Proof.Machine.execFabBond m s
  | .fabPortCtrl m => Sys2Proof.Machine.execFabPortCtrl m s
  | .fabTimeCfg m => Sys2Proof.Machine.execFabTimeCfg m s
  | .knotLoad m => Sys2Proof.Machine.execKnotLoad m s
  | .knotUnload m => Sys2Proof.Machine.execKnotUnload m s
  | .knotAbort m => Sys2Proof.Machine.execKnotAbort m s
  | .fabInject m => Sys2Proof.Machine.execFabInject m s
  | .fabQuery m => Sys2Proof.Machine.execFabQuery m s
  | .hitchConfig m => Sys2Proof.Machine.execHitchConfig m s
  | .hitchRead m => Sys2Proof.Machine.execHitchRead m s
  | .hitchSet m => Sys2Proof.Machine.execHitchSet m s
  | .winOpen m => Sys2Proof.Machine.execWinOpen m s
  | .winClose m => Sys2Proof.Machine.execWinClose m s
  | .winBind m => Sys2Proof.Machine.execWinBind m s
  | .barConfig m => Sys2Proof.Machine.execBarConfig m s
  | .barFree m => Sys2Proof.Machine.execBarFree m s
  | .barForce m => Sys2Proof.Machine.execBarForce m s
  | .secIdentity m => Sys2Proof.Machine.execSecIdentity m s
  | .secAttest m => Sys2Proof.Machine.execSecAttest m s
  | .secChallenge m => Sys2Proof.Machine.execSecChallenge m s
  | .secLcStatus m => Sys2Proof.Machine.execSecLcStatus m s
  | .secLcTransition m => Sys2Proof.Machine.execSecLcTransition m s
  | .secOwnerKeys m => Sys2Proof.Machine.execSecOwnerKeys m s
  | .secToken m => Sys2Proof.Machine.execSecToken m s
  | .secFwUpdate m => Sys2Proof.Machine.execSecFwUpdate m s
  | .secFwActivate m => Sys2Proof.Machine.execSecFwActivate m s
  | .secSvnCommit m => Sys2Proof.Machine.execSecSvnCommit m s
  | .secPowerCfg m => Sys2Proof.Machine.execSecPowerCfg m s
  | .errCounterClear m => Sys2Proof.Machine.execErrCounterClear m s
  | .errLogRead m => Sys2Proof.Machine.execErrLogRead m s
  | .errHangRead m => Sys2Proof.Machine.execErrHangRead m s
  | .errHangCapture m => Sys2Proof.Machine.execErrHangCapture m s
  | .errCfgSet m => Sys2Proof.Machine.execErrCfgSet m s
  | .llTelemetry code seq req => Sys2Proof.Machine.execLlTelemetry code seq req s
  | .llPowerOff seq req => Sys2Proof.Machine.execLlPowerOff seq req s
  | .llColdReset seq req => Sys2Proof.Machine.execLlColdReset seq req s
  | .llHangRecord seq req => Sys2Proof.Machine.execLlHangRecord seq req s
  | .llLcStatus seq req => Sys2Proof.Machine.execLlLcStatus seq req s
  | .llHitchSet seq req => Sys2Proof.Machine.execLlHitchSet seq req s
  | .secRequest seq req => Sys2Proof.Machine.execSecRequest seq req s
  | .secRead seq chunk => Sys2Proof.Machine.execSecRead seq chunk s
  | .pldmRequest req => Sys2Proof.Machine.execPldmRequest req s
  | .sensorSample sensor value => Sys2Proof.Machine.execSensorSample sensor value s
  | .gateRecompute watts => Sys2Proof.Machine.execGateRecompute watts s
  | .watchdogRefresh core pc => Sys2Proof.Machine.execWatchdogRefresh core pc s
  | .watchdogExpiry core => Sys2Proof.Machine.execWatchdogExpiry core s
  | .hangStallTimeout => Sys2Proof.Machine.execHangStallTimeout s
  | .tokenExpiry => Sys2Proof.Machine.execTokenExpiry s
  | .returnEraseComplete => Sys2Proof.Machine.execReturnEraseComplete s
  | .vinRise => Sys2Proof.Machine.execVinRise s
  | .islandSupplyGood slotAOk slotBOk => Sys2Proof.Machine.execIslandSupplyGood slotAOk slotBOk s
  | .islandReady mgtAddr => Sys2Proof.Machine.execIslandReady mgtAddr s
  | .pwrEnRise => Sys2Proof.Machine.execPwrEnRise s
  | .railPowerGood => Sys2Proof.Machine.execRailPowerGood s
  | .railGoodTimeout => Sys2Proof.Machine.execRailGoodTimeout s
  | .dieResetRelease => Sys2Proof.Machine.execDieResetRelease s
  | .selfTestComplete failedRows ok avporOk => Sys2Proof.Machine.execSelfTestComplete failedRows ok avporOk s
  | .memoryTrainingComplete t1Ok t2Ok => Sys2Proof.Machine.execMemoryTrainingComplete t1Ok t2Ok s
  | .pwrEnFall => Sys2Proof.Machine.execPwrEnFall s
  | .powerDownComplete => Sys2Proof.Machine.execPowerDownComplete s
  | .powerUpRestart => Sys2Proof.Machine.execPowerUpRestart s
  | .supplyFault kind => Sys2Proof.Machine.execSupplyFault kind s
  | .islandSupplyLoss => Sys2Proof.Machine.execIslandSupplyLoss s
  | .registerWrite target off width value => Sys2Proof.Machine.execRegisterWrite target off width value s
  | .rackrefArrival => Sys2Proof.Machine.execRackrefArrival s
  | .stepConfigTakesEffect => Sys2Proof.Machine.execStepConfigTakesEffect s
  | .verificationComplete handle => Sys2Proof.Machine.execVerificationComplete handle s
  | .supplyStable => Sys2Proof.Machine.execSupplyStable s
  | .lowMarginChange vin => Sys2Proof.Machine.execLowMarginChange vin s

end Sys2Proof.Machine
end

