-- ==== Sys2Proof/WellFormed.lean ====
section
/-! DEFINITION. Which commands are well formed: every number within the range the spec gives what it names. A meaning treats a number out of range as a happening that cannot be (log entry 1). -/
namespace Sys2Proof

/-- A number within a range. -/
def below (x n : Nat) : Bool := decide (x < n)

/-- A descriptor's fields (R547, R558, R567). -/
def Mbx.wf (m : Mbx) : Bool :=
  below m.func 64 && below m.queue 16 && below m.tag 65536 && below m.cookie (2 ^ 64) && m.params.length == 48

/-- A packet's payload is of at most 1,024 bytes (R502, R505). -/
def Packet.wf (p : Packet) : Bool := below p.payload.length 1025

/-- A word of a scratchpad row, or its tag, which is never corrected (R190, R196, R200). -/
def EccHit.wf (e : EccHit) : Bool := below e.field 16 && below e.row 32768 && below e.word 11 && !(e.corrected && e.word == 10)

/-- What the reads of a command meet. -/
def ReadIn.wf (x : ReadIn) : Bool := x.ecc.all EccHit.wf && x.blocks.all fun b => below b.1 2 && below b.2 (if b.1 = 0 then 0x2E800000 else 0x2E8000000)

/-- A debug access (R208, R235). -/
def SpDbgOp.wf : SpDbgOp → Bool
  | .row ctrl => below ctrl (2 ^ 32)
  | .cc kind size key r => below kind 3 && (size == 4 || size == 8) && below key (2 ^ (8 * size)) && below r 32768

/-- A configuration request (R548, R549). -/
def CfgReq.wf : CfgReq → Bool
  | .readOther reg => below reg 4096
  | .setVf _ numVfs => below numVfs 32
  | _ => true

/-- Where a register write lands. -/
def RegTarget.wf : RegTarget → Bool
  | .bar0 func => below func 64
  | .control => true

/-- A PLDM message (R613, R619). -/
def PldmReq.wf : PldmReq → Bool
  | .readSensor sensor => below sensor 26
  | .setThreshold sensor _ => below sensor 24
  | .setCap watts => below watts 65536
  | _ => true

/-- The command is well formed. -/
def Instr.wf : Instr → Bool
  | .stepTick => true
  | .routeApplyUnstepped => true
  | .segmentStart => true
  | .programEnd => true
  | .racksyncEdge => true
  | .rackrefLoss => true
  | .stepCommit => true
  | .stepRunControl _ => true
  | .bundleIssue ecc => ecc.all EccHit.wf
  | .horizon => true
  | .blockedAccessRetry ecc => ecc.all EccHit.wf
  | .hitchWaitProceed => true
  | .seqHalt _ => true
  | .seqSingleStep => true
  | .spDebugAccess field access => below field 16 && access.op.wf && access.ecc.all EccHit.wf
  | .scratchpadPatrol ecc => ecc.wf
  | .ccInsWrite field row => below field 16 && below row 32768
  | .cacheFill region line => below region 16 && below line (2 ^ 39)
  | .streamChainStart engine => below engine 32
  | .streamCopy engine found => below engine 32 && found.wf
  | .expandTile engine found => below engine 32 && found.wf
  | .packT5p engine found => below engine 32 && found.wf
  | .quant engine found => below engine 32 && found.wf
  | .narrow engine found => below engine 32 && found.wf
  | .widen engine found => below engine 32 && found.wf
  | .mxIn engine found => below engine 32 && found.wf
  | .frcEnc engine found => below engine 32 && found.wf
  | .frcDec engine found => below engine 32 && found.wf
  | .plane engine found => below engine 32 && found.wf
  | .fill engine found => below engine 32 && found.wf
  | .descriptorComplete engine => below engine 32
  | .descriptorFail engine status => below engine 32 && below status 0x17
  | .tierReadRetry tier block _ => below tier 2 && below block (2 ^ 32)
  | .wcbLineWrite tier _ => below tier 2
  | .tierPatrol tier block _ => below tier 2 && below block (2 ^ 32)
  | .bar2Read func off read => below func 64 && below off 0x1000000000 && below read.len 4097 && read.found.wf
  | .bar2Write func off _ => below func 64 && below off 0x1000000000
  | .shardArrived handle _ _ => below handle 65536
  | .shardTransferFail handle _ status => below handle 65536 && below status 0x17
  | .modelDeadlineExpiry handle => below handle 65536
  | .layerStaged handle _ => below handle 65536
  | .cowCopyComplete slot => below slot 262144
  | .granuleZeroComplete tier _ => below tier 2
  | .inputCopyComplete slot _ => below slot 262144
  | .batchCutoff part => below part 16
  | .batchFinalise part => below part 16
  | .outputDelivery slot => below slot 262144
  | .parkMoveComplete slot => below slot 262144
  | .unparkComplete slot _ => below slot 262144
  | .parkExpiry slot => below slot 262144
  | .gatherWave => true
  | .bagPool _ => true
  | .writePacketReceived port p => below port 12 && p.wf
  | .remoteTransferComplete chip tag => below chip 4096 && below tag 65536
  | .transferAbandon chip tag => below chip 4096 && below tag 65536
  | .doneReceived p => p.wf
  | .nakReceived p => p.wf
  | .busyResend tag => below tag 65536
  | .senderTimeout tag => below tag 65536
  | .routerForward port p => below port 12 && p.wf
  | .barEntryReceived p => p.wf
  | .barReleaseReceived p => p.wf
  | .flitCrcError port => below port 12
  | .portRetrain port => below port 12
  | .laneTrainingDone port _ lanes => below port 12 && below lanes 16
  | .linkIdSend port => below port 12
  | .linkIdReceived port p => below port 12 && p.wf
  | .heartbeatSend => true
  | .heartbeatReceived p => p.wf
  | .heartbeatTimeout chip => below chip 4096
  | .leaveReceived p => p.wf
  | .timeExchangeSend port => below port 12
  | .timeReceived port p => below port 12 && p.wf
  | .fabricIdentityAssign rack sled slot chip systemId => below rack 256 && below sled 64 && below slot 16 && below chip 4096 && below systemId (2 ^ 64)
  | .knotSend engine src => below engine 4 && src.wf
  | .knotCombine engine src dst => below engine 4 && src.wf && dst.wf
  | .knotCopy engine src => below engine 4 && src.wf
  | .knotWait engine => below engine 4
  | .knotInc engine => below engine 4
  | .knotBarrier engine => below engine 4
  | .knotSetreg engine => below engine 4
  | .knotAdvreg engine => below engine 4
  | .knotLoop engine => below engine 4
  | .knotEnd engine => below engine 4
  | .sqDoorbell func queue tail => below func 64 && below queue 16 && below tail 4096
  | .cqDoorbell func queue head => below func 64 && below queue 16 && below head 4096
  | .eqDoorbell func head => below func 64 && below head 4096
  | .queueEnable func queue ctrl => below func 64 && below queue 16 && below ctrl (2 ^ 32)
  | .queueDisable func queue => below func 64 && below queue 16
  | .eventRingEnable func ctrl => below func 64 && below ctrl (2 ^ 32)
  | .commandRead func queue _ _ => below func 64 && below queue 16
  | .interruptCoalesceTimer func ring => below func 64 && below ring 17
  | .msixVectorUnmask func vector => below func 64 && below vector 32
  | .pfDebugWindowAccess func off width _ => below func 64 && below off 0x20000 && (width == 4 || width == 8)
  | .configRequest func req => below func 64 && req.wf
  | .atsInvalidation port base len => below port 2 && below base (2 ^ 64) && below len (2 ^ 64)
  | .functionDisable func _ => below func 64
  | .functionLevelReset func => below func 64
  | .pcieLinkUp port => below port 2
  | .pcieLinkDown port => below port 2
  | .perstAssert port => below port 2
  | .perstDeassert port => below port 2
  | .primaryRoleTimeout => true
  | .devIdentify m => m.wf
  | .devStepConfig m => m.wf
  | .devStepRun m => m.wf
  | .devTimeSet m => m.wf
  | .devClock m => m.wf
  | .devPrimary m => m.wf
  | .devEventMask m => m.wf
  | .devNop m => m.wf
  | .devBar2Map m => m.wf
  | .partCreate m => m.wf
  | .partDestroy m => m.wf
  | .partFunc m => m.wf
  | .partQos m => m.wf
  | .partReset m => m.wf
  | .partResume m => m.wf
  | .partQuery m => m.wf
  | .modelLoad m => m.wf
  | .modelUnload m => m.wf
  | .modelReloadLayers m => m.wf
  | .modelSwap m => m.wf
  | .modelSwapResume m => m.wf
  | .modelSwapRevert m => m.wf
  | .modelUpdate m => m.wf
  | .modelCheckpoint m => m.wf
  | .modelQuery m => m.wf
  | .npConfig m => m.wf
  | .progLoad m => m.wf
  | .progActivate m => m.wf
  | .progUnload m => m.wf
  | .progGetReport m => m.wf
  | .progSetCounts m => m.wf
  | .progDeactivate m => m.wf
  | .srvConfig m => m.wf
  | .srvClass m => m.wf
  | .srvSubmit m => m.wf
  | .srvCancel m => m.wf
  | .srvPark m => m.wf
  | .srvPrefixCreate m => m.wf
  | .srvPrefixRelease m => m.wf
  | .srvQuery m => m.wf
  | .memCopy m => m.wf
  | .memRetire m => m.wf
  | .memRetireRead m => m.wf
  | .memT3Map m => m.wf
  | .memT3Unmap m => m.wf
  | .memMode m => m.wf
  | .memLock m => m.wf
  | .spCacheConfig m => m.wf
  | .spRetireRow m => m.wf
  | .kvPoolConfig m => m.wf
  | .kvSeqQuery m => m.wf
  | .kvPoolStatus m => m.wf
  | .kvDrop m => m.wf
  | .fabRouteLoad m => m.wf
  | .fabBond m => m.wf
  | .fabPortCtrl m => m.wf
  | .fabTimeCfg m => m.wf
  | .knotLoad m => m.wf
  | .knotUnload m => m.wf
  | .knotAbort m => m.wf
  | .fabInject m => m.wf
  | .fabQuery m => m.wf
  | .hitchConfig m => m.wf
  | .hitchRead m => m.wf
  | .hitchSet m => m.wf
  | .winOpen m => m.wf
  | .winClose m => m.wf
  | .winBind m => m.wf
  | .barConfig m => m.wf
  | .barFree m => m.wf
  | .barForce m => m.wf
  | .secIdentity m => m.wf
  | .secAttest m => m.wf
  | .secChallenge m => m.wf
  | .secLcStatus m => m.wf
  | .secLcTransition m => m.wf
  | .secOwnerKeys m => m.wf
  | .secToken m => m.wf
  | .secFwUpdate m => m.wf
  | .secFwActivate m => m.wf
  | .secSvnCommit m => m.wf
  | .secPowerCfg m => m.wf
  | .errCounterClear m => m.wf
  | .errLogRead m => m.wf
  | .errHangRead m => m.wf
  | .errHangCapture m => m.wf
  | .errCfgSet m => m.wf
  | .llTelemetry code seq _ => below code 256 && below seq 256
  | .llPowerOff seq _ => below seq 256
  | .llColdReset seq _ => below seq 256
  | .llHangRecord seq _ => below seq 256
  | .llLcStatus seq _ => below seq 256
  | .llHitchSet seq _ => below seq 256
  | .secRequest seq _ => below seq 256
  | .secRead seq chunk => below seq 256 && below chunk 65536
  | .pldmRequest req => req.wf
  | .sensorSample sensor _ => below sensor 26
  | .gateRecompute watts => below watts 65536
  | .watchdogRefresh core pc => below core 8 && below pc (2 ^ 32)
  | .watchdogExpiry core => below core 8
  | .hangStallTimeout => true
  | .tokenExpiry => true
  | .returnEraseComplete => true
  | .vinRise => true
  | .islandSupplyGood _ _ => true
  | .islandReady mgtAddr => below mgtAddr 8
  | .pwrEnRise => true
  | .railPowerGood => true
  | .railGoodTimeout => true
  | .dieResetRelease => true
  | .selfTestComplete failedRows _ _ => failedRows.all fun x => below x.1 16 && below x.2 32768
  | .memoryTrainingComplete _ _ => true
  | .pwrEnFall => true
  | .powerDownComplete => true
  | .powerUpRestart => true
  | .supplyFault kind => below kind 16
  | .islandSupplyLoss => true
  | .registerWrite target off width value => target.wf && below off 0x10000000 && (width == 4 || width == 8) && below value (2 ^ (8 * width))
  | .rackrefArrival => true
  | .stepConfigTakesEffect => true
  | .verificationComplete handle => below handle 65536
  | .supplyStable => true
  | .lowMarginChange _ => true

end Sys2Proof
end

