-- ==== Sys2Proof/Safety.lean ====
section
/-! DEFINITION. What counts as a sound state, and a sound run, in the terms that claims use. -/
namespace Sys2Proof.Safety

open Sys2Proof.Machine

/-- The power cap lies within its range (R623). -/
def CapInRange (s : State) : Prop := 300 ≤ s.isl.cap ∧ s.isl.cap ≤ 750

/-- Every command that waits is well formed. -/
def QueueOk (s : State) : Prop := s.pending.all Instr.wf = true

/-- Firmware starts a mailbox command and finds no reason of R569 to refuse it before its own meaning. -/
abbrev Starts (sp : CmdSpec) (m : Mbx) (s : State) : Prop :=
  canStart s m = true ∧ refusal sp (newCmd s sp.op m) (takeCmd (newCmd s sp.op m) s) = none

/-- Host memory answers a command's read of an extent with bytes (R301, R570). -/
abbrev HostGives (c : Cmd) (s : State) (addr len : Nat) (bs : List Byte) : Prop :=
  hostOk s c addr len = true ∧ enabled s c.m.func = true ∧ c.m.host = .ok bs

/-- A received packet of one of some types passes what every packet must pass (R503, R509, R511). -/
abbrev Accepts (types : List Nat) (p : Packet) (s : State) : Prop :=
  dieOn s = true ∧ types.contains (Pk.type p) = true ∧ 0 < Pk.type p ∧ Pk.type p < 10 ∧ tooOld s p = false ∧
    (s.fab.assigned = true ∨ Pk.type p = 6 ∨ Pk.type p = 9)

/-- Fabric engine `e` runs a knot that has come to an operation of a kind, with nothing to stop it there (R531, R535). -/
abbrev AtKnotOp (op e : Nat) (r : KnotRun) (s : State) : Prop :=
  dieOn s = true ∧ e < 4 ∧ (fabEng s e).cur = some r ∧ knotStop s r = none ∧ Kn.op (Kn.opAt (knotImage s r.knot) r.op) = op

/-- Stream engine `e` of a running die is on a descriptor of an operation, accepted and not yet moved (R308). -/
abbrev AtDesc (op e : Nat) (r : ChainRun) (s : State) : Prop :=
  dieOn s = true ∧ (engine s e).cur = some r ∧ (curDesc r).op = op ∧ r.moved = false ∧ r.failed = none

/-- The commands that write registers of control space. -/
def writesControlSpace : Instr → Bool
  | .registerWrite .. | .pfDebugWindowAccess .. => true
  | _ => false

/-- The commands that may change the power cap or a gating threshold (R623, R645), or lose them. -/
def maySetPower : Instr → Bool
  | .registerWrite .. | .pfDebugWindowAccess .. | .secPowerCfg .. | .secRequest .. | .pldmRequest .. | .islandSupplyLoss .. => true
  | _ => false

/-- The commands that store no byte of the scratchpad and of the tiers, on any path: they answer, report, configure, time or wait. -/
def leavesMemory : Instr → Bool
  | .routeApplyUnstepped .. | .racksyncEdge .. | .rackrefLoss .. | .stepCommit .. | .seqHalt .. | .scratchpadPatrol .. | .streamChainStart ..
  | .wcbLineWrite .. | .tierPatrol .. | .bar2Read .. | .batchFinalise .. | .outputDelivery .. | .remoteTransferComplete .. | .transferAbandon ..
  | .doneReceived .. | .nakReceived .. | .busyResend .. | .senderTimeout .. | .routerForward .. | .barEntryReceived .. | .barReleaseReceived ..
  | .flitCrcError .. | .portRetrain .. | .laneTrainingDone .. | .linkIdSend .. | .linkIdReceived .. | .heartbeatSend .. | .heartbeatReceived ..
  | .heartbeatTimeout .. | .leaveReceived .. | .timeExchangeSend .. | .timeReceived .. | .fabricIdentityAssign .. | .knotSend .. | .knotWait ..
  | .knotInc .. | .knotBarrier .. | .knotSetreg .. | .knotAdvreg .. | .knotLoop .. | .knotEnd .. | .sqDoorbell .. | .cqDoorbell .. | .eqDoorbell ..
  | .queueEnable .. | .queueDisable .. | .eventRingEnable .. | .interruptCoalesceTimer .. | .msixVectorUnmask .. | .atsInvalidation ..
  | .pcieLinkUp .. | .perstDeassert .. | .primaryRoleTimeout .. | .devIdentify .. | .devStepConfig .. | .devTimeSet .. | .devClock .. | .devPrimary ..
  | .devEventMask .. | .devNop .. | .devBar2Map .. | .partCreate .. | .partFunc .. | .partQos .. | .partResume .. | .partQuery .. | .modelSwap ..
  | .modelSwapResume .. | .modelSwapRevert .. | .modelUpdate .. | .modelQuery .. | .npConfig .. | .progLoad .. | .progActivate .. | .progUnload ..
  | .progGetReport .. | .progSetCounts .. | .progDeactivate .. | .srvClass .. | .srvPark .. | .srvQuery .. | .memCopy ..
  | .memRetire .. | .memRetireRead .. | .memT3Map .. | .memT3Unmap .. | .memMode .. | .memLock .. | .spRetireRow .. | .kvSeqQuery ..
  | .kvPoolStatus .. | .fabRouteLoad .. | .fabBond .. | .fabPortCtrl .. | .fabTimeCfg .. | .knotLoad .. | .knotUnload .. | .knotAbort ..
  | .fabInject .. | .fabQuery .. | .hitchConfig .. | .hitchRead .. | .hitchSet .. | .winOpen .. | .winClose .. | .winBind .. | .barConfig ..
  | .barFree .. | .barForce .. | .secIdentity .. | .secAttest .. | .secLcStatus .. | .errCounterClear .. | .errLogRead .. | .errHangRead ..
  | .errHangCapture .. | .errCfgSet .. | .llTelemetry .. | .llHangRecord .. | .llLcStatus .. | .llHitchSet .. | .secRead .. | .commandRead .. | .pldmRequest ..
  | .gateRecompute .. | .watchdogRefresh .. | .watchdogExpiry .. | .hangStallTimeout .. | .tokenExpiry .. | .vinRise .. | .islandSupplyGood ..
  | .railPowerGood .. | .selfTestComplete .. | .memoryTrainingComplete .. | .rackrefArrival .. | .stepConfigTakesEffect .. | .lowMarginChange .. => true
  | _ => false

end Sys2Proof.Safety
end

