-- ==== Sys2Proof/Certificates/Slice0/Obligations.lean ====
section
/-! DEFINITION. The statements about the module: what each command does, what each leaves alone, and what every step keeps. -/

open Sys2Proof Sys2Proof.Machine Sys2Proof.Safety

/-- STEP_TICK on a running die whose stepping is enabled, at a tick that is due on the grid in force. With no step running, a step starts: the tick is noted as fired on its grid (never to fire again there), STEP_COUNT goes up by one modulo 2^64, the cause with the most slack of the last step is latched, the slack and replay records start anew, a waiting DEV_STEP_RUN completes, and the boundary reserve's actions follow. With a step still running, no step starts: STEP_MISSED goes up by one, saturating, the tick is noted as fired, and the overrun is charged only if no debugger halts the sequencer. Nothing else changes in the second case. Completion stated of: stepTick. (Parts of R24, R27, R38, R42.) -/
def Obligations.TickStartsOrMissesAStep : Prop :=
  ∀ (s : State) (c : StepCfg), gridAt s (rack s) = some c → dieOn s = true → s.step.run = true → c.period ≠ 0 →
    s.step.nextTick ≤ rack s →
    let tk := max s.step.nextTick (tickUpTo c (rack s))
    let fired : State := { s with step := { s.step with lastTick := some tk, lastGrid := (c.origin, c.period) } }
    let next := (gridFrom fired (tk + 1)).getD 0
    (s.step.running = none →
      exec .stepTick s = .next (endStep (reserveActions tk
        ((waitingCmds s 0x0103).foldl (fun u k => complete k 0x00 0 [] u)
          { s with
            step := { fired.step with
              nextTick := next, count := (s.step.count + 1) % 2 ^ 64, topCause := topSlack s.seq.stepSlack, running := some .start, inReserve := true },
            seq := { s.seq with stepSlack := [] },
            np := { s.np with replayedParts := [] } })))) ∧
    (∀ r, s.step.running = some r →
      exec .stepTick s = .next { s with
        step := { fired.step with
          nextTick := next, missed := min (s.step.missed + 1) (2 ^ 32 - 1), running := some { r with missedHere := r.missedHere || !s.seq.halt } } })

/-- A due tick while the sequencer is halted by a debugger and a step runs adds one to STEP_MISSED, saturating, and leaves the running step as little charged as it was. A step that no other tick missed charges no partition when it ends: neither an overrun count nor an event, and the partition's streak of overruns restarts. -/
def Obligations.HaltedTicksAreChargedToNoPartition : Prop :=
  (∀ (s : State) (c : StepCfg) (r : StepRun), gridAt s (rack s) = some c → dieOn s = true → s.step.run = true → c.period ≠ 0 →
    s.step.nextTick ≤ rack s → s.step.running = some r → s.seq.halt = true →
    ∃ t, exec .stepTick s = .next t ∧ t.step.missed = min (s.step.missed + 1) (2 ^ 32 - 1) ∧ t.step.running = some r ∧
      t.step.partOverrun = s.step.partOverrun ∧ t.out = s.out) ∧
  (∀ (s : State) (r : StepRun) (p : Nat), r.missedHere = false →
    chargeOverrun r p s = { s with step := { s.step with streak := Tbl.set 0 s.step.streak p 0 } })

/-- SEGMENT_START with a step running and its next segment due: a partition that runs its program enters the segment at the later of the cycle reached and the cycle scheduled; a partition without one lets the segment pass idle for its whole budget, and the step ends if it was the last. PROGRAM_END once a segment's program is over, with every part still running brought to its end and nothing holding one up: lateness, hitch imbalance, open breaches and faults are recorded, the layer exponents are kept for the partition, the results are read, the sequencer is left without a program, and the segment passes at the cycle its work and slack reach. Completion stated of: segmentStart, programEnd. (Parts of R31, R37, R41, R174, R262, R472, R594, R654.) -/
def Obligations.SegmentsStartAndEndInTurn : Prop :=
  (∀ (s : State) (r : StepRun) (e : SegEntry), s.step.running = some r → r.segs[r.next]? = some e → dieOn s = true → r.inSeg = false →
    let u : State := { s with step := { s.step with segment := r.next, inReserve := false } }
    (∀ a g, runsIn u r e.partition = true → Tbl.get none s.prog.active e.partition = some a → activeProg u e.partition = some g →
      exec .segmentStart s = .next (enterSegment e.partition r.next a g
        { u with step := { u.step with running := some { r with inSeg := true, actual := max r.cycle r.scheduled, segSlack := [] } } })) ∧
    (runsIn u r e.partition = false →
      exec .segmentStart s = .next (endStep { u with
        step := { u.step with
          inSegment := false,
          running := some { r with cycle := max r.cycle r.scheduled + 1152 + e.budget, scheduled := r.scheduled + 1152 + e.budget,
                                   next := r.next + 1, inSeg := false } } }))) ∧
  (∀ (s : State) (r0 r : SeqRun) (sr0 sr : StepRun), s.seq.cur = some r0 → s.step.running = some sr0 → dieOn s = true → programOver r0 = true →
    heldUp (finishParts r0 s) = false → (finishParts r0 s).seq.cur = some r → (finishParts r0 s).step.running = some sr →
    let e := sr.segs.getD sr.next { valid := true, partition := r.part, budget := 0 }
    let u := noteImbalance r (noteLate e sr r.work (finishParts r0 s))
    let v := readResults r.part sr.next r.fault
      (modNpPart r.part (fun x => { x with exps := u.np.layerExp }) (noteFault r (endBreaches r u)))
    exec .programEnd s = .next (endStep (passSegment e (sr.actual + 1152 + r.work + slackSum sr.segSlack)
      (syncSeq { v with seq := { v.seq with cur := none, ended := true } }))))

/-- STEP_COMMIT stages what the step registers hold. DEV_STEP_CONFIG whose table has no reserved bit set: with a change still staged it completes with BUSY, with a configuration that does not fit (a period outside 20,000 to 1,000,000,000 ns, an E less than 100 µs ahead, or budgets that do not fit) it completes with REFUSED_SCHEDULE and no configuration changes, and otherwise its registers and its staged configuration are set and it waits for the effect. STEP_CONFIG_TAKES_EFFECT at E, while no step runs, makes the staged configuration the active one and completes the waiting DEV_STEP_CONFIG with the tick's rack time. Completion stated of: stepCommit, stepConfigTakesEffect, devStepConfig. (Parts of R28, R30, R34, R35, R43, R45.) -/
def Obligations.StepConfigurationsAreStagedAndTakeEffect : Prop :=
  (∀ s : State, dieOn s = true → exec .stepCommit s = .next (stageConfig
    { period := s.step.periodNs, origin := s.step.origin, segs := segTable ((List.range 16).map (Tbl.get 0 s.step.segRegs)),
      overrunLimit := s.step.overrunLimit, lateEvents := s.step.lateEvents } s)) ∧
  (∀ (s : State) (c : StepCfg), s.step.staged = some c → dieOn s = true → stepping s = false → c.origin ≤ rack s →
    exec .stepConfigTakesEffect s = .next ((waitingCmds s 0x0102).foldl (fun u k => complete k 0x00 0 (leBytes 8 c.origin) u)
      { s with step := { s.step with active := some c, staged := none, overrunLimit := c.overrunLimit, lateEvents := c.lateEvents } })) ∧
  (∀ (m : Mbx) (s : State) (bs : List Byte), Starts devStepConfigSpec m s →
    let c := newCmd s 0x0102 m
    let u := takeCmd c s
    let addr := pNum c 16 8
    let xs := (List.range 16).map fun i => leAt (padTo 128 bs) (8 * i) 8
    let cfg : StepCfg := { period := pNum c 0 4, origin := pNum c 8 8, segs := segTable xs, overrunLimit := pByte c 4, lateEvents := pBit c 5 0 }
    let host := ((busAddr u m.func addr 128).map fun b => b.2.2).getD 0
    HostGives c u addr 128 bs → (xs.all fun x => bits x 36 27 == 0) = true →
    (s.step.staged ≠ none → exec (.devStepConfig m) s = .next (complete c 0x15 0 [] (noteAts m.func host 128 u))) ∧
    (s.step.staged = none → configFits u cfg = false →
      exec (.devStepConfig m) s = .next (complete c 0x02 0 [] (noteAts m.func host 128 u))) ∧
    (s.step.staged = none → configFits u cfg = true →
      exec (.devStepConfig m) s = .next (noteAts m.func host 128 (stageConfig cfg
        { u with step := { u.step with
          periodNs := cfg.period, origin := cfg.origin,
          segRegs := (xs.mapIdx fun i x => (i, x)).foldl (fun a y => Tbl.set 0 a y.1 y.2) [] } }))))

/-- STEP_RUN_CONTROL on a running die turns stepping on, with both tier controllers in service and the next tick of the grid armed, or off, giving up what waited for a reserve if no step runs. DEV_STEP_RUN with no configuration in force completes with REFUSED_SCHEDULE; where stepping already is as asked (and no step still runs towards a stop) it completes with OK and nothing else changes; otherwise stepping is set in the same way and the command waits. Completion stated of: stepRunControl, devStepRun. -/
def Obligations.SteppingRunsAndStopsOnCommand : Prop :=
  (∀ (s : State), dieOn s = true →
    (s.step.run = false → exec (.stepRunControl true) s = .next (rearm { serviceTiers s with step := { s.step with run := true } })) ∧
    (∀ r, s.step.run = true → s.step.running = some r → exec (.stepRunControl false) s = .next { s with step := { s.step with run := false } }) ∧
    (s.step.run = true → s.step.running = none → exec (.stepRunControl false) s = .next (stopStepping { s with step := { s.step with run := false } })) ∧
    (∀ on, s.step.run = on → exec (.stepRunControl on) s = .next s)) ∧
  (∀ (m : Mbx) (s : State), Starts devStepRunSpec m s →
    let c := newCmd s 0x0103 m
    (s.step.active = none → exec (.devStepRun m) s = .next (complete c 0x02 0 [] (takeCmd c s))) ∧
    (s.step.active ≠ none → s.step.run = pBit c 0 0 → (s.step.run = true ∨ s.step.running = none) →
      exec (.devStepRun m) s = .next (complete c 0x00 0 [] (takeCmd c s))) ∧
    (s.step.active ≠ none → s.step.run = false → pBit c 0 0 = true →
      exec (.devStepRun m) s = .next (rearm { serviceTiers (takeCmd c s) with step := { s.step with run := true } })) ∧
    (∀ r, s.step.active ≠ none → s.step.run = true → pBit c 0 0 = false → s.step.running = some r →
      exec (.devStepRun m) s = .next { takeCmd c s with step := { s.step with run := false } }))

/-- DEV_TIME_SET from a host that keeps time sets rack time and ends any slewing, and otherwise completes with NOT_PERMITTED. DEV_CLOCK above 10 completes with BAD_COMMAND; else it sets the depth at once while stepping is stopped. The depth in steps of 0.005 % is ten times the setting but never above 99 (98 in holdover). A RACKSYNC edge that is due loads STEP_SYNC_LOAD, reports a correction of more than 20 ns to both PFs, and locks time when RACKREF is present, with TIME_LOCKED if holdover ends. RACKREF_ARRIVAL is noted; RACKREF_LOSS sets holdover and raises TIME_UNLOCKED only where time had locked. Completion stated of: devTimeSet, devClock, racksyncEdge, rackrefArrival, rackrefLoss. (Parts of R19, R20, R23, R25, R26, R689, R691.) -/
def Obligations.RackTimeAndClockAreSet : Prop :=
  (∀ (m : Mbx) (s : State), Starts devTimeSetSpec m s →
    let c := newCmd s 0x0104 m
    let u := takeCmd c s
    (hostKeepsTime u = true →
      exec (.devTimeSet m) s = .next (complete c 0x00 0 [] (setRack (pNum c 0 8) { u with fab := { u.fab with slewRest := 0 } }))) ∧
    (hostKeepsTime u = false → exec (.devTimeSet m) s = .next (complete c 0x06 0 [] u))) ∧
  (∀ (m : Mbx) (s : State), Starts devClockSpec m s →
    let c := newCmd s 0x0105 m
    let u := takeCmd c s
    (10 < pByte c 0 → exec (.devClock m) s = .next (complete c 0x16 0 [] u)) ∧
    (pByte c 0 ≤ 10 → stepping s = false →
      exec (.devClock m) s = .next (complete c 0x00 0 [] { u with step := { u.step with spread := pByte c 0, spreadNow := pByte c 0, spreadPending := false } })) ∧
    (pByte c 0 ≤ 10 → stepping s = true →
      exec (.devClock m) s = .next { u with step := { u.step with spread := pByte c 0, spreadPending := true } })) ∧
  (∀ s : State, spreadDepth s ≤ 99 ∧ (s.step.holdover = true → spreadDepth s ≤ 98) ∧ spreadDepth s ≤ 10 * s.step.spreadNow) ∧
  (∀ s : State, dieOn s = true → (∀ l, s.step.lastSync = some l → l + 500000000 ≤ s.now) →
    let u := setRack s.step.syncLoad { s with step := { s.step with lastSync := some s.now } }
    let v : State := { u with fab := { u.fab with slewRest := 0 } }
    let w := if 20 < timeGap (rack s) s.step.syncLoad then raiseTo 0x0108 0xFF [.pfs] (leBytes 8 (rack s) ++ leBytes 8 s.step.syncLoad) v else v
    exec .racksyncEdge s = .next (
      if w.step.rackref = false then w
      else if w.step.holdover then raiseTo 0x0107 0xFF [.pfs] [] { w with step := { w.step with timeLocked := true, holdover := false } }
      else { w with step := { w.step with timeLocked := true } })) ∧
  (∀ s : State, exec .rackrefArrival s = .next { s with step := { s.step with rackref := true, rackrefEver := true } }) ∧
  (∀ s : State,
    let u : State := { s with step := { s.step with rackref := false, holdover := true, timeLocked := false } }
    (s.step.holdover = false → dieOn s = true → exec .rackrefLoss s = .next (raiseTo 0x0106 0xFF [.pfs] [] u)) ∧
    (s.step.holdover = true ∨ dieOn s = false → exec .rackrefLoss s = .next u))

/-- Completing a command that firmware holds, of the queue's present epoch. With the function enabled, the queue live, room in the ring and no interrupt enabled: one 32-byte completion leaves at the ring's tail with tag, status, phase, detail, cookie and results where R568 puts them; the tail advances and the phase inverts exactly when it wraps. With the ring full, nothing leaves and the completion waits behind those that wait. With the function disabled nothing leaves, and HIF_CPL_DROPPED and the host class count go up by one, saturating. In each case the command is held no longer. (Parts of R559, R563, R564, R566, R568.) -/
def Obligations.CompletionsReachTheirRing : Prop :=
  ∀ (c : Cmd) (st det : Nat) (res : List Byte) (s : State), cmdLive s c = true → c.m.queue < 16 → (ring s c.m.func c.m.queue).epoch = c.epoch →
    let f := c.m.func
    let q := c.m.queue
    let r := ring s f q
    let t := complete c st det res s
    cmdLive t c = false ∧
    (enabled s f = true → r.live = true → r.waiting = [] → r.unreturned < r.size → r.irqEn = false →
      c.m.tag < 2 ^ 16 → st < 2 ^ 8 → det < 2 ^ 16 → c.m.cookie < 2 ^ 64 →
      (∃ b : List Byte, t.out = s.out ++ [.completion f q r.tail b] ∧ b.length = 32 ∧ leAt b 0 2 = c.m.tag ∧ leAt b 2 1 = st ∧
        leAt b 3 1 = b2n r.phase ∧ leAt b 4 2 = det ∧ leAt b 6 2 = 0 ∧ leAt b 8 8 = c.m.cookie ∧ sliceBytes b 16 16 = padTo 16 res) ∧
      (ring t f q).tail = (r.tail + 1) % r.size ∧
      (ring t f q).phase = (if (r.tail + 1) % r.size = 0 then !r.phase else r.phase) ∧
      (ring t f q).unreturned = r.unreturned + 1) ∧
    (enabled s f = true → r.live = true → r.size ≤ r.unreturned →
      t.out = s.out ∧ (ring t f q).waiting = r.waiting ++ [completionBytes c.m st det res]) ∧
    (enabled s f = false →
      t.out = s.out ∧ (func t f).cplDropped = min ((func s f).cplDropped + 1) (2 ^ 32 - 1) ∧
      Tbl.get 0 t.err.classCount 8 = min (Tbl.get 0 s.err.classCount 8 + 1) (2 ^ 32 - 1))

/-- An event due to a function. A suppressed code changes nothing. With the function disabled, or its ring stopped or full, nothing leaves, HIF_EVENT_LOST goes up by one, saturating, and the next event written carries the lost flag. Otherwise one 128-byte record leaves at the ring's tail with code, phase, lost flag, partition, sequence, rack time and payload where R572 puts them, and the lost flag clears. (Parts of R566, R572, R573, R574, R576.) -/
def Obligations.EventsReachTheirRing : Prop :=
  ∀ (code part : Nat) (pay : List Byte) (f : Nat) (s : State),
    let r := (func s f).eq
    let t := writeEvent code part pay f s
    ((func s f).suppressed.contains code = true → t = s) ∧
    ((func s f).suppressed.contains code = false → (enabled s f = false ∨ r.live = false ∨ r.size ≤ r.unreturned) →
      t.out = s.out ∧ (func t f).lost = true ∧ (func t f).eventLost = min ((func s f).eventLost + 1) (2 ^ 32 - 1)) ∧
    ((func s f).suppressed.contains code = false → enabled s f = true → r.live = true → r.unreturned < r.size → r.irqEn = false →
      code < 2 ^ 16 → part < 2 ^ 8 →
      (∃ b : List Byte, t.out = s.out ++ [.event f r.tail b] ∧ b.length = 128 ∧ leAt b 0 2 = code ∧
        leAt b 2 1 = b2n r.phase + 2 * b2n (func s f).lost ∧ leAt b 3 1 = part ∧ leAt b 4 4 = ((func s f).eventSeq + 1) % 2 ^ 32 ∧
        leAt b 8 8 = rack s ∧ sliceBytes b 16 112 = padTo 112 pay) ∧
      (func t f).lost = false ∧ (func t f).eq.tail = (r.tail + 1) % r.size ∧
      (func t f).eq.phase = (if (r.tail + 1) % r.size = 0 then !r.phase else r.phase))

/-- A ring with interrupts enabled and at least max(coal_count, 1) unreported entries reports them all with one message of its vector; with fewer it reports none. INTERRUPT_COALESCE_TIMER reports them once the oldest is coal_us µs old. A masked vector's message is kept in the pending bits instead of leaving; MSIX_VECTOR_UNMASK unmasks the vector and sends what it held pending. Completion stated of: interruptCoalesceTimer, msixVectorUnmask. (Parts of R577, R578.) -/
def Obligations.RingsReportByInterrupt : Prop :=
  (∀ (f k : Nat) (s : State),
    let r := ring s f k
    let told := modRing f k (fun r => { r with unreported := 0 }) s
    (r.irqEn = true → max r.coalCount 1 ≤ r.unreported → checkReport f k s = sendVector f r.vector told) ∧
    (r.irqEn = false ∨ r.unreported < max r.coalCount 1 → checkReport f k s = s) ∧
    (f < 64 → k < 17 → r.irqEn = true → r.coalUs ≠ 0 → 0 < r.unreported → r.oldest + 1000 * r.coalUs ≤ s.now →
      exec (.interruptCoalesceTimer f k) s = .next (sendVector f r.vector told))) ∧
  (∀ (f v : Nat) (s : State),
    ((msixOf s f v).masked = true → sendVector f v s = modFunc f (fun x => { x with pba := x.pba ||| 2 ^ v }) s) ∧
    ((msixOf s f v).masked = false → sendVector f v s = { s with out := s.out ++ [.msix f v] })) ∧
  (∀ (f v : Nat) (s : State), f < 64 → v < 32 →
    let u := modFunc f (fun x => { x with msix := Tbl.set none x.msix v (some { msixOf s f v with masked := false }) }) s
    ((func s f).pba.testBit v = true →
      exec (.msixVectorUnmask f v) s = .next (emit (.msix f v) (modFunc f (fun x => { x with pba := x.pba - 2 ^ v }) u))) ∧
    ((func s f).pba.testBit v = false → exec (.msixVectorUnmask f v) s = .next u))

/-- QUEUE_ENABLE and EVENT_RING_ENABLE of a ring not in use set its fields from the control value and its head, tail, phase and counts at their start; a bad base or size stops it with QUEUE_ERROR cause 1. QUEUE_DISABLE drops the completions that wait and starts a new epoch. SQ_DOORBELL sets the command tail, CQ_DOORBELL the completion head (writing what waited), EQ_DOORBELL the event head, each returning the entries passed; a value not below the ring size stops the ring with QUEUE_ERROR cause 2, and a doorbell on a disabled ring is ignored and counted. Completion stated of: queueEnable, eventRingEnable, queueDisable, sqDoorbell, cqDoorbell, eqDoorbell. (Parts of R558, R559, R560, R563, R564, R565, R566, R572.) -/
def Obligations.QueuesStartStopAndTakeDoorbells : Prop :=
  (∀ (f ctrl : Nat) (s : State), f < 64 →
    let started := fun (r : Ring) => { r with
      sizeLog2 := bits ctrl 24 4, coalUs := bits ctrl 16 8, coalCount := bits ctrl 8 8, irqEn := bit ctrl 5, vector := bits ctrl 0 5,
      enable := true, error := false, errCause := 0, phase := true, head := 0, tail := 0, sqTail := 0, cqHead := 0, unreturned := 0,
      inflight := 0, waiting := [], unreported := 0, epoch := r.epoch + 1 }
    (∀ q, q < 16 → (ring s f q).enable = false →
      let t := modRing f q started s
      ((ring s f q).sqBase % 4096 = 0 → (ring s f q).cqBase % 4096 = 0 → 4 ≤ bits ctrl 24 4 → bits ctrl 24 4 ≤ 12 →
        exec (.queueEnable f q ctrl) s = .next (if disableCond t f then t else modFunc f (fun x => { x with disabled := false }) t)) ∧
      ((ring s f q).sqBase % 4096 ≠ 0 ∨ (ring s f q).cqBase % 4096 ≠ 0 ∨ bits ctrl 24 4 < 4 ∨ 12 < bits ctrl 24 4 →
        exec (.queueEnable f q ctrl) s = .next (queueError f q 1 t))) ∧
    ((ring s f 16).enable = false → (ring s f 16).sqBase % 4096 = 0 → 6 ≤ bits ctrl 24 4 → bits ctrl 24 4 ≤ 12 →
      let t := modRing f 16 started s
      exec (.eventRingEnable f ctrl) s = .next (if disableCond t f then t else modFunc f (fun x => { x with disabled := false }) t))) ∧
  (∀ (f q : Nat) (s : State), f < 64 → q < 16 → (ring s f q).enable = true →
    exec (.queueDisable f q) s = .next (modFunc f (fun x => { x with cplDropped := min (x.cplDropped + (ring s f q).waiting.length) (2 ^ 32 - 1) })
      (modRing f q (fun r => { r with enable := false, epoch := r.epoch + 1, waiting := [], inflight := 0 }) s))) ∧
  (∀ (f q v : Nat) (s : State), s.host.state ≠ 0 → f < 64 → q < 16 → v < 4096 →
    let r := ring s f q
    (r.enable = true → r.error = false → v < r.size →
      exec (.sqDoorbell f q v) s = .next (modRing f q (fun r => { r with sqTail := v }) s) ∧
      (let u := modRing f q (fun x => { x with cqHead := v, unreturned := x.unreturned - returned x x.cqHead v }) s
       exec (.cqDoorbell f q v) s = .next (flushCompletions f q (ring u f q).waiting u))) ∧
    (r.enable = true → r.error = false → r.size ≤ v →
      exec (.sqDoorbell f q v) s = .next (queueError f q 2 s) ∧ exec (.cqDoorbell f q v) s = .next (queueError f q 2 s)) ∧
    (r.enable = false →
      let u := modFunc f (fun x => { x with doorbellIgnored := min (x.doorbellIgnored + 1) (2 ^ 32 - 1) }) s
      exec (.sqDoorbell f q v) s = .next u ∧ exec (.cqDoorbell f q v) s = .next u)) ∧
  (∀ (f v : Nat) (s : State), s.host.state ≠ 0 → f < 64 → v < (func s f).eq.size → v < 4096 → (func s f).eq.enable = true → (func s f).eq.error = false →
    exec (.eqDoorbell f v) s = .next (modFunc f (fun x => { x with eq := { x.eq with head := v, unreturned := x.eq.unreturned - returned x.eq x.eq.head v } }) s))

/-- FUNCTION_DISABLE sets the condition of R549 it names and disables the functions that it meets: each is marked, and one that was enabled has its partition drain. FUNCTION_LEVEL_RESET puts the function's registers and queues at reset and leaves the partition's part to the next reserve. PCIE_LINK_DOWN disables the port's functions, tells the other PF, and leaves the role with nobody when both links are down; PERST_ASSERT adds the reset of the port's functions; PERST_DEASSERT lets the port leave reset. PCIE_LINK_UP, once the port may train, keeps its functions disabled, tells the other PF, and gives a free role to the port. PRIMARY_ROLE_TIMEOUT moves the role once the holder's link has been down 100 ms and the other is up, with PRIMARY_CHANGED to both PFs. Completion stated of: functionDisable, functionLevelReset, pcieLinkDown, pcieLinkUp, perstAssert, perstDeassert, primaryRoleTimeout. (Parts of R549, R550, R557, R579, R580, R581, R599, R602, R603, R680.) -/
def Obligations.FunctionsAndPortsComeAndGo : Prop :=
  (∀ (f : Nat) (s : State), f < 64 →
    exec (.functionDisable f .busMaster) s = .next (disabling [f] (modFunc f fun x => { x with bme := false }) s) ∧
    exec (.functionDisable f .d3hot) s = .next (disabling [f] (modFunc f fun x => { x with d3hot := true }) s) ∧
    exec (.functionDisable f .vfEnable) s = .next (disabling (portFuncs (f / 32)) (modFunc (f / 32 * 32) fun x => { x with vfEnable := false }) s) ∧
    exec (.functionDisable f .portDown) s = exec (.pcieLinkDown (f / 32)) s) ∧
  (∀ (fs : List Nat) (change : State → State) (s : State),
    let u := (fs.filter fun f => disableCond (change s) f).foldl (fun s f => modFunc f (fun x => { x with disabled := true }) s) (change s)
    disabling fs change s = settleIdle (((fs.filter (enabled s)).filter fun f => !enabled u f).foldl (fun s f => noteDisabled f s) u)) ∧
  (∀ (f p : Nat) (s : State), funcPart s f = some p →
    noteDisabled f s = tellPart 0x0203 p (fields4 [p, f]) (modPartn p (fun x => { x with draining := true, drainFuncs := x.drainFuncs ++ [f] }) s)) ∧
  (∀ (f : Nat) (s : State), f < 64 →
    let u := resetFuncRegs f s
    (funcPart u f = none → exec (.functionLevelReset f) s = .next u) ∧
    (∀ p, funcPart u f = some p → (primaries u p).contains f = true → exec (.functionLevelReset f) s = .next (settleIdle (pendReset p 2 u))) ∧
    (∀ p, funcPart u f = some p → (primaries u p).contains f = false →
      exec (.functionLevelReset f) s = .next (settleIdle { u with part := { u.part with resetFuncs := u.part.resetFuncs ++ [f] } }))) ∧
  (∀ (p : Nat) (s : State), p < 2 → (hostPort s p).linkUp = true →
    let u := raiseTo 0x0103 0xFF [.func (32 * (1 - p))] [] (disabling (portFuncs p)
      (modHostPort p fun x => { x with linkUp := false, downSince := some s.now, upSince := none, atc := [] }) s)
    exec (.pcieLinkDown p) s = .next (if (hostPort u (1 - p)).linkUp then u else { u with host := { u.host with primary := none } })) ∧
  (∀ (p : Nat) (s : State), p < 2 →
    exec (.perstAssert p) s = .next ((portFuncs p).foldl (fun s f =>
        modFunc f (fun x => { x with bme := false, d3hot := false, vfEnable := false, numVfs := 0, ats := false }) (resetFuncRegs f s))
      (disabling (portFuncs p) (modHostPort p fun x => { x with perst := true, readyAt := none }) (linkDown p s))) ∧
    ((hostPort s p).perst = true →
      let u := modHostPort p (fun x => { x with perst := false }) s
      exec (.perstDeassert p) s = .next (if s.pwr.pgOut then modHostPort p (fun x =>
        { x with readyAt := some (max s.now (s.pwr.pgOutAt + 100000000) + Config.cfgReadyNs p % 500000001) }) u else u))) ∧
  (∀ (p : Nat) (s : State), p < 2 → (hostPort s p).linkUp = false → (hostPort s p).perst = false → s.pwr.pgOut = true → s.pwr.pgOutAt + 100000000 ≤ s.now →
    let u := raiseTo 0x0102 0xFF [.func (32 * (1 - p))] [] ((portFuncs p).foldl (fun s f => modFunc f (fun z => { z with disabled := true }) s)
      (modHostPort p (fun x => { x with linkUp := true, upSince := some s.now, downSince := none }) s))
    (u.host.primary = none → exec (.pcieLinkUp p) s = .next (
      if (hostPort s p).downSince = none then { u with host := { u.host with primary := some p } }
      else raiseTo 0x0104 0xFF [.pfs] [] { u with host := { u.host with primary := some p } })) ∧
    (u.host.primary = some p → exec (.pcieLinkUp p) s = .next u)) ∧
  (∀ (p t : Nat) (s : State), s.host.primary = some p → (hostPort s p).downSince = some t → t + 100000000 ≤ s.now → (hostPort s (1 - p)).linkUp = true →
    exec .primaryRoleTimeout s = .next (raiseTo 0x0104 0xFF [.pfs] [] { s with host := { s.host with primary := some (1 - p) } }))

/-- CONFIG_REQUEST at a port whose configuration space is not ready is answered with Request Retry Status; at one that is ready, for a function that is present, it reads the identity (class 0x120000, device 0x4D40 of a PF, 0x4D41 of a VF) or sets the field it names, with the disabling that follows. ATS_INVALIDATION drops the port's cached translations of the pages named and nothing else. BAR2_READ inside the map answers with the tier's bytes as its access finds them, poisoned where they are; outside it is an Unsupported Request reported as an advisory error and counted in class 8. BAR2_WRITE inside the map reaches the tier; outside it, and in the home of a shareable image (a drop of log entry 34), it is dropped and counted so. DEV_BAR2_MAP sets or clears the map of a function. Completion stated of: configRequest, atsInvalidation, bar2Read, bar2Write, devBar2Map. (Parts of R546, R548, R549, R554, R555, R557.) -/
def Obligations.ConfigurationAndBar2Answer : Prop :=
  (∀ (f : Nat) (r : CfgReq) (s : State), f < 64 → (hostPort s (f / 32)).linkUp = true →
    ((hostPort s (f / 32)).readyAt = none → exec (.configRequest f r) s = .next { s with out := s.out ++ [.cfgRetry f] }) ∧
    (∀ t, (hostPort s (f / 32)).readyAt = some t → t ≤ s.now → funcPresent s f = true →
      exec (.configRequest f .readId) s = .next { s with out := s.out ++ [.cfg f (0x120000 * 65536 + if f % 32 = 0 then 0x4D40 else 0x4D41)] } ∧
      (∀ on, exec (.configRequest f (.setBme on)) s = .next (disabling [f] (modFunc f fun x => { x with bme := on }) s)) ∧
      (∀ on, exec (.configRequest f (.setD3hot on)) s = .next (disabling [f] (modFunc f fun x => { x with d3hot := on }) s)) ∧
      exec (.configRequest f (.setAts true)) s = .next (modHostPort (f / 32) (fun p => { p with atc := p.atc }) (modFunc f (fun x => { x with ats := true }) s)))) ∧
  (∀ (p base len : Nat) (s : State), p < 2 →
    exec (.atsInvalidation p base len) s = .next (modHostPort p (fun x => { x with atc := x.atc.filter fun e => !meets (4096 * e.2) 4096 base len }) s)) ∧
  (∀ (f off len : Nat) (found : ReadIn) (s : State), f < 64 → len ≠ 0 → (hostPort s (f / 32)).linkUp = true →
    (∀ t o, bar2Place s f off len = some (t, o) →
      let u := readFinds [] [(tierBase t + o, len)] found s
      exec (.bar2Read f off { len := len, found := found }) s = .next (emit (.bar2Data f (tierRead t o len 0 u).1.1 (tierRead t o len 0 u).1.2) (tierRead t o len 0 u).2)) ∧
    (bar2Place s f off len = none →
      exec (.bar2Read f off { len := len, found := found }) s = .next { countError 8 s with out := s.out ++ [.unsupported f] ++ [.advisory f] })) ∧
  (∀ (f off : Nat) (data : List Byte) (s : State), f < 64 → data ≠ [] → (hostPort s (f / 32)).linkUp = true →
    (∀ t o, bar2Place s f off data.length = some (t, o) → exec (.bar2Write f off data) s = .next (
      if sharedHome s t o data.length then { countError 8 s with out := s.out ++ [.advisory f] } else tierWrite t o data false 0 s)) ∧
    (bar2Place s f off data.length = none → exec (.bar2Write f off data) s = .next { countError 8 s with out := s.out ++ [.advisory f] })) ∧
  (∀ (m : Mbx) (s : State), Starts devBar2MapSpec m s →
    let c := newCmd s 0x0109 m
    let u := takeCmd c s
    let f := pByte c 0
    let base := pNum c 8 8
    let len := pNum c 16 8
    (f < 64 → pBit c 1 0 = false → exec (.devBar2Map m) s = .next (complete c 0x00 0 [] (modFunc f (fun x => { x with bar2 := none }) u))) ∧
    (∀ p t off, f < 64 → pBit c 1 0 = true → base % 2097152 = 0 → len % 2097152 = 0 → len ≠ 0 → len ≤ 68719476736 →
      funcPart u f = some p → place base len = .tier t off →
      exec (.devBar2Map m) s = .next (if ownsExtent u p t off len
        then complete c 0x00 0 [] (modFunc f (fun x => { x with bar2 := some (base, len) }) u) else complete c 0x06 0 [] u)))

/-- DEV_NOP completes with OK and changes nothing. DEV_IDENTIFY answers with the silicon revision, the firmware version, the function, its partition (0xFF none), the device state and the chip number (0xFFFF unassigned). DEV_EVENT_MASK suppresses or restores one event code for the issuing function and refuses, with BAD_COMMAND, an unknown code and the three that cannot be suppressed. DEV_PRIMARY 0 tells the holder's port; 1, from the holder, hands the role over, or completes with BUSY while the other link is down; 2 takes a role nobody holds, or one whose holder's link has been down 100 ms, and is otherwise NOT_PERMITTED. Completion stated of: devNop, devIdentify, devEventMask, devPrimary. (Parts of R571, R576, R580, R584.) -/
def Obligations.DeviceCommandsAnswer : Prop :=
  (∀ (m : Mbx) (s : State), Starts devNopSpec m s →
    exec (.devNop m) s = .next (complete (newCmd s 0x0108 m) 0x00 0 [] (takeCmd (newCmd s 0x0108 m) s))) ∧
  (∀ (m : Mbx) (s : State), Starts devIdentifySpec m s →
    exec (.devIdentify m) s = .next (complete (newCmd s 0x0101 m) 0x00 0
      (leBytes 2 0x4230 ++ leBytes 3 s.host.fwVersion ++ [BitVec.ofNat 8 m.func, BitVec.ofNat 8 ((funcPart s m.func).getD 0xFF), BitVec.ofNat 8 s.host.state] ++
        leBytes 2 (if s.fab.assigned then s.fab.chip else 0xFFFF)) (takeCmd (newCmd s 0x0101 m) s))) ∧
  (∀ (m : Mbx) (s : State), Starts devEventMaskSpec m s →
    let c := newCmd s 0x0107 m
    let e := pNum c 0 2
    (e ∉ eventCodes ∨ e = 0x0101 ∨ e = 0x0103 ∨ e = 0x0104 → exec (.devEventMask m) s = .next (complete c 0x16 0 [] (takeCmd c s))) ∧
    (e ∈ eventCodes → e ≠ 0x0101 → e ≠ 0x0103 → e ≠ 0x0104 →
      exec (.devEventMask m) s = .next (complete c 0x00 0 [] (modFunc m.func (fun x =>
        { x with suppressed := (x.suppressed.filter (· != e)) ++ (if pBit c 2 0 then [e] else []) }) (takeCmd c s))))) ∧
  (∀ (m : Mbx) (s : State), Starts devPrimarySpec m s →
    let c := newCmd s 0x0106 m
    let u := takeCmd c s
    let p := m.func / 32
    (pByte c 0 = 0 → exec (.devPrimary m) s = .next (complete c 0x00 0 [BitVec.ofNat 8 (s.host.primary.getD 0xFF)] u)) ∧
    (pByte c 0 = 1 → s.host.primary = some p → (hostPort u (1 - p)).linkUp = false → exec (.devPrimary m) s = .next (complete c 0x15 0 [] u)) ∧
    (pByte c 0 = 1 → s.host.primary = some p → (hostPort u (1 - p)).linkUp = true →
      let t := moveRole (1 - p) u
      exec (.devPrimary m) s = .next (complete c 0x00 0 [BitVec.ofNat 8 (t.host.primary.getD 0xFF)] t)) ∧
    (pByte c 0 = 2 → s.host.primary = none →
      let t := moveRole p u
      exec (.devPrimary m) s = .next (complete c 0x00 0 [BitVec.ofNat 8 (t.host.primary.getD 0xFF)] t)) ∧
    (∀ q, pByte c 0 = 2 → s.host.primary = some q → q ≠ p → (hostPort u q).linkUp = true →
      exec (.devPrimary m) s = .next (complete c 0x06 0 [] u)))

/-- COMMAND_READ of an enabled, live queue whose head is behind its tail, with firmware free to start the command (a window that it opens not closed in the last 20 µs, R478): the head advances by one entry and the command is held under its tag, cookie and parameters. An unknown opcode completes with BAD_COMMAND and detail 0x8000; then a reserved bit of the descriptor's header or parameters with BAD_COMMAND and detail 0x8000 plus the offset of the first such byte; then a command denied to the function with NOT_PERMITTED; then one that the device state does not accept with BUSY. Only then do the command's own tests and its effect follow. A failed read of the ring stops the queue with QUEUE_ERROR cause 3. Completion stated of: commandRead. -/
def Obligations.CommandsAreCheckedInOrder : Prop :=
  ∀ (f q : Nat) (host : HostRead) (s : State), mayRead s f q = true →
    (∀ r : HostRead, (∀ b, r ≠ .ok b) → exec (.commandRead f q r host) s = .next (queueError f q 3 s)) ∧
    (∀ b : List Byte,
      let d := padTo 64 b
      let m := descMbx f q d host
      let u := modRing f q (fun r => { r with head := (r.head + 1) % r.size }) s
      mayStart d m s = true →
      (specOf (leAt d 0 2) = none →
        exec (.commandRead f q (.ok b) host) s = .next (complete (newCmd u 0 m) 0x16 0x8000 [] (takeCmd (newCmd u 0 m) u))) ∧
      (∀ sp i, specOf (leAt d 0 2) = some sp → descReserved d = some i →
        exec (.commandRead f q (.ok b) host) s = .next (complete (newCmd u 0 m) 0x16 (0x8000 + i) [] (takeCmd (newCmd u 0 m) u))) ∧
      (∀ sp, specOf (leAt d 0 2) = some sp → descReserved d = none → canStart u m = true →
        let c := newCmd u sp.op m
        let v := takeCmd c u
        (∀ i, firstReserved sp.allow 48 m.params = some i →
          exec (.commandRead f q (.ok b) host) s = .next (complete c 0x16 (0x8000 + (16 + i)) [] v)) ∧
        (firstReserved sp.allow 48 m.params = none → (groupOk v c sp.op = false ∨ sp.perm v c = false) →
          exec (.commandRead f q (.ok b) host) s = .next (complete c 0x06 0 [] v)) ∧
        (firstReserved sp.allow 48 m.params = none → groupOk v c sp.op = true → sp.perm v c = true → stateOk v sp.op = false →
          exec (.commandRead f q (.ok b) host) s = .next (complete c 0x15 0 [] v)) ∧
        (firstReserved sp.allow 48 m.params = none → groupOk v c sp.op = true → sp.perm v c = true → stateOk v sp.op = true →
          exec (.commandRead f q (.ok b) host) s = .next (answer c (sp.body c v)))))

/-- REGISTER_WRITE into control space of a running die: STEP_PERIOD_NS and STEP_ORIGIN (rw) take the value; STEP_RACK_TIME, STEP_COUNT and STEP_MISSED (ro) ignore it; MGT_ALERT (w1c) loses exactly the bits written as 1; ERR_CFG's hang limit and MGT_POWER_CFG's cap keep the 16 and 10 bits written. A write to BAR0's mirror, or one that is not 4 or 8 bytes at a multiple of its width, changes nothing (the latter is the model's choice, log entry 42). Nothing but the field named changes. Completion stated of: registerWrite. (Parts of R6, R43, R551, R623, R645, R666.) -/
def Obligations.RegisterWritesFollowTheirAccessCodes : Prop :=
  ∀ (s : State) (v : Nat), dieOn s = true → v < 2 ^ 32 →
    (s.step.periodNs < 2 ^ 32 → exec (.registerWrite .control 0x008 4 v) s = .next { s with step := { s.step with periodNs := v } }) ∧
    (s.step.origin < 2 ^ 64 → ∀ w, w < 2 ^ 64 → exec (.registerWrite .control 0x010 8 w) s = .next { s with step := { s.step with origin := w } }) ∧
    exec (.registerWrite .control 0x018 8 v) s = .next s ∧
    exec (.registerWrite .control 0x030 8 v) s = .next s ∧
    exec (.registerWrite .control 0x038 4 v) s = .next s ∧
    exec (.registerWrite .control 0xF00020 4 v) s = .next { s with isl := { s.isl with alert := s.isl.alert - (s.isl.alert &&& v) } } ∧
    exec (.registerWrite .control 0x1000008 4 v) s = .next { s with err := { s.err with hangMs := v % 2 ^ 16 } } ∧
    exec (.registerWrite .control 0xF0001C 4 v) s = .next { s with isl := { s.isl with cap := v % 2 ^ 10 } } ∧
    (∀ off width, off % width ≠ 0 → exec (.registerWrite .control off width v) s = .next s) ∧
    (∀ f off width, 0x10000 ≤ off → off < 0x20000 → exec (.registerWrite (.bar0 f) off width v) s = .next s)

/-- With page 0 selected, the mirror shows STEP_PART_LATE[p] to a PF and to a function of partition p, and zero to any other; STEP_COUNT to a PF and zero to a VF; the staged period to nobody. Two states that differ only in other partitions' counters look the same to a VF. PF_DEBUG_WINDOW_ACCESS from a PF that answers its host, within the window: closed, it reads as zero and ignores writes; open (MANUFACTURE, or RETURN with a vendor token), a read answers the selected page of control space and changes nothing else, and a write is a write of control space. Completion stated of: pfDebugWindowAccess. (Parts of R551, R552, R586, R638.) -/
def Obligations.MirrorAndDebugWindowShowWhatTheyMay : Prop :=
  (∀ (s : State) (f p : Nat), p < 16 → (func s f).mirrorSel = 0 →
    (f % 32 = 0 ∨ funcPart s f = some p → mirrorWord s f (0x200 + 4 * p) = Tbl.get 0 s.step.partLate p % 2 ^ 32) ∧
    (f % 32 ≠ 0 → funcPart s f ≠ some p → mirrorWord s f (0x200 + 4 * p) = 0) ∧
    (f % 32 = 0 → mirrorWord s f 0x030 = s.step.count % 2 ^ 32) ∧ (f % 32 ≠ 0 → mirrorWord s f 0x030 = 0) ∧ mirrorWord s f 0x008 = 0) ∧
  (∀ (s : State) (f p : Nat) (late : Tbl Nat), (func s f).mirrorSel = 0 → f % 32 ≠ 0 → funcPart s f = some p →
    Tbl.get 0 late p = Tbl.get 0 s.step.partLate p →
    ∀ off, off < 0x10000 → mirrorWord { s with step := { s.step with partLate := late } } f off = mirrorWord s f off) ∧
  (∀ (s : State) (f off width v : Nat), funcAnswers s f = true → f % 32 = 0 → accessOk off width = true → off < 0x20000 →
    (debugOpen s = false →
      exec (.pfDebugWindowAccess f off width none) s = .next { s with out := s.out ++ [.reg f (0x20000 + off) 0] } ∧
      exec (.pfDebugWindowAccess f off width (some v)) s = .next s) ∧
    (debugOpen s = true →
      exec (.pfDebugWindowAccess f off width none) s =
        .next { s with out := s.out ++ [.reg f (0x20000 + off) (ctlRead s ((func s f).dbgSel * 0x20000 + off) width)] } ∧
      exec (.pfDebugWindowAccess f off width (some v)) s = .next (ctlWrite ((func s f).dbgSel * 0x20000 + off) width v s)) ∧
    (debugOpen s = true ↔ s.isl.lc = 0 ∨ (s.isl.lc = 3 ∧ vendorToken s = true)))

/-- PART_CREATE of a free number (or the lowest free one), with primaries in no partition and quotas that fit, makes the partition with exactly those quotas and primaries and answers its number; an existing one is BUSY, quotas that do not fit are REFUSED_CAPACITY. PART_FUNC of an idle function that is no last primary assigns it, taking it from the partition it was in and losing its BAR2 map, or releases it; a busy one is BUSY. PART_QOS while stepping is stopped sets the credits and quotas its flags name; quotas that do not fit, or below use, are REFUSED_CAPACITY, and while stepping runs it waits. Completion stated of: partCreate, partFunc, partQos. (Parts of R587, R588, R589, R590, R595, R609, R698.) -/
def Obligations.PartitionsAreMadeAndGiven : Prop :=
  (∀ (m : Mbx) (s : State) (p : Nat) (a b : Option Nat), Starts partCreateSpec m s →
    let c := newCmd s 0x0202 m
    let u := takeCmd c s
    let fs := a.toList ++ b.toList.map (32 + ·)
    (if pBit c 1 0 then Tbl.free s.part.parts 16 else some (pByte c 0)) = some p →
    primOf (pByte c 2) 0 = some a → primOf (pByte c 3) 1 = some b → p < 16 → fs ≠ [] → pNum c 12 4 ≤ 262144 → (∀ f ∈ fs, funcPart s f = none) →
    (part? s p ≠ none → exec (.partCreate m) s = .next (complete c 0x15 0 [] u)) ∧
    (part? s p = none → quotasFit u p (pNum c 4 4) (pNum c 8 4) (pNum c 16 2) = false →
      exec (.partCreate m) s = .next (complete c 0x01 0 [] u)) ∧
    (part? s p = none → quotasFit u p (pNum c 4 4) (pNum c 8 4) (pNum c 16 2) = true →
      exec (.partCreate m) s = .next (complete c 0x00 0 [BitVec.ofNat 8 p] { u with part := { u.part with
        parts := Tbl.set none u.part.parts p (some {
          draining := false, drainFuncs := [], resetPend := none, primA := a, primB := b,
          t1Limit := pNum c 4 4, t2Limit := pNum c 8 4, t1Used := 0, t2Used := 0, reqLimit := pNum c 12 4, resRows := pNum c 16 2 }),
        funcs := fs.foldl (fun t f => Tbl.set none t f (some (p, true))) u.part.funcs } }))) ∧
  (∀ (m : Mbx) (s : State), Starts partFuncSpec m s →
    let c := newCmd s 0x0204 m
    let u := takeCmd c s
    let f := pByte c 0
    let p := pByte c 1
    (f < 64 → part? s p ≠ none → funcBusy u f = true → exec (.partFunc m) s = .next (complete c 0x15 0 [] u)) ∧
    (f < 64 → p ≠ 0xFF → part? s p ≠ none → funcBusy u f = false → Tbl.get none s.part.funcs f = none → pBit c 2 0 = false →
      exec (.partFunc m) s = .next (complete c 0x00 0 [] { u with part := { u.part with funcs := Tbl.set none u.part.funcs f (some (p, false)) } })) ∧
    (∀ q, f < 64 → p = 0xFF → funcBusy u f = false → Tbl.get none s.part.funcs f = some (q, false) →
      exec (.partFunc m) s = .next (complete c 0x00 0 [] (modPart (fun x => { x with funcs := Tbl.set none x.funcs f none })
        (modFunc f (fun x => { x with bar2 := none }) u))))) ∧
  (∀ (m : Mbx) (s : State), Starts partQosSpec m s →
    let c := newCmd s 0x0205 m
    let u := takeCmd c s
    let p := pByte c 0
    part? s p ≠ none → pByte c 2 ≤ 64 → pByte c 3 ≤ 64 → pByte c 4 ≤ 64 → pNum c 16 4 ≤ 262144 →
    (stepping s = true → exec (.partQos m) s = .next u) ∧
    (stepping s = false → pBit c 1 1 = true → quotasFit u p (pNum c 8 4) (pNum c 12 4) (pNum c 20 2) = false →
      exec (.partQos m) s = .next (complete c 0x01 0 [] u)) ∧
    (stepping s = false → pBit c 1 0 = true → pBit c 1 1 = false → activeProg u p = none →
      exec (.partQos m) s = .next (complete c 0x00 0 [] { u with
        t1 := { u.t1 with credit := Tbl.set 64 u.t1.credit p (pByte c 2) },
        t2 := { u.t2 with credit := Tbl.set 64 u.t2.credit p (pByte c 3) },
        fab := { u.fab with credit := Tbl.set 64 u.fab.credit p (pByte c 4) } })) ∧
    (stepping s = false → pBit c 1 0 = false → pBit c 1 1 = true → quotasFit u p (pNum c 8 4) (pNum c 12 4) (pNum c 20 2) = true →
      belowUse u p (pNum c 8 4) (pNum c 12 4) (pNum c 16 4) (pNum c 20 2) = false →
      exec (.partQos m) s = .next (complete c 0x00 0 [] (modPartn p (fun x =>
        { x with t1Limit := pNum c 8 4, t2Limit := pNum c 12 4, reqLimit := pNum c 16 4, resRows := pNum c 20 2 }) u))))

/-- PART_RESET and PART_DESTROY of a partition that exists leave a reset pending under the cause 1 or 4, or under the cause of one that was already pending, and take effect at once where no reserve is to come. PART_RESUME of a suspended partition, while stepping is stopped, lifts the suspension, clears its streak of overruns and raises PARTITION_RESUMED; of one not suspended it completes with OK. PART_QUERY fills a host buffer of 4,096 bytes with the partition's registers and functions (its layout is the implementation's, log entry 11). GRANULE_ZERO_COMPLETE zeroes the granule's 64 KiB, ends its poison and its detected errors and frees it. Completion stated of: partReset, partDestroy, partResume, partQuery, granuleZeroComplete. (Parts of R40, R602, R604, R608, R609, R611, R698.) -/
def Obligations.PartitionsAreResetResumedAndRead : Prop :=
  (∀ (m : Mbx) (s : State) (x : Part),
    (Starts partResetSpec m s → part? s (pByte (newCmd s 0x0206 m) 0) = some x →
      exec (.partReset m) s = .next (settleIdle (modPartn (pByte (newCmd s 0x0206 m) 0) (fun y => { y with resetPend := some (y.resetPend.getD 1) })
        (takeCmd (newCmd s 0x0206 m) s)))) ∧
    (Starts partDestroySpec m s → part? s (pByte (newCmd s 0x0203 m) 0) = some x →
      exec (.partDestroy m) s = .next (settleIdle (modPartn (pByte (newCmd s 0x0203 m) 0) (fun y => { y with resetPend := some (y.resetPend.getD 4) })
        (takeCmd (newCmd s 0x0203 m) s))))) ∧
  (∀ (m : Mbx) (s : State), Starts partResumeSpec m s →
    let c := newCmd s 0x0207 m
    let u := takeCmd c s
    let p := pByte c 0
    part? s p ≠ none → stepping s = false →
    (bit s.step.suspended p = false → exec (.partResume m) s = .next (complete c 0x00 0 [] u)) ∧
    (bit s.step.suspended p = true → exec (.partResume m) s = .next (complete c 0x00 0 [] (raiseTo 0x0205 p [.prims p, .primaryPf] (fields4 [p])
      { u with step := { u.step with suspended := u.step.suspended - 2 ^ p, streak := Tbl.set 0 u.step.streak p 0 } })))) ∧
  (∀ (m : Mbx) (s : State), Starts partQuerySpec m s →
    let c := newCmd s 0x0208 m
    let u := takeCmd c s
    let p := pByte c 0
    part? s p ≠ none → hostOk u c (pNum c 8 8) 4096 = true →
    exec (.partQuery m) s = .next (complete c 0x00 0 [] (writeHost m.func (pNum c 8 8) (padTo 4096 (Config.queryImage 0x0208
      ([prtCfg u p, prtQuota u p, Tbl.get 0 u.part.resets p, Tbl.get 0 u.part.fenced p, Tbl.get 0 u.part.eventsLost p] ++ functionsOf u p))) false u))) ∧
  (∀ (t g : Nat) (s : State), t < 2 → (tier s t).zeroing.contains g = true →
    let u := modTier t (fun x => { x with zeroing := x.zeroing.filter (· != g), poison := x.poison.filter (· / 1024 != g), coded := x.coded.filter (· / 1024 != g) })
      { s with mem := clearRange s.mem (tierBase t + 65536 * g) 65536 }
    exec (.granuleZeroComplete t g) s = .next (finishDestroys { u with part := { u.part with
      destroys := u.part.destroys.map fun d => (d.1, d.2.filter (· != (t, g))) } }))

/-- An increment of a hitch that would pass 0xFFFF_FFFF leaves it at 0xFFFF_FFFF, adds one to HCH_OVERFLOWS (saturating), records the hitch as the first fault where none is recorded, and raises HITCH_OVERFLOW to the primary functions of the hitch's partition. Any other increment adds exactly, with no overflow. Every other hitch keeps its value. -/
def Obligations.HitchIncrementsSaturate : Prop :=
  ∀ (h n : Nat) (s : State),
    (0xFFFFFFFF < hitchVal s h + n →
      ∃ u : State, incHitch h n s = raiseError 5 0x0801 (h / 4096) [.prims (h / 4096)] [] u ∧ hitchVal u h = 0xFFFFFFFF ∧
        u.hch.overflows = min (s.hch.overflows + 1) (2 ^ 32 - 1) ∧ (∀ k, k ≠ h → hitchVal u k = hitchVal s k) ∧
        (s.hch.faultValid = false → u.hch.faultValid = true ∧ u.hch.faultKind = 1 ∧ u.hch.faultPart = h / 4096 ∧ u.hch.faultObject = h) ∧
        hitchVal (incHitch h n s) h = 0xFFFFFFFF) ∧
    (hitchVal s h + n ≤ 0xFFFFFFFF → 0 < hitchVal s h + n →
      hitchVal (incHitch h n s) h = hitchVal s h + n ∧ (incHitch h n s).hch.overflows = s.hch.overflows ∧ (incHitch h n s).out = s.out ∧
        ∀ k, k ≠ h → hitchVal (incHitch h n s) k = hitchVal s k)

/-- HITCH_CONFIG while stepping is stopped sets value and target of each hitch of its range, and past 4,095 is BAD_COMMAND. HITCH_READ fills a host buffer with value and target of each. HITCH_SET, where R473 permits, sets the value (and target) by hand, counts it and raises HITCH_SET_BY_HAND; else NOT_PERMITTED. WIN_OPEN waits until 20 µs after a window's closing; then one of a closed window of the partition, over bytes that are the partition's, opens it with the sender and range given and answers its number and generation; an open one is BUSY. WIN_CLOSE closes and answers the generation, unchanged where it was closed. WIN_BIND makes a binding that is not stale and answers its number; one of another partition is NOT_PERMITTED. Completion stated of: hitchConfig, hitchRead, hitchSet, winOpen, winClose, winBind. (Parts of R460, R463, R473, R475, R478, R481, R492.) -/
def Obligations.HitchesAndWindowsAreCommanded : Prop :=
  (∀ (s : State) (h : Nat), (hitchReady s h = true ↔ hitchTgt s h ≤ hitchVal s h) ∧
    takeHitch h s = setHitch h (hitchVal s h - hitchTgt s h) s) ∧
  (∀ (m : Mbx) (s : State), Starts hitchConfigSpec m s →
    let c := newCmd s 0x0801 m
    let u := takeCmd c s
    (4096 < pNum c 0 2 + pNum c 2 2 → exec (.hitchConfig m) s = .next (complete c 0x16 0 [] u)) ∧
    (pNum c 0 2 + pNum c 2 2 ≤ 4096 → stepping s = true → exec (.hitchConfig m) s = .next u) ∧
    (pNum c 0 2 + pNum c 2 2 ≤ 4096 → stepping s = false →
      exec (.hitchConfig m) s = .next (complete c 0x00 0 [] ((List.range (pNum c 2 2)).foldl (fun v i =>
        let h := 4096 * (cmdPart c % 16) + (pNum c 0 2 + i) % 4096
        setTarget h (pNum c 8 4) (setHitch h (pNum c 4 4) v)) u)))) ∧
  (∀ (m : Mbx) (s : State), Starts hitchReadSpec m s →
    let c := newCmd s 0x0802 m
    let u := takeCmd c s
    let n := pNum c 2 2
    pNum c 0 2 + n ≤ 4096 → hostOk u c (pNum c 8 8) (8 * n) = true →
    exec (.hitchRead m) s = .next (complete c 0x00 0 [] (writeHost m.func (pNum c 8 8) (padTo (8 * n) ((List.range n).flatMap fun i =>
      leBytes 4 (hitchVal s (hitchOf (cmdPart c) (pNum c 0 2 + i))) ++ leBytes 4 (hitchTgt s (hitchOf (cmdPart c) (pNum c 0 2 + i))))) false u))) ∧
  (∀ (m : Mbx) (s : State), Starts hitchSetSpec m s →
    let c := newCmd s 0x0803 m
    let u := takeCmd c s
    let p := pByte c 0
    let h := hitchOf p (pNum c 2 2)
    p ≤ 15 → pNum c 2 2 ≤ 4095 →
    ((mayName c p = false ∨ handPermitted u p = false) → exec (.hitchSet m) s = .next (complete c 0x06 0 [] u)) ∧
    (mayName c p = true → handPermitted u p = true →
      let v := if pBit c 1 0 then setTarget h (pNum c 8 4) (setHitch h (pNum c 4 4) u) else setHitch h (pNum c 4 4) u
      exec (.hitchSet m) s = .next (complete c 0x00 0 [] (raiseTo 0x0804 p [.prims p, .pfs] []
        { v with hch := { v.hch with manualSets := min (v.hch.manualSets + 1) (2 ^ 32 - 1) } })))) ∧
  (∀ (m : Mbx) (s : State) (w : Nat), Starts winOpenSpec m s →
    let c := newCmd s 0x0810 m
    let u := takeCmd c s
    (if pBit c 1 0 then freeWindow u else some (pByte c 0)) = some w → w < 240 → ((win u w).inUse = true → (win u w).partition = cmdPart c) →
    ((win u w).opened = true → exec (.winOpen m) s = .next (complete c 0x15 0 [] u)) ∧
    ((win u w).opened = false → (∃ t, (win u w).closedAt = some t ∧ s.now < t + 20000) → exec (.winOpen m) s = .next s) ∧
    ((win u w).opened = false → (∀ t, (win u w).closedAt = some t → t + 20000 ≤ s.now) → windowRange u (cmdPart c) (pNum c 8 8) (pNum c 16 8) = none →
      exec (.winOpen m) s = .next (complete c 0x00 0 ([BitVec.ofNat 8 w, 0] ++ leBytes 2 (win u w).gen) (modWin w (fun x =>
        { x with opened := true, inUse := true, partition := cmdPart c, anySender := pBit c 3 7, sender := pNum c 2 2 % 4096,
                 base := pNum c 8 8, length := pNum c 16 8 }) u)))) ∧
  (∀ (m : Mbx) (s : State), Starts winCloseSpec m s →
    let c := newCmd s 0x0811 m
    let u := takeCmd c s
    let w := pByte c 0
    w < 240 → (win u w).inUse = true → (win u w).partition = cmdPart c →
    ((win u w).opened = false → pBit c 1 0 = false → exec (.winClose m) s = .next (complete c 0x00 0 ([0, 0] ++ leBytes 2 (win u w).gen) u)) ∧
    ((win u w).opened = true → pBit c 1 0 = false → (∀ i ∈ u.hch.inbound, i.window ≠ w) →
      exec (.winClose m) s = .next (complete c 0x00 0 ([0, 0] ++ leBytes 2 (((win u w).gen + 1) % 65536)) (modWin w (fun x =>
        { x with opened := false, gen := (x.gen + 1) % 65536, closedAt := some s.now }) u)))) ∧
  (∀ (m : Mbx) (s : State) (o : Nat), Starts winBindSpec m s →
    let c := newCmd s 0x0812 m
    let u := takeCmd c s
    (if pBit c 1 0 then Tbl.free u.hch.outs 256 else some (pByte c 0)) = some o → pNum c 2 2 ≤ 4095 →
    (∀ x, Tbl.get none u.hch.outs o = some x → x.fwOwned = true ∨ x.partition ≠ cmdPart c → exec (.winBind m) s = .next (complete c 0x06 0 [] u)) ∧
    (Tbl.get none u.hch.outs o = none → exec (.winBind m) s = .next (complete c 0x00 0 [BitVec.ofNat 8 o] { u with hch := { u.hch with
      outs := Tbl.set none u.hch.outs o (some {
        stale := false, chip := pNum c 2 2, window := pByte c 4, gen := pNum c 6 2, partition := cmdPart c, fwOwned := false }) } })))

/-- An entry of the home's epoch. With the participant's current bit clear it sets that bit; with only the current bit set it sets the next bit; with both set it is an overrun, and no barrier changes. An entry of another epoch changes no barrier and counts as stale. Where an entry completes the round, the release follows: the generation advances modulo 65,536, each next bit moves into its current bit, and the releases go out. -/
def Obligations.HomeBarriersHoldEntries : Prop :=
  ∀ (b i chip : Nat) (s : State) (x : Barrier) (p : PSlot), bar? s b = some x → x.proxy = false → x.slots[i]? = some p →
    (p.cur = false → (∃ j q, j ≠ i ∧ x.slots[j]? = some q ∧ q.cur = false) →
      homeEntry b i x.epoch chip s = (false, { s with hch := { s.hch with
        bars := Tbl.set none s.hch.bars b (some { x with slots := x.slots.set i { p with cur := true } }) } })) ∧
    (p.cur = true → p.next = false → (∃ j q, j ≠ i ∧ x.slots[j]? = some q ∧ q.cur = false) →
      homeEntry b i x.epoch chip s = (false, { s with hch := { s.hch with
        bars := Tbl.set none s.hch.bars b (some { x with slots := x.slots.set i { p with next := true } }) } })) ∧
    (p.cur = true → p.next = true →
      ∃ u : State, homeEntry b i x.epoch chip s = (true, raiseError 5 0x0805 x.partition [.prims x.partition] [] u) ∧
        u.hch.bars = s.hch.bars ∧ u.hch.barOverruns = min (s.hch.barOverruns + 1) (2 ^ 32 - 1)) ∧
    (∀ e, e ≠ x.epoch → homeEntry b i e chip s = (false, { s with hch := { s.hch with barStale := min (s.hch.barStale + 1) (2 ^ 32 - 1) } })) ∧
    (p.cur = false → (∀ j q, j ≠ i → x.slots[j]? = some q → q.cur = true) →
      ∃ u : State, (homeEntry b i x.epoch chip s).2 = u ∧
        let y : Barrier := { x with
          gen := (x.gen + 1) % 65536, slots := (x.slots.set i { p with cur := true }).map (fun q => { q with cur := q.next, next := false }),
          waiters := laterRounds x }
        u = sendReleases b y false (releaseLocal (firstRound x) false { s with hch := { s.hch with
          bars := Tbl.set none (Tbl.set none s.hch.bars b (some { x with slots := x.slots.set i { p with cur := true } })) b (some y) } }))

/-- BAR_CONFIG of a proxy, or of a home from a list in host memory that is well formed and whose slots the pool supplies, puts the barrier in place unbroken under its number's epoch. BAR_FREE of a barrier of the partition at which nobody waits removes it; while a participant waits it is BUSY. BAR_FORCE, where R473 permits, breaks the barrier. A received entry of a participant that its home knows enters it; one the home does not know is answered broken and counted as bad. A received release reaches the proxy of that home: of its epoch it releases the oldest entry's waiters, broken it releases all of a proxy with an entry outstanding, else it counts as stale. A chip silent for 50 ms, or one that leaves, departs: CHIP_DEPARTED, its barriers broken, bindings to it stale. Completion stated of: barConfig, barFree, barForce, barEntryReceived, barReleaseReceived, heartbeatTimeout, leaveReceived. (Parts of R482, R485, R488, R489, R492, R520, R521, R695, R696.) -/
def Obligations.BarriersAreConfiguredBrokenAndPassedOn : Prop :=
  (∀ (m : Mbx) (s : State) (b : Nat), Starts barConfigSpec m s →
    let c := newCmd s 0x0820 m
    let u := takeCmd c s
    (if pBit c 2 0 then Tbl.free u.hch.bars 1024 else some (pNum c 0 2)) = some b → b ≤ 1023 → bar? u b = none →
    (pBit c 2 1 = true → pNum c 6 2 ≤ 4095 → pNum c 8 2 ≤ 1023 → pNum c 10 2 ≤ 1023 →
      exec (.barConfig m) s = .next (complete c 0x00 0 [] { u with hch := { u.hch with bars := Tbl.set none u.hch.bars b (some {
        proxy := true, homeChip := pNum c 6 2, homeBar := pNum c 8 2, partIndex := pNum c 10 2, broken := false, partition := cmdPart c,
        slots := [], slotBase := 0, epoch := Tbl.get 0 u.hch.barEpoch b, gen := 0, waiters := [], outstanding := 0 }) } })) ∧
    (∀ bs base, pBit c 2 1 = false → 1 ≤ pNum c 4 2 → pNum c 4 2 ≤ 1024 → HostGives c u (pNum c 16 8) (4 * pNum c 4 2) bs →
      let xs := (List.range (pNum c 4 2)).map fun i => leAt (padTo (4 * pNum c 4 2) bs) (4 * i) 4
      xs.all pslotOk = true →
      freeSlots { u with hch := { u.hch with bars := Tbl.set none u.hch.bars b none } } (pNum c 4 2) = some base →
      exec (.barConfig m) s = .next (complete c 0x00 0 [] (noteAts m.func (((busAddr u m.func (pNum c 16 8) (4 * pNum c 4 2)).map fun a => a.2.2).getD 0)
        (4 * pNum c 4 2) { u with hch := { u.hch with bars := Tbl.set none u.hch.bars b (some {
          proxy := false, homeChip := 0, homeBar := 0, partIndex := 0, broken := false, partition := cmdPart c,
          slots := xs.map pslotOf, slotBase := base, epoch := Tbl.get 0 u.hch.barEpoch b, gen := 0, waiters := [], outstanding := 0 }) } })))) ∧
  (∀ (m : Mbx) (s : State) (x : Barrier),
    (Starts barFreeSpec m s → bar? s (pNum (newCmd s 0x0821 m) 0 2) = some x → x.partition = cmdPart (newCmd s 0x0821 m) →
      let u := takeCmd (newCmd s 0x0821 m) s
      (barBusy x = true → x.broken = false → exec (.barFree m) s = .next (complete (newCmd s 0x0821 m) 0x15 0 [] u)) ∧
      (barBusy x = false ∨ x.broken = true → exec (.barFree m) s = .next (complete (newCmd s 0x0821 m) 0x00 0 []
        { u with hch := { u.hch with bars := Tbl.set none u.hch.bars (pNum (newCmd s 0x0821 m) 0 2) none } }))) ∧
    (Starts barForceSpec m s → bar? s (pNum (newCmd s 0x0822 m) 0 2) = some x →
      let c := newCmd s 0x0822 m
      let u := takeCmd c s
      (mayName c x.partition = false ∨ handPermitted u x.partition = false → exec (.barForce m) s = .next (complete c 0x06 0 [] u)) ∧
      (mayName c x.partition = true → handPermitted u x.partition = true →
        exec (.barForce m) s = .next (complete c 0x00 0 [] (breakBarrier (pNum c 0 2) u))))) ∧
  (∀ (p : Packet) (s : State) (x : Barrier) (q : PSlot), Accepts [4] p s →
    let b := Pk.field p.w1 0 10
    let i := Pk.field p.w1 10 10
    let e := Pk.field p.w1 20 8
    bar? s b = some x → x.proxy = false → x.slots[i]? = some q → q.chip = Pk.src p → q.kind = Pk.field p.w1 28 3 →
    (x.broken = false → exec (.barEntryReceived p) s = .next (homeEntry b i e (Pk.src p) s).2) ∧
    (x.broken = true → x.epoch = e → exec (.barEntryReceived p) s = .next (sendPacket none (releasePacket s (Pk.src p) b 0 true e) s))) ∧
  (∀ (p : Packet) (s : State) (b : Nat) (x : Barrier), Accepts [5] p s →
    (s.hch.bars.find? fun q => q.2.any fun x => x.proxy && x.homeChip == Pk.src p && x.homeBar == Pk.field p.w1 0 10) = some (b, some x) →
    (Pk.field p.w1 26 1 = 1 → x.outstanding ≠ 0 → exec (.barReleaseReceived p) s = .next (releaseLocal (x.waiters.map Prod.fst) true
      (modBar b (fun y => { y with waiters := [], outstanding := 0, broken := true }) s))) ∧
    (Pk.field p.w1 26 1 ≠ 1 → Pk.field p.w1 27 8 = x.epoch → x.outstanding ≠ 0 →
      exec (.barReleaseReceived p) s = .next (releaseLocal (firstRound x) false
        (modBar b (fun y => { y with gen := Pk.field p.w1 10 16, outstanding := y.outstanding - 1, waiters := laterRounds x }) s))) ∧
    (x.outstanding = 0 ∨ (Pk.field p.w1 26 1 ≠ 1 ∧ Pk.field p.w1 27 8 ≠ x.epoch) →
      exec (.barReleaseReceived p) s = .next { s with hch := { s.hch with barStale := min (s.hch.barStale + 1) (2 ^ 32 - 1) } })) ∧
  (∀ (chip t : Nat) (s : State), dieOn s = true → Tbl.get none s.fab.joined chip = some t →
    (t + 50000000 ≤ s.now → exec (.heartbeatTimeout chip) s = .next (departChip chip s)) ∧
    (s.now < t + 50000000 → exec (.heartbeatTimeout chip) s = .next s)) ∧
  (∀ (p : Packet) (s : State), Accepts [8] p s → Pk.src p ≠ s.fab.chip →
    exec (.leaveReceived p) s = .next (departChip (Pk.src p) s))

/-- On a running die: FLIT_CRC_ERROR on a port whose link is in training, isolated or up counts a correctable error, a replay of the port and one more replay without progress. PORT_RETRAIN once there were eight trains the port again: its retrain count goes up and it is in training with no lane up. LANE_TRAINING_DONE with success brings the lanes up and clears the count of failures; the first two failures in succession are counted, the third takes the port down (PEER_DEPARTED if it was up). LINK_ID_SEND of a port in training with lanes up, a millisecond or more after its last, sends LINK_ID on that port. FABRIC_IDENTITY_ASSIGN writes coordinates, chip number and system identifier, sets assigned, makes the chip the time root where FAB_TIME_CFG has named its number (a reading of log entry 19), and sends LINK_ID at once on every port that waits for it. Completion stated of: flitCrcError, portRetrain, laneTrainingDone, linkIdSend, fabricIdentityAssign. (Parts of R496, R497, R504, R510, R519.) -/
def Obligations.LinksReplayRetrainAndFail : Prop :=
  (∀ (n : Nat) (s : State), dieOn s = true → n < 12 → 1 ≤ (port s n).state → (port s n).state ≤ 3 →
    exec (.flitCrcError n) s = .next (countError 1 (modPort n (fun p =>
      { p with replays := min (p.replays + 1) (2 ^ 32 - 1), sinceProgress := p.sinceProgress + 1 }) s)) ∧
    (8 ≤ (port s n).sinceProgress → exec (.portRetrain n) s = .next (checkBonds (modPort n (fun p =>
      { p with
        state := 1, retrains := min (p.retrains + 1) (2 ^ 16 - 1), lanesUp := 0, sinceProgress := 0, timeHops := none, lastLinkId := none,
        peerAssigned := false }) s)))) ∧
  (∀ (n lanes : Nat) (s : State), dieOn s = true → n < 12 → (port s n).state = 1 →
    exec (.laneTrainingDone n true lanes) s = .next (modPort n (fun p => { p with lanesUp := lanes % 16, trainFails := 0, sinceProgress := 0 }) s) ∧
    ((port s n).trainFails < 2 →
      exec (.laneTrainingDone n false lanes) s = .next (modPort n (fun p => { p with trainFails := p.trainFails + 1 }) s)) ∧
    (2 ≤ (port s n).trainFails →
      exec (.laneTrainingDone n false lanes) s = .next (checkBonds (portLost n (modPort n (fun p =>
        { p with state := 0, lanesUp := 0, sinceProgress := 0, trainFails := 0, timeHops := none, lastLinkId := none }) s)))) ∧
    ((port s n).lanesUp ≠ 0 → (∀ t, (port s n).lastLinkId = some t → t + 1000000 ≤ s.now) →
      exec (.linkIdSend n) s = .next (transmit n none (linkId s n) (modPort n (fun p => { p with lastLinkId := some s.now }) s)))) ∧
  (∀ (rack sled slot chip sys : Nat) (s : State), dieOn s = true →
    let u : State := { s with
      fab := { s.fab with
        assigned := true, rack := rack % 256, sled := sled % 64, slot := slot % 16, chip := chip % 4096, systemId := sys % 2 ^ 64, timeRoot := s.fab.timeSet && decide (chip % 4096 = s.fab.rootChip) } }
    exec (.fabricIdentityAssign rack sled slot chip sys) s = .next
      (((List.range 12).filter fun n => decide ((port s n).state = 1) && decide ((port s n).lanesUp ≠ 0)).foldl (fun v n =>
        transmit n none (linkId v n) (modPort n (fun p => { p with lastLinkId := some s.now }) v)) u))

/-- A LINK_ID that reaches a port in training with its lanes up is noted (peer chip, peer port, peer's assigned). While either side is unassigned the port stays in training. Otherwise: a peer of the same system under another chip number puts the port up and raises PEER_JOINED; a foreign system isolates it with PEER_FOREIGN; the chip's own number isolates it with CHIP_CONFLICT; a port that was up before raises PEER_DEPARTED as well. HEARTBEAT_SEND of an assigned chip, 10 ms or more after the last, sends a heartbeat to every chip with a valid route. A received heartbeat of another chip is noted, and raises CHIP_JOINED when it is the first; one that claims this chip's number from other coordinates raises CHIP_CONFLICT. Completion stated of: linkIdReceived, heartbeatSend, heartbeatReceived. (Parts of R504, R518, R519, R520, R521.) -/
def Obligations.PeersAreAdmittedByTheirIdentity : Prop :=
  (∀ (n : Nat) (p : Packet) (s : State), n < 12 → (port s n).state = 1 → (port s n).lanesUp ≠ 0 → Accepts [9] p s →
    let u := modPort n (fun q => { q with peerChip := Pk.src p, peerPort := bits (Pk.arg p) 1 4, peerAssigned := bit (Pk.arg p) 0 })
      { modPort n (fun q => { q with sinceProgress := 0 }) s with
        fab := { (modPort n (fun q => { q with sinceProgress := 0 }) s).fab with pktsRx := min (s.fab.pktsRx + 1) (2 ^ 64 - 1) } }
    ((s.fab.assigned = false ∨ bit (Pk.arg p) 0 = false) → exec (.linkIdReceived n p) s = .next u) ∧
    (s.fab.assigned = true → bit (Pk.arg p) 0 = true → leAt p.payload 0 8 = s.fab.systemId → Pk.src p ≠ s.fab.chip →
      exec (.linkIdReceived n p) s = .next (checkBonds (raiseTo 0x0704 0xFF [.pfs] [] (modPort n (fun q => { q with state := 3, wasUp := true }) u)))) ∧
    (s.fab.assigned = true → bit (Pk.arg p) 0 = true → leAt p.payload 0 8 ≠ s.fab.systemId →
      exec (.linkIdReceived n p) s = .next (checkBonds (raiseError 6 0x0702 0xFF [.pfs] [] (portLost n (modPort n (fun q => { q with state := 2 }) u))))) ∧
    (s.fab.assigned = true → bit (Pk.arg p) 0 = true → leAt p.payload 0 8 = s.fab.systemId → Pk.src p = s.fab.chip →
      exec (.linkIdReceived n p) s = .next (checkBonds (raiseError 6 0x0703 0xFF [.pfs] [] (portLost n (modPort n (fun q => { q with state := 2 }) u)))))) ∧
  (∀ (n : Nat) (s : State), ((port s n).wasUp = false → portLost n s = s) ∧
    ((port s n).wasUp = true → portLost n s = raiseError 6 0x0705 0xFF [.pfs] [] (modPort n (fun p => { p with wasUp := false }) s))) ∧
  (∀ s : State, dieOn s = true → s.fab.assigned = true → (∀ t, s.fab.lastHeartbeat = some t → t + 10000000 ≤ s.now) →
    exec .heartbeatSend s = .next ((routedChips s).foldl (fun v c =>
      sendPacket none (mkPacket v 7 c 0 0 (ownCoords v) 0 0 (leBytes 8 v.fab.systemId ++ List.replicate 24 0)) v)
        { s with fab := { s.fab with lastHeartbeat := some s.now } }) ∧
    ∀ c, c ∈ routedChips s ↔ (c ∈ Tbl.keys s.fab.routes ∧ (route s c).valid = true ∧ c ≠ s.fab.chip)) ∧
  (∀ (p : Packet) (s : State), Accepts [7] p s →
    let u : State := { s with fab := { s.fab with joined := Tbl.set none s.fab.joined (Pk.src p) (some s.now) } }
    (Pk.src p ≠ s.fab.chip → (Tbl.get none s.fab.joined (Pk.src p)).isSome = true → exec (.heartbeatReceived p) s = .next u) ∧
    (Pk.src p ≠ s.fab.chip → Tbl.get none s.fab.joined (Pk.src p) = none →
      exec (.heartbeatReceived p) s = .next (raiseTo 0x0706 0xFF [.pfs] [] u)) ∧
    (Pk.src p = s.fab.chip → Pk.coords p ≠ (s.fab.rack, s.fab.sled, s.fab.slot) →
      exec (.heartbeatReceived p) s = .next (raiseError 6 0x0703 0xFF [.pfs] [] s)) ∧
    (Pk.src p = s.fab.chip → Pk.coords p = (s.fab.rack, s.fab.sled, s.fab.slot) → exec (.heartbeatReceived p) s = .next s))

/-- A packet of a routed type that reaches an up port of an assigned chip, in its lifetime. For this chip it goes to the chip's own receiver. For another chip, with hops already 3 it is discarded, FAB_DROPS_HOPS goes up and nothing is sent. Else, where the destination's entry is invalid or neither mask has an up port, it is discarded, FAB_DROPS_NOROUTE goes up (with an uncorrectable-error count), and a NAK with NO_RESOURCE goes to its sender unless it is itself a NAK or DONE. Else it is sent, with one more hop, on a port that is up and stands in the entry's primary mask, or, only where no primary port is up, in the alternate mask. A packet thus crosses at most four links, carried with hops 0 to 3. Completion stated of: routerForward. -/
def Obligations.TheRouterForwardsOrDiscards : Prop :=
  ∀ (n : Nat) (p : Packet) (s : State), portUp s n = true → Accepts [1, 2, 3, 4, 5, 7, 8] p s →
    let u := gotPacket n s
    let r := route s (Pk.dst p)
    let q : Packet := { p with w1 := p.w1 + 0x0010000000000000#64 }
    (Pk.dst p = s.fab.chip → exec (.routerForward n p) s = .next { u with out := u.out ++ [.loopback p] }) ∧
    (Pk.dst p ≠ s.fab.chip → 3 ≤ Pk.hops p →
      exec (.routerForward n p) s = .next { u with fab := { u.fab with dropsHops := min (u.fab.dropsHops + 1) (2 ^ 32 - 1) } }) ∧
    (Pk.dst p ≠ s.fab.chip → Pk.hops p < 3 → Pk.hops q = Pk.hops p + 1 ∧ Pk.dst q = Pk.dst p ∧ Pk.src q = Pk.src p ∧ Pk.type q = Pk.type p ∧
      (let v : State := { countError 4 u with fab := { u.fab with dropsNoRoute := min (u.fab.dropsNoRoute + 1) (2 ^ 32 - 1) } }
       ((r.valid = false ∨ ∀ k, k < 12 → portUp s k = true → bit r.primary k = false ∧ bit r.alternate k = false) →
         ((Pk.type p = 2 ∨ Pk.type p = 3) → exec (.routerForward n p) s = .next v) ∧
         (Pk.type p ≠ 2 → Pk.type p ≠ 3 → exec (.routerForward n p) s = .next (sendNak q 0x07 v)))) ∧
      (∀ j, r.valid = true → j < 12 → portUp s j = true → (bit r.primary j = true ∨ bit r.alternate j = true) →
        ∃ k v, choosePort q u = (some k, v) ∧ exec (.routerForward n p) s = .next (transmit k none q v) ∧ v.out = s.out ∧
          k < 12 ∧ portUp s k = true ∧ (bit r.primary k = true ∨
            (bit r.alternate k = true ∧ ∀ i, i < 12 → portUp s i = true → bit r.primary i = false))))

/-- TIME_EXCHANGE_SEND on a port that is up, or trained and waiting for its peer, a millisecond or more after its last, sends a TIME request with rack time as t1, the root and the hops to it. A received request notes the peer's hops and is answered with the sender's t1 and rack time twice. A reply from the time parent that sits at the root, to the request outstanding, gives the offset t2 - t1 - ((t4 - t1) - (t3 - t2)) / 2; it is written to FAB_TIME_OFFSET and corrects rack time as R527 says: none with RACKREF, in one step above 100 µs, slewed below. Deeper in the tree the part of the path's sum that no packet carries is a free value (log entry 19), on which this statement does not rest. FAB_TIME_CFG names the root, and whether this chip is it and its rack's reference. Completion stated of: timeExchangeSend, timeReceived, fabTimeCfg. (Parts of R522 to R527.) -/
def Obligations.RackTimeIsExchangedAndCorrected : Prop :=
  (∀ (n : Nat) (s : State), dieOn s = true → n < 12 → ((port s n).state = 3 ∨ ((port s n).state = 1 ∧ (port s n).lanesUp ≠ 0)) →
    (∀ t, (port s n).lastTime = some t → t + 1000000 ≤ s.now) →
    exec (.timeExchangeSend n) s = .next (transmit n none
      (mkPacket s 6 0 0 0 0 (2 * rootHops s + s.fab.rootChip % 4096 * 512) 0 (leBytes 8 (rack s) ++ List.replicate 24 0))
      (modPort n (fun q => { q with lastTime := some s.now, t1 := some (rack s) }) s))) ∧
  (∀ (n : Nat) (p : Packet) (s : State), n < 12 → ((port s n).state = 3 ∨ ((port s n).state = 1 ∧ (port s n).lanesUp ≠ 0)) → Accepts [6] p s →
    let hops := bits (Pk.arg p) 1 8
    let v := modPort n (fun q => { q with timeHops := if hops ≠ 0xFF ∧ bits (Pk.arg p) 9 12 = s.fab.rootChip then some hops else none }) (gotPacket n s)
    (bit (Pk.arg p) 0 = false →
      exec (.timeReceived n p) s = .next (transmit n none (mkPacket v 6 0 0 0 0 (1 + 2 * rootHops v + s.fab.rootChip % 4096 * 512) 0
        (sliceBytes p.payload 0 8 ++ leBytes 8 (rack s) ++ leBytes 8 (rack s) ++ List.replicate 8 0)) v)) ∧
    (bit (Pk.arg p) 0 = true → s.fab.timeRoot = false → timeParent v = some (n, 0) → hops = 0 → (port v n).t1 = some (leAt p.payload 0 8) →
      let t1 : Int := leAt p.payload 0 8
      let t2 : Int := leAt p.payload 8 8
      let t3 : Int := leAt p.payload 16 8
      let t4 : Int := rack s
      let off : Int := t2 - t1 - ((t4 - t1) - (t3 - t2)) / 2
      let w := modPort n (fun q => { q with t1 := none }) { v with fab := { v.fab with timeOffset := toSigned 32 (ofSigned 32 off) } }
      (s.step.rackref = true → exec (.timeReceived n p) s = .next w) ∧
      (s.step.rackref = false → 100000 < off.natAbs → exec (.timeReceived n p) s = .next
        { w with fab := { w.fab with slewRest := 0 }, step := { w.step with rackTime := w.step.rackTime + BitVec.ofInt 64 off } }) ∧
      (s.step.rackref = false → off.natAbs ≤ 100000 → exec (.timeReceived n p) s = .next { w with fab := { w.fab with slewRest := off } }))) ∧
  (∀ (m : Mbx) (s : State), Starts fabTimeCfgSpec m s →
    let c := newCmd s 0x0704 m
    let u := takeCmd c s
    pNum c 0 2 ≤ 4095 → exec (.fabTimeCfg m) s = .next (complete c 0x00 0 [] { u with fab := { u.fab with
      timeSet := true, rootChip := pNum c 0 2, timeRoot := s.fab.assigned && decide (s.fab.chip = pNum c 0 2), timeRef := pBit c 2 0 } }))

/-- FAB_ROUTE_LOAD of a table in host memory: BAD_COMMAND where a reserved bit of an entry is set, or local is set for another entry than the chip's own or not set there; else REFUSED_SCHEDULE where E lies less than 100 µs ahead; else the table is staged with E. ROUTE_APPLY_UNSTEPPED copies it at E while stepping is not enabled and raises ROUTE_APPLIED to both PFs. FAB_BOND of 2, 3, 4 or 6 ports that no other group holds (or of none) sets the group; of a port in another group, or another size, BAD_COMMAND. FAB_PORT_CTRL holds a port down, releases a held one into training, or retrains one. FAB_INJECT, where R539 permits, sets the port's FAB_INJ and restarts its generator; else NOT_PERMITTED. FAB_QUERY fills 64 KiB of host memory. Completion stated of: fabRouteLoad, routeApplyUnstepped, fabBond, fabPortCtrl, fabInject, fabQuery. (Parts of R500, R516, R517, R537, R539, R540.) -/
def Obligations.FabricCommandsTakeEffect : Prop :=
  (∀ (m : Mbx) (s : State) (bs : List Byte), Starts fabRouteLoadSpec m s →
    let c := newCmd s 0x0701 m
    let u := takeCmd c s
    HostGives c u (pNum c 0 8) 32768 bs →
    let v := noteAts m.func (((busAddr u m.func (pNum c 0 8) 32768).map fun a => a.2.2).getD 0) 32768
    (pNum c 8 8 < rack s + 100000 → routesOk s.fab.chip (padTo 32768 bs) = true → exec (.fabRouteLoad m) s = .next (complete c 0x02 0 [] (v u))) ∧
    ((∃ k, k < 4096 ∧ (bit (leAt (padTo 32768 bs) (8 * k) 8) 62 ≠ decide (k = s.fab.chip) ∨
        bits (leAt (padTo 32768 bs) (8 * k) 8) 28 33 ≠ 0 ∨ bits (leAt (padTo 32768 bs) (8 * k) 8) 12 4 ≠ 0)) →
      exec (.fabRouteLoad m) s = .next (complete c 0x16 0 [] (v u))) ∧
    (rack s + 100000 ≤ pNum c 8 8 → routesOk s.fab.chip (padTo 32768 bs) = true →
      exec (.fabRouteLoad m) s = .next (complete c 0x00 0 [] (v { u with fab := { u.fab with
        stagedRoutes := routeTable (padTo 32768 bs), stagedE := some (pNum c 8 8) } })))) ∧
  (∀ (s : State) (e : Nat), dieOn s = true → stepping s = false → s.fab.stagedE = some e → e ≤ rack s →
    exec .routeApplyUnstepped s = .next (raiseTo 0x0708 0xFF [.pfs] [] { s with fab := { s.fab with routes := s.fab.stagedRoutes, stagedE := none } })) ∧
  (∀ (m : Mbx) (s : State), Starts fabBondSpec m s →
    let c := newCmd s 0x0702 m
    let u := takeCmd c s
    let g := pByte c 0
    let k := pNum c 2 2
    g ≤ 5 → k ≤ 4095 →
    (((∃ b ∈ s.fab.bonds, b.1 ≠ g ∧ b.2 &&& k ≠ 0) ∨ (k ≠ 0 ∧ maskCount k ∉ [2, 3, 4, 6])) →
      exec (.fabBond m) s = .next (complete c 0x16 0 [] u)) ∧
    ((∀ b ∈ s.fab.bonds, b.1 ≠ g → b.2 &&& k = 0) → (k = 0 ∨ maskCount k ∈ [2, 3, 4, 6]) →
      exec (.fabBond m) s = .next (complete c 0x00 0 [] (checkBonds { u with fab := { u.fab with bonds := Tbl.set 0 u.fab.bonds g k } })))) ∧
  (∀ (m : Mbx) (s : State), Starts fabPortCtrlSpec m s →
    let c := newCmd s 0x0703 m
    let u := takeCmd c s
    let n := pByte c 0
    n ≤ 11 →
    (pByte c 1 = 0 → exec (.fabPortCtrl m) s = .next (complete c 0x00 0 [] (portDown n 4 u))) ∧
    (pByte c 1 = 1 → (port s n).state = 4 → exec (.fabPortCtrl m) s = .next (complete c 0x00 0 [] (modPort n (fun p => { p with state := 1 }) u))) ∧
    (pByte c 1 = 2 → (port s n).state ≠ 4 → exec (.fabPortCtrl m) s = .next (complete c 0x00 0 [] (portTrain n u))) ∧
    (2 < pByte c 1 → exec (.fabPortCtrl m) s = .next (complete c 0x16 0 [] u))) ∧
  (∀ (m : Mbx) (s : State), Starts fabInjectSpec m s →
    let c := newCmd s 0x0720 m
    let u := takeCmd c s
    let n := pByte c 0
    let x := pNum c 8 16
    let j := injectOfNat x
    let ok := lcPermits s fun t => bit t.scope 1 && bit t.injectPorts n && decide (j.partitions &&& t.injectParts = j.partitions)
    n ≤ 11 →
    (ok = false → exec (.fabInject m) s = .next (complete c 0x06 0 [] u)) ∧
    (ok = true → exec (.fabInject m) s = .next (complete c 0x00 0 [] (modPort n (fun p => { p with draws := 0, held := [] })
      { u with fab := { u.fab with inject := Tbl.set none u.fab.inject n (some j) } })))) ∧
  (∀ (m : Mbx) (s : State), Starts fabQuerySpec m s →
    let c := newCmd s 0x0730 m
    let u := takeCmd c s
    hostOk u c (pNum c 8 8) 65536 = true →
    exec (.fabQuery m) s = .next (complete c 0x00 0 [] (writeHost m.func (pNum c 8 8) (padTo 65536 (fabImage u)) false u)))

/-- On a running die, a received packet of a known type whose age (rack time in µs minus birth, modulo 2^24) exceeds 1,000,000 µs changes nothing but FAB_DROPS_AGE, which goes up by one (saturating), and, where it came on a port, that port's count of replays without progress (zero) and the count of packets received: nothing is sent, no window, transfer, barrier, hitch or chip hears of it. This holds for the router, for WRITE, DONE, NAK, BAR_ENTRY, BAR_RELEASE, HEARTBEAT and LEAVE packets, and for TIME and LINK_ID packets on a link. -/
def Obligations.PacketsPastTheirLifetimeVanish : Prop :=
  ∀ (n : Nat) (p : Packet) (s : State), dieOn s = true →
    1000000 < (rack s / 1000 % 2 ^ 24 + 2 ^ 24 - Pk.birth p) % 2 ^ 24 →
    let old : State := { s with fab := { s.fab with dropsAge := min (s.fab.dropsAge + 1) (2 ^ 32 - 1) } }
    let u : State := if 12 ≤ n then s else
      { s with fab := { (modPort n (fun q => { q with sinceProgress := 0 }) s).fab with pktsRx := min (s.fab.pktsRx + 1) (2 ^ 64 - 1) } }
    let oldAt : State := { u with fab := { u.fab with dropsAge := min (s.fab.dropsAge + 1) (2 ^ 32 - 1) } }
    (portUp s n = true → Pk.type p ∈ [1, 2, 3, 4, 5, 7, 8] → exec (.routerForward n p) s = .next oldAt) ∧
    ((12 ≤ n ∨ portUp s n = true) → Pk.type p = 1 → exec (.writePacketReceived n p) s = .next oldAt) ∧
    (Pk.type p = 2 → exec (.doneReceived p) s = .next old) ∧
    (Pk.type p = 3 → exec (.nakReceived p) s = .next old) ∧
    (Pk.type p = 4 → exec (.barEntryReceived p) s = .next old) ∧
    (Pk.type p = 5 → exec (.barReleaseReceived p) s = .next old) ∧
    (Pk.type p = 7 → exec (.heartbeatReceived p) s = .next old) ∧
    (Pk.type p = 8 → exec (.leaveReceived p) s = .next old) ∧
    (n < 12 → ((port s n).state = 3 ∨ ((port s n).state = 1 ∧ (port s n).lanesUp ≠ 0)) → Pk.type p = 6 →
      exec (.timeReceived n p) s = .next oldAt) ∧
    (n < 12 → (port s n).state = 1 → (port s n).lanesUp ≠ 0 → Pk.type p = 9 → exec (.linkIdReceived n p) s = .next oldAt)

/-- A WRITE packet for this chip. Where its window is open, its generation the window's, its sender permitted and its bytes within the range, and the packet is well formed under R506, it is accepted: a transfer already tracked takes it, a new one is tracked from it while fewer than 4,096 are. Where the window is closed or the generation differs it is dropped with a NAK of WINDOW_CLOSED; where the sender or the bytes are wrong, with a NAK of NOT_PERMITTED. Either drop adds one to the window's drop count, counts the error, records the first in HCH_FAULT, writes no byte, and marks the packet's transfer, where one is tracked, as one that never completes. Completion stated of: writePacketReceived. -/
def Obligations.WindowsAdmitOrDropPackets : Prop :=
  ∀ (n : Nat) (p : Packet) (s : State), (12 ≤ n ∨ portUp s n = true) → Accepts [1] p s → Pk.dst p = s.fab.chip →
    let u := gotPacket n s
    let w := Pk.window p
    let x := win s w
    let ours := x.opened = true ∧ x.gen = Pk.gen p
    let sender := x.anySender = true ∨ x.sender = Pk.src p
    let within := x.base ≤ Pk.addr p ∧ Pk.addr p + p.payload.length ≤ x.base + x.length
    let drop (st : Nat) : State := sendNak p st (hchFault 2 x.partition st (Pk.src p) w
      (modWin w (fun y => { y with dropped := min (y.dropped + 1) (2 ^ 32 - 1) })
        (countError 4 (modInbound (Pk.src p) (Pk.tag p) (fun i => { i with dropped := true }) u))))
    (¬ours → exec (.writePacketReceived n p) s = .next (drop 0x0E)) ∧
    (ours → ¬(sender ∧ within) → exec (.writePacketReceived n p) s = .next (drop 0x06)) ∧
    (∀ st, (drop st).t1 = s.t1 ∧ (drop st).t2 = s.t2 ∧ (drop st).sp = s.sp ∧ (drop st).hch.inbound.map Inbound.accepted = s.hch.inbound.map Inbound.accepted ∧
      (drop st).now = s.now ∧
      (win (drop st) w).dropped = min (x.dropped + 1) (2 ^ 32 - 1)) ∧
    (ours → sender → within → (Pk.addr p < 0x20000000 → Pk.addr p % 1024 = 0 ∧ p.payload.length = 640) →
      (∀ i, inboundOf s (Pk.src p) (Pk.tag p) = some i → exec (.writePacketReceived n p) s = .next (acceptPacket x p u)) ∧
      (inboundOf s (Pk.src p) (Pk.tag p) = none → s.hch.inbound.length < 4096 →
        exec (.writePacketReceived n p) s = .next (acceptPacket x p { u with hch := { u.hch with inbound := u.hch.inbound ++
          [{ chip := Pk.src p, tag := Pk.tag p, window := w, gen := Pk.gen p, accepted := 0, total := none, increment := 0, hitch := 0,
             dropped := false, lastAt := s.now, awaiting := [] }] } })) ∧
      (inboundOf s (Pk.src p) (Pk.tag p) = none → 4096 ≤ s.hch.inbound.length →
        exec (.writePacketReceived n p) s = .next (sendNak p 0x15 { u with hch := { u.hch with trackFull := min (u.hch.trackFull + 1) (2 ^ 32 - 1) } })))

/-- An accepted packet that need not wait for its row is written for the window's owner and counted, a poisoned one as an error of class 2; the last one brings the count, the increment and the hitch. One that writes a transient row of a partition that is not running, or a row of a cache bank, waits for the row, a blocked access that is counted. REMOTE_TRANSFER_COMPLETE of a transfer of which every packet was accepted, none dropped, and whose rows all are written ends its tracking, applies the increment (to the hitch of the window's partition, or to firmware's arrivals) and sends DONE; before that nothing happens. TRANSFER_ABANDON 100 ms or more after its last packet abandons it: no increment, the awaiting rows cleared of await, HCH_ABANDONED counted, the first recorded with kind 5, TRANSFER_ABANDONED raised to the window's owner. Completion stated of: remoteTransferComplete, transferAbandon. (Parts of R467, R469, R477, R480.) -/
def Obligations.TransfersCompleteOrAreAbandoned : Prop :=
  (∀ (x : Win) (p : Packet) (s : State),
    let at_ := place (Pk.addr p) (max 1 p.payload.length)
    let got (k : Option Nat) : State := modInbound (Pk.src p) (Pk.tag p) (fun i =>
      { i with
        accepted := i.accepted + 1, lastAt := s.now, awaiting := i.awaiting.filter fun j => !decide (k = some j),
        total := if Pk.last p then some (Pk.count p) else i.total, increment := if Pk.last p then Pk.increment p else i.increment,
        hitch := if Pk.last p then Pk.hitch p else i.hitch }) (applyWrite x p (if Pk.poison p then countError 2 s else s))
    (∀ f r, at_ = .row f r → rowWaits s (if x.fwOwned then none else some x.partition) f r = false →
      acceptPacket x p s = got (some (f * 32768 + r))) ∧
    (∀ t off, at_ = .tier t off → acceptPacket x p s = got none) ∧
    (∀ f r, at_ = .row f r → rowWaits s (if x.fwOwned then none else some x.partition) f r = true →
      let k := f * 32768 + r
      acceptPacket x p s = modInbound (Pk.src p) (Pk.tag p)
        (fun i => if i.awaiting.contains k then i else { i with awaiting := i.awaiting ++ [k], lastAt := s.now })
        (countBlocked (k / 32768) { s with sp := { s.sp with tags := Tbl.set 0 s.sp.tags k (Tbl.get 0 s.sp.tags k / 16 * 16 + 4) } }))) ∧
  (∀ (chip tag : Nat) (s : State) (i : Inbound), inboundOf s chip tag = some i →
    ((i.dropped = true ∨ i.total ≠ some i.accepted ∨ i.awaiting ≠ []) → exec (.remoteTransferComplete chip tag) s = .next s) ∧
    (i.dropped = false → i.total = some i.accepted → i.awaiting = [] →
      let u : State := { s with hch := { s.hch with inbound := s.hch.inbound.filter fun y => !(y.chip == chip && y.tag == tag) } }
      let v : State :=
        if i.increment = 0 then u
        else if (win s i.window).fwOwned then modWin i.window (fun y => { y with arrivals := min (y.arrivals + i.increment) (2 ^ 32 - 1) }) u
        else incHitch (4096 * ((win s i.window).partition % 16) + i.hitch % 4096) i.increment
          { u with hch := { u.hch with remoteIncs := min (u.hch.remoteIncs + 1) (2 ^ 64 - 1) } }
      exec (.remoteTransferComplete chip tag) s = .next (sendPacket none (mkPacket v 2 i.chip (i.tag * 65536) 0 0 0 0 []) v)) ∧
    (s.now < i.lastAt + 100000000 → exec (.transferAbandon chip tag) s = .next s) ∧
    (dieOn s = true → i.lastAt + 100000000 ≤ s.now →
      let w := win s i.window
      let u : State := { s with hch := { s.hch with
        inbound := s.hch.inbound.filter fun y => !(y.chip == i.chip && y.tag == i.tag), abandoned := min (s.hch.abandoned + 1) (2 ^ 32 - 1) } }
      exec (.transferAbandon chip tag) s = .next (raiseError 5 0x0802 (if w.fwOwned then 0xFF else w.partition) [.prims w.partition] []
        (hchFault 5 w.partition 0x0C i.chip i.window (i.awaiting.foldl (fun v k =>
          { v with sp := { v.sp with tags := Tbl.set 0 v.sp.tags k (Tbl.get 0 v.sp.tags k / 16 * 16) } }) u)))))

/-- For a transfer of this chip: DONE ends it with success for the engine that waits. A NAK with BUSY puts the refused packet among those to send again and leaves the transfer otherwise unchanged; BUSY_RESEND sends it with a new birth once 2 µs have passed, which counts as the last packet leaving. A NAK with another status ends the transfer with that status, WINDOW_CLOSED making its binding stale too. SENDER_TIMEOUT, with nothing to send again and 200 ms after the last packet left, ends it with TIMEOUT. Ending a transfer removes it and its tag from whoever waits; the first failure is kept. Completion stated of: doneReceived, nakReceived, busyResend, senderTimeout. (Parts of R468, R481, R508.) -/
def Obligations.SendersHearOfTheirTransfers : Prop :=
  (∀ (p : Packet) (s : State) (o : Outbound), Pk.dst p = s.fab.chip → (s.fab.outbound.find? fun x => decide (x.tag = Pk.tag p)) = some o →
    (Accepts [2] p s → exec (.doneReceived p) s = .next (endTransfer o none s)) ∧
    (Accepts [3] p s →
      (∀ q, bits (Pk.arg p) 0 8 = 0x15 → (o.packets.find? fun q => decide (Pk.addr q = Pk.addr p)) = some q →
        exec (.nakReceived p) s = .next { s with fab := { s.fab with outbound := s.fab.outbound.map fun x =>
          if x.tag = o.tag then { x with resend := x.resend ++ [(q, s.now)] } else x } }) ∧
      (bits (Pk.arg p) 0 8 = 0x0E → exec (.nakReceived p) s = .next (endTransfer o (some 0x0E)
        { s with hch := { s.hch with outs := s.hch.outs.map fun b => if b.1 = o.binding then (b.1, b.2.map fun x => { x with stale := true }) else b } })) ∧
      (bits (Pk.arg p) 0 8 ≠ 0x15 → bits (Pk.arg p) 0 8 ≠ 0x0E → exec (.nakReceived p) s = .next (endTransfer o (some (bits (Pk.arg p) 0 8)) s)))) ∧
  (∀ (tag : Nat) (s : State) (o : Outbound), (s.fab.outbound.find? fun x => decide (x.tag = tag)) = some o → dieOn s = true →
    (∀ q t rest, o.resend = (q, t) :: rest → t + 2000 ≤ s.now →
      exec (.busyResend tag) s = .next (sendPacket o.part (reborn s q) { s with fab := { s.fab with outbound := s.fab.outbound.map fun x =>
        if x.tag = tag then { x with resend := rest, lastAt := s.now } else x } })) ∧
    (∀ q t rest, o.resend = (q, t) :: rest → s.now < t + 2000 → exec (.busyResend tag) s = .next s) ∧
    (o.resend = [] → o.lastAt + 200000000 ≤ s.now → exec (.senderTimeout tag) s = .next (endTransfer o (some 0x0C) s)) ∧
    (s.now < o.lastAt + 200000000 → exec (.senderTimeout tag) s = .next s)) ∧
  (∀ (o : Outbound) (st : Option Nat) (s : State),
    let u : State := { s with fab := { s.fab with outbound := s.fab.outbound.filter fun x => x.tag != o.tag } }
    (∀ r, o.knot = false → (engine s o.engine).cur = some r → r.awaiting.contains o.tag = true →
      endTransfer o st s = modEngine o.engine (fun x => { x with cur := some { r with
        awaiting := r.awaiting.filter (· != o.tag), failed := if r.failed.isSome then r.failed else st } }) u) ∧
    (∀ k, o.knot = true → (fabEng s o.engine).cur = some k → k.tags.contains o.tag = true →
      endTransfer o st s = modFabEng o.engine (fun x => { x with cur := some { k with
        tags := k.tags.filter (· != o.tag), failed := if k.failed.isSome then k.failed else st } }) u))

/-- For an engine of a running die whose knot has come to SEND, COMBINE or COPY: where an operand cannot be reached, is not the partition's, or (SEND) the binding cannot be used, the knot fails with that status. Where a row must be waited for the turn is counted in the fields that hold it, and nothing else changes; a SEND also waits while no transfer tag is free. Otherwise SEND reads its bytes, sends them through the binding with the increment on the last packet, and remembers the transfer; COMBINE reads both operands, adds or takes the larger element by element and writes the destination; COPY writes what it read, bytes of a tier that go to no row with the poison of each 64-byte block; the latter two apply their increment; and the engine goes on to the next operation. Effective addresses add the named register where its flag is set. Completion stated of: knotSend, knotCombine, knotCopy. (Parts of R531 to R535.) -/
def Obligations.KnotsMoveDataBetweenRowsTiersAndChips : Prop :=
  (∀ (e : Nat) (h : ReadIn) (s : State) (r : KnotRun), AtKnotOp 1 e r s →
    let o := Kn.opAt (knotImage s r.knot) r.op
    let x := (knotSrc r o, Kn.length o)
    let held := knotHeld s r.part true x
    let chip := ((Tbl.get none s.hch.outs (Kn.binding o)).map OutBind.chip).getD 0
    let bad := firstFault [knotFault s r.part false x h.host, if extentOk true (knotDst r o, Kn.length o) then none else some 0x16,
      bindFault s r.part (Kn.binding o) chip]
    (∀ st, bad = some st → exec (.knotSend e h) s = .next (failKnot e st r (countRead st s))) ∧
    (bad = none → held ≠ [] → exec (.knotSend e h) s = .next (knotWaits held s)) ∧
    (bad = none → held = [] → tagFree s = false → exec (.knotSend e h) s = .next s) ∧
    (bad = none → held = [] → tagFree s = true →
      let a := knotRead r.part x h.host (readFinds (rowsOf [x]) [x] h s)
      let t := sendTransfer true e r.part (Kn.binding o) (if Kn.hitchEn o then Kn.inc o else 0) (Kn.hitch o % 4096)
        (sendPieces (knotDst r o) a.1.1 a.1.2) a.2
      exec (.knotSend e h) s = .next (gotoOp e (r.op + 1) (modKnot e (fun k => { k with tags := k.tags ++ [t.1] }) t.2)))) ∧
  (∀ (e : Nat) (h g : ReadIn) (s : State) (r : KnotRun), AtKnotOp 2 e r s →
    let o := Kn.opAt (knotImage s r.knot) r.op
    let n := Kn.length o
    let x := (knotSrc r o, n)
    let y := (knotDst r o, n)
    let held := knotHeld s r.part true x ++ knotHeld s r.part true y
    let bad := firstFault [if n % (if Kn.fmt o = 6 then 2 else 4) = 0 then none else some 0x16,
      knotFault s r.part false x h.host, knotFault s r.part true y g.host, knotFault s r.part false y g.host]
    (∀ st, bad = some st → exec (.knotCombine e h g) s = .next (failKnot e st r (countRead st s))) ∧
    (bad = none → held ≠ [] → exec (.knotCombine e h g) s = .next (knotWaits held s)) ∧
    (bad = none → held = [] →
      let a := knotRead r.part x h.host (readFinds (rowsOf [y]) [y] g (readFinds (rowsOf [x]) [x] h s))
      let b := knotRead r.part y g.host a.2
      exec (.knotCombine e h g) s = .next (localDone e r o
        (knotWrite r.part y.1 (combineBytes (Kn.fmt o) (Kn.isMax o) b.1.1 a.1.1) (a.1.2 || b.1.2) b.2)))) ∧
  (∀ (e : Nat) (h : ReadIn) (s : State) (r : KnotRun), AtKnotOp 3 e r s →
    let o := Kn.opAt (knotImage s r.knot) r.op
    let x := (knotSrc r o, Kn.length o)
    let y := (knotDst r o, Kn.length o)
    let held := knotHeld s r.part true x ++ knotHeld s r.part false y
    let bad := firstFault [knotFault s r.part false x h.host, knotFault s r.part true y h.host]
    (∀ st, bad = some st → exec (.knotCopy e h) s = .next (failKnot e st r (countRead st s))) ∧
    (bad = none → held ≠ [] → exec (.knotCopy e h) s = .next (knotWaits held s)) ∧
    (bad = none → held = [] →
      let u := readFinds (rowsOf [x]) [x] h s
      let a := knotRead r.part x h.host u
      exec (.knotCopy e h) s = .next (localDone e r o ((copyRuns u x y.1 a.1).foldl (fun v w => knotWrite r.part w.1 w.2.1 w.2.2 v) a.2)))) ∧
  (∀ (r : KnotRun) (o : List Byte),
    (bit (Kn.flags o) 4 = true → knotSrc r o = (Kn.src o + (r.regs.getD (bits (Kn.flags o) 2 2) (0, 0)).2) % 2 ^ 64) ∧
    (bit (Kn.flags o) 7 = true → knotDst r o = (Kn.dst o + (r.regs.getD (bits (Kn.flags o) 5 2) (0, 0)).2) % 2 ^ 64) ∧
    (bit (Kn.flags o) 4 = false → Kn.src o < 2 ^ 64 → knotSrc r o = Kn.src o) ∧ (bit (Kn.flags o) 7 = false → Kn.dst o < 2 ^ 64 → knotDst r o = Kn.dst o))

/-- For an engine of a running die whose knot has come to the operation named. WAIT proceeds when its hitch's value has reached the target, which it consumes, else nothing changes; INC increments the hitch; BARRIER enters, with wait set then waits for the release, a broken one failing the knot with TIMEOUT, an overrun with BARRIER_OVERRUN; SETREG sets span and value; ADVREG adds modulo a span that is not 0; LOOP loads a counter that is 0, decrements it, and jumps back while it is not 0; END applies done_hitch and the engine takes its next launch. A knot whose SEND failed, or that stands at a bad operation, fails whatever is asked of it: the engine notes the status, done_hitch is applied, the results are reported with it, KNOT_FAILED is raised. Completion stated of: knotWait, knotInc, knotBarrier, knotSetreg, knotAdvreg, knotLoop, knotEnd. (Parts of R463, R483, R486, R489, R531, R532, R535.) -/
def Obligations.KnotsSynchroniseAndLoop : Prop :=
  (∀ (e : Nat) (s : State) (r : KnotRun),
    let o := Kn.opAt (knotImage s r.knot) r.op
    let h := 4096 * (r.part % 16) + Kn.hitch o % 4096
    (AtKnotOp 4 e r s →
      (hitchTgt s h ≤ hitchVal s h → exec (.knotWait e) s = .next (gotoOp e (r.op + 1) (setHitch h (hitchVal s h - hitchTgt s h) s))) ∧
      (hitchVal s h < hitchTgt s h → exec (.knotWait e) s = .next s)) ∧
    (AtKnotOp 5 e r s → exec (.knotInc e) s = .next (gotoOp e (r.op + 1) (incHitch h (Kn.inc o) s))) ∧
    (AtKnotOp 6 e r s →
      let en := enterBarrier r.part (Kn.hitch o % 1024) (e + 1) (Kn.wait o) s
      (r.waiting = true → releasedFor s (e + 1) = none → exec (.knotBarrier e) s = .next s) ∧
      (r.waiting = true → releasedFor s (e + 1) = some false → exec (.knotBarrier e) s = .next (gotoOp e (r.op + 1) (takeRelease (e + 1) s))) ∧
      (r.waiting = true → releasedFor s (e + 1) = some true → exec (.knotBarrier e) s = .next (failKnot e 0x0C r (takeRelease (e + 1) s))) ∧
      (r.waiting = false → en.1 = none → Kn.wait o = true → exec (.knotBarrier e) s = .next (modKnot e (fun k => { k with waiting := true }) en.2)) ∧
      (r.waiting = false → en.1 = none → Kn.wait o = false → exec (.knotBarrier e) s = .next (gotoOp e (r.op + 1) en.2)) ∧
      (r.waiting = false → en.1 = some 0x0F → exec (.knotBarrier e) s = .next (failKnot e 0x0F r en.2))) ∧
    (AtKnotOp 7 e r s → exec (.knotSetreg e) s = .next (gotoOp e (r.op + 1)
      (modKnot e (fun k => { k with regs := k.regs.set (Kn.reg o % 4) (Kn.src o, Kn.dst o) }) s))) ∧
    (AtKnotOp 8 e r s → ∀ span v, r.regs.getD (Kn.reg o % 4) (0, 0) = (span, v) → 0 < span →
      exec (.knotAdvreg e) s = .next (gotoOp e (r.op + 1) (modKnot e (fun k => { k with
        regs := k.regs.set (Kn.reg o % 4) (span, ((toSigned 64 v + toSigned 64 (Kn.dst o)) % (span : Int)).toNat) }) s))) ∧
    (AtKnotOp 9 e r s →
      let j := Kn.reg o % 2
      let n := (if r.counters.getD j 0 = 0 then Kn.length o else r.counters.getD j 0) - 1
      (n = 0 → exec (.knotLoop e) s = .next (gotoOp e (r.op + 1) (modKnot e (fun k => { k with counters := k.counters.set j 0 }) s))) ∧
      (0 < n → exec (.knotLoop e) s = .next (gotoOp e (Kn.target o) (modKnot e (fun k => { k with counters := k.counters.set j n }) s)))) ∧
    (AtKnotOp 0 e r s → exec (.knotEnd e) s = .next (takeKnot e (applyDone r (modFabEng e (fun x => { x with cur := none, busy := false }) s))))) ∧
  (∀ (e st : Nat) (s : State) (r : KnotRun), dieOn s = true → e < 4 → (fabEng s e).cur = some r → knotStop s r = some st →
    let t := failKnot e st r s
    exec (.knotWait e) s = .next t ∧ exec (.knotInc e) s = .next t ∧ exec (.knotBarrier e) s = .next t ∧ exec (.knotSetreg e) s = .next t ∧
    exec (.knotAdvreg e) s = .next t ∧ exec (.knotLoop e) s = .next t ∧ exec (.knotEnd e) s = .next t ∧
    (∀ h, exec (.knotSend e h) s = .next t ∧ exec (.knotCopy e h) s = .next t ∧ ∀ g, exec (.knotCombine e h g) s = .next t) ∧
    t = takeKnot e (raiseError 6 0x0709 r.part [.prims r.part] [] (faultSegment r.part st 5 e 0 (applyDone r
      (modFabEng e (fun x => { x with cur := none, busy := false, failed := true, status := st, op := r.op }) s)))))

/-- KNOT_LOAD of a number of the partition (or of none) with no launch of it queued or running: an image whose header is well formed and whose operations have no reserved bit set (BAD_COMMAND otherwise), where the store has room, is kept under the number for the partition; of another partition NOT_PERMITTED, over a loaded one without replace BAD_COMMAND, past 1 MiB NO_RESOURCE. KNOT_UNLOAD of an own knot that nobody runs removes it; a busy one is BUSY. KNOT_ABORT stops an own knot, which fails with ABORTED_CANCEL; another partition's is NOT_PERMITTED. A launch by the running partition of its own loaded knot joins the engine's queue of 16, and an idle engine takes it; else FAB_KNOT_BAD goes up and the segment's results carry NOT_PERMITTED or NO_RESOURCE. Completion stated of: knotLoad, knotUnload, knotAbort. (Parts of R529, R530, R535, R540.) -/
def Obligations.KnotCommandsLoadUnloadAndAbort : Prop :=
  (∀ (m : Mbx) (s : State), Starts knotLoadSpec m s →
    let c := newCmd s 0x0710 m
    let u := takeCmd c s
    let k := pNum c 0 2
    let n := pNum c 16 4
    k ≤ 4095 → 64 ≤ n → n ≤ 8224 →
    (∀ i, knot? s k = some i → i.part ≠ cmdPart c → exec (.knotLoad m) s = .next (complete c 0x06 0 [] u)) ∧
    (∀ i, knot? s k = some i → i.part = cmdPart c → pBit c 2 0 = false → exec (.knotLoad m) s = .next (complete c 0x16 0 [] u)) ∧
    (∀ bs, (∀ i, knot? s k = some i → i.part = cmdPart c ∧ pBit c 2 0 = true) → knotBusy s k = false → HostGives c u (pNum c 8 8) n bs →
      let v := noteAts m.func (((busAddr u m.func (pNum c 8 8) n).map fun a => a.2.2).getD 0) n
      (Kn.headerOk (padTo n bs) = false ∨ (∃ j, j < Kn.ops (padTo n bs) ∧ Kn.dirty (Kn.opAt (padTo n bs) j) = true) →
        exec (.knotLoad m) s = .next (complete c 0x16 0 [] (v u))) ∧
      (Kn.headerOk (padTo n bs) = true → (∀ j, j < Kn.ops (padTo n bs) → Kn.dirty (Kn.opAt (padTo n bs) j) = false) →
      (knotBytes s k + n ≤ 0x100000 → exec (.knotLoad m) s = .next (complete c 0x00 0 [] (v
        { u with fab := { u.fab with knots := Tbl.set none u.fab.knots k (some { part := cmdPart c, image := padTo n bs }) } }))) ∧
      (0x100000 < knotBytes s k + n → exec (.knotLoad m) s = .next (complete c 0x07 0 [] (v u)))))) ∧
  (∀ (m : Mbx) (s : State) (i : KnotImg), Starts knotUnloadSpec m s →
    let c := newCmd s 0x0711 m
    let u := takeCmd c s
    let k := pNum c 0 2
    k ≤ 4095 → knot? s k = some i → i.part = cmdPart c →
    (knotBusy s k = true → exec (.knotUnload m) s = .next (complete c 0x15 0 [] u)) ∧
    (knotBusy s k = false → exec (.knotUnload m) s = .next (complete c 0x00 0 []
      { u with fab := { u.fab with knots := Tbl.set none u.fab.knots k none } }))) ∧
  (∀ (m : Mbx) (s : State) (r : KnotRun), Starts knotAbortSpec m s →
    let c := newCmd s 0x0712 m
    let u := takeCmd c s
    pByte c 0 ≤ 3 → (fabEng s (pByte c 0)).cur = some r →
    (r.part ≠ cmdPart c → exec (.knotAbort m) s = .next (complete c 0x06 0 [] u)) ∧
    (r.part = cmdPart c → exec (.knotAbort m) s = .next (complete c 0x00 0 [] (failKnot (pByte c 0) 0x09 r u)))) ∧
  (∀ (part e k : Nat) (s : State),
    let bad (st : Nat) : State := faultSegment part st 5 e 0
      { countError 4 s with fab := { s.fab with knotBad := min (s.fab.knotBad + 1) (2 ^ 32 - 1) } }
    ((∀ i, knot? s k = some i → i.part ≠ part) → launchKnot part e k s = bad 0x06) ∧
    (∀ i, knot? s k = some i → i.part = part →
      (16 ≤ (fabEng s e).queue.length → launchKnot part e k s = bad 0x07) ∧
      ((fabEng s e).queue.length < 16 →
        launchKnot part e k s = takeKnot e (modFabEng e (fun x => { x with queue := x.queue ++ [(k, part)] }) s))))

/-- For each of the eleven operations, an engine on an accepted descriptor of it that has not moved. Where its binding or its read of host memory fails, the descriptor fails with that status and moves nothing. Where rows block it, only the count of blocked accesses of each field that holds one goes up, once in a turn; without a free tag a transfer waits. Otherwise the codes' findings are noted, every source row is read, the operation's transcoder makes the pieces of the destination (and of aux), and they land: written at once, or sent as one transfer whose end is awaited. Where the transcoder refuses, it fails with METADATA_FAULT. In particular PACK_T5P refuses a source byte other than 0x00, 0x01 and 0xFF, COPY hands the bytes on as they are (from a tier to elsewhere than scratchpad with the poison of each 64-byte block), FILL gives zeros, and landing marks the descriptor moved. Completion stated of: streamCopy, expandTile, packT5p, quant, narrow, widen, mxIn, frcEnc, frcDec, plane, fill. (Parts of R303, R308, R312 to R316, R390.) -/
def Obligations.StreamEnginesMoveTheirDescriptors : Prop :=
  (let moves := fun (op : Nat) (i : Nat → ReadIn → Instr) (xf : State → ChainRun → Desc → List (List Byte × Bool) → Option Pieces) =>
     ∀ (e : Nat) (h : ReadIn) (s : State) (r : ChainRun), AtDesc op e r s →
       let d := curDesc r
       let held := blockedRows s r d
       let xs := srcExtents r.chain d
       let v := readFinds (rowsOf xs ++ (descMapRows r.chain d).map fun x => (0, x)) xs h s
       let a := readRows r.chain d (hostBytes h.host) v
       (∀ st, moveFault s r.chain d h.host = some st →
         exec (i e h) s = .next (modRun e (fun r => { r with failed := some st }) (countRead st s))) ∧
       (moveFault s r.chain d h.host = none → held ≠ [] →
         exec (i e h) s = .next ((held.map Prod.fst).eraseDups.foldl (fun u f => countBlocked f u) s)) ∧
       (moveFault s r.chain d h.host = none → held = [] → Ds.remote d = true → tagFree s = false → exec (i e h) s = .next s) ∧
       (moveFault s r.chain d h.host = none → held = [] → (Ds.remote d = false ∨ tagFree s = true) →
         (∀ ps, xf v r d a.1 = some ps →
           exec (i e h) s = .next (land e r d ps (accessRows false (chainPart r.chain) 0 false (descMapRows r.chain d) a.2).2)) ∧
         (xf v r d a.1 = none → exec (i e h) s = .next (modRun e (fun r => { r with failed := some 0x11 }) a.2)))
   moves 0 .streamCopy copyPieces ∧
   moves 1 .expandTile (rowwise fun _ d bs => expandTile (Ds.square d) bs) ∧
   moves 2 .packT5p (rowwise fun _ d bs => (packTrits (bs.take d.length)).map fun b => [b]) ∧
   moves 3 .quant quantPieces ∧
   moves 4 .narrow narrowPieces ∧
   moves 5 .widen (rowwise convertRow) ∧
   moves 6 .mxIn (rowwise fun r d bs => (mxRow (Ds.srcFmt d) (Ds.dstFmt d) bs).map (layBlks (Ds.dstFmt d) (dstSp r.chain d))) ∧
   moves 7 .frcEnc (rowwise fun r d bs => (srcVals (Ds.srcFmt d) (srcSp r.chain d) bs).map fun v => [frcEncRow (Ds.dstFmt d) v]) ∧
   moves 8 .frcDec (rowwise fun r d bs => some (layVals (Ds.dstFmt d) (dstSp r.chain d) (Ds.fixed d) (frcDecRow (Ds.srcFmt d) bs))) ∧
   moves 9 .plane planePieces ∧
   moves 10 .fill (rowwise fillRow)) ∧
  (∀ bs : List Byte, packTrits bs = none ↔ ∃ b ∈ bs, b ≠ 0x00 ∧ b ≠ 0x01 ∧ b ≠ 0xFF) ∧
  (∀ (r : ChainRun) (d : Desc) (bs : List Byte), dstSp r.chain d = false →
    copyRow r d bs = some [bs] ∧ fillRow r d bs = some [List.replicate d.length 0]) ∧
  (∀ (s : State) (r : ChainRun) (d : Desc) (rows : List (List Byte × Bool)), dstSp r.chain d = true →
    copyPieces s r d rows = rowwise copyRow s r d rows) ∧
  (∀ (f : Nat) (s : State), countBlocked f s = modFld f (fun x => if x.blockedAt = some (wheelTurn s) then x else
    { x with blockedAt := some (wheelTurn s), tagBlocks := min (x.tagBlocks + 1) (2 ^ 64 - 1) }) s) ∧
  (∀ (e : Nat) (r : ChainRun) (d : Desc) (ps : Pieces) (s : State) (q : ChainRun), Ds.remote d = false →
    (engine (ps.1.foldl (fun s x => writePiece r.chain d x s) (ps.2.foldl (fun s x => writePiece r.chain d x s) s)) e).cur = some q →
    (engine (land e r d ps s) e).cur = some { q with moved := true, poisoned := q.poisoned || (ps.1 ++ ps.2).any (fun x => x.2.2), awaiting := [] })

/-- STREAM_CHAIN_START of an idle engine takes the first chain of its program queue, or, only while that is empty, of its background queue. DESCRIPTOR_COMPLETE of a moved descriptor whose transfer is over applies its increment where it is local, drops its discarded lines, counts it and its bytes, and goes on to the next or ends the chain (POISONED where it read poisoned data). DESCRIPTOR_FAIL of a refused descriptor changes nothing while a transient row of it or of a later one waits for its program; else it makes the rows of all of them full and poisoned, applies their increments, records the first failure, counts it, raises STREAM_FAILED and ends the chain. MEM_COPY of a list with no reserved or relative bit queues one background chain; with one it is BAD_COMMAND. MEM_T3_UNMAP removes an own window at once, or, while a transfer uses it, when that ends. Completion stated of: streamChainStart, descriptorComplete, descriptorFail, memCopy, memT3Unmap. (Parts of R304, R306, R308, R310, R311, R321, R327, R693.) -/
def Obligations.StreamChainsStartEndAndFail : Prop :=
  (∀ (e : Nat) (s : State), dieOn s = true → e < 32 → (engine s e).cur = none →
    (∀ c rest, (engine s e).queue = c :: rest →
      exec (.streamChainStart e) s = .next (acceptDesc e (modEngine e (fun x => { x with queue := rest, cur := some (runOf c) }) s))) ∧
    (∀ c rest, (engine s e).queue = [] → (engine s e).back = c :: rest →
      exec (.streamChainStart e) s = .next (acceptDesc e (modEngine e (fun x => { x with back := rest, cur := some (runOf c) }) s))) ∧
    ((engine s e).queue = [] → (engine s e).back = [] → exec (.streamChainStart e) s = .next s)) ∧
  (∀ (e : Nat) (s : State) (r : ChainRun), dieOn s = true → (engine s e).cur = some r → r.failed = none →
    let d := curDesc r
    let u := dropHints r.chain d (if Ds.remote d = false ∧ Ds.hitchEn d = true
      then incHitch (4096 * (chainPart r.chain % 16) + d.hitch % 4096) d.increment s else s)
    let v : State := { u with str := { u.str with
      descs := min (u.str.descs + 1) (2 ^ 64 - 1), bytes := min (u.str.bytes + if d.op = 10 then 0 else d.length * d.rows) (2 ^ 64 - 1) } }
    ((r.moved = false ∨ r.awaiting ≠ []) → exec (.descriptorComplete e) s = .next s) ∧
    (r.moved = true → r.awaiting = [] → Ds.last d = true →
      exec (.descriptorComplete e) s = .next (endChain e (if r.poisoned then 0x0B else 0x00) v)) ∧
    (r.moved = true → r.awaiting = [] → Ds.last d = false → exec (.descriptorComplete e) s = .next (nextDesc e v))) ∧
  (∀ (e st x : Nat) (s : State) (r : ChainRun), dieOn s = true → (engine s e).cur = some r → r.failed = some st →
    let c := r.chain
    let d := curDesc r
    let ds := if d.reserved || (!Ds.last d && decide (c.table.length ≤ d.next % 4096)) || decide (4096 < r.seen) then [d] else restOf c r.idx (r.seen - 1)
    let waits := ∃ y ∈ ds, y.reserved = false ∧ y.op ≤ 10 ∧ ∃ k ∈ descRows c y, transientWaits s (some (chainPart c)) k.1 k.2 = true
    (waits → exec (.descriptorFail e x) s = .next s) ∧
    (¬ waits →
    let u := ds.foldl (fun s y => failDesc c st y s) s
    exec (.descriptorFail e x) s = .next (endChain e st (raiseError 6 0x0602 (chainPart c) [.prims (chainPart c)] [] { u with str := { u.str with
      faultValid := true, failed := min (u.str.failed + 1) (2 ^ 32 - 1),
      faultPart := if u.str.faultValid then u.str.faultPart else chainPart c, faultCause := if u.str.faultValid then u.str.faultCause else st,
      faultEngine := if u.str.faultValid then u.str.faultEngine else e, faultDesc := if u.str.faultValid then u.str.faultDesc else r.idx,
      faultBack := if u.str.faultValid then u.str.faultBack else c.background } })))) ∧
  (∀ (c : Chain) (st : Nat) (d : Desc) (s : State), d.reserved = false → d.op ≤ 10 → Ds.remote d = false →
    failDesc c st d s = descIncrement c d ((descRows c d).foldl (fun s k =>
      let u := putRow false (chainPart c) k.1 k.2 (List.replicate 640 0) true true s
      { u with str := { u.str with poisonRows := min (u.str.poisonRows + 1) (2 ^ 32 - 1) } }) s)) ∧
  (∀ (m : Mbx) (s : State) (bs : List Byte), Starts memCopySpec m s →
    let c := newCmd s 0x0601 m
    let u := takeCmd c s
    let n := pNum c 8 2
    1 ≤ n → n ≤ 4096 → HostGives c u (pNum c 0 8) (64 * n) bs →
    let v := noteAts m.func (((busAddr u m.func (pNum c 0 8) (64 * n)).map fun a => a.2.2).getD 0) (64 * n)
    let table := descTable (padTo (64 * n) bs)
    ((∃ d ∈ table, d.reserved = true ∨ bits d.flags 2 2 ≠ 0) → exec (.memCopy m) s = .next (complete c 0x16 0 [] (v u))) ∧
    ((∀ d ∈ table, d.reserved = false ∧ bits d.flags 2 2 = 0) →
      let image := ((Tbl.get none s.prog.active (cmdPart c)).bind fun a => Tbl.get none s.prog.progs a.handle).elim [] Prog.image
      exec (.memCopy m) s = .next (v (modEngine (backEngine u) (fun x => { x with back := x.back ++
        [{ table := table, first := 0, base := Img.bases image, part := some (cmdPart c), background := true, image := image, seen := 0, poisoned := false,
           cmd := some c }] }) u)))) ∧
  (∀ (m : Mbx) (s : State) (w : T3Win), Starts memT3UnmapSpec m s →
    let c := newCmd s 0x0605 m
    let u := takeCmd c s
    let k := 256 * pByte c 0 + pByte c 1
    pByte c 0 ≤ 1 → Tbl.get none s.str.windows k = some w →
    (funcPart s w.func ≠ funcPart s m.func → exec (.memT3Unmap m) s = .next (complete c 0x06 0 [] u)) ∧
    (funcPart s w.func = funcPart s m.func → windowBusy s w = false →
      exec (.memT3Unmap m) s = .next (complete c 0x00 0 [] { u with str := { u.str with windows := Tbl.set none u.str.windows k none } })) ∧
    (funcPart s w.func = funcPart s m.func → windowBusy s w = true →
      exec (.memT3Unmap m) s = .next { u with str := { u.str with unmapping := u.str.unmapping ++ [(k, c)] } }))

/-- For memory in its canonical form, a tier, and an extent within it of which no granule is a freed retired one (whose writes R325 drops): after a write of bytes there, in any mode of the controller and under any hint, a read of the extent under any hint gives exactly those bytes, and every local address from the first tier on that lies outside the extent reads as before. -/
def Obligations.TierReadsSeeAcceptedWrites : Prop :=
  ∀ (t off : Nat) (bs : List Byte) (poison : Bool) (hw hr : Nat) (s : State), t < 2 → off + bs.length ≤ tierBytes t → Memory.wf s.mem = true →
    (∀ g ∈ granulesOf off bs.length, deadGranule s t g = false) →
    let u := tierWrite t off bs poison hw s
    (tierRead t off bs.length hr u).1.1 = bs ∧
    (∀ a, tierBase 0 ≤ a → (a < tierBase t + off ∨ tierBase t + off + bs.length ≤ a) → rdByte u a = rdByte s a)

/-- TIER_PATROL of a block of a trained, online tier notes the visit, and counts a correction where one was needed. TIER_READ_RETRY of a block not stored with the poison code makes the rows that wait for it await DRAM_ECC_RETRY; a clean second read is counted as a retry and delivers the data, another leaves the block poisoned, counted, recorded if the first, and raises TIER_POISON to its owners and both PFs. WCB_LINE_WRITE of a line idle for 10 µs takes it out of the buffer and changes no byte. MEM_RETIRE enters a granule in the table and tells its owners; on a full table NO_RESOURCE and RETIRE_TABLE_FULL; of a retired one OK. MEM_RETIRE_READ fills a host buffer. MEM_T3_MAP maps a free window of the port whose range is aligned and meets no other; BUSY where it is mapped. MEM_MODE sets the modes; a mode other than service is BUSY while stepping. MEM_LOCK sets a group of which no member is elsewhere. Completion stated of: tierPatrol, tierReadRetry, wcbLineWrite, memRetire, memRetireRead, memT3Map, memMode, memLock. (Parts of R286 to R288, R291, R295, R298, R300, R320, R323 to R327.) -/
def Obligations.TiersCorrectRetireMapAndLock : Prop :=
  (∀ (t b : Nat) (s : State), t < 2 → dieOn s = true → (tier s t).trained = true → b < tierBytes t / 64 →
    ((tier s t).offline = false →
      let u := modTier t (fun x => { x with patrol := decide (b + 1 < tierBytes t / 64) }) s
      exec (.tierPatrol t b false) s = .next u ∧
      exec (.tierPatrol t b true) s = .next (countError 1 (modTier t (fun x => { x with eccCorrected := min (x.eccCorrected + 1) (2 ^ 64 - 1) }) u))) ∧
    ((tier s t).coded.contains b = true → ∀ clean, exec (.tierReadRetry t b clean) s = .next s) ∧
    ((tier s t).coded.contains b = false →
      let u := setAwait 7 (waitingRows s t b) s
      exec (.tierReadRetry t b true) s = .next (countError 1 (modTier t (fun x =>
        { x with eccRetries := min (x.eccRetries + 1) (2 ^ 32 - 1), poison := x.poison.filter (· != b) }) u)) ∧
      exec (.tierReadRetry t b false) s = .next (noticePoison (modStr (fun x => { x with poisonReads := x.poisonReads ++ [(t, b)] })
        (raiseError 2 0x0601 0xFF ((maskParts (ownersOf u t (b / 1024))).map Recip.prims ++ [.pfs]) [] (modTier t (fun x =>
          { x with
            eccUncorrected := min (x.eccUncorrected + 1) (2 ^ 32 - 1), recValid := true,
            recChannel := if x.recValid then x.recChannel else channelOf (64 * b), recOffset := if x.recValid then x.recOffset else 64 * b,
            poison := if x.poison.contains b then x.poison else x.poison ++ [b] }) u)))))) ∧
  (∀ (t l : Nat) (s : State), t < 2 → exec (.wcbLineWrite t l) s = .next (modTier t (fun x =>
    { x with wcb := x.wcb.filter fun y => !(y.extent == l && decide (y.last + 10000 ≤ s.now)) }) s)) ∧
  (∀ (m : Mbx) (s : State), Starts memRetireSpec m s →
    let c := newCmd s 0x0602 m
    let u := takeCmd c s
    let t := pByte c 0 - 1
    let g := pNum c 4 4
    (pByte c 0 = 1 ∨ pByte c 0 = 2) → g < tierGranules t →
    ((tier s t).retired.contains g = true → exec (.memRetire m) s = .next (complete c 0x00 0 [] u)) ∧
    ((tier s t).retired.contains g = false → 4096 ≤ (tier s t).retired.length →
      exec (.memRetire m) s = .next (complete c 0x07 0 [] (raiseTo 0x0604 0xFF [.pfs] [] u))) ∧
    ((tier s t).retired.contains g = false → (tier s t).retired.length < 4096 →
      exec (.memRetire m) s = .next (complete c 0x00 0 [] (raiseTo 0x0603 0xFF ((maskParts (ownersOf s t g)).map Recip.prims) []
        (modTier t (fun x => { x with retired := x.retired ++ [g], quarantine := x.quarantine.filter (· != g) }) u))))) ∧
  (∀ (m : Mbx) (s : State), Starts memRetireReadSpec m s →
    let c := newCmd s 0x0603 m
    let u := takeCmd c s
    (pByte c 0 = 1 ∨ pByte c 0 = 2) → hostOk u c (pNum c 8 8) 32768 = true →
    exec (.memRetireRead m) s = .next (complete c 0x00 0 [] (writeHost m.func (pNum c 8 8) (padTo 32768 (padTo 32768
      ((tier s (pByte c 0 - 1)).retired.flatMap fun g => leBytes 8 (2 ^ 63 + g)))) false u))) ∧
  (∀ (m : Mbx) (s : State), Starts memT3MapSpec m s →
    let c := newCmd s 0x0604 m
    let u := takeCmd c s
    let p := pByte c 0
    let k := 256 * p + pByte c 1
    let f := pNum c 2 2
    p ≤ 1 → f ≤ 63 → f / 32 = p → pNum c 8 8 % 0x200000 = 0 → pNum c 24 8 % 0x200000 = 0 → pNum c 24 8 ≠ 0 → pNum c 16 8 % 0x1000 = 0 →
    place (pNum c 8 8) (pNum c 24 8) = .host p → funcPart s f = funcPart s m.func →
    ((Tbl.get none s.str.windows k).isSome = true → exec (.memT3Map m) s = .next (complete c 0x15 0 [] u)) ∧
    (Tbl.get none s.str.windows k = none →
      (s.str.windows.any fun q => decide (q.1 / 256 = p) && q.2.any fun w => meets (pNum c 8 8) (pNum c 24 8) w.base w.length) = false →
      exec (.memT3Map m) s = .next (complete c 0x00 0 [] { u with str := { u.str with windows := Tbl.set none u.str.windows k (some
        { func := f, pasid := if bit (pNum c 4 4) 31 then some (pNum c 4 4 % 2 ^ 20) else none, base := pNum c 8 8, host := pNum c 16 8,
          length := pNum c 24 8 }) } }))) ∧
  (∀ (m : Mbx) (s : State), Starts memModeSpec m s →
    let c := newCmd s 0x0606 m
    let u := takeCmd c s
    pByte c 0 % 4 ≠ 0 → pByte c 1 ≤ 3 →
    (pByte c 1 ≠ 0 → stepping s = true → exec (.memMode m) s = .next (complete c 0x15 0 [] u)) ∧
    ((pByte c 1 = 0 ∨ stepping s = false) →
      let put (t : Nat) (v : State) : State := modTier t (fun x => { x with wcb := [], hints := [], wcbFull := false, mode := pByte c 1 }) v
      let v := if bit (pByte c 0) 0 then put 0 u else u
      exec (.memMode m) s = .next (complete c 0x00 0 [] (if bit (pByte c 0) 1 then put 1 v else v)))) ∧
  (∀ (m : Mbx) (s : State), Starts memLockSpec m s →
    let c := newCmd s 0x0607 m
    let u := takeCmd c s
    let g := pByte c 0
    let set (k : Nat) (x : TierSt) : TierSt := { x with lock := Tbl.set 0 x.lock g k, lockPeriod := Tbl.set 3900 x.lockPeriod g (pNum c 2 2) }
    (lockOk c u = false → exec (.memLock m) s = .next (complete c 0x16 0 [] u)) ∧
    (lockOk c u = true → stepping s = true → exec (.memLock m) s = .next u) ∧
    (lockOk c u = true → stepping s = false → exec (.memLock m) s = .next (complete c 0x00 0 [] ((List.range 12).foldl (fun v n =>
      if bit (pNum c 24 2) n then modPort n (fun p => { p with lock := some g }) v
      else if (port v n).lock = some g then modPort n (fun p => { p with lock := none }) v else v)
        (modTier 1 (set (pNum c 16 8)) (modTier 0 (set (pNum c 8 8)) u))))))

/-- A write by a partition that may write a powered row makes it hold the bytes, full, poisoned as they are, and leaves every other row; a suppressed one changes no row and counts SP_ISO_VIOL; a row without power reads as zero and full and ignores writes; a row of a cache bank serves none. SCRATCHPAD_PATROL of a resident row under patrol_en that no insertion holds corrects and counts a word or poisons the row. SP_DEBUG_ACCESS where the window is open and nothing holds the row's slot reads or writes a row past its tag, or compares and counts, and otherwise waits; a key that is the empty marker counts zero, index 0xFF, and inserts nothing. CC_INS_WRITE writes the row's oldest insertion that waits. CACHE_FILL of an awaited line fills the least recently used way not retired, poisoned as the tier's data are. SP_CACHE_CONFIG of a change of banks waits for a reserve while stepping and is REFUSED_CAPACITY over banks in use. SP_RETIRE_ROW lists a row, up to 64. Completion stated of: scratchpadPatrol, spDebugAccess, ccInsWrite, cacheFill, spCacheConfig, spRetireRow. (Parts of R196 to R199, R202, R208 to R212, R215, R222, R229, R231 to R236.) -/
def Obligations.ScratchpadRowsHoldAreCorrectedCachedAndRetired : Prop :=
  (∀ (st : Bool) (p f r : Nat) (bs : List Byte) (poison : Bool) (s : State), f < 16 → r < 32768 → Memory.wf s.mem = true →
    (inCacheBank s r = true → putRow st p f r bs poison true s = s ∧ ∀ c, readReady s p f r c = false ∧ fillReady s p f r = false) ∧
    (inCacheBank s r = false → powered s f r = true → suppressed s p f r true = false →
      let u := putRow st p f r bs poison true s
      readRow u f r = padTo 640 bs ∧ rowFull u f r = true ∧ rowPoison u f r = poison ∧ rowAwait u f r = 0 ∧
      (∀ f' r', f' < 16 → r' < 32768 → (f', r') ≠ (f, r) → readRow u f' r' = readRow s f' r' ∧ rowTag u f' r' = rowTag s f' r')) ∧
    (inCacheBank s r = false → powered s f r = true → suppressed s p f r true = true →
      let u := putRow st p f r bs poison true s
      u.mem = s.mem ∧ u.sp.tags = s.sp.tags ∧ (fld u f).isoViol = min ((fld s f).isoViol + 1) (2 ^ 32 - 1)) ∧
    (inCacheBank s r = false → powered s f r = false →
      (let u := putRow st p f r bs poison true s
       u.mem = s.mem ∧ u.sp.tags = s.sp.tags ∧ (fld u f).downAccess = min ((fld s f).downAccess + 1) (2 ^ 32 - 1)) ∧
      (accessRow st p f r false s).1 = (List.replicate 640 0, false) ∧ readReady s p f r true = true)) ∧
  (∀ (h : EccHit) (s : State), dieOn s = true → h.field < 16 → h.row < 32768 → (fld s h.field).patrolEn = true → (rangeOf s h.field h.row).isSome = true →
    (insPending s h.field h.row = true → exec (.scratchpadPatrol h) s = .next s) ∧
    (insPending s h.field h.row = false → exec (.scratchpadPatrol h) s = .next (eccHit h s)) ∧
    (h.corrected = true → eccHit h s = modFld h.field (fun x => { x with eccCorrected := min (x.eccCorrected + 1) (2 ^ 64 - 1) }) (countError 1 s)) ∧
    (h.corrected = false → rowTag (eccHit h s) h.field h.row = rowTag s h.field h.row ||| 32 ∧ (eccHit h s).mem = s.mem)) ∧
  (∀ (f : Nat) (ecc : List EccHit) (s : State), f < 16 → dieOn s = true → debugOpen s = true → (fld s f).dbgWaits = none →
    (∀ ctrl, dbgHeld s f (bits ctrl 0 15) = false →
      exec (.spDebugAccess f { op := .row ctrl, ecc := ecc }) s = .next (dbgRowAccess f ctrl (eccIn [(f, bits ctrl 0 15)] ecc s))) ∧
    (∀ kind size key r, dbgHeld s f (r % 32768) = false →
      exec (.spDebugAccess f { op := .cc kind size key r, ecc := ecc }) s = .next (dbgCc f kind size key (r % 32768) (eccIn [(f, r % 32768)] ecc s))) ∧
    (∀ kind size key r, dbgHeld s f (r % 32768) = true →
      exec (.spDebugAccess f { op := .cc kind size key r, ecc := ecc }) s = .next (countBlocked f (modFld f (fun x => { x with dbgWaits := some (.cc kind size key r) }) s)))) ∧
  (∀ (size : Nat) (row : List Byte), ccEq size (256 ^ size - 1) row = (0, 0xFF) ∧ ccLt size (256 ^ size - 1) row = (0, 0xFF) ∧
    ccIns size (256 ^ size - 1) row = (0xFF, false)) ∧
  (∀ (f r size i key : Nat) (s : State), f < 16 → ((fld s f).ccPending.find? fun p => p.1 == r) = some (r, size, i, key) →
    let rest := modFld f (fun x => { x with ccPending := x.ccPending.filter (· != (r, size, i, key)) })
    (powered s f r = true → exec (.ccInsWrite f r) s = .next (releaseDbg f (rest (wrBytes (rowAddr f r + size * i) (leBytes size key) s)))) ∧
    (powered s f r = false → exec (.ccInsWrite f r) s = .next (releaseDbg f (rest (countDown f s))))) ∧
  (∀ (j line w : Nat) (x : Region) (s : State), s.sp.fills.contains (j, line) = true → Tbl.get none s.sp.regions j = some x →
    let h := cacheHome s.sp.cacheBanks line
    let r := cacheRow s.sp.cacheBanks line w
    let u : State := { s with sp := { s.sp with fills := s.sp.fills.filter (· != (j, line)) } }
    let poison := match place (512 * line) 512 with
      | .tier t off => (blocksOf off 512).any (tier s t).poison.contains || (granulesOf off 512).any (deadGranule s t)
      | _ => false
    (lruOf s (h.1 * 65536 + h.2.1)).find? (fun w => !(fld s h.1).retired.contains (cacheRow s.sp.cacheBanks line w)) = some w →
    (powered s h.1 r = false → exec (.cacheFill j line) s = .next (countDown h.1 u)) ∧
    (powered s h.1 r = true → exec (.cacheFill j line) s = .next (touchWay (h.1 * 65536 + h.2.1) w (setTag h.1 r (mkTag poison false 0)
      (storeRow h.1 r (rdBytes s (512 * line) 512 ++ leBytes 8 (2 ^ 55 + (j % 16) * 2 ^ 51 + (x.gen % 4096) * 2 ^ 39 + line % 2 ^ 39)) u))))) ∧
  (∀ (m : Mbx) (s : State), Starts spCacheConfigSpec m s →
    let c := newCmd s 0x0660 m
    let u := takeCmd c s
    (∀ st, cacheRefusal c u = some st → exec (.spCacheConfig m) s = .next (complete c st 0 [] u)) ∧
    (cacheRefusal c u = none → pBit c 0 0 = true → cacheBanksTaken u (pByte c 1) = true → exec (.spCacheConfig m) s = .next (complete c 0x01 0 [] u)) ∧
    (cacheRefusal c u = none → pBit c 0 0 = true → cacheBanksTaken u (pByte c 1) = false → stepping s = true → exec (.spCacheConfig m) s = .next u) ∧
    (cacheRefusal c u = none → pBit c 0 0 = true → pBit c 0 1 = false → pBit c 0 2 = false → cacheBanksTaken u (pByte c 1) = false →
      stepping s = false → exec (.spCacheConfig m) s = .next (complete c 0x00 0 [] (applyCacheBanks (pByte c 1) u))) ∧
    (cacheRefusal c u = none → pBit c 0 0 = false → pBit c 0 1 = true → pBit c 0 2 = false →
      exec (.spCacheConfig m) s = .next (complete c 0x00 0 [] { u with sp := { u.sp with regions := Tbl.set none u.sp.regions (pByte c 2) (some
        { gen := 0, partitions := pNum c 4 2, length := pNum c 16 8, base := pNum c 8 8 }) } }))) ∧
  (∀ (m : Mbx) (s : State), Starts spRetireRowSpec m s →
    let c := newCmd s 0x0661 m
    let u := takeCmd c s
    let f := pByte c 0
    let r := pNum c 2 2
    f ≤ 15 → r ≤ 32767 →
    ((fld s f).retired.contains r = true → exec (.spRetireRow m) s = .next (complete c 0x00 0 [] u)) ∧
    ((fld s f).retired.contains r = false → 64 ≤ (fld s f).retired.length → exec (.spRetireRow m) s = .next (complete c 0x07 0 [] u)) ∧
    ((fld s f).retired.contains r = false → (fld s f).retired.length < 64 →
      exec (.spRetireRow m) s = .next (complete c 0x00 0 [] (retireRow f r u)) ∧ (fld (retireRow f r u) f).retired = (fld s f).retired ++ [r]))

/-- BUNDLE_ISSUE of a program that runs, does not stall and is not halted: bundles without issues are passed, then the cycle advances to the issue's, one issue is counted, its kicks go to their engines and its action follows. A HITCH_WAIT takes a ready hitch and goes on, else stalls on it; HITCH_INC increments; a BARRIER enters and stalls; a KNOT launches. BLOCKED_ACCESS_RETRY charges a turn to the cause that held the access (none while halted, whose time is the halt's) and tries again. HITCH_WAIT_PROCEED ends a wait whose hitch is ready or whose barrier has released, a broken one faulting the segment with TIMEOUT. SEQ_HALT, through the open debug window, halts or releases issue; SEQ_SINGLE_STEP issues once while halted; what its reads meet is free (log entry 6). HORIZON, once all before it has finished and nothing holds the stream, tests the breaches and passes, or replays the region from its mark, but once per step and partition, and only with no chain in flight. NP_CONFIG changes a monitor layer's settings. Completion stated of: bundleIssue, blockedAccessRetry, hitchWaitProceed, seqHalt, seqSingleStep, horizon, npConfig. (Parts of R169 to R175, R186, R204 to R207, R252 to R255, R269, R280, R463, R483.) -/
def Obligations.TheSequencerIssuesWaitsHaltsAndReplays : Prop :=
  (∀ (ecc : List EccHit) (s : State) (r : SeqRun), mayIssue s = true → s.seq.halt = false → s.seq.cur = some r →
    let p := r.pos.toIssue (runImage s r) r.counts walkFuel
    let at_ := modCur (fun r => { r with pos := p }) s
    (p.ended = true → exec (.bundleIssue ecc) s = .next (syncSeq at_)) ∧
    (p.ended = false →
      let u := eccHits ecc (passTo r.ready at_)
      exec (.bundleIssue ecc) s = .next (startKicks 0 { u with seq := { u.seq with
        issued := min (u.seq.issued + 1) (2 ^ 64 - 1), pc := ((u.seq.cur.map (storeOff u)).getD 0) } }))) ∧
  (∀ (s : State) (r : SeqRun), s.seq.cur = some r →
    let g := globalOf s r
    let a := Gp.seqArg g
    let h := 4096 * (r.part % 16) + bits a 0 12
    (Gp.seqOp g = 6 → hitchTgt s h ≤ hitchVal s h → startAction s = startParts (setHitch h (hitchVal s h - hitchTgt s h) s)) ∧
    (Gp.seqOp g = 6 → hitchVal s h < hitchTgt s h → startAction s = syncSeq
      (modHch (fun x => { x with waiting := true, onBarrier := false, partition := r.part, object := h }) (setStall (.hitch (bits a 0 12)) 6 0 0 s))) ∧
    (Gp.seqOp g = 7 → startAction s = startParts (incHitch h (bits a 12 12) s)) ∧
    (Gp.seqOp g = 8 → ∀ v, enterBarrier r.part (bits a 0 10) 0 true s = (none, v) → startAction s = syncSeq
      (modHch (fun x => { x with waiting := true, onBarrier := true, partition := r.part, object := bits a 0 10 }) (setStall (.barrier (bits a 0 10)) 6 0 0 v))) ∧
    (Gp.seqOp g = 8 → ∀ st v, enterBarrier r.part (bits a 0 10) 0 true s = (some st, v) → startAction s = startParts (faultSegment r.part st 4 0 0 v)) ∧
    (Gp.seqOp g = 9 → startAction s = startParts (launchKnot r.part (bits a 0 2) (bits a 2 12) s))) ∧
  (∀ (ecc : List EccHit) (s : State) (r : SeqRun), dieOn s = true → s.seq.cur = some r →
    let u := if s.seq.halt then s else chargeSlack s.seq.stallCause 8 s
    (∀ f x sp fi, r.stall = some (.blocked f x sp fi) → exec (.blockedAccessRetry ecc) s = .next (goOn (eccHits ecc u))) ∧
    (∀ k, r.stall = some (.queueFull k) → exec (.blockedAccessRetry ecc) s = .next (startKicks k u)) ∧
    ((∀ f x sp fi, r.stall ≠ some (.blocked f x sp fi)) → (∀ k, r.stall ≠ some (.queueFull k)) → exec (.blockedAccessRetry ecc) s = .next s)) ∧
  (∀ (s : State) (r : SeqRun), dieOn s = true → s.seq.cur = some r →
    let u := chargeElapsed (if s.seq.halt then slDebugHalt else slHitchWait) s
    (∀ v, r.stall = some (.hitch v) →
      (hitchReady s (hitchOf r.part v) = true → exec .hitchWaitProceed s = .next (startParts (endWait (takeHitch (hitchOf r.part v) u)))) ∧
      (hitchReady s (hitchOf r.part v) = false → exec .hitchWaitProceed s = .next s)) ∧
    (∀ b, r.stall = some (.barrier b) →
      (releasedFor s 0 = none → exec .hitchWaitProceed s = .next s) ∧
      (releasedFor s 0 = some false → exec .hitchWaitProceed s = .next (startParts (endWait (takeRelease 0 u)))) ∧
      (releasedFor s 0 = some true → exec .hitchWaitProceed s = .next (startParts (faultSegment r.part 0x0C 4 0 0 (endWait (takeRelease 0 u))))))) ∧
  (∀ (h : Bool) (s : State), dieOn s = true → debugOpen s = true →
    (s.seq.halt = h → exec (.seqHalt h) s = .next s) ∧
    (s.seq.halt ≠ h → let w := if h then settleHalt s else noteHalt (settleHalt s)
      exec (.seqHalt h) s = .next (syncSeq { w with seq := { w.seq with halt := h } })) ∧
    (s.seq.halt = true → mayIssue s = true →
      exec .seqSingleStep s = .next (issueNow (Config.eccFound s.freeCount) { s with freeCount := s.freeCount + 1 })) ∧
    (s.seq.halt = false → exec .seqSingleStep s = .next s)) ∧
  (∀ (s : State) (r : SeqRun), dieOn s = true → s.seq.cur = some r →
    let i := runImage s r
    let u := if r.stall.isSome then s else finishParts r s
    ((r.waitHorizon = false ∨ heldUp s = true) → exec .horizon s = .next s) ∧
    (r.waitHorizon = true → heldUp s = false → heldUp u = true → exec .horizon s = .next u) ∧
    (r.waitHorizon = true → heldUp s = false → heldUp u = false → u.np.inReplay = false →
      ((r.mark = none ∨ (u.np.breaches.any fun b => b.2.2.1 && replayable u i b.1) = false ∨ u.np.replayedParts.contains r.part = true) →
        exec .horizon s = .next (passHorizon (reportBreaches r.part i u))) ∧
      (∀ m, r.mark = some m → (u.np.breaches.any fun b => b.2.2.1 && replayable u i b.1) = true → u.np.replayedParts.contains r.part = false →
        (chainsInFlight u r.part = true → r.stall = none → exec .horizon s = .next (syncSeq (setStall .replay slReplay 0 0 u))) ∧
        (chainsInFlight u r.part = true → r.stall ≠ none → exec .horizon s = .next u) ∧
        (chainsInFlight u r.part = false → r.stall = none → exec .horizon s = .next (beginReplay r m u)) ∧
        (chainsInFlight u r.part = false → r.stall ≠ none →
          exec .horizon s = .next (beginReplay r m (chargeElapsed (if u.seq.halt then slDebugHalt else slReplay) u))))) ∧
    (∀ q, r.waitHorizon = true → heldUp s = false → heldUp u = false → u.np.inReplay = true → u.seq.cur = some q →
      let v := chargeSlack slReplay (8 * ceilDiv (q.work - r.resume) 8) u
      exec .horizon s = .next (passHorizon (reportBreaches r.part i (modNp (fun x => { x with inReplay := false })
        (modCur (fun c => { c with work := r.resume, ready := r.resume, goal := r.resume, parts := [] }) v)))))) ∧
  (∀ (m : Mbx) (s : State), Starts npConfigSpec m s →
    let c := newCmd s 0x0380 m
    let u := takeCmd c s
    let p := cmdPart c
    let l := pByte c 0
    (isMonitorLayer u p l = false → exec (.npConfig m) s = .next (complete c 0x16 0 [] u)) ∧
    (isMonitorLayer u p l = true → stepping s = true → exec (.npConfig m) s = .next u) ∧
    (isMonitorLayer u p l = true → stepping s = false → pBit c 1 0 = true → pBit c 1 1 = false → pBit c 1 2 = false → pBit c 1 3 = false →
      exec (.npConfig m) s = .next (complete c 0x00 0 [] (modNpPart p (fun x => { x with
        cfg := Tbl.set none x.cfg l (some { Tbl.opt .reset x.cfg l with nullThresh := pNum c 2 3, clipThresh := pNum c 5 3 }) }) u))))

/-- PROG_LOAD reads its image: unverified loads need RETURN with a vendor token (NOT_PERMITTED), an image not signed by an accepted key is BAD_SIGNATURE, one without room is refused with a report; else it takes the lowest handle and waits. VERIFICATION_COMPLETE writes the 4 KiB report to the host, then completes it with the refusal, the handle freed, or with the handle; while bank groups it powers up for the program have not had power 20 µs, it waits. PROG_ACTIVATE of an own verified program waits for a reserve while stepping; else its cost at the minimums must fit each budget of the partition and its descriptors must bind. PROG_SET_COUNTS sets counts that fit. PROG_GET_REPORT hands out the report. PROG_DEACTIVATE ends the own activation unless served requests live. PROG_UNLOAD frees a handle that is not active; else BUSY. Another partition's handle is NOT_PERMITTED, none is BAD_COMMAND. Completion stated of: progLoad, verificationComplete, progActivate, progUnload, progGetReport, progSetCounts, progDeactivate. (Parts of R237 to R239, R271, R274 to R279, R341, R342.) -/
def Obligations.ProgramsAreLoadedVerifiedAndActivated : Prop :=
  (∀ (m : Mbx) (s : State) (bs : List Byte), Starts progLoadSpec m s →
    let c := newCmd s 0x0401 m
    let u := takeCmd c s
    let n := pNum c 8 4
    let i := padTo n bs
    let v := noteAts m.func (((busAddr u m.func (pNum c 0 8) n).map fun a => a.2.2).getD 0) n
    let all := s.prog.progs.filter fun p => p.2.isSome
    96 ≤ n → hostOk u c (pNum c 16 8) 4096 = true → HostGives c u (pNum c 0 8) n bs →
    (pBit c 12 0 = true → ¬(s.isl.lc = 3 ∧ vendorToken s = true) → exec (.progLoad m) s = .next (complete c 0x06 0x0041 [] (v u))) ∧
    (∀ b h, (pBit c 12 0 = false ∨ (s.isl.lc = 3 ∧ vendorToken s = true)) → all.length < 64 →
      (all.filter fun p => p.2.any fun g => g.part == cmdPart c).length < 8 → freeExtent s (storeNeed i) = some b → Tbl.free s.prog.progs 64 = some h →
      exec (.progLoad m) s = .next (if imageSigned s (Img.signed i) (Img.signature i)
        then v { u with prog := { u.prog with progs := Tbl.set none u.prog.progs h (some
          { part := cmdPart c, base := b, image := i, unverified := pBit c 12 0, verified := false,
            formula := { knees := List.replicate 8 0, terms := [], exact := false }, report := [], hostCounts := Img.minimums i, cmd := some c }) } }
        else complete c 0x05 0x0050 [] (v u)))) ∧
  (∀ (h : Nat) (s : State) (g : Prog) (c : Cmd), Tbl.get none s.prog.progs h = some g → g.cmd = some c →
    let nil : Formula := { knees := List.replicate 8 0, terms := [], exact := false }
    let found : Option VFail × Option Formula := if g.unverified then checkUnverified g.image else
      ((verifyImage s g.part g.image).1, some (verifyImage s g.part g.image).2)
    let put (st : Nat) (x : Option VFail) (f : Formula) (u : State) : State := writeHost c.m.func (pNum c 16 8) (reportBytes g.image st x f) false u
    let drop (u : State) : State := { u with prog := { u.prog with progs := Tbl.set none u.prog.progs h none } }
    (∀ x, found.1 = some x →
      exec (.verificationComplete h) s = .next (complete c x.status x.shown [] (drop (put x.status (some x) (found.2.getD nil) s)))) ∧
    (found = (none, none) → exec (.verificationComplete h) s = .next (complete c 0x16 0 [] (drop (put 0x16 none nil s)))) ∧
    (∀ f, found = (none, some f) →
      (g.unverified = true → 2238794368 < f.eval (Img.minimums g.image) →
        let x := VFail.whole 0 0x002A
        exec (.verificationComplete h) s = .next (complete c x.status x.shown [] (drop (put x.status (some x) f s)))) ∧
      ((g.unverified = false ∨ f.eval (Img.minimums g.image) ≤ 2238794368) →
        let u := powerGroups (groupsOf g.part g.image) s
        let v := put 0x00 none f u
        (groupsReady (groupsOf g.part g.image) u = false → exec (.verificationComplete h) s = .next u) ∧
        (groupsReady (groupsOf g.part g.image) u = true → exec (.verificationComplete h) s = .next (complete c 0x00 0 (leBytes 2 h) { v with prog := { v.prog with
          progs := Tbl.set none v.prog.progs h (some { g with verified := true, formula := f, report := reportBytes g.image 0x00 none f, cmd := none }) } }))))) ∧
  (∀ (m : Mbx) (s : State) (h : Nat) (g : Prog), Tbl.get none s.prog.progs h = some g → g.verified = true →
    (Starts progActivateSpec m s → pNum (newCmd s 0x0402 m) 0 2 = h →
      let c := newCmd s 0x0402 m
      let u := takeCmd c s
      (funcPart s m.func ≠ some g.part → exec (.progActivate m) s = .next (complete c 0x06 0 [] u)) ∧
      (funcPart s m.func = some g.part →
        (stepping s = true → exec (.progActivate m) s = .next u) ∧
        (stepping s = false → (∃ b ∈ budgetsOf s g.part, b < g.formula.eval (Img.minimums g.image)) →
          exec (.progActivate m) s = .next (complete c 0x02 0x002A [] u)) ∧
        (∀ rs, stepping s = false → (∀ b ∈ budgetsOf s g.part, g.formula.eval (Img.minimums g.image) ≤ b) → bindProgram u g.part g.image = some rs →
          exec (.progActivate m) s = .next (complete c 0x00 0 [] (loadNpTables g.part { u with prog := { u.prog with
            active := Tbl.set none u.prog.active g.part (some { handle := h, relocs := rs, counts := [] }) } }))))) ∧
    (Starts progUnloadSpec m s → pNum (newCmd s 0x0403 m) 0 2 = h → funcPart s m.func = some g.part →
      let c := newCmd s 0x0403 m
      let u := takeCmd c s
      ((activeHandle s g.part = some h ∨ ∃ r, s.seq.cur = some r ∧ r.handle = h) → exec (.progUnload m) s = .next (complete c 0x15 0 [] u)) ∧
      (activeHandle s g.part ≠ some h → (∀ r, s.seq.cur = some r → r.handle ≠ h) →
        exec (.progUnload m) s = .next (complete c 0x00 0 [] { u with prog := { u.prog with progs := Tbl.set none u.prog.progs h none } }))) ∧
    (Starts progGetReportSpec m s → pNum (newCmd s 0x0404 m) 0 2 = h → funcPart s m.func = some g.part →
      let c := newCmd s 0x0404 m
      let u := takeCmd c s
      hostOk u c (pNum c 8 8) 4096 = true →
      exec (.progGetReport m) s = .next (complete c 0x00 0 [] (writeHost m.func (pNum c 8 8) (padTo 4096 g.report) false u))) ∧
    (Starts progSetCountsSpec m s → pNum (newCmd s 0x0405 m) 0 2 = h → funcPart s m.func = some g.part →
      let c := newCmd s 0x0405 m
      let u := takeCmd c s
      (Img.hostCounts g.image = false → exec (.progSetCounts m) s = .next (complete c 0x06 0 [] u)) ∧
      (Img.hostCounts g.image = true → stepping s = true → exec (.progSetCounts m) s = .next u) ∧
      (Img.hostCounts g.image = true → stepping s = false →
        (countsFit g (countsParam c) (budgetsOf s g.part) = false → exec (.progSetCounts m) s = .next (complete c 0x02 0 [] u)) ∧
        (countsFit g (countsParam c) (budgetsOf s g.part) = true → exec (.progSetCounts m) s = .next (complete c 0x00 0 []
          { u with prog := { u.prog with progs := Tbl.set none u.prog.progs h (some { g with hostCounts := countsParam c }) } })))) ∧
    (Starts progDeactivateSpec m s → pNum (newCmd s 0x0406 m) 0 2 = h → funcPart s m.func = some g.part →
      let c := newCmd s 0x0406 m
      let u := takeCmd c s
      let p := cmdPart c
      (activeHandle s p ≠ some h → exec (.progDeactivate m) s = .next (complete c 0x16 0 [] u)) ∧
      (activeHandle s p = some h → servedLive s p h = true → exec (.progDeactivate m) s = .next (complete c 0x15 0 [] u)) ∧
      (activeHandle s p = some h → servedLive s p h = false → stepping s = true → exec (.progDeactivate m) s = .next u) ∧
      (activeHandle s p = some h → servedLive s p h = false → stepping s = false →
        exec (.progDeactivate m) s = .next (complete c 0x00 0 [] { u with prog := { u.prog with active := Tbl.set none u.prog.active p none } }))))

/-- A command that brings a manifest checks its signature (BAD_SIGNATURE) and form (REFUSED_FORMAT). MODEL_LOAD of an image that is loaded and active attaches, if its share mask lets the partition, and answers the binding at once; else it places every layer and waits for its shards; a bad deadline is BAD_COMMAND. MODEL_RELOAD_LAYERS of an INCOMPLETE own model whose manifest differs in sources alone places the failed layers again, or lets the repairs go on. MODEL_SWAP of a READY own model by a manifest that may replace it begins a swap; RESUME and REVERT of a MIXED one take the journal's new or old image, if the digest is its; MODEL_UPDATE takes staged bytes of an own extent for a trainable model no other binding has. MODEL_UNLOAD removes the binding unless it swaps, is bound to the active program or serves (BUSY). MODEL_CHECKPOINT waits while stepping, else writes the layers' data and a manifest while the model is held. MODEL_QUERY answers into a host buffer whose layout the model leaves free (log 11). Completion stated of: modelLoad, modelReloadLayers, modelSwap, modelSwapResume, modelSwapRevert, modelUpdate, modelUnload, modelCheckpoint, modelQuery. (Parts of R333, R338 to R341, R347 to R363, R366 to R372.) -/
def Obligations.ModelCommandsLoadRepairSwapAndUnload : Prop :=
  (∀ (m : Mbx) (s : State) (bs : List Byte), Starts modelLoadSpec m s →
    let c := newCmd s 0x0301 m
    let n := pNum c 8 4
    let a := takeCmd c s
    let v := noteAts m.func (((busAddr a m.func (pNum c 0 8) n).map fun a => a.2.2).getD 0) n
    let f := padTo n bs
    let p := cmdPart c
    let signed := imageSigned s (Mf.signed f) (Mf.signature f)
    let im : Image := { manifest := f, digest := Config.sha384 f, layers := [], shareMask := pNum c 18 2, loader := p }
    (deadlineOk (pNum c 12 4) = false → exec (.modelLoad m) s = .next (complete c 0x16 0 [] a)) ∧
    (deadlineOk (pNum c 12 4) = true → (pNum c 18 2 = 0 ∨ m.func % 32 = 0) → 96 ≤ n → n ≤ 4194304 → HostGives c a (pNum c 0 8) n bs →
      (manifestOk f = false → exec (.modelLoad m) s = .next (complete c (if signed then 0x03 else 0x05) 0 [] (v a))) ∧
      (∀ h i w, manifestOk f = true → Tbl.free s.mdl.bindings 256 = some h → sharedImage s (Config.sha384 f) = none → loadedImages s < 64 →
        nominalMeets s p f = false → Tbl.free s.mdl.images 512 = some i →
        placeLayers p i f (Mf.shareable f) (List.range (Mf.layers f)) (setImage i (some im) a) = some w →
        exec (.modelLoad m) s = .next (if signed then v (setBinding h (some { newBinding p i with retryLimit := pByte c 16, deadline := some (w.now + 1000000 * pNum c 12 4), cmd := some c }) w)
          else complete c 0x05 0 [] (v a))) ∧
      (∀ h i x, manifestOk f = true → Tbl.free s.mdl.bindings 256 = some h → sharedImage s (Config.sha384 f) = some (i, x) → bit x.shareMask p = true →
        exec (.modelLoad m) s = .next (if signed then complete c 0x00 0 (leBytes 2 h) (v (tellBinding 0x0301 h
          (setBinding h (some { newBinding p i with state := 2 }) (attachHomes p (imageHomes x) a)))) else complete c 0x05 0 [] (v a))))) ∧
  (∀ (m : Mbx) (s : State) (bs : List Byte) (b : Binding), Starts modelReloadSpec m s →
    let c := newCmd s 0x0303 m
    let h := pNum c 0 2
    let n := pNum c 16 4
    let a := takeCmd c s
    let v := noteAts m.func (((busAddr a m.func (pNum c 8 8) n).map fun a => a.2.2).getD 0) n
    let f := padTo n bs
    let signed := imageSigned s (Mf.signed f) (Mf.signature f)
    let u := modImage b.image (fun x => { x with manifest := f, digest := Config.sha384 f }) a
    let failed := (List.range (Mf.layers f)).filter fun l => (layer? s b.image l).any fun y => y.status == 2
    (myBinding s c h = none → exec (.modelReloadLayers m) s = .next (complete c 0x16 0 [] a)) ∧
    (myBinding s c h = some b → b.state ≠ 1 → exec (.modelReloadLayers m) s = .next (complete c 0x16 0 [] a)) ∧
    (myBinding s c h = some b → b.state = 1 → deadlineOk (pNum c 20 4) = true → 96 ≤ n → n ≤ 4194304 → HostGives c a (pNum c 8 8) n bs → manifestOk f = true →
      (sameButSources f (manifestOf s b.image) = false → exec (.modelReloadLayers m) s = .next (complete c (if signed then 0x03 else 0x05) 0 [] (v a))) ∧
      (sameButSources f (manifestOf s b.image) = true → (b.repair ≠ [] ∨ b.rowRepair ≠ []) → exec (.modelReloadLayers m) s = .next (if signed then
        v (modBinding h (fun b => { b with state := 5, retryLimit := pByte c 24, deadline := some (s.now + 1000000 * pNum c 20 4), cmd := some c }) u)
        else complete c 0x05 0 [] (v a))) ∧
      (∀ w, sameButSources f (manifestOf s b.image) = true → b.repair = [] → b.rowRepair = [] →
        placeLayers b.part b.image f (Mf.shareable f) failed u = some w →
        exec (.modelReloadLayers m) s = .next (if signed then
          v (modBinding h (fun b => { b with state := 0, placed := failed, retries := [], retryLimit := pByte c 24, deadline := some (s.now + 1000000 * pNum c 20 4), cmd := some c }) w)
          else complete c 0x05 0 [] (v a))))) ∧
  (∀ (m : Mbx) (s : State) (bs : List Byte) (b : Binding), Starts modelSwapSpec m s →
    let c := newCmd s 0x0304 m
    let h := pNum c 0 2
    let n := pNum c 16 4
    let a := takeCmd c s
    let v := noteAts m.func (((busAddr a m.func (pNum c 8 8) n).map fun a => a.2.2).getD 0) n
    let f := padTo n bs
    let signed := imageSigned s (Mf.signed f) (Mf.signature f)
    deadlineOk (pNum c 20 4) = true → myBinding s c h = some b →
    (swapBusy b = true → exec (.modelSwap m) s = .next (complete c 0x15 0 [] a)) ∧
    (b.state = 2 → 96 ≤ n → n ≤ 4194304 → HostGives c a (pNum c 8 8) n bs → manifestOk f = true →
      (swapOk (manifestOf s b.image) f = false → exec (.modelSwap m) s = .next (complete c (if signed then 0x03 else 0x05) 0 [] (v a))) ∧
      (∀ i, swapOk (manifestOf s b.image) f = true → (sharedResident s b.image (List.range (Mf.layers f)) = false ∨ m.func % 32 = 0) →
        quotaHolds s b.part f (List.range (Mf.layers f)) = true → Tbl.free s.mdl.images 512 = some i →
        exec (.modelSwap m) s = .next (if signed then v (modBinding h (fun b => { b with
            state := 3
            swap := some { newSwap 0 i 0 (Mf.layers f) false c with
              flush := pBit c 2 0, window := pNum c 28 4, retryLimit := pByte c 24, deadline := some (s.now + 1000000 * pNum c 20 4) } })
            (setImage i (some { manifest := f, digest := Config.sha384 f, layers := [], shareMask := 0, loader := b.part }) a))
          else complete c 0x05 0 [] (v a))))) ∧
  (∀ (back : Bool) (m : Mbx) (s : State) (bs : List Byte) (b : Binding) (new old k : Nat),
    let c := newCmd s (if back then 0x0306 else 0x0305) m
    let i : Instr := if back then .modelSwapRevert m else .modelSwapResume m
    let h := pNum c 0 2
    let n := pNum c 16 4
    let a := takeCmd c s
    let v := noteAts m.func (((busAddr a m.func (pNum c 8 8) n).map fun a => a.2.2).getD 0) n
    let f := padTo n bs
    let goal := if back then old else new
    let ls := if back then List.range k else (List.range (Mf.layers f)).drop k
    let signed := imageSigned s (Mf.signed f) (Mf.signature f)
    Starts (if back then modelSwapRevertSpec else modelSwapResumeSpec) m s → deadlineOk (pNum c 20 4) = true → myBinding s c h = some b →
    (b.journal = none → exec i s = .next (complete c (if swapBusy b then 0x15 else 0x16) 0 [] a)) ∧
    (b.journal = some (new, old, k) → b.state ≠ 4 → exec i s = .next (complete c 0x15 0 [] a)) ∧
    (b.journal = some (new, old, k) → b.state = 4 → 96 ≤ n → n ≤ 4194304 → HostGives c a (pNum c 8 8) n bs → manifestOk f = true →
      ((image? s goal).map Image.digest ≠ some (Config.sha384 f) → exec i s = .next (complete c (if signed then 0x16 else 0x05) 0 [] (v a))) ∧
      ((image? s goal).map Image.digest = some (Config.sha384 f) → (sharedResident s goal ls = false ∨ m.func % 32 = 0) → quotaHolds s b.part f ls = true →
        let t := if signed then v (modBinding h (fun b => { b with
            state := 3
            swap := some { newSwap (if back then 4 else 3) goal (if back then k - 1 else k) ls.length back c with
              flush := pBit c 2 0, window := pNum c 28 4, retryLimit := pByte c 24, deadline := some (s.now + 1000000 * pNum c 20 4) } }) a)
          else complete c 0x05 0 [] (v a)
        (back = false → exec (.modelSwapResume m) s = .next t) ∧ (back = true → exec (.modelSwapRevert m) s = .next t)))) ∧
  (∀ (m : Mbx) (s : State) (b : Binding), Starts modelUpdateSpec m s →
    let c := newCmd s 0x0307 m
    let h := pNum c 0 2
    let f := manifestOf s b.image
    let a := takeCmd c s
    myBinding s c h = some b →
    (swapBusy b = true → exec (.modelUpdate m) s = .next (complete c 0x15 0 [] a)) ∧
    (b.state = 2 → Mf.trainable f = false → exec (.modelUpdate m) s = .next (complete c 0x06 0 [] a)) ∧
    (∀ first n t off, b.state = 2 → Mf.trainable f = true → (s.mdl.bindings.filter fun x => x.2.any fun y => y.refersTo b.image).length ≤ 1 →
      layersNamed c f = some (first, n) →
      let ls := (List.range n).map (first + ·)
      let total := (((ls.flatMap (Mf.layerTensors f)).filter (updated f)).map fun t => Ts.stored (Mf.tensor f t)).sum
      place (pNum c 8 8) (max 1 total) = .tier t off → ownsExtent s b.part t off (max 1 total) = true → quotaHolds s b.part f ls = true →
      exec (.modelUpdate m) s = .next (modBinding h (fun b => { b with
        state := 3, swap := some { newSwap 1 b.image first n false c with source := pNum c 8 8 } }) a))) ∧
  (∀ (m : Mbx) (s : State) (b : Binding), Starts modelUnloadSpec m s →
    let c := newCmd s 0x0302 m
    let h := pNum c 0 2
    myBinding s c h = some b →
    ((swapBusy b = true ∨ boundActive s b = true ∨ bindingLive s h = true) → exec (.modelUnload m) s = .next (complete c 0x15 0 [] (takeCmd c s))) ∧
    (swapBusy b = false → boundActive s b = false → bindingLive s h = false →
      exec (.modelUnload m) s = .next (complete c 0x00 0 [] (unbind h (takeCmd c s))))) ∧
  (∀ (m : Mbx) (s : State) (b : Binding), Starts modelCheckpointSpec m s →
    let c := newCmd s 0x0308 m
    let h := pNum c 0 2
    let a := takeCmd c s
    let f := manifestOf s b.image
    myBinding s c h = some b →
    (swapBusy b = true → exec (.modelCheckpoint m) s = .next (complete c 0x15 0 [] a)) ∧
    (swapBusy b = false → stepping s = true → exec (.modelCheckpoint m) s = .next a) ∧
    (∀ first n off, b.state = 2 → stepping s = false → pByte c 6 ≤ 2 → layersNamed c f = some (first, n) →
      let forms := ((List.range n).flatMap fun i => (Mf.layerTensors f (first + i)).map fun t =>
        (t, checkpointForm a f ((layer? a (b.imageOf (first + i)) (first + i)).getD .empty) (pByte c 6) t))
      let data := forms.flatMap fun x => x.2.1
      let mf := checkpointManifest f first n 2 a.fab.chip (pNum c 8 8) forms
      place (pNum c 8 8) (max 1 data.length) = .tier 1 off → place (pNum c 8 8) 1 = .tier 1 off → ownsWritable s b.part 1 off (max 1 data.length) = true →
      hostOk a c (pNum c 16 8) mf.length = true →
      exec (.modelCheckpoint m) s = .next (complete c 0x00 0 [] (releaseBinding h
        (writeHost m.func (pNum c 16 8) mf false (tierWrite 1 off data false 0 (holdBinding h a))))))) ∧
  (∀ (m : Mbx) (s : State) (b : Binding), Starts modelQuerySpec m s →
    let c := newCmd s 0x0309 m
    let a := takeCmd c s
    let dg := fun i => ((image? s i).map Image.digest).getD 0
    hostOk a c (pNum c 8 8) 4096 = true →
    (myBinding s c (pNum c 0 2) = none → exec (.modelQuery m) s = .next (complete c 0x16 0 [] a)) ∧
    (myBinding s c (pNum c 0 2) = some b → b.journal = none →
      exec (.modelQuery m) s = .next (complete c 0x00 0 [] (writeHost m.func (pNum c 8 8)
        (padTo 4096 (Config.queryImage 0x0309 [b.state, b2n b.held, dg b.image])) false a))) ∧
    (∀ n o k, myBinding s c (pNum c 0 2) = some b → b.journal = some (n, o, k) →
      exec (.modelQuery m) s = .next (complete c 0x00 0 [] (writeHost m.func (pNum c 8 8)
        (padTo 4096 (Config.queryImage 0x0309 [b.state, b2n b.held, dg n, dg o, 0, k - 1, k, Mf.layers (manifestOf s n) - 1])) false a))))

/-- While stepping does not run, what is due to flip does so first (log 34). SHARD_ARRIVED of a layer that is fetched puts the shard's pieces, and its tiles' headers, at the layer's homes and marks the shard arrived; the last of a loaded layer makes it active, after its tiles are found sound, and the load ends once no layer is fetched and the bank groups it needs have had power; a shard whose transform faults, or an unsound layer, ends the command with METADATA_FAULT. SHARD_TRANSFER_FAIL (POISONED or TIMEOUT) counts a retry while the limit is not reached, the window for peers renewed if the source is a peer; at the limit the layer of a load fails, and a swap ends with SHARD_FAILED. MODEL_DEADLINE_EXPIRY past the deadline ends a swap that is not wholly staged, and fails the layers of a load that have not arrived. LAYER_STAGED of a layer of a swap whose shards are all in makes it staged, if its tiles are sound and their zeros where the running version has them; else METADATA_FAULT. A layer of an update is placed and committed. Completion stated of: shardArrived, shardTransferFail, modelDeadlineExpiry, layerStaged. (Parts of R337, R338, R343 to R346, R352, R353, R359, R366, R369.) -/
def Obligations.ShardsAndStagedLayersArriveRetryOrFail : Prop :=
  (∀ (h k : Nat) (data : List Byte) (s : State) (i : Nat) (staging : Bool) (ls : List Nat), s.host.state = 2 →
    let u := idleModels s
    let m := manifestOf u i
    let t := Sh.tensor (Mf.shard m k)
    let l := Mf.layerOf m t
    let r := Mf.tensor m t
    (fetchOf u h = none → exec (.shardArrived h k data) s = .next u) ∧
    (fetchOf u h = some (i, staging, ls) →
      (ls = [] → exec (.shardArrived h k data) s = .next (finishLoad h u)) ∧
      (ls ≠ [] → (Mf.shards m ≤ k ∨ ls.contains l = false) → exec (.shardArrived h k data) s = .next u) ∧
      (∀ ly, k < Mf.shards m → ls.contains l = true → fetched u h i staging l = some ly → ly.status = 0 → ly.arrived.contains k = false → ly.home t ≠ none →
        (shardPieces m k data = none → exec (.shardArrived h k data) s = .next (failMetadata h u)) ∧
        (∀ ps first n, shardPieces m k data = some (ps, first, n) →
          let put := fun (x : LayerSt × State) (y : Nat × Nat × List Byte) => putTensor y.1 y.2.1 y.2.2 x
          let x := ps.foldl put (ly, u)
          let y := if n = 0 then x else ((tileHeads r (tensorBytes x.2 x.1 t (Ts.stored r)) first n).map fun z => (t, z.1, z.2)).foldl put x
          let now := { y.1 with arrived := y.1.arrived ++ [k] }
          let w := setFetched h i staging l (some now) y.2
          ((staging = true ∨ ∃ z ∈ Mf.layerShards m l, now.arrived.contains z = false) → exec (.shardArrived h k data) s = .next w) ∧
          (staging = false → (∀ z ∈ Mf.layerShards m l, now.arrived.contains z = true) → exec (.shardArrived h k data) s = .next (layerArrived h i l w)))))) ∧
  (∀ (h i l : Nat) (ly : LayerSt) (s : State), layer? s i l = some ly →
    (layerTilesSound s (manifestOf s i) ly l = true →
      layerArrived h i l s = finishLoad h (setLayer i l (some { ly with status := 1, rowData := [] }) (writeRows (fun _ _ => true) (manifestOf s i) ly l s))) ∧
    (layerTilesSound s (manifestOf s i) ly l = false → layerArrived h i l s = failMetadata h s)) ∧
  (∀ (h k st : Nat) (s : State) (i : Nat) (staging : Bool) (ls : List Nat) (b : Binding), s.host.state = 2 → binding? s h = some b →
    let m := manifestOf s i
    let l := Mf.layerOf m (Sh.tensor (Mf.shard m k))
    let u := if Sh.source (Mf.shard m k) = 2 then renewShardWindow s else s
    fetchOf s h = some (i, staging, ls) → k < Mf.shards m → ls.contains l = true → (st = 0x0B ∨ st = 0x0C) →
    (∀ y, fetched s h i staging l = some y → y.arrived.contains k = false) →
    (b.swap = none → Tbl.get 0 b.retries k < b.retryLimit → staging = false →
      exec (.shardTransferFail h k st) s = .next (modBinding h (fun b => { b with retries := Tbl.set 0 b.retries k (Tbl.get 0 b.retries k + 1) }) u)) ∧
    (b.swap = none → b.retryLimit ≤ Tbl.get 0 b.retries k → staging = false → exec (.shardTransferFail h k st) s = .next (failLayer h l u)) ∧
    (∀ w, b.swap = some w → Tbl.get 0 w.retries k < w.retryLimit → staging = true →
      exec (.shardTransferFail h k st) s = .next (modSwap h (fun w => { w with retries := Tbl.set 0 w.retries k (Tbl.get 0 w.retries k + 1) }) u)) ∧
    (∀ w, b.swap = some w → w.retryLimit ≤ Tbl.get 0 w.retries k → staging = true → exec (.shardTransferFail h k st) s = .next (failSwap h 0x0D u))) ∧
  (∀ (h : Nat) (s : State) (b : Binding) (t : Nat), binding? s h = some b →
    (b.swap = none → (b.state ≠ 0 ∨ b.deadline = none) → exec (.modelDeadlineExpiry h) s = .next s) ∧
    (b.swap = none → b.state = 0 → b.deadline = some t → t ≤ s.now → ∀ i ls, fetchOf s h = some (i, false, ls) →
      exec (.modelDeadlineExpiry h) s = .next (if ls = [] then finishLoad h s else ls.foldl (fun s l => failLayer h l s) s)) ∧
    (∀ w, b.swap = some w → (w.deadline <|> b.deadline) = some t →
      (s.now < t → exec (.modelDeadlineExpiry h) s = .next s) ∧
      (t ≤ s.now → (∃ l ∈ w.order.drop w.flipped, Tbl.get none w.staged l = none) → exec (.modelDeadlineExpiry h) s = .next (failSwap h 0x0D s)) ∧
      (t ≤ s.now → (∀ l ∈ w.order.drop w.flipped, ∃ y, Tbl.get none w.staged l = some y ∧ y.status = 3) → exec (.modelDeadlineExpiry h) s = .next s))) ∧
  (∀ (h l : Nat) (s : State) (b : Binding) (w : Swap) (ly : LayerSt),
    let u := idleModels s
    let m := manifestOf u w.image
    let run := b.imageOf l
    let same := (fetchedTensors m (w.kind == 5) l).all fun t => w.repairs || !(tiled (Mf.tensor m t) && Ts.masked (Mf.tensor m t)) || (layer? u run l).all fun o =>
      zeroPattern (Mf.tensor m t) (tensorBytes u ly t (Ts.stored (Mf.tensor m t))) == zeroPattern (Mf.tensor m t) (storedForm u (manifestOf u run) o t)
    binding? u h = some b → b.swap = some w → u.host.state = 2 → (w.order.drop w.flipped).contains l = true → Tbl.get none w.staged l = some ly → ly.status = 0 →
    (w.kind = 1 → exec (.layerStaged h l) s = .next (idleModels (commitLayer h l u))) ∧
    (w.kind ≠ 1 → (∃ k ∈ fetchedShards m (w.kind == 5) l, ly.arrived.contains k = false) → exec (.layerStaged h l) s = .next (idleModels u)) ∧
    (w.kind ≠ 1 → (∀ k ∈ fetchedShards m (w.kind == 5) l, ly.arrived.contains k = true) →
      (layerTilesSound u m ly l = true → same = true → exec (.layerStaged h l) s = .next (idleModels
        (modSwap h (fun w => { w with staged := Tbl.set none w.staged l (some { ly with status := 3 }) }) u))) ∧
      ((layerTilesSound u m ly l = false ∨ same = false) → exec (.layerStaged h l) s = .next (idleModels (failSwap h 0x11 u)))))

/-- Over a pool whose counts are in canonical form: where a page is to be had, it is one from 2 on (0 and 1 are never given), on no retired granule (R663), its count was zero and becomes one, every lower page from 2 on has a count or lies on a retired granule, and no other page's count changes; where none is to be had, every page from 2 on has a count or lies on a retired granule, so of the others a page is free exactly at count zero. Raising and lowering a page's count moves it by one, raising stops at 65,535, and a pool whose counts stay within 16 bits keeps them so. -/
def Obligations.PagesAreTakenInAscendingOrderAndCounted : Prop :=
  (∀ (b n : Nat) (p : Pool) (s t : State), Tbl.wf 0 p.counts = true → pool? s b = some p → allocPage b s = some (n, t) →
    2 ≤ n ∧ n < p.pages ∧ n < 0xFFFFFFFF ∧ Tbl.get 0 p.counts n = 0 ∧ n ∉ retiredPages s p ∧ (∀ k, 2 ≤ k → k < n → Tbl.get 0 p.counts k ≠ 0 ∨ k ∈ retiredPages s p) ∧
      ∃ q, pool? t b = some q ∧ Tbl.wf 0 q.counts = true ∧ Tbl.get 0 q.counts n = 1 ∧ ∀ k, k ≠ n → Tbl.get 0 q.counts k = Tbl.get 0 p.counts k) ∧
  (∀ (b : Nat) (p : Pool) (s : State), Tbl.wf 0 p.counts = true → pool? s b = some p → allocPage b s = none →
    ∀ k, 2 ≤ k → k < p.pages → k < 0xFFFFFFFF → Tbl.get 0 p.counts k ≠ 0 ∨ k ∈ retiredPages s p) ∧
  (∀ (b n : Nat) (up : Bool) (p : Pool) (s : State), Tbl.wf 0 p.counts = true → pool? s b = some p → (∀ k, Tbl.get 0 p.counts k ≤ 65535) →
    ∃ q, pool? (addCount b n up s) b = some q ∧ Tbl.wf 0 q.counts = true ∧ (∀ k, Tbl.get 0 q.counts k ≤ 65535) ∧
      Tbl.get 0 q.counts n = (if up then min 65535 (Tbl.get 0 p.counts n + 1) else Tbl.get 0 p.counts n - 1) ∧
      ∀ k, k ≠ n → Tbl.get 0 q.counts k = Tbl.get 0 p.counts k)

/-- KV_POOL_CONFIG of an own binding without live sequences releases its pool, or reads the block: out of range is BAD_COMMAND, a geometry that does not fit REFUSED_FORMAT, areas that are not to be had REFUSED_CAPACITY; else the pool is configured, its page 0 zero. Live sequences make it BUSY. KV_SEQ_QUERY of a live sequence of the own partition answers into a host buffer (another's is NOT_PERMITTED), and KV_POOL_STATUS does so for an own pool; both layouts are left free (log 11). KV_DROP drops a sequence of the own partition that is not in the committed batch, else BUSY. COW_COPY_COMPLETE makes each copy a sequence waits for: the page's bytes stand in the copy, the entry names it unshared, and the shared page loses a reference. Completion stated of: kvPoolConfig, kvSeqQuery, kvPoolStatus, kvDrop, cowCopyComplete. (Parts of R376, R379, R385, R402, R406 to R409.) -/
def Obligations.PagedCachesAreConfiguredCopiedAndDropped : Prop :=
  (∀ (m : Mbx) (s : State) (b : Binding), Starts kvPoolConfigSpec m s →
    let c := newCmd s 0x0680 m
    let h := pNum c 0 2
    let part := cmdPart c
    let a := takeCmd c s
    (myBinding s c h = none → exec (.kvPoolConfig m) s = .next (complete c 0x16 0 [] a)) ∧
    (myBinding s c h = some b → poolLive s h = true → exec (.kvPoolConfig m) s = .next (complete c 0x15 0 [] a)) ∧
    (myBinding s c h = some b → poolLive s h = false → pBit c 2 0 = true → exec (.kvPoolConfig m) s = .next (complete c 0x00 0 [] (releasePool h part a))) ∧
    (∀ bs, myBinding s c h = some b → poolLive s h = false → pBit c 2 0 = false → HostGives c a (pNum c 8 8) 8192 bs →
      let v := noteAts m.func (((busAddr a m.func (pNum c 8 8) 8192).map fun a => a.2.2).getD 0) 8192
      let f := bindingManifest s h
      let x := padTo 8192 bs
      let p := poolOf f x
      (poolFormOk s part f x = false → exec (.kvPoolConfig m) s = .next (complete c 0x16 0 [] (v a))) ∧
      (poolFormOk s part f x = true → geometryOk p = false → exec (.kvPoolConfig m) s = .next (complete c 0x03 0 [] (v a))) ∧
      (poolFormOk s part f x = true → geometryOk p = true → (p.base % p.payload ≠ 0 ∨ areasInTier p = false) →
        exec (.kvPoolConfig m) s = .next (complete c 0x01 0 [] (v a))) ∧
      (poolFormOk s part f x = true → geometryOk p = true → p.base % p.payload = 0 → areasInTier p = true →
        ((∃ q, pool? s h = some q) ∨ (s.kv.pools.filter fun q => q.2.isSome).length < 256) →
        (claimAreas part (poolAreas p) (releasePool h part a) = none → exec (.kvPoolConfig m) s = .next (complete c 0x01 0 [] (v a))) ∧
        (∀ w, claimAreas part (poolAreas p) (releasePool h part a) = some w → exec (.kvPoolConfig m) s = .next (complete c 0x00 0 []
          (v (wrLocal p.base (List.replicate p.payload 0) (modKv (fun k => { k with pools := Tbl.set none k.pools h (some p) }) w)))))))) ∧
  (∀ (m : Mbx) (s : State) (r : Request) (q : SeqPages), Starts kvSeqQuerySpec m s →
    let c := newCmd s 0x0681 m
    let k := pNum c 0 4
    let a := takeCmd c s
    ((Tbl.get none s.srv.requests k = none ∨ seqp? s k = none) → exec (.kvSeqQuery m) s = .next (complete c 0x16 0 [] a)) ∧
    (Tbl.get none s.srv.requests k = some r → seqp? s k = some q → r.state ≠ .free →
      (c.part ≠ some r.part → exec (.kvSeqQuery m) s = .next (complete c 0x06 0 [] a)) ∧
      (c.part = some r.part → hostOk a c (pNum c 8 8) 65536 = true →
        exec (.kvSeqQuery m) s = .next (complete c 0x00 0 [] (writeHost m.func (pNum c 8 8) (padTo 65536
          (Config.queryImage 0x0681 ([q.watermark, q.written] ++ q.entries.flatMap fun e => [e.1, (e.2.map entryWord).getD 0]))) false a))))) ∧
  (∀ (m : Mbx) (s : State) (b : Binding) (p : Pool), Starts kvPoolStatusSpec m s →
    let c := newCmd s 0x0682 m
    let h := pNum c 0 2
    let a := takeCmd c s
    ((myBinding s c h = none ∨ pool? s h = none) → exec (.kvPoolStatus m) s = .next (complete c 0x16 0 [] a)) ∧
    (myBinding s c h = some b → pool? s h = some p → hostOk a c (pNum c 8 8) 4096 = true →
      exec (.kvPoolStatus m) s = .next (complete c 0x00 0 [] (writeHost m.func (pNum c 8 8) (padTo 4096
        (Config.queryImage 0x0682 [p.tier, p.kvFmt, p.heads, p.dim, p.pages, freePages s p, p.arenaTables, freeTables p])) false a)))) ∧
  (∀ (m : Mbx) (s : State) (r : Request) (q : SeqPages), Starts kvDropSpec m s →
    let c := newCmd s 0x0683 m
    let k := pNum c 0 4
    let a := takeCmd c s
    ((myRequest s c k = none ∨ seqp? s k = none) → exec (.kvDrop m) s = .next (complete c 0x16 0 [] a)) ∧
    (myRequest s c k = some r → seqp? s k = some q → inBatch s k = true → exec (.kvDrop m) s = .next (complete c 0x15 0 [] a)) ∧
    (myRequest s c k = some r → seqp? s k = some q → inBatch s k = false → exec (.kvDrop m) s = .next (complete c 0x00 0 [] (dropReq k a)))) ∧
  (∀ (k : Nat) (s : State) (q : SeqPages),
    (seqp? s k = none → exec (.cowCopyComplete k) s = .next s) ∧
    (seqp? s k = some q → exec (.cowCopyComplete k) s = .next (q.copying.foldl (fun s c => copyShared k q c s) s)) ∧
    (∀ c e p, seqp? s k = some q → Tbl.get none q.entries c.1 = some e → pool? s q.binding = some p → q.copying = [c] →
      exec (.cowCopyComplete k) s = .next (addCount q.binding e.page false (modSeqp k (fun q => { q with copying := q.copying.filter (· != c) })
        (setEntry k c.1 (some { e with page := c.2, shared := false }) (wrLocal (p.pageAddr c.2) (rdBytes s (p.pageAddr e.page) p.payload) s))))))

/-- SRV_CONFIG of an own binding without live requests (else BUSY) releases its configuration, or reads a block in range (else BAD_COMMAND) whose areas are to be had (else REFUSED_CAPACITY). SRV_CLASS sets a class in range, at once or from the next cut-off while stepping. SRV_SUBMIT with a binding, class and buffers is admitted: a new request takes the lowest free slot and answers its identifier, a new turn goes to an IDLE own request, or a PARKED one, which is then restored; a prefix gives a new request its pages; BUSY while the model loads, SHARD_FAILED while INCOMPLETE, MODEL_MIXED, LENGTH_LIMIT past 2^24 - 1 positions, NO_RESOURCE beyond the partition's limit; each refusal is counted, that of a reserved bit too. A single-shot input's bags, as their free layout (log 11) gives them, must be valid. INPUT_COPY_COMPLETE extends the record and makes the request eligible; a read that fails ends the turn with its status. SRV_CANCEL waits for a reserve while stepping, else ends the request, ABORTED_CANCEL in a turn; ENDING ones stay. OUTPUT_DELIVERY writes the oldest output, counts it and reports progress where asked. SRV_QUERY answers into a host buffer. Completion stated of: srvConfig, srvClass, srvSubmit, inputCopyComplete, srvCancel, outputDelivery, srvQuery. (Parts of R410 to R416, R422, R426, R427, R431, R455 to R458.) -/
def Obligations.RequestsAreConfiguredSubmittedCancelledAndDelivered : Prop :=
  (∀ (m : Mbx) (s : State) (b : Binding) (bs : List Byte), Starts srvConfigSpec m s →
    let c := newCmd s 0x0501 m
    let h := pNum c 0 2
    let part := cmdPart c
    let a := takeCmd c s
    let x := padTo 4096 bs
    let v := noteAts m.func (((busAddr a m.func (pNum c 8 8) 4096).map fun a => a.2.2).getD 0) 4096
    (myBinding s c h = none → exec (.srvConfig m) s = .next (complete c 0x16 0 [] a)) ∧
    (myBinding s c h = some b → bindingLive s h = true → exec (.srvConfig m) s = .next (complete c 0x15 0 [] a)) ∧
    (myBinding s c h = some b → bindingLive s h = false → pBit c 2 0 = true → exec (.srvConfig m) s = .next (complete c 0x00 0 [] (releaseSrv h part a))) ∧
    (myBinding s c h = some b → bindingLive s h = false → pBit c 2 0 = false → HostGives c a (pNum c 8 8) 4096 bs →
      (srvFormOk s part x = false → exec (.srvConfig m) s = .next (complete c 0x16 0 [] (v a))) ∧
      (srvFormOk s part x = true → (srvAreasInTier x = false ∨ 8388608 < Sc.dedupRows x * 80 * Sc.pitch x) →
        exec (.srvConfig m) s = .next (complete c 0x01 0 [] (v a))) ∧
      (srvFormOk s part x = true → srvAreasInTier x = true → Sc.dedupRows x * 80 * Sc.pitch x ≤ 8388608 →
        (claimAreas part (srvAreas x) (releaseSrv h part a) = none → exec (.srvConfig m) s = .next (complete c 0x01 0 [] (v a))) ∧
        (∀ w, claimAreas part (srvAreas x) (releaseSrv h part a) = some w → exec (.srvConfig m) s = .next (complete c 0x00 0 []
          (v (modSrv (fun y => { y with configs := Tbl.set none y.configs h (some { block := x }) }) w))))))) ∧
  (∀ (m : Mbx) (s : State), Starts srvClassSpec m s →
    let c := newCmd s 0x0502 m
    let a := takeCmd c s
    (classOk c = false → exec (.srvClass m) s = .next (complete c 0x16 0 [] a)) ∧
    (classOk c = true → stepping s = true → exec (.srvClass m) s = .next a) ∧
    (classOk c = true → stepping s = false → exec (.srvClass m) s = .next (complete c 0x00 0 []
      (modSrv (fun v => { v with classes := Tbl.set none v.classes (16 * cmdPart c + pByte c 0) (some (classParam c)) }) a)))) ∧
  (∀ (m : Mbx) (s : State) (i : Nat), canStart s m = true → firstReserved srvSubmitSpec.allow 48 m.params = some i →
    exec (.srvSubmit m) s = .next (runCmd srvSubmitSpec m (modSrv (fun x => { x with rejected := satAdd 32 x.rejected 1 }) s))) ∧
  (∀ (m : Mbx) (s : State) (b : Binding) (cfg : List Byte), Starts srvSubmitSpec m s →
    let c := newCmd s 0x0503 m
    let h := pNum c 0 2
    let p := cmdPart c
    let n := pNum c 12 4
    let a := takeCmd c s
    let rej := modSrv (fun x => { x with rejected := satAdd 32 x.rejected 1 }) a
    ((myBinding s c h = none ∨ srvOf s h = none) → exec (.srvSubmit m) s = .next (complete c 0x16 0 [] rej)) ∧
    (myBinding s c h = some b → srvOf s h = some cfg → 16 ≤ pByte c 2 →
      exec (.srvSubmit m) s = .next (complete c 0x16 0 [] rej)) ∧
    (myBinding s c h = some b → srvOf s h = some cfg → pByte c 2 < 16 →
      ((hostOk a c (pNum c 16 8) (n * recUnit cfg) = false ∨ hostOk a c (pNum c 24 8) (pNum c 32 4) = false) →
        exec (.srvSubmit m) s = .next (complete c 0x06 0 [] rej)) ∧
      (hostOk a c (pNum c 16 8) (n * recUnit cfg) = true → hostOk a c (pNum c 24 8) (pNum c 32 4) = true →
        (∀ bs, Sc.single cfg = true → m.host = .ok bs →
          let bags := bagsOf (padTo (n * recUnit cfg) bs)
          exec (.srvSubmit m) s = .next (if bags.all (bagOk cfg) then answer c (admitSubmit c h b cfg bags a) else complete c 0x16 0 [] rej)) ∧
        (∀ st, Sc.single cfg = true → hostStatus m.host = some st →
          exec (.srvSubmit m) s = .next (complete c st 0 [] (modSrv (fun x => { x with rejected := satAdd 32 x.rejected 1 }) (countRead st a)))) ∧
        (Sc.single cfg = false →
          let id := pNum c 4 4
          (∀ st, id ≠ 0xFFFFFFFF → findReq s p id = .inl st → exec (.srvSubmit m) s = .next (complete c st 0 [] rej)) ∧
          (id = 0xFFFFFFFF → pNum c 8 4 = 0xFFFFFFFF →
            (b.state = 0 → exec (.srvSubmit m) s = .next (complete c 0x15 0 [] rej)) ∧
            (b.state = 1 → exec (.srvSubmit m) s = .next (complete c 0x0D 0 [] rej)) ∧
            (b.state = 4 → exec (.srvSubmit m) s = .next (complete c 0x14 0 [] rej)) ∧
            (b.state ≠ 0 → b.state ≠ 1 → b.state ≠ 4 → 16777215 < n + pNum c 36 4 → exec (.srvSubmit m) s = .next (complete c 0x13 0 [] rej)) ∧
            (b.state ≠ 0 → b.state ≠ 1 → b.state ≠ 4 → n + pNum c 36 4 ≤ 16777215 →
              ((262144 ≤ (liveSlots s).length ∨ ((part? s p).map Part.reqLimit).getD 0 ≤ partLive s p) →
                exec (.srvSubmit m) s = .next (complete c 0x07 0 [] rej)) ∧
              ((liveSlots s).length < 262144 → partLive s p < ((part? s p).map Part.reqLimit).getD 0 →
                let k := firstGap (liveSlots s) 0
                let u := beginTurn k c n [] (newReq k h c none a)
                exec (.srvSubmit m) s = .next (complete c 0x00 0 (leBytes 4 (reqId u k)) u)))) ∧
          (∀ x, id = 0xFFFFFFFF → pNum c 8 4 ≠ 0xFFFFFFFF → findPrefix s p (pNum c 8 4) = .inr x → x.binding = h → b.state ≠ 0 → b.state ≠ 1 → b.state ≠ 4 →
            (x.poisoned = true → exec (.srvSubmit m) s = .next (complete c 0x0B 0 [] rej)) ∧
            (x.poisoned = false → x.positions + n + pNum c 36 4 ≤ 16777215 → (liveSlots s).length < 262144 →
              partLive s p < ((part? s p).map Part.reqLimit).getD 0 →
              let k := firstGap (liveSlots s) 0
              let u := beginTurn k c n [] (newReq k h c (some x) a)
              exec (.srvSubmit m) s = .next (complete c 0x00 0 (leBytes 4 (reqId u k)) u))) ∧
          (∀ k, id ≠ 0xFFFFFFFF → findReq s p id = .inr k → (req s k).binding = h → pNum c 8 4 = 0xFFFFFFFF →
            ((req s k).state ≠ .idle → ((req s k).state ≠ .parked ∨ (req s k).wantUnpark = true) →
              exec (.srvSubmit m) s = .next (complete c 0x15 0 [] rej)) ∧
            ((req s k).state = .parked → (req s k).wantUnpark = false → b.state ≠ 0 → b.state ≠ 1 → b.state ≠ 4 → (req s k).inputs + n + pNum c 36 4 ≤ 16777215 →
              let t := beginTurn k c n [] a
              let u := (startUnpark k t).getD (countDeferred (modReq k (fun r => { r with wantUnpark := true }) t))
              exec (.srvSubmit m) s = .next (complete c 0x00 0 (leBytes 4 (reqId u k)) u)) ∧
            ((req s k).state = .idle → b.state ≠ 0 → b.state ≠ 1 → b.state ≠ 4 → (req s k).inputs + n + pNum c 36 4 ≤ 16777215 →
              let u := modReq k (fun r => { r with state := .waiting }) (beginTurn k c n [] a)
              exec (.srvSubmit m) s = .next (complete c 0x00 0 (leBytes 4 (reqId u k)) u))))))) ∧
  (∀ (k : Nat) (data : HostRead) (s : State),
    let r := req s k
    ((r.live = false ∨ r.copied = true ∨ r.state = .ending) → exec (.inputCopyComplete k data) s = .next s) ∧
    (r.live = true → r.copied = false → r.state ≠ .ending →
      (∀ st, (enabled s r.turnFunc = false ∧ st = 0x0A ∨ enabled s r.turnFunc = true ∧ hostStatus data = some st) →
        (r.state = .waiting → exec (.inputCopyComplete k data) s = .next (endTurn k st (countRead st s))) ∧
        (r.state ≠ .waiting → exec (.inputCopyComplete k data) s = .next (endReq k st (countRead st s)))) ∧
      (∀ bs t, enabled s r.turnFunc = true → data = .ok bs → extendRecord k (padTo (r.inputs * recUnit (reqCfg s k) - r.record.length) bs) s = some t →
        exec (.inputCopyComplete k data) s = .next (modReq k (fun r => { r with copied := true }) t)) ∧
      (∀ bs, enabled s r.turnFunc = true → data = .ok bs → extendRecord k (padTo (r.inputs * recUnit (reqCfg s k) - r.record.length) bs) s = none →
        exec (.inputCopyComplete k data) s = .next (countDeferred s)))) ∧
  (∀ (m : Mbx) (s : State) (k st : Nat), Starts srvCancelSpec m s →
    let c := newCmd s 0x0504 m
    let a := takeCmd c s
    let p := cmdPart c
    let r := req s k
    let n := modSrv (fun x => { x with cancelled := satAdd 32 x.cancelled 1 }) a
    (findReq s p (pNum c 0 4) = .inl st → exec (.srvCancel m) s = .next (complete c st 0 [] a)) ∧
    (findReq s p (pNum c 0 4) = .inr k →
      (r.state = .ending → exec (.srvCancel m) s = .next (complete c 0x00 0 [] a)) ∧
      (r.state ≠ .ending → stepping s = true → exec (.srvCancel m) s = .next a) ∧
      (r.state ≠ .ending → stepping s = false →
        (r.inTurn = true → exec (.srvCancel m) s = .next (complete c 0x00 0 [] (endReq k 0x09 (modClassStat k (fun x => { x with turns := satAdd 32 x.turns 1 }) n)))) ∧
        (r.inTurn = false → exec (.srvCancel m) s = .next (complete c 0x00 0 [] (endReq k 0x00 n)))))) ∧
  (∀ (k : Nat) (s : State) (d : List Byte × Nat) (ds : List (List Byte × Nat)),
    let r := req s k
    (r.deliveries = [] → exec (.outputDelivery k) s = .next s) ∧
    (r.deliveries = d :: ds →
      let put := writeHost r.turnFunc (r.outAddr + (r.outUsed - (ds.map fun x => x.1.length).sum - d.1.length)) d.1 false s
      let note := modReq k (fun r => { r with deliveries := ds, delivered := r.delivered + d.2 })
      (enabled s r.turnFunc = false → exec (.outputDelivery k) s = .next (checkFree k (note (countDropped 1 put)))) ∧
      (enabled s r.turnFunc = true → r.progress = false → exec (.outputDelivery k) s = .next (checkFree k (note put))) ∧
      (enabled s r.turnFunc = true → r.progress = true → exec (.outputDelivery k) s =
        .next (checkFree k (raiseTo 0x0502 r.part [.func r.func] (fields4 [reqId (note put) k, r.delivered + d.2]) (note put)))))) ∧
  (∀ (m : Mbx) (s : State) (k st : Nat), Starts srvQuerySpec m s →
    let c := newCmd s 0x0508 m
    let a := takeCmd c s
    let r := req s k
    (findReq s (cmdPart c) (pNum c 0 4) = .inl st → exec (.srvQuery m) s = .next (complete c st 0 [] a)) ∧
    (findReq s (cmdPart c) (pNum c 0 4) = .inr k → hostOk a c (pNum c 8 8) 4096 = true →
      exec (.srvQuery m) s = .next (complete c 0x00 0 [] (writeHost m.func (pNum c 8 8) (padTo 4096
        (Config.queryImage 0x0508 [reqStateCode r.state, r.cls, r.inputs, r.prefilled, r.outputs, r.delivered, r.ttft, r.maxTbt])) false a))))

/-- SRV_PARK names a tier and a time to live of 1 to 1,000,000 seconds (else BAD_COMMAND) and an IDLE own request (else BUSY); it waits for a reserve while stepping, else takes a park block for every resident, unshared page, or is NO_RESOURCE. PARK_MOVE_COMPLETE writes each page's parked form to its block, UNPARK_COMPLETE each block's page form to its page, from the pool or as the host answers; a host that does not answer drops the sequence. The moves then count at once, or in the next reserve while stepping. PARK_EXPIRY, in a reserve (as of its tick) or while stepping does not run, ends a parked request whose time is over with EXPIRED. SRV_PREFIX_CREATE of an IDLE or DECODE own request, on whole pages under its watermark, raises each page's count and answers index and generation of a new prefix, or NO_RESOURCE; SRV_PREFIX_RELEASE of an own prefix frees it; both wait for a reserve while stepping. Completion stated of: srvPark, parkMoveComplete, unparkComplete, parkExpiry, srvPrefixCreate, srvPrefixRelease. (Parts of R385, R412, R414, R432 to R440.) -/
def Obligations.RequestsParkRestoreExpireAndShareTheirPages : Prop :=
  (∀ (m : Mbx) (s : State) (k st : Nat), Starts srvParkSpec m s →
    let c := newCmd s 0x0505 m
    let a := takeCmd c s
    let p := cmdPart c
    let r := req s k
    (findReq s p (pNum c 0 4) = .inl st → exec (.srvPark m) s = .next (complete c st 0 [] a)) ∧
    (findReq s p (pNum c 0 4) = .inr k →
      ((1 < pByte c 4 ∨ pNum c 8 4 = 0 ∨ 1000000 < pNum c 8 4) → exec (.srvPark m) s = .next (complete c 0x16 0 [] a)) ∧
      (pByte c 4 ≤ 1 → 1 ≤ pNum c 8 4 → pNum c 8 4 ≤ 1000000 →
        (r.state ≠ .idle → exec (.srvPark m) s = .next (complete c 0x15 0 [] a)) ∧
        (r.state = .idle → stepping s = true → exec (.srvPark m) s = .next a) ∧
        (r.state = .idle → stepping s = false →
          let got := takeParks r.binding (pByte c 4 == 1) (Sc.parkBlocks (reqCfg s k)) (parkKeys s k) a
          (got = none → exec (.srvPark m) s = .next (complete c 0x07 0 [] a)) ∧
          (∀ x, got = some x → exec (.srvPark m) s = .next (complete c 0x00 0 [] (modReq k (fun r =>
            { r with state := .parking, moves := x.1, moved := false, parkDest := pByte c 4, parkStart := rack a, parkTtl := pNum c 8 4 }) x.2))))))) ∧
  (∀ (k : Nat) (s : State), parkKeys s k = [] → takeParks (req s k).binding false 0 (parkKeys s k) s = some ([], s)) ∧
  (∀ (k : Nat) (s : State) (q : SeqPages) (p : Pool), seqp? s k = some q → pool? s (req s k).binding = some p →
    ((req s k).state ≠ .parking → exec (.parkMoveComplete k) s = .next s) ∧
    ((req s k).state = .parking → (req s k).moved = false →
      exec (.parkMoveComplete k) s = .next (movesDone k ((req s k).moves.foldl (fun s m => parkOne k q p m s) s)))) ∧
  (∀ (k : Nat) (s : State) (q : SeqPages) (p : Pool) (m : Nat × Nat) (e : PageEntry), Tbl.get none q.entries m.1 = some e → (req s k).parkDest ≠ 1 →
    parkOne k q p m s = wrLocal (parkAddr p (reqCfg s k) false m.2) (parkForm p (rdBytes s (p.pageAddr e.page) p.payload)) s ∧
    ∀ i page, unparkOne k q p none (i, m.1, page) s =
      wrLocal (p.pageAddr page) (unparkForm p (rdBytes s (parkAddr p (reqCfg s k) false e.page) (p.quarters * (p.payload / 4)))) s) ∧
  (∀ (k : Nat) (data : HostRead) (s : State) (q : SeqPages) (p : Pool), seqp? s k = some q → pool? s (req s k).binding = some p →
    let moves := (req s k).moves.mapIdx fun i m => (i, m)
    ((req s k).state ≠ .unparking → exec (.unparkComplete k data) s = .next s) ∧
    ((req s k).state = .unparking → (req s k).moved = false →
      ((req s k).parkDest ≠ 1 → exec (.unparkComplete k data) s = .next (movesDone k (moves.foldl (fun s x => unparkOne k q p none x s) s))) ∧
      (∀ bs, (req s k).parkDest = 1 → data = .ok bs →
        exec (.unparkComplete k data) s = .next (movesDone k (moves.foldl (fun s x => unparkOne k q p (some bs) x s) s))) ∧
      (∀ st, (req s k).parkDest = 1 → hostStatus data = some st → exec (.unparkComplete k data) s = .next (dropReq k (countRead st s))))) ∧
  (∀ (k : Nat) (s : State),
    (stepping s = true → movesDone k s = modReq k (fun r => { r with moved := true }) s) ∧
    (stepping s = false → movesDone k s = finishMoves k (modReq k (fun r => { r with moved := true }) s))) ∧
  (∀ (k : Nat) (s : State),
    ((stepping s = true ∧ s.step.inReserve = false) → exec (.parkExpiry k) s = .next s) ∧
    ((stepping s = false ∨ s.step.inReserve = true) →
      let t := if stepping s then s.step.lastTick.getD (rack s) else rack s
      (((req s k).state ≠ .parked ∨ t < (req s k).parkStart + 1000000000 * (req s k).parkTtl) → exec (.parkExpiry k) s = .next s) ∧
      ((req s k).state = .parked → (req s k).parkStart + 1000000000 * (req s k).parkTtl ≤ t → exec (.parkExpiry k) s =
        .next (endReq k 0x12 (modReq k (fun r => { r with expired := true }) (modSrv (fun x => { x with expired := satAdd 32 x.expired 1 }) s)))))) ∧
  (∀ (m : Mbx) (s : State) (k st : Nat) (q : SeqPages) (p : Pool), Starts srvPrefixCreateSpec m s →
    let c := newCmd s 0x0506 m
    let a := takeCmd c s
    let n := pNum c 4 4
    let r := req s k
    (findReq s (cmdPart c) (pNum c 0 4) = .inl st → exec (.srvPrefixCreate m) s = .next (complete c 0x16 0 [] a)) ∧
    (findReq s (cmdPart c) (pNum c 0 4) = .inr k → seqp? s k = some q → pool? s r.binding = some p →
      ((n % 64 ≠ 0 ∨ q.watermark < n ∨ (r.state ≠ .idle ∧ r.state ≠ .decode)) → exec (.srvPrefixCreate m) s = .next (complete c 0x16 0 [] a)) ∧
      ((r.state = .idle ∨ r.state = .decode) → n % 64 = 0 → n ≤ q.watermark →
        (stepping s = true → exec (.srvPrefixCreate m) s = .next a) ∧
        (stepping s = false →
          ((prefixPages q p n = none ∨ 65536 ≤ (livePrefixes s).length) → exec (.srvPrefixCreate m) s = .next (complete c 0x07 0 [] a)) ∧
          (∀ ps, prefixPages q p n = some ps → (livePrefixes s).length < 65536 →
            let i := firstGap (livePrefixes s) 0
            let gen := ((Tbl.get none s.srv.prefixes i).map fun x => (x.gen + 1) % 65535).getD 0
            let u := ps.foldl (fun s g => addCount r.binding g.2 true s) a
            exec (.srvPrefixCreate m) s = .next (complete c 0x00 0 (leBytes 2 i ++ leBytes 2 gen) (modSrv (fun v => { v with
              prefixes := Tbl.set none v.prefixes i (some
                { gen := gen, live := true, part := r.part, binding := r.binding, positions := n, pages := ps, record := r.record.take (n * Sc.tokenBytes (reqCfg u k)),
                  poisoned := ps.any fun g => (Tbl.get none q.entries g.1).any PageEntry.poisoned, flushed := false }) }) u))))))) ∧
  (∀ (m : Mbx) (s : State) (x : Prefix) (st : Nat), Starts srvPrefixReleaseSpec m s →
    let c := newCmd s 0x0507 m
    let a := takeCmd c s
    let p := cmdPart c
    (findPrefix s p (pNum c 0 4) = .inl st → exec (.srvPrefixRelease m) s = .next (complete c 0x16 0 [] a)) ∧
    (findPrefix s p (pNum c 0 4) = .inr x → stepping s = true → exec (.srvPrefixRelease m) s = .next a) ∧
    (findPrefix s p (pNum c 0 4) = .inr x → stepping s = false →
      exec (.srvPrefixRelease m) s = .next (complete c 0x00 0 [] (freePrefix (pNum c 0 4 % 65536) false a))))

/-- BATCH_CUTOFF at or after a partition's cut-off puts the waiting classes in force and, unless its batches stand or it serves no model, notes requests at risk, begins copies and builds each segment's batch from the eligible requests in order. A request that displaces none joins a batch if it fits and its pages are covered, is counted short if only the pages lack (as is one whose copies find no page), else waits; a decoding one takes a slot of one position and its speculation, a prefilling one of a chunk or what remains. Every count is at least its declared minimum. BATCH_FINALISE, once the step has no segment of the partition left, makes slots void whose request is gone, over, ending or to be cancelled, and keeps the others. GATHER_WAVE, once the bags before are pooled, counts a wave, whose reads meet what is free (log entry 6), and fetches the next bags, by dedup rows where the configuration has some, unless a dedup row is held, which is counted; an ID that is not valid is counted and reads as zeros, another is fetched once. BAG_POOL of a fetched bag adds or takes the largest of its rows in ID order, stores the output rows, counts blocks that R57 forbids, tells of poison, and ends the job after the last bag. Completion stated of: batchCutoff, batchFinalise, gatherWave, bagPool. (Parts of R417 to R419, R422 to R424, R428, R442, R445 to R453.) -/
def Obligations.BatchesAreCutFinalisedAndTheirBagsGathered : Prop :=
  (∀ (p : Nat) (s : State),
    ((dieOn s = false ∨ s.step.run = false ∨ rack s + cutoffOf s p < s.step.nextTick ∨ 16 ≤ p) → exec (.batchCutoff p) s = .next s) ∧
    (dieOn s = true → s.step.run = true → s.step.nextTick ≤ rack s + cutoffOf s p → p < 16 →
      let u := ((waitingCmds s 0x0502).filter fun c => cmdPart c == p).foldl (fun s c => answer c (applyClass c s)) s
      let bs := servedBindings u p
      let t := u.step.nextTick
      let P := (u.step.active.map StepCfg.period).getD 0
      let all := (liveSlots u).filter (eligible u bs)
      let v := beginCopies all (all.foldl (fun s k => noteRisk t P k s) u)
      let left := all.filter (copiesShort v)
      ((bs = [] ∨ Tbl.get [] u.srv.nextBatches p ≠ []) → exec (.batchCutoff p) s = .next u) ∧
      (bs ≠ [] → Tbl.get [] u.srv.nextBatches p = [] → exec (.batchCutoff p) s = .next (buildAll p t P
        (((nextSegs v).mapIdx fun i e => (i, e)).filter fun x => x.2.valid && x.2.partition == p) (sortBy (runBefore v t P) (all.filter fun k => eligible v bs k && copiesDone v k))
        (!left.isEmpty) (left.foldl (fun s _ => countDeferred s) v))))) ∧
  (∀ (s : State) (fits pages : List BatchSlot → Bool) (t P k : Nat) (b : Build), (boosted s t P k && bit (reqClass s k).policy 1) = false →
    let u := slotFor s k
    (fits (b.slots ++ [u]) = false → consider s fits pages t P b k = b) ∧
    (fits (b.slots ++ [u]) = true → pages (b.slots ++ [u]) = false → consider s fits pages t P b k = { b with short := b.short + 1 }) ∧
    (fits (b.slots ++ [u]) = true → pages (b.slots ++ [u]) = true → consider s fits pages t P b k = { b with slots := b.slots ++ [u] })) ∧
  (∀ (s : State) (k : Nat), Sc.single (reqCfg s k) = false →
    (slotFor s k).req = k ∧ (slotFor s k).first = projFirst s k ∧
    (decodes s k = true → (slotFor s k).kind = 1 ∧ (slotFor s k).k = min (specDepth s k) (16777215 - projFirst s k) ∧ (slotFor s k).positions = 1 + (slotFor s k).k) ∧
    (decodes s k = false → (slotFor s k).kind = 0 ∧ (slotFor s k).positions = min (reqClass s k).prefillChunk (remaining s k) ∧
      ((slotFor s k).lastChunk = true ↔ remaining s k ≤ (reqClass s k).prefillChunk))) ∧
  (∀ (s : State) (cfg i : List Byte) (us : List BatchSlot) (v : Nat), v < 8 → Sc.role cfg v ≠ 0 → Img.cmin i v ≤ (countVec s cfg i us).getD v 0) ∧
  (∀ (p : Nat) (s : State),
    (stepDone s p = false → exec (.batchFinalise p) s = .next s) ∧
    (stepDone s p = true → exec (.batchFinalise p) s = .next
      (modSrv (fun v => { v with nextBatches := Tbl.set [] v.nextBatches p ((Tbl.get [] v.nextBatches p).map (voidOver s)) }) s))) ∧
  (∀ (s : State) (b : Batch) (i : Nat) (u : BatchSlot), b.slots[i]? = some u →
    let gone := slotLive s u = false ∨ (req s u.req).state = .ending ∨ endingSoon s u.req = true ∨ cancelWaits s u.req = true
    (voidOver s b).finalised = true ∧ (voidOver s b).counts = b.counts ∧ (gone → (voidOver s b).slots[i]? = some { u with kind := 3 }) ∧
      (¬gone → (voidOver s b).slots[i]? = some u)) ∧
  (∀ (s : State) (j : GthJob),
    let cfg := (srvOf s j.binding).getD []
    (s.gth.job = none → exec .gatherWave s = .next s) ∧
    (s.gth.job = some j → (j.ready ≠ [] ∨ j.bags.length ≤ j.next) → exec .gatherWave s = .next s) ∧
    (s.gth.job = some j → j.ready = [] → j.next < j.bags.length → dedupHeld s cfg ≠ [] →
      exec .gatherWave s = .next ((dedupHeld s cfg).eraseDups.foldl (fun s f => countBlocked f s) s)) ∧
    (s.gth.job = some j → j.ready = [] → j.next < j.bags.length → dedupHeld s cfg = [] →
      let at_ := (List.range (Sc.dedupRows cfg)).map fun q => (q % 16, Sc.dedupBase cfg + q / 16)
      let w := if j.next = 0 then 0 else j.wave + 1
      let u := modGth (fun g => { g with wave := w % 65536, waves := satAdd 32 g.waves 1, job := g.job.map fun j => { j with wave := w, buffer := [] } })
        (tierCorrected (Config.blocksFound s.freeCount) (eccIn at_ (Config.eccFound s.freeCount) { s with freeCount := s.freeCount + 1 }))
      (Sc.dedupRows cfg = 0 → exec .gatherWave s =
        .next (plainBags j.part cfg (8388608 / max 1 (jobPitch cfg j.bags)) (j.bags.drop j.next) j.next 0 u)) ∧
      (Sc.dedupRows cfg ≠ 0 → exec .gatherWave s = .next (dedupBags j.part cfg (j.bags.drop j.next) j.next true (clearDedup cfg u))))) ∧
  (∀ (p : Nat) (cfg : List Byte) (t id slot : Nat) (s : State),
    let keep := fun (x : List Byte × Bool) (g : GthSt) => { g with job := g.job.map fun j => { j with buffer := Tbl.set ([], false) j.buffer slot x } }
    (idOk cfg t id = false → fetchId p cfg t id slot s = modGth (fun g => keep ([], false) { g with invalidIds := satAdd 32 g.invalidIds 1 }) s) ∧
    (idOk cfg t id = true → let r := fetchRow p cfg t id s
      fetchId p cfg t id slot s = modGth (fun g => keep r.1 { g with unique := satAdd 64 g.unique 1, poison := satAdd 32 g.poison (b2n r.1.2) }) r.2)) ∧
  (∀ (b : Nat) (s : State) (j : GthJob) (slots : List Nat),
    (s.gth.job = none → exec (.bagPool b) s = .next s) ∧
    (s.gth.job = some j → j.ready.find? (fun x => x.1 == b) = none → exec (.bagPool b) s = .next s) ∧
    (s.gth.job = some j → j.ready.find? (fun x => x.1 == b) = some (b, slots) →
      let cfg := (srvOf s j.binding).getD []
      let bag := j.bags.getD b { table := 0, op := 0, ids := [] }
      let got := slots.map fun i => Tbl.get ([], false) j.buffer i
      let bad := got.any Prod.snd
      let r := poolBag bag.op (got.map fun g => rowCodes cfg bag.table g.1) { sat := 0, flush := 0, nan := 0, ovf := 0 }
      let out := poolRows (Sc.goutFmt cfg) r.1
      let at_ := bagRow cfg b
      let u := (List.range (Sc.goutRpt cfg)).foldl (fun s i => putRow false j.part at_.1 (at_.2 + i) (padTo 640 (out.1.getD i [])) bad true s)
        (badBlockFaults j.part 1 at_.1 (got.map fun g => rowBadBlocks cfg bag.table g.1).sum (addLvu at_.1 (ceilDiv r.1.length 32) { r.2 with nan := r.2.nan + out.2 } s))
      let left := j.ready.filter fun x => x.1 != b
      let done := left = [] ∧ j.bags.length ≤ j.next
      let v := if bad then poisonBag j b u else u
      (done → exec (.bagPool b) s = .next (modGth (fun g => { g with busy := false, job := none }) v)) ∧
      (¬done → exec (.bagPool b) s = .next (modGth (fun g => { g with busy := true, job := some { j with ready := left } }) v))))

/-- VIN_RISE and ISLAND_SUPPLY_GOOD bring up the island, which boots the active slot if its signature is sound and its security version at the floor, else the other, else is FAILED with cause 3; ISLAND_READY samples the address and acts on PWR_EN. ISLAND_SUPPLY_LOSS leaves fuses, flash, secure storage and pins. A supply fault, a rail that is late by 5 ms, PWR_EN's fall and LL_POWER_OFF take the die down, fast or gracefully (a running die then tells its peers), every block at reset; a start is held while a trip or fault holds the die off. Rails rise at least 0.5 ms apart; die reset is released 1 ms after the last; self-test and training bring the device to MAILBOX and OPERATIONAL, or FAILED with cause 4, 3, 1 or 2. PWR_EN_RISE counts after 10 ms low; POWER_UP_RESTART comes 100 ms after a power-down that found PWR_EN high again. LL_COLD_RESET is BUSY while the die is held off, held during bring-up, power-down and an erase, else performed with a hang record. Completion stated of: vinRise, islandSupplyGood, islandReady, islandSupplyLoss, lowMarginChange, supplyFault, supplyStable, pwrEnRise, pwrEnFall, railPowerGood, railGoodTimeout, dieResetRelease, selfTestComplete, memoryTrainingComplete, powerDownComplete, powerUpRestart, llPowerOff, llColdReset. (Parts of R556, R612, R614 to R618, R624, R637, R675 to R685, R688.) -/
def Obligations.ThePowerSequenceStartsStopsAndHoldsTheDie : Prop :=
  (∀ (s : State), (s.pwr.phase = 0 → exec .vinRise s = .next (modPwr (fun p => { p with phase := 1, vin := 3600 }) s)) ∧ (s.pwr.phase ≠ 0 → exec .vinRise s = .next s)) ∧
  (∀ (a b : Bool) (s : State),
    (s.pwr.phase = 1 → exec (.islandSupplyGood a b) s = .next (bootIsland a b (modIsl (fun i => { i with erasing := i.erasePending }) (modPwr (fun p => { p with phase := 2 }) s)))) ∧
    (s.pwr.phase ≠ 1 → exec (.islandSupplyGood a b) s = .next s) ∧
    (let t := measureKeys (setMeas 3 0 (setMeas 1 0 (modIsl (fun i => { i with activeSlot := i.nextSlot.getD i.activeSlot, nextSlot := none }) s)))
     (bootSlot t a b = none → bootIsland a b s = setDeviceState 3 3 (setMeas 0 0 t)) ∧
     (∀ k f, bootSlot t a b = some (k, f) → bootIsland a b s =
       setMeas 0 (flashOf t k).islandDigest (modIsl (fun i => { i with slot := k, fallback := f, runningSvn := (flashOf t k).svn }) t)))) ∧
  (∀ (a : Nat) (s : State),
    (s.pwr.phase = 2 → s.host.state ≠ 3 → s.pwr.pwrEn = false → exec (.islandReady a) s = .next (modPwr (fun p => { p with phase := 3, mgtAddr := a % 8 }) s)) ∧
    (s.pwr.phase = 2 → s.host.state ≠ 3 → s.pwr.pwrEn = true → exec (.islandReady a) s = .next (tryStart (modPwr (fun p => { p with phase := 3, mgtAddr := a % 8 }) s))) ∧
    ((s.pwr.phase ≠ 2 ∨ s.host.state = 3) → exec (.islandReady a) s = .next s) ∧
    ((s.pwr.tripHold = true ∨ s.pwr.supplyHold = true) → tryStart s = modPwr (fun p => { p with heldStart := true }) s) ∧
    (s.pwr.tripHold = false → s.pwr.supplyHold = false → tryStart s = startDie s)) ∧
  (∀ (s : State), exec .islandSupplyLoss s = .next { dieLost s with
    err := ErrSt.reset
    isl := { IslSt.reset with
      lc := s.isl.lc, erasePending := s.isl.erasePending, ownerKeys := s.isl.ownerKeys, vendorRevoked := s.isl.vendorRevoked, fwSvn := s.isl.fwSvn,
      deviceId := s.isl.deviceId, secret := s.isl.secret, flash := s.isl.flash, activeSlot := s.isl.activeSlot, nextSlot := s.isl.nextSlot }
    pwr := { PwrSt.reset with pwrEn := s.pwr.pwrEn, pwrEnSince := s.pwr.pwrEnSince } }) ∧
  (∀ (v k : Nat) (s : State),
    (s.pwr.phase < 2 → exec (.lowMarginChange v) s = .next s ∧ exec (.supplyFault k) s = .next s ∧ exec .supplyStable s = .next s) ∧
    (2 ≤ s.pwr.phase →
      exec (.lowMarginChange v) s = .next (modPwr (fun p => { p with vin := v % 65536, lowMargin := decide (3500 ≤ v % 65536) && decide (v % 65536 < 3600) }) s) ∧
      (1 ≤ k → k ≤ 3 → exec (.supplyFault k) s = .next (faultSupply k s)) ∧
      ((k < 1 ∨ 3 < k) → exec (.supplyFault k) s = .next s) ∧
      (let t := modPwr (fun p => { p with supplyHold := false }) s
       (s.pwr.heldStart = true → s.pwr.tripHold = false → s.pwr.phase = 3 → exec .supplyStable s = .next (startDie t)) ∧
       ((s.pwr.heldStart = false ∨ s.pwr.tripHold = true ∨ s.pwr.phase ≠ 3) → exec .supplyStable s = .next t))) ∧
    (let t := modPwr (fun p => { p with lastFault := k, faults := satAdd 14 p.faults 1, supplyHold := true }) s
     (s.pwr.phase < 4 → faultSupply k s = t) ∧
     (4 ≤ s.pwr.phase → faultSupply k s = modPwr (fun p =>
       { p with phase := 3, rails := 0, pgOut := false, downCause := 4, offAt := s.now, restartDue := false, heldReset := false }) (dieLost t)))) ∧
  (∀ (s : State),
    (s.pwr.pwrEn = true → exec .pwrEnRise s = .next s) ∧
    (s.pwr.pwrEn = false →
      let t := modPwr (fun p => { p with pwrEn := true, pwrEnSince := s.now }) s
      (s.pwr.phase = 3 → (s.pwr.downCause = 0 ∨ 10000000 ≤ s.now - s.pwr.pwrEnSince) → exec .pwrEnRise s = .next (tryStart t)) ∧
      ((s.pwr.phase ≠ 3 ∨ (s.pwr.downCause ≠ 0 ∧ s.now - s.pwr.pwrEnSince < 10000000)) → exec .pwrEnRise s = .next t)) ∧
    (s.pwr.pwrEn = false → exec .pwrEnFall s = .next s) ∧
    (s.pwr.pwrEn = true →
      let t := modPwr (fun p => { p with pwrEn := false, pwrEnSince := s.now, restartDue := false, heldStart := false }) s
      (4 ≤ s.pwr.phase → s.pwr.phase ≤ 8 → exec .pwrEnFall s = .next (modPwr (fun p => { p with phase := 9, pgOut := false, downCause := 1 }) (dieLost (onlyIf (dieOn t) (sendLeave 1) t)))) ∧
      ((s.pwr.phase < 4 ∨ 8 < s.pwr.phase) → exec .pwrEnFall s = .next t))) ∧
  (∀ (s : State),
    (s.pwr.phase = 4 → (s.pwr.rails = 0 ∨ s.pwr.railAt + 500000 ≤ s.now) → exec .railPowerGood s =
      .next (modPwr (fun p => { p with rails := p.rails + 1, railAt := s.now, phase := if 5 ≤ p.rails + 1 then 5 else 4 }) s)) ∧
    ((s.pwr.phase ≠ 4 ∨ (s.pwr.rails ≠ 0 ∧ s.now < s.pwr.railAt + 500000)) → exec .railPowerGood s = .next s) ∧
    (s.pwr.phase = 4 → s.pwr.railAt + (if s.pwr.rails = 0 then 0 else 500000) + 5000000 ≤ s.now → exec .railGoodTimeout s = .next (faultSupply 4 s)) ∧
    ((s.pwr.phase ≠ 4 ∨ s.now < s.pwr.railAt + (if s.pwr.rails = 0 then 0 else 500000) + 5000000) → exec .railGoodTimeout s = .next s) ∧
    ((s.pwr.phase ≠ 5 ∨ s.now < s.pwr.railAt + 1000000) → exec .dieResetRelease s = .next s) ∧
    (s.pwr.phase = 5 → s.pwr.railAt + 1000000 ≤ s.now →
      let t := modPwr (fun p => { p with phase := 6, pgOut := true, pgOutAt := s.now, thermTrip := false }) s
      (s.pwr.heldReset = true → exec .dieResetRelease s = .next (lifelineReset t)) ∧
      (s.pwr.heldReset = false → exec .dieResetRelease s = .next (([0, 1].filter fun p => !(hostPort s p).perst).foldl (fun s p => startPort p s) t)))) ∧
  (∀ (rows : List (Nat × Nat)) (ok av : Bool) (s : State),
    ((s.pwr.phase ≠ 6 ∨ s.host.state ≠ 0) → exec (.selfTestComplete rows ok av) s = .next s) ∧
    (s.pwr.phase = 6 → s.host.state = 0 →
      (ok = false → exec (.selfTestComplete rows ok av) s = .next (setDeviceState 3 4 s)) ∧
      (ok = true → av = false → exec (.selfTestComplete rows ok av) s = .next (setDeviceState 3 3 s)) ∧
      (ok = true → av = true → exec (.selfTestComplete rows ok av) s = .next (startCores (rows.foldl (fun s r => badRow r s) s))))) ∧
  (∀ (a b : Bool) (s : State),
    ((s.pwr.phase ≠ 7 ∨ s.host.state ≠ 1) → exec (.memoryTrainingComplete a b) s = .next s) ∧
    (s.pwr.phase = 7 → s.host.state = 1 →
      let train := fun ok (x : TierSt) => { x with trained := ok, offline := !ok, mode := if a && b then 0 else x.mode }
      let t := modTier 1 (train b) (modTier 0 (train a) s)
      (a = false → exec (.memoryTrainingComplete a b) s = .next (setDeviceState 3 1 t)) ∧
      (a = true → b = false → exec (.memoryTrainingComplete a b) s = .next (setDeviceState 3 2 t)) ∧
      (a = true → b = true → s.isl.erasing = false → exec (.memoryTrainingComplete a b) s = .next (setDeviceState 2 0 (modPwr (fun p => { p with phase := 8 }) t))) ∧
      (a = true → b = true → s.isl.erasing = true → exec (.memoryTrainingComplete a b) s = .next (modPwr (fun p => { p with phase := 8 }) t)))) ∧
  (∀ (s : State),
    (s.pwr.phase ≠ 9 → exec .powerDownComplete s = .next s) ∧
    (s.pwr.phase = 9 →
      let t := modPwr (fun p => { p with
        phase := 3, rails := 0, offAt := s.now, heldReset := false, restartDue := decide (p.downCause = 1) && p.pwrEn && !s.pwr.heldReset }) s
      (s.pwr.heldReset = true → exec .powerDownComplete s = .next (tryStart t)) ∧ (s.pwr.heldReset = false → exec .powerDownComplete s = .next t)) ∧
    ((s.pwr.phase ≠ 3 ∨ s.pwr.restartDue = false ∨ s.now < s.pwr.offAt + 100000000) → exec .powerUpRestart s = .next s) ∧
    (s.pwr.phase = 3 → s.pwr.restartDue = true → s.pwr.offAt + 100000000 ≤ s.now →
      exec .powerUpRestart s = .next (tryStart (modPwr (fun p => { p with restartDue := false }) s)))) ∧
  (∀ (q : Nat) (r : List Byte) (s : State),
    (s.pwr.phase < 3 → exec (.llPowerOff q r) s = .next s ∧ exec (.llColdReset q r) s = .next s) ∧
    (3 ≤ s.pwr.phase →
      let u := captureHang 3 (llAnswer 0x02 q 0x00 [] s)
      let t := llAnswer 0x03 q 0x00 [] s
      let hold := modPwr (fun p => { p with heldReset := true }) t
      (4 ≤ s.pwr.phase → s.pwr.phase ≤ 8 → exec (.llPowerOff q r) s = .next (modPwr (fun p => { p with phase := 9, pgOut := false, downCause := 2 }) (dieLost (onlyIf (dieOn u) (sendLeave 1) u)))) ∧
      ((s.pwr.phase = 3 ∨ 8 < s.pwr.phase) → exec (.llPowerOff q r) s = .next u) ∧
      (s.pwr.phase = 3 → (s.pwr.tripHold = true ∨ s.pwr.supplyHold = true) → exec (.llColdReset q r) s = .next (llAnswer 0x03 q 0x15 [] s)) ∧
      (s.pwr.phase = 3 → s.pwr.tripHold = false → s.pwr.supplyHold = false → (s.isl.erasing = false ∨ s.host.state ≠ 1) →
        exec (.llColdReset q r) s = .next (startDie (captureHang 3 t))) ∧
      ((s.pwr.phase = 4 ∨ s.pwr.phase = 5 ∨ s.pwr.phase = 9) → exec (.llColdReset q r) s = .next hold) ∧
      (s.pwr.phase ≠ 3 → s.isl.erasing = true → s.host.state = 1 → exec (.llColdReset q r) s = .next hold) ∧
      ((s.pwr.phase = 6 ∨ s.pwr.phase = 7 ∨ s.pwr.phase = 8) → (s.isl.erasing = false ∨ s.host.state ≠ 1) → exec (.llColdReset q r) s = .next (lifelineReset t))))

/-- A capture replaces the hang record, but one of kind 3 or 5 leaves a record of kind 1, 2 or 4 of the last 60 s; it raises the alert, counts, and raises HANG_CAPTURED. HANG_STALL_TIMEOUT captures kind 1 once for each stall as long as HANG_CFG says (10 to 60,000 ms, a reading of log entry 38); WATCHDOG_EXPIRY captures kind 2, logs and raises CORE_WATCHDOG once for a core that has not refreshed for 100 ms; WATCHDOG_REFRESH notes where a core is and when. ERR_HANG_CAPTURE captures kind 5. An error logged takes the next sequence number as the newest of at most 4,096 entries, the oldest going first and counted. ERR_COUNTER_CLEAR clears a block's counters and records for the primary PF, or a partition's entries for it and for the partition's own functions, each as its flags say; ERR_LOG_READ and ERR_HANG_READ write entries and the record to the host, NO_RESOURCE without a record; ERR_CFG_SET sets 10 to 60,000 ms. Completion stated of: hangStallTimeout, watchdogRefresh, watchdogExpiry, errCounterClear, errLogRead, errHangRead, errHangCapture, errCfgSet. (Parts of R129, R645, R648, R657 to R660, R664, R666.) -/
def Obligations.ErrorsAreLoggedReadClearedAndHangsCaptured : Prop :=
  (∀ (c : Nat) (s : State),
    (∀ h, s.err.hang = some h → (c = 3 ∨ c = 5) → (h.cause = 1 ∨ h.cause = 2 ∨ h.cause = 4) → s.now < h.at_ + 60000000000 → (captureHang c s).err.hang = some h) ∧
    ((c ≠ 3 ∧ c ≠ 5 ∨ s.err.hang = none) → (captureHang c s).err.hang = some { cause := c, at_ := s.now, bytes := hangBytes c s }) ∧
    (∀ h, s.err.hang = some h → (h.cause = 3 ∨ h.cause = 5 ∨ h.at_ + 60000000000 ≤ s.now) →
      (captureHang c s).err.hang = some { cause := c, at_ := s.now, bytes := hangBytes c s }) ∧
    bit (captureHang c s).isl.alert 2 = true ∧ (captureHang c s).err.hangCaptures = satAdd 32 s.err.hangCaptures 1) ∧
  (∀ (code cls p : Nat) (pay : List Byte) (s : State), s.err.log.length ≤ 4096 →
    let t := logError code cls p pay s
    let new := leBytes 2 code ++ [BitVec.ofNat 8 cls, BitVec.ofNat 8 p] ++ leBytes 4 s.err.logSeq ++ leBytes 8 (rack s) ++ padTo 48 pay
    ∃ old, t.err.log = old ++ [{ seq := s.err.logSeq, bytes := new }] ∧ t.err.log.length ≤ 4096 ∧ (s.err.log.length < 4096 → old = s.err.log) ∧
      (s.err.log.length = 4096 → old = s.err.log.drop 1 ∧ t.err.logOverwritten = satAdd 32 s.err.logOverwritten 1)) ∧
  (∀ (s : State),
    (∀ r st, dieOn s = true → s.seq.cur = some r → r.stall = some st → s.seq.hangNoted = false → 1000000 * max 10 (min 60000 s.err.hangMs) ≤ stalledNs s →
      exec .hangStallTimeout s = .next (captureHang 1 (modSeq (fun q => { q with hangNoted := true }) s))) ∧
    ((dieOn s = false ∨ (∀ r, s.seq.cur = some r → r.stall = none) ∨ s.seq.hangNoted = true ∨ stalledNs s < 1000000 * max 10 (min 60000 s.err.hangMs)) → exec .hangStallTimeout s = .next s)) ∧
  (∀ (core pc : Nat) (s : State),
    (core < 8 → dieOn s = true → exec (.watchdogRefresh core pc) s = .next (modIsl (fun i => { i with
      coreRefresh := Tbl.set (0, 0) i.coreRefresh core (pc % 2 ^ 32, s.now), coreMissed := i.coreMissed.filter (· != core) }) s)) ∧
    ((8 ≤ core ∨ dieOn s = false) → exec (.watchdogRefresh core pc) s = .next s) ∧
    (core < 8 → 7 ≤ s.pwr.phase → s.pwr.phase ≤ 8 → s.isl.coreMissed.contains core = false → 100 ≤ coreMs s core →
      let pay := fields4 [core, coreMs s core]
      exec (.watchdogExpiry core) s = .next (raiseTo 0x0A03 0xFF [.pfs] pay (logError 0x0A03 9 0xFF pay
        (captureHang 2 (modIsl (fun i => { i with coreMissed := i.coreMissed ++ [core] }) s))))) ∧
    ((8 ≤ core ∨ s.pwr.phase < 7 ∨ 8 < s.pwr.phase ∨ s.isl.coreMissed.contains core = true ∨ coreMs s core < 100) → exec (.watchdogExpiry core) s = .next s)) ∧
  (∀ (m : Mbx) (s : State), Starts errCounterClearSpec m s →
    let c := newCmd s 0x0A01 m
    let a := takeCmd c s
    let blk := pByte c 0
    let p := pByte c 2
    ((0x10 < blk ∨ (15 < p ∧ p ≠ 0xFF)) → exec (.errCounterClear m) s = .next (complete c 0x16 0 [] a)) ∧
    (blk ≤ 0x10 → p = 0xFF → byPrimary s c = false → exec (.errCounterClear m) s = .next (complete c 0x06 0 [] a)) ∧
    (blk ≤ 0x10 → p = 0xFF → byPrimary s c = true →
      let t := if pBit c 1 0 then clearBlock blk a else a
      exec (.errCounterClear m) s = .next (complete c 0x00 0 [] (if pBit c 1 1 then clearRecords blk t else t))) ∧
    (blk ≤ 0x10 → p < 16 → byPrimary s c = false → c.part ≠ some p → exec (.errCounterClear m) s = .next (complete c 0x06 0 [] a)) ∧
    (blk ≤ 0x10 → p < 16 → (byPrimary s c = true ∨ c.part = some p) →
      exec (.errCounterClear m) s = .next (complete c 0x00 0 [] (if pBit c 1 0 then clearPart blk p a else a)))) ∧
  (∀ (m : Mbx) (s : State),
    (Starts errLogReadSpec m s →
      let c := newCmd s 0x0A02 m
      let a := takeCmd c s
      let n := pNum c 4 2
      ((n = 0 ∨ 4096 < n) → exec (.errLogRead m) s = .next (complete c 0x16 0 [] a)) ∧
      (1 ≤ n → n ≤ 4096 → hostOk a c (pNum c 8 8) (64 * n) = true → exec (.errLogRead m) s = .next (complete c 0x00 0 []
        (writeHost m.func (pNum c 8 8) (padTo (64 * n) ((List.range n).flatMap fun i => logBytes a (pNum c 0 4 + i))) false a)))) ∧
    (Starts errHangReadSpec m s →
      let c := newCmd s 0x0A03 m
      let a := takeCmd c s
      (s.err.hang = none → exec (.errHangRead m) s = .next (complete c 0x07 0 [] a)) ∧
      (∀ h, s.err.hang = some h → hostOk a c (pNum c 8 8) 8192 = true →
        exec (.errHangRead m) s = .next (complete c 0x00 0 [] (writeHost m.func (pNum c 8 8) (padTo 8192 h.bytes) false a)))) ∧
    (Starts errHangCaptureSpec m s →
      let c := newCmd s 0x0A04 m
      exec (.errHangCapture m) s = .next (complete c 0x00 0 [] (captureHang 5 (takeCmd c s)))) ∧
    (Starts errCfgSetSpec m s →
      let c := newCmd s 0x0A05 m
      let a := takeCmd c s
      let ms := pNum c 0 2
      ((ms < 10 ∨ 60000 < ms) → exec (.errCfgSet m) s = .next (complete c 0x16 0 [] a)) ∧
      (10 ≤ ms → ms ≤ 60000 → exec (.errCfgSet m) s = .next (complete c 0x00 0 [] (modErr (fun e => { e with hangMs := ms }) a)))))

/-- SEC_IDENTITY, SEC_ATTEST and SEC_LC_STATUS answer certificates, the report (device scope for a PF, partition scope for an own function, else NOT_PERMITTED) and status; SEC_CHALLENGE issues a challenge. SEC_LC_TRANSITION along the table of R635, with fresh authorisations by the keys it names, enters the state, RETURN making the erase pending, and completes before its cold reset; other transitions are NOT_PERMITTED, other signatures BAD_SIGNATURE. SEC_OWNER_KEYS, not in RETURN, installs or revokes a slot; SEC_TOKEN puts a token in force or revokes it, BUSY during the erase. SEC_FW_UPDATE stages a sound image in the idle slot, SEC_FW_ACTIVATE chooses it unless it is below the floor, SEC_SVN_COMMIT raises the floor to the running version up to 63, SEC_POWER_CFG sets a cap of 300 to 750 W and a threshold in range. A token that ends clears halt and every injection, and is reported. SEC_REQUEST does the bus operations and keeps their output for SEC_READ. RETURN_ERASE_COMPLETE leaves no owner key, memory, program or knot. Completion stated of: secIdentity, secAttest, secChallenge, secLcStatus, secLcTransition, secOwnerKeys, secToken, secFwUpdate, secFwActivate, secSvnCommit, secPowerCfg, tokenExpiry, returnEraseComplete, secRequest, secRead. (Parts of R614, R623 to R643. Signatures, certificates and images are free, log 9.) -/
def Obligations.SecurityCommandsAnswerAndAuthorise : Prop :=
  (∀ (m : Mbx) (s : State),
    (Starts secIdentitySpec m s → let c := newCmd s 0x0901 m
      hostOk (takeCmd c s) c (pNum c 8 8) 16384 = true → exec (.secIdentity m) s = .next (complete c 0x00 0 [] (writeHost m.func (pNum c 8 8)
        (padTo 16384 (certBytes (Config.identityCert s.isl.deviceId) ++ certBytes (Config.aliasCert s.isl.secret (Tbl.get 0 s.isl.meas 0) (Tbl.get 0 s.isl.meas 1)))) false (takeCmd c s)))) ∧
    (Starts secAttestSpec m s → let c := newCmd s 0x0902 m
      let a := takeCmd c s
      let scope := pByte c 0
      let p := pByte c 1
      ((1 < scope ∨ (scope = 1 ∧ 15 < p)) → exec (.secAttest m) s = .next (complete c 0x16 0 [] a)) ∧
      (((scope = 0 ∧ m.func % 32 ≠ 0) ∨ (scope = 1 ∧ p < 16 ∧ funcPart s m.func ≠ some p)) → exec (.secAttest m) s = .next (complete c 0x06 0 [] a)) ∧
      (((scope = 0 ∧ m.func % 32 = 0) ∨ (scope = 1 ∧ p < 16 ∧ funcPart s m.func = some p)) → hostOk a c (pNum c 40 8) 4096 = true →
        exec (.secAttest m) s = .next (complete c 0x00 0 [] (writeHost m.func (pNum c 40 8) (padTo 4096 (attestReport a scope p (sliceBytes m.params 8 32))) false a)))) ∧
    (Starts secChallengeSpec m s → let c := newCmd s 0x0903 m
      let a := takeCmd c s
      let n := padTo 32 (Config.challenge s.freeCount)
      exec (.secChallenge m) s = .next (complete c 0x00 0 (n.take 16)
        (modIsl (fun i => { i with challenge := some (n, s.now), challengeReg := n }) { a with freeCount := s.freeCount + 1 }))) ∧
    (Starts secLcStatusSpec m s → let c := newCmd s 0x0904 m
      exec (.secLcStatus m) s = .next (complete c 0x00 0 (leBytes 4 (mgtLc s) ++ leBytes 8 (mgtToken s)) (takeCmd c s)))) ∧
  (∀ (m : Mbx) (s : State) (bs : List Byte), Starts secLcTransitionSpec m s →
    let c := newCmd s 0x0905 m
    let a := takeCmd c s
    let n := pByte c 0
    let v := noteAts m.func (((busAddr a m.func (pNum c 8 8) (320 * n)).map fun a => a.2.2).getD 0) (320 * n)
    let as_ := (List.range n).map fun i => sliceBytes (padTo (320 * n) bs) (320 * i) 320
    let new := Auth.target (as_.headD [])
    let t := modIsl (fun i => { i with challenge := none }) a
    ((n < 1 ∨ 2 < n) → exec (.secLcTransition m) s = .next (complete c 0x16 0 [] a)) ∧
    (1 ≤ n → n ≤ 2 → HostGives c a (pNum c 8 8) (320 * n) bs →
      (as_.all Auth.clean = false → exec (.secLcTransition m) s = .next (complete c 0x16 0 [] (v a))) ∧
      (as_.all Auth.clean = true → lcStep s.isl.lc new = false → exec (.secLcTransition m) s = .next (complete c 0x06 0 [] (v t))) ∧
      (as_.all Auth.clean = true → lcStep s.isl.lc new = true → exec (.secLcTransition m) s =
        .next (if (as_.all fun x => authFresh a 1 x && Auth.target x == new) && lcSigned a new as_ then v (transitionReset (complete c 0x00 0 [] (enterLc new t)))
          else complete c 0x05 0 [] (v t))))) ∧
  (∀ (old new : Nat), lcStep old new = true ↔ (old = 0 ∧ new = 1) ∨ (old = 1 ∧ (new = 2 ∨ new = 3)) ∨ (old = 2 ∧ new = 3)) ∧
  (∀ (m : Mbx) (s : State) (bs : List Byte), Starts secOwnerKeysSpec m s →
    let c := newCmd s 0x0906 m
    let a := takeCmd c s
    let v := noteAts m.func (((busAddr a m.func (pNum c 8 8) 320).map fun a => a.2.2).getD 0) 320
    let x := padTo 320 bs
    let t := modIsl (fun i => { i with challenge := none }) a
    HostGives c a (pNum c 8 8) 320 bs →
    (s.isl.lc = 3 → exec (.secOwnerKeys m) s = .next (complete c 0x06 0 [] (v a))) ∧
    (s.isl.lc ≠ 3 → Auth.clean x = true → Auth.slot x ≤ 3 → Auth.op x ≤ 1 → (Auth.op x = 0 ∨ Auth.signer x ≠ 0x10 + Auth.slot x) → exec (.secOwnerKeys m) s =
      .next (if authFresh a 2 x && keyAuth a x then complete c 0x00 0 [] (v (measureKeys (modIsl (fun i =>
          { i with ownerKeys := Tbl.set none i.ownerKeys (Auth.slot x) (if Auth.op x = 0 then some (Auth.key x) else none) }) t)))
        else complete c 0x05 0 [] (v t)))) ∧
  (∀ (m : Mbx) (s : State) (bs : List Byte), Starts secTokenSpec m s →
    let c := newCmd s 0x0907 m
    let a := takeCmd c s
    let v := noteAts m.func (((busAddr a m.func (pNum c 8 8) 320).map fun a => a.2.2).getD 0) 320
    let x := padTo 320 bs
    let t := modIsl (fun i => { i with challenge := none }) a
    (s.isl.erasing = true → exec (.secToken m) s = .next (complete c 0x15 0 [] a)) ∧
    (s.isl.erasing = false → pBit c 0 0 = true → exec (.secToken m) s = .next (complete c 0x00 0 [] (endToken 2 a))) ∧
    (s.isl.erasing = false → pBit c 0 0 = false → HostGives c a (pNum c 8 8) 320 bs → Auth.clean x = true → exec (.secToken m) s =
      .next (if authFresh a 0 x && tokenAuth a x && decide (1 ≤ Auth.lifetime x) && decide (Auth.lifetime x ≤ 86400) then complete c 0x00 0 [] (v (setToken x t))
        else complete c 0x05 0 [] (v t)))) ∧
  (∀ (m : Mbx) (s : State) (bs : List Byte), Starts secFwUpdateSpec m s →
    let c := newCmd s 0x0908 m
    let a := takeCmd c s
    let n := pNum c 16 4
    let v := noteAts m.func (((busAddr a m.func (pNum c 8 8) n).map fun a => a.2.2).getD 0) n
    let x := Config.fwImage (padTo n bs)
    let f : Flash := { islandDigest := Config.sha384 x.1, avporDigest := Config.sha384 x.2.1, version := x.2.2.1 % 2 ^ 24, svn := x.2.2.2.1 }
    ((n = 0 ∨ 16777216 < n) → exec (.secFwUpdate m) s = .next (complete c 0x16 0 [] a)) ∧
    (1 ≤ n → n ≤ 16777216 → HostGives c a (pNum c 8 8) n bs → exec (.secFwUpdate m) s = .next (if fwSound s (padTo n bs) then
        complete c 0x00 0 [] (v (raiseTo 0x0906 0xFF [.pfs] (fields4 [idleSlot s, f.version, f.svn])
          (modIsl (fun i => { i with flash := Tbl.set none i.flash (idleSlot s) (some f) }) a)))
      else complete c 0x05 0 [] (v a)))) ∧
  (∀ (m : Mbx) (s : State),
    (Starts secFwActivateSpec m s → let c := newCmd s 0x0909 m
      ((flashOf s (idleSlot s)).svn < s.isl.fwSvn → exec (.secFwActivate m) s = .next (complete c 0x05 0 [] (takeCmd c s))) ∧
      (s.isl.fwSvn ≤ (flashOf s (idleSlot s)).svn →
        exec (.secFwActivate m) s = .next (complete c 0x00 0 [] (modIsl (fun i => { i with nextSlot := some (idleSlot s) }) (takeCmd c s))))) ∧
    (Starts secSvnCommitSpec m s → let c := newCmd s 0x090A m
      (63 < s.isl.runningSvn → exec (.secSvnCommit m) s = .next (complete c 0x07 0 [] (takeCmd c s))) ∧
      (s.isl.runningSvn ≤ 63 →
        exec (.secSvnCommit m) s = .next (complete c 0x00 0 [] (modIsl (fun i => { i with fwSvn := max i.fwSvn i.runningSvn }) (takeCmd c s))))) ∧
    (Starts secPowerCfgSpec m s → let c := newCmd s 0x090B m
      let cap := pNum c 0 2
      let i := pByte c 2
      let t := toSigned 16 (pNum c 4 2)
      ((cap < 300 ∨ 750 < cap ∨ (bit (pByte c 3) 0 = true ∧ thresholdOk i t = false)) → exec (.secPowerCfg m) s = .next (complete c 0x16 0 [] (takeCmd c s))) ∧
      (300 ≤ cap → cap ≤ 750 →
        let u := modIsl (fun i => { i with cap := cap }) (takeCmd c s)
        (bit (pByte c 3) 0 = false → exec (.secPowerCfg m) s = .next (complete c 0x00 0 [] u)) ∧
        (bit (pByte c 3) 0 = true → thresholdOk i t = true →
          exec (.secPowerCfg m) s = .next (complete c 0x00 0 [] (modIsl (fun x => { x with thresholds := Tbl.set none x.thresholds i (some t.toNat) }) u)))))) ∧
  (∀ (s : State) (t : Token) (cause : Nat), s.isl.token = some t →
    (s.now < t.since + 1000000000 * t.lifetime → exec .tokenExpiry s = .next s) ∧
    (t.since + 1000000000 * t.lifetime ≤ s.now → exec .tokenExpiry s = .next (endToken 1 s)) ∧
    (endToken cause s).isl.token = none ∧ (endToken cause s).seq.halt = false ∧ (∀ j ∈ (endToken cause s).fab.inject, ∀ x, j.2 = some x → x.enable = false)) ∧
  (∀ (s : State), (s.isl.token = none → exec .tokenExpiry s = .next s) ∧
    ((s.isl.erasing = false ∨ s.pwr.phase ≠ 8 ∨ s.host.state ≠ 1) → exec .returnEraseComplete s = .next s) ∧
    (s.isl.erasing = true → s.pwr.phase = 8 → s.host.state = 1 →
      let t := modFab (fun f => { f with knots := [] }) { measureKeys (modIsl (fun i => { i with erasing := false, erasePending := false, ownerKeys := [] }) s) with
        mem := [], sp := SpSt.reset, acc := AccSt.reset, prog := ProgSt.reset, seq := { s.seq with cur := none } }
      (s.pwr.heldReset = true → exec .returnEraseComplete s = .next (lifelineReset t)) ∧
      (s.pwr.heldReset = false → exec .returnEraseComplete s = .next (setDeviceState 2 0 t)))) ∧
  (∀ (q k : Nat) (r : List Byte) (s : State),
    (s.pwr.phase < 3 → exec (.secRequest q r) s = .next s ∧ exec (.secRead q k) s = .next s) ∧
    (3 ≤ s.pwr.phase →
      exec (.secRead q k) s = .next (llAnswer 0x11 q 0x00 ((s.isl.secOut.drop (48 * (k % 65536))).take 48) s) ∧
      (let x := if r.length < 50 ∨ 1074 < r.length then secRefuse 0x16 s else busOp (leAt r 0 2) (sliceBytes r 2 48) (r.drop 50) s
       let u := llAnswer 0x10 q x.2.status (padTo 16 x.2.results ++ leBytes 4 x.2.output.length) (modIsl (fun i => { i with secOut := x.2.output }) x.1)
       (x.2.reset = false → exec (.secRequest q r) s = .next u) ∧ (x.2.reset = true → exec (.secRequest q r) s = .next (transitionReset u)))))

/-- Before the island answers (phase below 3) bus requests do nothing. LL_TELEMETRY answers 1 to 24 sensors and the power, LL_HANG_RECORD a chunk of the record or NO_RESOURCE, LL_LC_STATUS the status, LL_HITCH_SET sets a hitch by hand where the life cycle permits it; malformed requests and unknown codes are BAD_COMMAND. PLDM reads sensors, sets the cap within 300 to 750 W and thresholds within range, and updates firmware; its reply bytes are free (log 9). SENSOR_SAMPLE stores a temperature, trips at its threshold: record, THERMTRIP_N, fast power-down, the die held off, until every sensor is 10 degrees below; 24 is the average power, 25 the input voltage. GATE_RECOMPUTE, with the die on, raises the gate by one up to 63 when the power exceeds the cap (a value held outside 300 to 750 W acts as the nearest limit) or a sensor its threshold, lowers it when the power is below 98 % of the cap and every sensor 2 degrees below, else keeps it; with the die off it is 0. Completion stated of: llTelemetry, llHangRecord, llLcStatus, llHitchSet, pldmRequest, sensorSample, gateRecompute. (Parts of R474, R613 to R616, R619 to R623, R659, R684, R700.) -/
def Obligations.TheIslandReportsAndGatesPowerAndHeat : Prop :=
  (∀ (q : Nat) (r : List Byte) (s : State), s.pwr.phase < 3 → (∀ c, exec (.llTelemetry c q r) s = .next s) ∧ exec (.llHangRecord q r) s = .next s ∧
    exec (.llLcStatus q r) s = .next s ∧ exec (.llHitchSet q r) s = .next s ∧ ∀ x, exec (.pldmRequest x) s = .next s) ∧
  (∀ (q : Nat) (r : List Byte) (s : State), 3 ≤ s.pwr.phase →
    let i := leAt r 0 1
    let n := leAt r 1 1
    let k := leAt r 0 2
    ((r.length < 2 ∨ n < 1 ∨ 24 < i + n) → exec (.llTelemetry 0x01 q r) s = .next (llAnswer 0x01 q 0x16 [] s)) ∧
    (∀ c, c ∉ [0x01, 0x02, 0x03, 0x04, 0x05, 0x06, 0x10, 0x11] → exec (.llTelemetry c q r) s = .next (llAnswer c q 0x16 [] s)) ∧
    (2 ≤ r.length → 1 ≤ n → i + n ≤ 24 → exec (.llTelemetry 0x01 q r) s =
      .next (llAnswer 0x01 q 0x00 (((List.range n).flatMap fun j => leBytes 4 (mgtTemp s (i + j))) ++ leBytes 4 (mgtPower s)) s)) ∧
    (r.length < 2 → exec (.llHangRecord q r) s = .next (llAnswer 0x04 q 0x16 [] s)) ∧
    (2 ≤ r.length → k ≤ 101 → s.err.hang = none → exec (.llHangRecord q r) s = .next (llAnswer 0x04 q 0x07 [0, 0] s)) ∧
    (∀ h, 2 ≤ r.length → k ≤ 101 → s.err.hang = some h → exec (.llHangRecord q r) s =
      .next (llAnswer 0x04 q 0x00 (leBytes 2 h.bytes.length ++ (h.bytes.drop (48 * k)).take 48) s)) ∧
    (∀ h, 2 ≤ r.length → 101 < k → s.err.hang = some h → exec (.llHangRecord q r) s = .next (llAnswer 0x04 q 0x16 (leBytes 2 h.bytes.length) s)) ∧
    exec (.llLcStatus q r) s = .next (llAnswer 0x05 q 0x00 (leBytes 4 (mgtLc s) ++ leBytes 8 (mgtToken s)) s) ∧
    ((r.length < 12 ∨ 15 < i ∨ 1 < n ∨ 4095 < leAt r 2 2) → exec (.llHitchSet q r) s = .next (llAnswer 0x06 q 0x16 [] s)) ∧
    (12 ≤ r.length → i ≤ 15 → n ≤ 1 → leAt r 2 2 ≤ 4095 →
      (handPermitted s i = false → exec (.llHitchSet q r) s = .next (llAnswer 0x06 q 0x06 [] s)) ∧
      (handPermitted s i = true → exec (.llHitchSet q r) s =
        .next (llAnswer 0x06 q 0x00 [] (handSet i (leAt r 2 2) (leAt r 4 4) (if n = 1 then some (leAt r 8 4) else none) s))))) ∧
  (∀ (s : State), 3 ≤ s.pwr.phase →
    (∀ r, exec (.pldmRequest (.discovery r)) s = .next (pldmAnswer r [] s)) ∧
    (∀ i, i < 24 → exec (.pldmRequest (.readSensor i)) s = .next (pldmAnswer [BitVec.ofNat 8 i] [mgtTemp s i] s)) ∧
    (∀ i, 24 ≤ i → exec (.pldmRequest (.readSensor i)) s = .next (pldmAnswer [BitVec.ofNat 8 i] [mgtPower s, mgtSupply s] s)) ∧
    (∀ w, 300 ≤ w → w ≤ 750 → exec (.pldmRequest (.setCap w)) s = .next (pldmAnswer [] [0x00] (modIsl (fun i => { i with cap := w }) s))) ∧
    (∀ w, (w < 300 ∨ 750 < w) → exec (.pldmRequest (.setCap w)) s = .next (pldmAnswer [] [0x16] s)) ∧
    (∀ i v, thresholdOk i v = true → exec (.pldmRequest (.setThreshold i v)) s =
      .next (pldmAnswer [] [0x00] (modIsl (fun x => { x with thresholds := Tbl.set none x.thresholds i (some v.toNat) }) s))) ∧
    (∀ i v, thresholdOk i v = false → exec (.pldmRequest (.setThreshold i v)) s = .next (pldmAnswer [] [0x16] s)) ∧
    (∀ x, (x.length = 0 ∨ 16777216 < x.length) → exec (.pldmRequest (.fwUpdate x)) s = .next (pldmAnswer [] [0x16] s)) ∧
    (∀ x, 1 ≤ x.length → x.length ≤ 16777216 →
      exec (.pldmRequest (.fwUpdate x)) s = .next (pldmAnswer [] [if fwSound s x then 0x00 else 0x05] (secFwUpdateOp x s).1)) ∧
    (s.isl.fwSvn ≤ (flashOf s (idleSlot s)).svn → exec (.pldmRequest .fwActivate) s =
      .next (pldmAnswer [] [0x00] (modIsl (fun i => { i with nextSlot := some (idleSlot s) }) s))) ∧
    ((flashOf s (idleSlot s)).svn < s.isl.fwSvn → exec (.pldmRequest .fwActivate) s = .next (pldmAnswer [] [0x05] s))) ∧
  (∀ (i : Nat) (v : Int) (s : State),
    (s.pwr.phase < 2 → exec (.sensorSample i v) s = .next s) ∧
    (2 ≤ s.pwr.phase →
      (i = 24 → exec (.sensorSample i v) s = .next (modIsl (fun x => { x with powerAvg := v.toNat }) s)) ∧
      (i = 25 → exec (.sensorSample i v) s = .next (modIsl (fun x => { x with vinReg := v.toNat % 65536 }) s)) ∧
      (25 < i → exec (.sensorSample i v) s = .next s) ∧
      (i < 24 →
        let t := modIsl (fun x => { x with temps := Tbl.set 0 x.temps i (ofSigned 16 v) }) s
        (∀ lim, tripAt i = some lim → lim ≤ temp t i → s.pwr.tripHold = false → exec (.sensorSample i v) s =
          .next (fallFast 3 (modPwr (fun p => { p with thermTrip := true, tripHold := true })
            (setAlert 1 (modIsl (fun x => { x with tripCause := tripCause i }) (captureHang 4 t)))))) ∧
        (s.pwr.tripHold = false → (∀ lim, tripAt i = some lim → temp t i < lim) → exec (.sensorSample i v) s = .next t) ∧
        (s.pwr.tripHold = true → tripCooled t = true → exec (.sensorSample i v) s = .next (releaseHold (modPwr (fun p => { p with tripHold := false }) t))) ∧
        (s.pwr.tripHold = true → tripCooled t = false → exec (.sensorSample i v) s = .next t)))) ∧
  (∀ (w : Nat) (s : State),
    let hot := ∃ i t, i < 24 ∧ threshold s i = some t ∧ (t : Int) < temp s i
    let cooled := ∀ i t, i < 24 → threshold s i = some t → temp s i + 32 ≤ (t : Int)
    (s.pwr.phase < 2 → exec (.gateRecompute w) s = .next s) ∧
    (2 ≤ s.pwr.phase → ∃ u, exec (.gateRecompute w) s = .next u ∧ u.isl.powerAvg = w ∧ u.isl.cap = s.isl.cap ∧ u.isl.temps = s.isl.temps ∧
      (dieOn s = false → u.isl.gate = 0) ∧
      (dieOn s = true → (powerCap s < w ∨ hot) → u.isl.gate = min 63 (s.isl.gate + 1)) ∧
      (dieOn s = true → w ≤ powerCap s → ¬hot → 100 * w < 98 * powerCap s → cooled → u.isl.gate = s.isl.gate - 1) ∧
      (dieOn s = true → w ≤ powerCap s → ¬hot → (98 * powerCap s ≤ 100 * w ∨ ¬cooled) → u.isl.gate = s.isl.gate))) ∧
  (∀ (s : State), (s.isl.cap < 300 → powerCap s = 300) ∧ (300 ≤ s.isl.cap → s.isl.cap ≤ 750 → powerCap s = s.isl.cap) ∧ (750 < s.isl.cap → powerCap s = 750))

/-- For every command c and state s, a step of s with c put at the front of its queue answers exec of c on s with the queue's rest. Every command answers a next state from every state: none ends in a fault or a refusal. With an empty queue one nanosecond passes instead (the model's choice, log entry 2): the island's clock goes on by one, rack time too while the die runs, moved by at most one for each 10 µs boundary where the fabric corrects it, and with the die off nothing else changes. -/
def Obligations.StepRunsTheFrontCommand : Prop :=
  (∀ (i : Instr) (s : State), step { s with pending := i :: s.pending } = exec i s) ∧
  (∀ (i : Instr) (rest : List Instr) (s : State), s.pending = i :: rest → step s = exec i { s with pending := rest }) ∧
  (∀ (i : Instr) (s : State), ∃ t, exec i s = .next t) ∧
  (∀ (s : State), s.pending = [] →
    (dieOn s = false → step s = .next { s with now := s.now + 1 }) ∧
    (dieOn s = true →
      let d := slewStep s.now (s.now + 1) s.fab.slewRest
      step s = .next { s with
        now := s.now + 1,
        step := { s.step with rackTime := s.step.rackTime + BitVec.ofNat 64 1 + BitVec.ofInt 64 d },
        fab := { s.fab with slewRest := s.fab.slewRest - d } } ∧
      -((((s.now + 1) / 10000 - s.now / 10000 : Nat) : Int)) ≤ d ∧ d ≤ (((s.now + 1) / 10000 - s.now / 10000 : Nat) : Int)))

/-- Read through control space at reset: STEP_CTRL has overrun_limit 8 and stepping off, STEP_STATUS holdover alone; every NP_PRED_CFG is 0x61C0; every field's SP_STATUS has all power groups on, its SP_CONFIG is 3; every tier and fabric credit is 0x40; every hitch has value 0 and target 1; the cap is 750 W with no gate; hang_ms is 1,000; the sequencer, the error log, FAB_STATUS, PRT_ACTIVE, MGT_STATUS and MGT_TOKEN are zero. A function's HIF_REVISION is 0x4230, it is disabled, and it has no queue and no partition. The die is off; nothing waits and nothing has been sent. (The reset values of the register tables, in R43, R185, R235, R280, R328, R493, R541, R585, R610, R645 and R666; no clause rests on a value the model chose.) -/
def Obligations.ResetHoldsTheRegisterTablesValues : Prop :=
  ctlWord State.reset 0x0000000 = 0x0800 ∧ ctlWord State.reset 0x0000028 = 0x200000 ∧ ctlWord State.reset 0x0000030 = 0 ∧
  ctlWord State.reset 0x0100000 = 0 ∧ ctlWord State.reset 0x0C00000 = 0 ∧ ctlWord State.reset 0x0E00000 = 0 ∧
  ctlWord State.reset 0x0F00000 = 0 ∧ ctlWord State.reset 0x0F00010 = 0 ∧ ctlWord State.reset 0x0F00014 = 0 ∧
  ctlWord State.reset 0x0F0001C = 0x2EE ∧ ctlWord State.reset 0x1000000 = 0 ∧ ctlWord State.reset 0x1000008 = 0x3E8 ∧
  (∀ i, i < 16 →
    ctlWord State.reset (0x0400180 + 4 * i) = 0x61C0 ∧
    ctlWord State.reset (0x0500000 + 0x10000 * i) = 0xFF000000 ∧ ctlWord State.reset (0x0500008 + 0x10000 * i) = 3 ∧
    ctlWord State.reset (0x0700080 + 4 * i) = 0x40 ∧ ctlWord State.reset (0x0800080 + 4 * i) = 0x40 ∧
    ctlWord State.reset (0x0C00800 + 4 * i) = 0x40 ∧ part? State.reset i = none) ∧
  (∀ h, h < 65536 → ctlWord State.reset (0x0B80000 + 8 * h) = 0 ∧ ctlWord State.reset (0x0B80004 + 8 * h) = 1) ∧
  (∀ f, f < 64 → bar0Word State.reset f 0 = 0x4230 ∧ enabled State.reset f = false ∧ funcPart State.reset f = none ∧
    (∀ q, q < 17 → (ring State.reset f q).enable = false)) ∧
  dieOn State.reset = false ∧ State.reset.pending = [] ∧ State.reset.out = []

/-- At reset the memory of the scratchpad and the tiers lists nothing, so it is canonical and every byte reads as zero (what an unwritten byte reads as is the model's choice, log entry 3); the power cap lies from 300 to 750 W (R623); and the queue is empty, so every command that waits is well formed. -/
def Obligations.ResetMeetsTheInvariants : Prop :=
  Memory.wf State.reset.mem = true ∧ (∀ a, rdByte State.reset a = 0) ∧ CapInRange State.reset ∧ QueueOk State.reset ∧
  State.reset.isl.cap = 750

/-- For every state whose memory is in canonical form (addresses strictly rising, no listed byte zero), if a step answers a next state, that state's memory is in canonical form. It holds for all 226 commands and for the passing of time, whatever rows, tiles, pages, granules and packets they write, scrub or zero. (The canonical form is the model's own, log entry 3, over the address map of R11.) -/
def Obligations.EveryStepKeepsMemoryCanonical : Prop :=
  ∀ (s t : State), Memory.wf s.mem = true → step s = .next t → Memory.wf t.mem = true

/-- Whatever a step runs: a power cap held from 300 to 750 W stays there, unless the step writes registers of control space, where MGT_POWER_CFG keeps what is written (log entry 42) and a value outside acts as the nearest limit, so the cap in force lies in the range in every state; and the cap and the gating thresholds are as before unless the step runs SEC_POWER_CFG, a PLDM request, SEC_REQUEST, a register write, a debug window access, or the loss of the island supply (maySetPower). So they are kept through cold resets, lifeline resets and power-downs. (Parts of R623; cap in the map of R645.) -/
def Obligations.OnlyNamedCommandsMoveTheCapOutOfItsRangeOrAtAll : Prop :=
  ∀ (s t : State), step s = .next t →
    (CapInRange s → (∀ i rest, s.pending = i :: rest → writesControlSpace i = false) → CapInRange t) ∧
    ((∀ i rest, s.pending = i :: rest → maySetPower i = false) → t.isl.cap = s.isl.cap ∧ t.isl.thresholds = s.isl.thresholds) ∧
    300 ≤ powerCap t ∧ powerCap t ≤ 750

/-- Whatever command a step runs, the life-cycle state stays or makes one transition of R635's table; fw_svn, the floor of firmware security versions, never falls (R625); the device identity, the unique secret and the fused revocations of vendor keys never change, not even when all supplies are lost. (Parts of R625, R628, R635.) -/
def Obligations.FusesAndLifeCycleNeverGoBack : Prop :=
  ∀ (s t : State), step s = .next t →
    (t.isl.lc = s.isl.lc ∨ lcStep s.isl.lc t.isl.lc = true) ∧ s.isl.fwSvn ≤ t.isl.fwSvn ∧
    t.isl.deviceId = s.isl.deviceId ∧ t.isl.secret = s.isl.secret ∧ t.isl.vendorRevoked = s.isl.vendorRevoked

/-- Whatever command runs, on any state, the clock of the island and the queue of waiting commands are as before, and the list of what the module has sent out (completions, events, interrupt messages, host writes, packets, answers, pins) is the old list with what the command sends put after it: nothing is taken back or changed. Only a step on an empty queue moves the clock, by one nanosecond (log entry 2). -/
def Obligations.CommandsLeaveTimeAndQueueAndTakeNothingBack : Prop :=
  (∀ (i : Instr) (s t : State), exec i s = .next t → t.now = s.now ∧ t.pending = s.pending ∧ ∃ o, t.out = s.out ++ o) ∧
  (∀ (s t : State), step s = .next t →
    (s.pending = [] → t.now = s.now + 1 ∧ t.pending = [] ∧ t.out = s.out) ∧
    (∀ i rest, s.pending = i :: rest → t.now = s.now ∧ t.pending = rest ∧ ∃ o, t.out = s.out ++ o))

/-- For each command of leavesMemory (doorbells, rings and interrupts; ports, links, routing, barriers and hitches; knot operations other than COMBINE and COPY; configuration, queries and reports; patrol and write-combining lines; sensors, gating, watchdogs and rails that power nothing down): on every state and with all operands, if it answers a next state, every byte of the scratchpad and of the tiers reads after it as it read before. The other commands store, scrub or zero data on some path. -/
def Obligations.CommandsThatStoreNothingLeaveEveryByte : Prop :=
  ∀ (i : Instr) (s t : State), leavesMemory i = true → exec i s = .next t → ∀ a, rdByte t a = rdByte s a
end

