-- ==== Sys2Proof/Laws/State.lean ====
section
/-! SUPPORT. What each update of one block leaves: one lemma for each field of State. -/
namespace Sys2Proof.Machine

/-! ### modStep -/

@[simp] theorem modStep_now (g) (s : State) : (modStep g s).now = s.now := rfl
@[simp] theorem modStep_mem (g) (s : State) : (modStep g s).mem = s.mem := rfl
@[simp] theorem modStep_step (g) (s : State) : (modStep g s).step = g s.step := rfl
@[simp] theorem modStep_prog (g) (s : State) : (modStep g s).prog = s.prog := rfl
@[simp] theorem modStep_seq (g) (s : State) : (modStep g s).seq = s.seq := rfl
@[simp] theorem modStep_fields (g) (s : State) : (modStep g s).fields = s.fields := rfl
@[simp] theorem modStep_sp (g) (s : State) : (modStep g s).sp = s.sp := rfl
@[simp] theorem modStep_acc (g) (s : State) : (modStep g s).acc = s.acc := rfl
@[simp] theorem modStep_np (g) (s : State) : (modStep g s).np = s.np := rfl
@[simp] theorem modStep_t1 (g) (s : State) : (modStep g s).t1 = s.t1 := rfl
@[simp] theorem modStep_t2 (g) (s : State) : (modStep g s).t2 = s.t2 := rfl
@[simp] theorem modStep_str (g) (s : State) : (modStep g s).str = s.str := rfl
@[simp] theorem modStep_mdl (g) (s : State) : (modStep g s).mdl = s.mdl := rfl
@[simp] theorem modStep_kv (g) (s : State) : (modStep g s).kv = s.kv := rfl
@[simp] theorem modStep_srv (g) (s : State) : (modStep g s).srv = s.srv := rfl
@[simp] theorem modStep_gth (g) (s : State) : (modStep g s).gth = s.gth := rfl
@[simp] theorem modStep_hch (g) (s : State) : (modStep g s).hch = s.hch := rfl
@[simp] theorem modStep_fab (g) (s : State) : (modStep g s).fab = s.fab := rfl
@[simp] theorem modStep_host (g) (s : State) : (modStep g s).host = s.host := rfl
@[simp] theorem modStep_part (g) (s : State) : (modStep g s).part = s.part := rfl
@[simp] theorem modStep_isl (g) (s : State) : (modStep g s).isl = s.isl := rfl
@[simp] theorem modStep_err (g) (s : State) : (modStep g s).err = s.err := rfl
@[simp] theorem modStep_pwr (g) (s : State) : (modStep g s).pwr = s.pwr := rfl
@[simp] theorem modStep_out (g) (s : State) : (modStep g s).out = s.out := rfl
@[simp] theorem modStep_freeCount (g) (s : State) : (modStep g s).freeCount = s.freeCount := rfl
@[simp] theorem modStep_shadow (g) (s : State) : (modStep g s).shadow = s.shadow := rfl
@[simp] theorem modStep_pending (g) (s : State) : (modStep g s).pending = s.pending := rfl

/-! ### modProg -/

@[simp] theorem modProg_now (g) (s : State) : (modProg g s).now = s.now := rfl
@[simp] theorem modProg_mem (g) (s : State) : (modProg g s).mem = s.mem := rfl
@[simp] theorem modProg_step (g) (s : State) : (modProg g s).step = s.step := rfl
@[simp] theorem modProg_prog (g) (s : State) : (modProg g s).prog = g s.prog := rfl
@[simp] theorem modProg_seq (g) (s : State) : (modProg g s).seq = s.seq := rfl
@[simp] theorem modProg_fields (g) (s : State) : (modProg g s).fields = s.fields := rfl
@[simp] theorem modProg_sp (g) (s : State) : (modProg g s).sp = s.sp := rfl
@[simp] theorem modProg_acc (g) (s : State) : (modProg g s).acc = s.acc := rfl
@[simp] theorem modProg_np (g) (s : State) : (modProg g s).np = s.np := rfl
@[simp] theorem modProg_t1 (g) (s : State) : (modProg g s).t1 = s.t1 := rfl
@[simp] theorem modProg_t2 (g) (s : State) : (modProg g s).t2 = s.t2 := rfl
@[simp] theorem modProg_str (g) (s : State) : (modProg g s).str = s.str := rfl
@[simp] theorem modProg_mdl (g) (s : State) : (modProg g s).mdl = s.mdl := rfl
@[simp] theorem modProg_kv (g) (s : State) : (modProg g s).kv = s.kv := rfl
@[simp] theorem modProg_srv (g) (s : State) : (modProg g s).srv = s.srv := rfl
@[simp] theorem modProg_gth (g) (s : State) : (modProg g s).gth = s.gth := rfl
@[simp] theorem modProg_hch (g) (s : State) : (modProg g s).hch = s.hch := rfl
@[simp] theorem modProg_fab (g) (s : State) : (modProg g s).fab = s.fab := rfl
@[simp] theorem modProg_host (g) (s : State) : (modProg g s).host = s.host := rfl
@[simp] theorem modProg_part (g) (s : State) : (modProg g s).part = s.part := rfl
@[simp] theorem modProg_isl (g) (s : State) : (modProg g s).isl = s.isl := rfl
@[simp] theorem modProg_err (g) (s : State) : (modProg g s).err = s.err := rfl
@[simp] theorem modProg_pwr (g) (s : State) : (modProg g s).pwr = s.pwr := rfl
@[simp] theorem modProg_out (g) (s : State) : (modProg g s).out = s.out := rfl
@[simp] theorem modProg_freeCount (g) (s : State) : (modProg g s).freeCount = s.freeCount := rfl
@[simp] theorem modProg_shadow (g) (s : State) : (modProg g s).shadow = s.shadow := rfl
@[simp] theorem modProg_pending (g) (s : State) : (modProg g s).pending = s.pending := rfl

/-! ### modSeq -/

@[simp] theorem modSeq_now (g) (s : State) : (modSeq g s).now = s.now := rfl
@[simp] theorem modSeq_mem (g) (s : State) : (modSeq g s).mem = s.mem := rfl
@[simp] theorem modSeq_step (g) (s : State) : (modSeq g s).step = s.step := rfl
@[simp] theorem modSeq_prog (g) (s : State) : (modSeq g s).prog = s.prog := rfl
@[simp] theorem modSeq_seq (g) (s : State) : (modSeq g s).seq = g s.seq := rfl
@[simp] theorem modSeq_fields (g) (s : State) : (modSeq g s).fields = s.fields := rfl
@[simp] theorem modSeq_sp (g) (s : State) : (modSeq g s).sp = s.sp := rfl
@[simp] theorem modSeq_acc (g) (s : State) : (modSeq g s).acc = s.acc := rfl
@[simp] theorem modSeq_np (g) (s : State) : (modSeq g s).np = s.np := rfl
@[simp] theorem modSeq_t1 (g) (s : State) : (modSeq g s).t1 = s.t1 := rfl
@[simp] theorem modSeq_t2 (g) (s : State) : (modSeq g s).t2 = s.t2 := rfl
@[simp] theorem modSeq_str (g) (s : State) : (modSeq g s).str = s.str := rfl
@[simp] theorem modSeq_mdl (g) (s : State) : (modSeq g s).mdl = s.mdl := rfl
@[simp] theorem modSeq_kv (g) (s : State) : (modSeq g s).kv = s.kv := rfl
@[simp] theorem modSeq_srv (g) (s : State) : (modSeq g s).srv = s.srv := rfl
@[simp] theorem modSeq_gth (g) (s : State) : (modSeq g s).gth = s.gth := rfl
@[simp] theorem modSeq_hch (g) (s : State) : (modSeq g s).hch = s.hch := rfl
@[simp] theorem modSeq_fab (g) (s : State) : (modSeq g s).fab = s.fab := rfl
@[simp] theorem modSeq_host (g) (s : State) : (modSeq g s).host = s.host := rfl
@[simp] theorem modSeq_part (g) (s : State) : (modSeq g s).part = s.part := rfl
@[simp] theorem modSeq_isl (g) (s : State) : (modSeq g s).isl = s.isl := rfl
@[simp] theorem modSeq_err (g) (s : State) : (modSeq g s).err = s.err := rfl
@[simp] theorem modSeq_pwr (g) (s : State) : (modSeq g s).pwr = s.pwr := rfl
@[simp] theorem modSeq_out (g) (s : State) : (modSeq g s).out = s.out := rfl
@[simp] theorem modSeq_freeCount (g) (s : State) : (modSeq g s).freeCount = s.freeCount := rfl
@[simp] theorem modSeq_shadow (g) (s : State) : (modSeq g s).shadow = s.shadow := rfl
@[simp] theorem modSeq_pending (g) (s : State) : (modSeq g s).pending = s.pending := rfl

/-! ### modSp -/

@[simp] theorem modSp_now (g) (s : State) : (modSp g s).now = s.now := rfl
@[simp] theorem modSp_mem (g) (s : State) : (modSp g s).mem = s.mem := rfl
@[simp] theorem modSp_step (g) (s : State) : (modSp g s).step = s.step := rfl
@[simp] theorem modSp_prog (g) (s : State) : (modSp g s).prog = s.prog := rfl
@[simp] theorem modSp_seq (g) (s : State) : (modSp g s).seq = s.seq := rfl
@[simp] theorem modSp_fields (g) (s : State) : (modSp g s).fields = s.fields := rfl
@[simp] theorem modSp_sp (g) (s : State) : (modSp g s).sp = g s.sp := rfl
@[simp] theorem modSp_acc (g) (s : State) : (modSp g s).acc = s.acc := rfl
@[simp] theorem modSp_np (g) (s : State) : (modSp g s).np = s.np := rfl
@[simp] theorem modSp_t1 (g) (s : State) : (modSp g s).t1 = s.t1 := rfl
@[simp] theorem modSp_t2 (g) (s : State) : (modSp g s).t2 = s.t2 := rfl
@[simp] theorem modSp_str (g) (s : State) : (modSp g s).str = s.str := rfl
@[simp] theorem modSp_mdl (g) (s : State) : (modSp g s).mdl = s.mdl := rfl
@[simp] theorem modSp_kv (g) (s : State) : (modSp g s).kv = s.kv := rfl
@[simp] theorem modSp_srv (g) (s : State) : (modSp g s).srv = s.srv := rfl
@[simp] theorem modSp_gth (g) (s : State) : (modSp g s).gth = s.gth := rfl
@[simp] theorem modSp_hch (g) (s : State) : (modSp g s).hch = s.hch := rfl
@[simp] theorem modSp_fab (g) (s : State) : (modSp g s).fab = s.fab := rfl
@[simp] theorem modSp_host (g) (s : State) : (modSp g s).host = s.host := rfl
@[simp] theorem modSp_part (g) (s : State) : (modSp g s).part = s.part := rfl
@[simp] theorem modSp_isl (g) (s : State) : (modSp g s).isl = s.isl := rfl
@[simp] theorem modSp_err (g) (s : State) : (modSp g s).err = s.err := rfl
@[simp] theorem modSp_pwr (g) (s : State) : (modSp g s).pwr = s.pwr := rfl
@[simp] theorem modSp_out (g) (s : State) : (modSp g s).out = s.out := rfl
@[simp] theorem modSp_freeCount (g) (s : State) : (modSp g s).freeCount = s.freeCount := rfl
@[simp] theorem modSp_shadow (g) (s : State) : (modSp g s).shadow = s.shadow := rfl
@[simp] theorem modSp_pending (g) (s : State) : (modSp g s).pending = s.pending := rfl

/-! ### modAcc -/

@[simp] theorem modAcc_now (g) (s : State) : (modAcc g s).now = s.now := rfl
@[simp] theorem modAcc_mem (g) (s : State) : (modAcc g s).mem = s.mem := rfl
@[simp] theorem modAcc_step (g) (s : State) : (modAcc g s).step = s.step := rfl
@[simp] theorem modAcc_prog (g) (s : State) : (modAcc g s).prog = s.prog := rfl
@[simp] theorem modAcc_seq (g) (s : State) : (modAcc g s).seq = s.seq := rfl
@[simp] theorem modAcc_fields (g) (s : State) : (modAcc g s).fields = s.fields := rfl
@[simp] theorem modAcc_sp (g) (s : State) : (modAcc g s).sp = s.sp := rfl
@[simp] theorem modAcc_acc (g) (s : State) : (modAcc g s).acc = g s.acc := rfl
@[simp] theorem modAcc_np (g) (s : State) : (modAcc g s).np = s.np := rfl
@[simp] theorem modAcc_t1 (g) (s : State) : (modAcc g s).t1 = s.t1 := rfl
@[simp] theorem modAcc_t2 (g) (s : State) : (modAcc g s).t2 = s.t2 := rfl
@[simp] theorem modAcc_str (g) (s : State) : (modAcc g s).str = s.str := rfl
@[simp] theorem modAcc_mdl (g) (s : State) : (modAcc g s).mdl = s.mdl := rfl
@[simp] theorem modAcc_kv (g) (s : State) : (modAcc g s).kv = s.kv := rfl
@[simp] theorem modAcc_srv (g) (s : State) : (modAcc g s).srv = s.srv := rfl
@[simp] theorem modAcc_gth (g) (s : State) : (modAcc g s).gth = s.gth := rfl
@[simp] theorem modAcc_hch (g) (s : State) : (modAcc g s).hch = s.hch := rfl
@[simp] theorem modAcc_fab (g) (s : State) : (modAcc g s).fab = s.fab := rfl
@[simp] theorem modAcc_host (g) (s : State) : (modAcc g s).host = s.host := rfl
@[simp] theorem modAcc_part (g) (s : State) : (modAcc g s).part = s.part := rfl
@[simp] theorem modAcc_isl (g) (s : State) : (modAcc g s).isl = s.isl := rfl
@[simp] theorem modAcc_err (g) (s : State) : (modAcc g s).err = s.err := rfl
@[simp] theorem modAcc_pwr (g) (s : State) : (modAcc g s).pwr = s.pwr := rfl
@[simp] theorem modAcc_out (g) (s : State) : (modAcc g s).out = s.out := rfl
@[simp] theorem modAcc_freeCount (g) (s : State) : (modAcc g s).freeCount = s.freeCount := rfl
@[simp] theorem modAcc_shadow (g) (s : State) : (modAcc g s).shadow = s.shadow := rfl
@[simp] theorem modAcc_pending (g) (s : State) : (modAcc g s).pending = s.pending := rfl

/-! ### modNp -/

@[simp] theorem modNp_now (g) (s : State) : (modNp g s).now = s.now := rfl
@[simp] theorem modNp_mem (g) (s : State) : (modNp g s).mem = s.mem := rfl
@[simp] theorem modNp_step (g) (s : State) : (modNp g s).step = s.step := rfl
@[simp] theorem modNp_prog (g) (s : State) : (modNp g s).prog = s.prog := rfl
@[simp] theorem modNp_seq (g) (s : State) : (modNp g s).seq = s.seq := rfl
@[simp] theorem modNp_fields (g) (s : State) : (modNp g s).fields = s.fields := rfl
@[simp] theorem modNp_sp (g) (s : State) : (modNp g s).sp = s.sp := rfl
@[simp] theorem modNp_acc (g) (s : State) : (modNp g s).acc = s.acc := rfl
@[simp] theorem modNp_np (g) (s : State) : (modNp g s).np = g s.np := rfl
@[simp] theorem modNp_t1 (g) (s : State) : (modNp g s).t1 = s.t1 := rfl
@[simp] theorem modNp_t2 (g) (s : State) : (modNp g s).t2 = s.t2 := rfl
@[simp] theorem modNp_str (g) (s : State) : (modNp g s).str = s.str := rfl
@[simp] theorem modNp_mdl (g) (s : State) : (modNp g s).mdl = s.mdl := rfl
@[simp] theorem modNp_kv (g) (s : State) : (modNp g s).kv = s.kv := rfl
@[simp] theorem modNp_srv (g) (s : State) : (modNp g s).srv = s.srv := rfl
@[simp] theorem modNp_gth (g) (s : State) : (modNp g s).gth = s.gth := rfl
@[simp] theorem modNp_hch (g) (s : State) : (modNp g s).hch = s.hch := rfl
@[simp] theorem modNp_fab (g) (s : State) : (modNp g s).fab = s.fab := rfl
@[simp] theorem modNp_host (g) (s : State) : (modNp g s).host = s.host := rfl
@[simp] theorem modNp_part (g) (s : State) : (modNp g s).part = s.part := rfl
@[simp] theorem modNp_isl (g) (s : State) : (modNp g s).isl = s.isl := rfl
@[simp] theorem modNp_err (g) (s : State) : (modNp g s).err = s.err := rfl
@[simp] theorem modNp_pwr (g) (s : State) : (modNp g s).pwr = s.pwr := rfl
@[simp] theorem modNp_out (g) (s : State) : (modNp g s).out = s.out := rfl
@[simp] theorem modNp_freeCount (g) (s : State) : (modNp g s).freeCount = s.freeCount := rfl
@[simp] theorem modNp_shadow (g) (s : State) : (modNp g s).shadow = s.shadow := rfl
@[simp] theorem modNp_pending (g) (s : State) : (modNp g s).pending = s.pending := rfl

/-! ### modStr -/

@[simp] theorem modStr_now (g) (s : State) : (modStr g s).now = s.now := rfl
@[simp] theorem modStr_mem (g) (s : State) : (modStr g s).mem = s.mem := rfl
@[simp] theorem modStr_step (g) (s : State) : (modStr g s).step = s.step := rfl
@[simp] theorem modStr_prog (g) (s : State) : (modStr g s).prog = s.prog := rfl
@[simp] theorem modStr_seq (g) (s : State) : (modStr g s).seq = s.seq := rfl
@[simp] theorem modStr_fields (g) (s : State) : (modStr g s).fields = s.fields := rfl
@[simp] theorem modStr_sp (g) (s : State) : (modStr g s).sp = s.sp := rfl
@[simp] theorem modStr_acc (g) (s : State) : (modStr g s).acc = s.acc := rfl
@[simp] theorem modStr_np (g) (s : State) : (modStr g s).np = s.np := rfl
@[simp] theorem modStr_t1 (g) (s : State) : (modStr g s).t1 = s.t1 := rfl
@[simp] theorem modStr_t2 (g) (s : State) : (modStr g s).t2 = s.t2 := rfl
@[simp] theorem modStr_str (g) (s : State) : (modStr g s).str = g s.str := rfl
@[simp] theorem modStr_mdl (g) (s : State) : (modStr g s).mdl = s.mdl := rfl
@[simp] theorem modStr_kv (g) (s : State) : (modStr g s).kv = s.kv := rfl
@[simp] theorem modStr_srv (g) (s : State) : (modStr g s).srv = s.srv := rfl
@[simp] theorem modStr_gth (g) (s : State) : (modStr g s).gth = s.gth := rfl
@[simp] theorem modStr_hch (g) (s : State) : (modStr g s).hch = s.hch := rfl
@[simp] theorem modStr_fab (g) (s : State) : (modStr g s).fab = s.fab := rfl
@[simp] theorem modStr_host (g) (s : State) : (modStr g s).host = s.host := rfl
@[simp] theorem modStr_part (g) (s : State) : (modStr g s).part = s.part := rfl
@[simp] theorem modStr_isl (g) (s : State) : (modStr g s).isl = s.isl := rfl
@[simp] theorem modStr_err (g) (s : State) : (modStr g s).err = s.err := rfl
@[simp] theorem modStr_pwr (g) (s : State) : (modStr g s).pwr = s.pwr := rfl
@[simp] theorem modStr_out (g) (s : State) : (modStr g s).out = s.out := rfl
@[simp] theorem modStr_freeCount (g) (s : State) : (modStr g s).freeCount = s.freeCount := rfl
@[simp] theorem modStr_shadow (g) (s : State) : (modStr g s).shadow = s.shadow := rfl
@[simp] theorem modStr_pending (g) (s : State) : (modStr g s).pending = s.pending := rfl

/-! ### modMdl -/

@[simp] theorem modMdl_now (g) (s : State) : (modMdl g s).now = s.now := rfl
@[simp] theorem modMdl_mem (g) (s : State) : (modMdl g s).mem = s.mem := rfl
@[simp] theorem modMdl_step (g) (s : State) : (modMdl g s).step = s.step := rfl
@[simp] theorem modMdl_prog (g) (s : State) : (modMdl g s).prog = s.prog := rfl
@[simp] theorem modMdl_seq (g) (s : State) : (modMdl g s).seq = s.seq := rfl
@[simp] theorem modMdl_fields (g) (s : State) : (modMdl g s).fields = s.fields := rfl
@[simp] theorem modMdl_sp (g) (s : State) : (modMdl g s).sp = s.sp := rfl
@[simp] theorem modMdl_acc (g) (s : State) : (modMdl g s).acc = s.acc := rfl
@[simp] theorem modMdl_np (g) (s : State) : (modMdl g s).np = s.np := rfl
@[simp] theorem modMdl_t1 (g) (s : State) : (modMdl g s).t1 = s.t1 := rfl
@[simp] theorem modMdl_t2 (g) (s : State) : (modMdl g s).t2 = s.t2 := rfl
@[simp] theorem modMdl_str (g) (s : State) : (modMdl g s).str = s.str := rfl
@[simp] theorem modMdl_mdl (g) (s : State) : (modMdl g s).mdl = g s.mdl := rfl
@[simp] theorem modMdl_kv (g) (s : State) : (modMdl g s).kv = s.kv := rfl
@[simp] theorem modMdl_srv (g) (s : State) : (modMdl g s).srv = s.srv := rfl
@[simp] theorem modMdl_gth (g) (s : State) : (modMdl g s).gth = s.gth := rfl
@[simp] theorem modMdl_hch (g) (s : State) : (modMdl g s).hch = s.hch := rfl
@[simp] theorem modMdl_fab (g) (s : State) : (modMdl g s).fab = s.fab := rfl
@[simp] theorem modMdl_host (g) (s : State) : (modMdl g s).host = s.host := rfl
@[simp] theorem modMdl_part (g) (s : State) : (modMdl g s).part = s.part := rfl
@[simp] theorem modMdl_isl (g) (s : State) : (modMdl g s).isl = s.isl := rfl
@[simp] theorem modMdl_err (g) (s : State) : (modMdl g s).err = s.err := rfl
@[simp] theorem modMdl_pwr (g) (s : State) : (modMdl g s).pwr = s.pwr := rfl
@[simp] theorem modMdl_out (g) (s : State) : (modMdl g s).out = s.out := rfl
@[simp] theorem modMdl_freeCount (g) (s : State) : (modMdl g s).freeCount = s.freeCount := rfl
@[simp] theorem modMdl_shadow (g) (s : State) : (modMdl g s).shadow = s.shadow := rfl
@[simp] theorem modMdl_pending (g) (s : State) : (modMdl g s).pending = s.pending := rfl

/-! ### modKv -/

@[simp] theorem modKv_now (g) (s : State) : (modKv g s).now = s.now := rfl
@[simp] theorem modKv_mem (g) (s : State) : (modKv g s).mem = s.mem := rfl
@[simp] theorem modKv_step (g) (s : State) : (modKv g s).step = s.step := rfl
@[simp] theorem modKv_prog (g) (s : State) : (modKv g s).prog = s.prog := rfl
@[simp] theorem modKv_seq (g) (s : State) : (modKv g s).seq = s.seq := rfl
@[simp] theorem modKv_fields (g) (s : State) : (modKv g s).fields = s.fields := rfl
@[simp] theorem modKv_sp (g) (s : State) : (modKv g s).sp = s.sp := rfl
@[simp] theorem modKv_acc (g) (s : State) : (modKv g s).acc = s.acc := rfl
@[simp] theorem modKv_np (g) (s : State) : (modKv g s).np = s.np := rfl
@[simp] theorem modKv_t1 (g) (s : State) : (modKv g s).t1 = s.t1 := rfl
@[simp] theorem modKv_t2 (g) (s : State) : (modKv g s).t2 = s.t2 := rfl
@[simp] theorem modKv_str (g) (s : State) : (modKv g s).str = s.str := rfl
@[simp] theorem modKv_mdl (g) (s : State) : (modKv g s).mdl = s.mdl := rfl
@[simp] theorem modKv_kv (g) (s : State) : (modKv g s).kv = g s.kv := rfl
@[simp] theorem modKv_srv (g) (s : State) : (modKv g s).srv = s.srv := rfl
@[simp] theorem modKv_gth (g) (s : State) : (modKv g s).gth = s.gth := rfl
@[simp] theorem modKv_hch (g) (s : State) : (modKv g s).hch = s.hch := rfl
@[simp] theorem modKv_fab (g) (s : State) : (modKv g s).fab = s.fab := rfl
@[simp] theorem modKv_host (g) (s : State) : (modKv g s).host = s.host := rfl
@[simp] theorem modKv_part (g) (s : State) : (modKv g s).part = s.part := rfl
@[simp] theorem modKv_isl (g) (s : State) : (modKv g s).isl = s.isl := rfl
@[simp] theorem modKv_err (g) (s : State) : (modKv g s).err = s.err := rfl
@[simp] theorem modKv_pwr (g) (s : State) : (modKv g s).pwr = s.pwr := rfl
@[simp] theorem modKv_out (g) (s : State) : (modKv g s).out = s.out := rfl
@[simp] theorem modKv_freeCount (g) (s : State) : (modKv g s).freeCount = s.freeCount := rfl
@[simp] theorem modKv_shadow (g) (s : State) : (modKv g s).shadow = s.shadow := rfl
@[simp] theorem modKv_pending (g) (s : State) : (modKv g s).pending = s.pending := rfl

/-! ### modSrv -/

@[simp] theorem modSrv_now (g) (s : State) : (modSrv g s).now = s.now := rfl
@[simp] theorem modSrv_mem (g) (s : State) : (modSrv g s).mem = s.mem := rfl
@[simp] theorem modSrv_step (g) (s : State) : (modSrv g s).step = s.step := rfl
@[simp] theorem modSrv_prog (g) (s : State) : (modSrv g s).prog = s.prog := rfl
@[simp] theorem modSrv_seq (g) (s : State) : (modSrv g s).seq = s.seq := rfl
@[simp] theorem modSrv_fields (g) (s : State) : (modSrv g s).fields = s.fields := rfl
@[simp] theorem modSrv_sp (g) (s : State) : (modSrv g s).sp = s.sp := rfl
@[simp] theorem modSrv_acc (g) (s : State) : (modSrv g s).acc = s.acc := rfl
@[simp] theorem modSrv_np (g) (s : State) : (modSrv g s).np = s.np := rfl
@[simp] theorem modSrv_t1 (g) (s : State) : (modSrv g s).t1 = s.t1 := rfl
@[simp] theorem modSrv_t2 (g) (s : State) : (modSrv g s).t2 = s.t2 := rfl
@[simp] theorem modSrv_str (g) (s : State) : (modSrv g s).str = s.str := rfl
@[simp] theorem modSrv_mdl (g) (s : State) : (modSrv g s).mdl = s.mdl := rfl
@[simp] theorem modSrv_kv (g) (s : State) : (modSrv g s).kv = s.kv := rfl
@[simp] theorem modSrv_srv (g) (s : State) : (modSrv g s).srv = g s.srv := rfl
@[simp] theorem modSrv_gth (g) (s : State) : (modSrv g s).gth = s.gth := rfl
@[simp] theorem modSrv_hch (g) (s : State) : (modSrv g s).hch = s.hch := rfl
@[simp] theorem modSrv_fab (g) (s : State) : (modSrv g s).fab = s.fab := rfl
@[simp] theorem modSrv_host (g) (s : State) : (modSrv g s).host = s.host := rfl
@[simp] theorem modSrv_part (g) (s : State) : (modSrv g s).part = s.part := rfl
@[simp] theorem modSrv_isl (g) (s : State) : (modSrv g s).isl = s.isl := rfl
@[simp] theorem modSrv_err (g) (s : State) : (modSrv g s).err = s.err := rfl
@[simp] theorem modSrv_pwr (g) (s : State) : (modSrv g s).pwr = s.pwr := rfl
@[simp] theorem modSrv_out (g) (s : State) : (modSrv g s).out = s.out := rfl
@[simp] theorem modSrv_freeCount (g) (s : State) : (modSrv g s).freeCount = s.freeCount := rfl
@[simp] theorem modSrv_shadow (g) (s : State) : (modSrv g s).shadow = s.shadow := rfl
@[simp] theorem modSrv_pending (g) (s : State) : (modSrv g s).pending = s.pending := rfl

/-! ### modGth -/

@[simp] theorem modGth_now (g) (s : State) : (modGth g s).now = s.now := rfl
@[simp] theorem modGth_mem (g) (s : State) : (modGth g s).mem = s.mem := rfl
@[simp] theorem modGth_step (g) (s : State) : (modGth g s).step = s.step := rfl
@[simp] theorem modGth_prog (g) (s : State) : (modGth g s).prog = s.prog := rfl
@[simp] theorem modGth_seq (g) (s : State) : (modGth g s).seq = s.seq := rfl
@[simp] theorem modGth_fields (g) (s : State) : (modGth g s).fields = s.fields := rfl
@[simp] theorem modGth_sp (g) (s : State) : (modGth g s).sp = s.sp := rfl
@[simp] theorem modGth_acc (g) (s : State) : (modGth g s).acc = s.acc := rfl
@[simp] theorem modGth_np (g) (s : State) : (modGth g s).np = s.np := rfl
@[simp] theorem modGth_t1 (g) (s : State) : (modGth g s).t1 = s.t1 := rfl
@[simp] theorem modGth_t2 (g) (s : State) : (modGth g s).t2 = s.t2 := rfl
@[simp] theorem modGth_str (g) (s : State) : (modGth g s).str = s.str := rfl
@[simp] theorem modGth_mdl (g) (s : State) : (modGth g s).mdl = s.mdl := rfl
@[simp] theorem modGth_kv (g) (s : State) : (modGth g s).kv = s.kv := rfl
@[simp] theorem modGth_srv (g) (s : State) : (modGth g s).srv = s.srv := rfl
@[simp] theorem modGth_gth (g) (s : State) : (modGth g s).gth = g s.gth := rfl
@[simp] theorem modGth_hch (g) (s : State) : (modGth g s).hch = s.hch := rfl
@[simp] theorem modGth_fab (g) (s : State) : (modGth g s).fab = s.fab := rfl
@[simp] theorem modGth_host (g) (s : State) : (modGth g s).host = s.host := rfl
@[simp] theorem modGth_part (g) (s : State) : (modGth g s).part = s.part := rfl
@[simp] theorem modGth_isl (g) (s : State) : (modGth g s).isl = s.isl := rfl
@[simp] theorem modGth_err (g) (s : State) : (modGth g s).err = s.err := rfl
@[simp] theorem modGth_pwr (g) (s : State) : (modGth g s).pwr = s.pwr := rfl
@[simp] theorem modGth_out (g) (s : State) : (modGth g s).out = s.out := rfl
@[simp] theorem modGth_freeCount (g) (s : State) : (modGth g s).freeCount = s.freeCount := rfl
@[simp] theorem modGth_shadow (g) (s : State) : (modGth g s).shadow = s.shadow := rfl
@[simp] theorem modGth_pending (g) (s : State) : (modGth g s).pending = s.pending := rfl

/-! ### modHch -/

@[simp] theorem modHch_now (g) (s : State) : (modHch g s).now = s.now := rfl
@[simp] theorem modHch_mem (g) (s : State) : (modHch g s).mem = s.mem := rfl
@[simp] theorem modHch_step (g) (s : State) : (modHch g s).step = s.step := rfl
@[simp] theorem modHch_prog (g) (s : State) : (modHch g s).prog = s.prog := rfl
@[simp] theorem modHch_seq (g) (s : State) : (modHch g s).seq = s.seq := rfl
@[simp] theorem modHch_fields (g) (s : State) : (modHch g s).fields = s.fields := rfl
@[simp] theorem modHch_sp (g) (s : State) : (modHch g s).sp = s.sp := rfl
@[simp] theorem modHch_acc (g) (s : State) : (modHch g s).acc = s.acc := rfl
@[simp] theorem modHch_np (g) (s : State) : (modHch g s).np = s.np := rfl
@[simp] theorem modHch_t1 (g) (s : State) : (modHch g s).t1 = s.t1 := rfl
@[simp] theorem modHch_t2 (g) (s : State) : (modHch g s).t2 = s.t2 := rfl
@[simp] theorem modHch_str (g) (s : State) : (modHch g s).str = s.str := rfl
@[simp] theorem modHch_mdl (g) (s : State) : (modHch g s).mdl = s.mdl := rfl
@[simp] theorem modHch_kv (g) (s : State) : (modHch g s).kv = s.kv := rfl
@[simp] theorem modHch_srv (g) (s : State) : (modHch g s).srv = s.srv := rfl
@[simp] theorem modHch_gth (g) (s : State) : (modHch g s).gth = s.gth := rfl
@[simp] theorem modHch_hch (g) (s : State) : (modHch g s).hch = g s.hch := rfl
@[simp] theorem modHch_fab (g) (s : State) : (modHch g s).fab = s.fab := rfl
@[simp] theorem modHch_host (g) (s : State) : (modHch g s).host = s.host := rfl
@[simp] theorem modHch_part (g) (s : State) : (modHch g s).part = s.part := rfl
@[simp] theorem modHch_isl (g) (s : State) : (modHch g s).isl = s.isl := rfl
@[simp] theorem modHch_err (g) (s : State) : (modHch g s).err = s.err := rfl
@[simp] theorem modHch_pwr (g) (s : State) : (modHch g s).pwr = s.pwr := rfl
@[simp] theorem modHch_out (g) (s : State) : (modHch g s).out = s.out := rfl
@[simp] theorem modHch_freeCount (g) (s : State) : (modHch g s).freeCount = s.freeCount := rfl
@[simp] theorem modHch_shadow (g) (s : State) : (modHch g s).shadow = s.shadow := rfl
@[simp] theorem modHch_pending (g) (s : State) : (modHch g s).pending = s.pending := rfl

/-! ### modFab -/

@[simp] theorem modFab_now (g) (s : State) : (modFab g s).now = s.now := rfl
@[simp] theorem modFab_mem (g) (s : State) : (modFab g s).mem = s.mem := rfl
@[simp] theorem modFab_step (g) (s : State) : (modFab g s).step = s.step := rfl
@[simp] theorem modFab_prog (g) (s : State) : (modFab g s).prog = s.prog := rfl
@[simp] theorem modFab_seq (g) (s : State) : (modFab g s).seq = s.seq := rfl
@[simp] theorem modFab_fields (g) (s : State) : (modFab g s).fields = s.fields := rfl
@[simp] theorem modFab_sp (g) (s : State) : (modFab g s).sp = s.sp := rfl
@[simp] theorem modFab_acc (g) (s : State) : (modFab g s).acc = s.acc := rfl
@[simp] theorem modFab_np (g) (s : State) : (modFab g s).np = s.np := rfl
@[simp] theorem modFab_t1 (g) (s : State) : (modFab g s).t1 = s.t1 := rfl
@[simp] theorem modFab_t2 (g) (s : State) : (modFab g s).t2 = s.t2 := rfl
@[simp] theorem modFab_str (g) (s : State) : (modFab g s).str = s.str := rfl
@[simp] theorem modFab_mdl (g) (s : State) : (modFab g s).mdl = s.mdl := rfl
@[simp] theorem modFab_kv (g) (s : State) : (modFab g s).kv = s.kv := rfl
@[simp] theorem modFab_srv (g) (s : State) : (modFab g s).srv = s.srv := rfl
@[simp] theorem modFab_gth (g) (s : State) : (modFab g s).gth = s.gth := rfl
@[simp] theorem modFab_hch (g) (s : State) : (modFab g s).hch = s.hch := rfl
@[simp] theorem modFab_fab (g) (s : State) : (modFab g s).fab = g s.fab := rfl
@[simp] theorem modFab_host (g) (s : State) : (modFab g s).host = s.host := rfl
@[simp] theorem modFab_part (g) (s : State) : (modFab g s).part = s.part := rfl
@[simp] theorem modFab_isl (g) (s : State) : (modFab g s).isl = s.isl := rfl
@[simp] theorem modFab_err (g) (s : State) : (modFab g s).err = s.err := rfl
@[simp] theorem modFab_pwr (g) (s : State) : (modFab g s).pwr = s.pwr := rfl
@[simp] theorem modFab_out (g) (s : State) : (modFab g s).out = s.out := rfl
@[simp] theorem modFab_freeCount (g) (s : State) : (modFab g s).freeCount = s.freeCount := rfl
@[simp] theorem modFab_shadow (g) (s : State) : (modFab g s).shadow = s.shadow := rfl
@[simp] theorem modFab_pending (g) (s : State) : (modFab g s).pending = s.pending := rfl

/-! ### modHost -/

@[simp] theorem modHost_now (g) (s : State) : (modHost g s).now = s.now := rfl
@[simp] theorem modHost_mem (g) (s : State) : (modHost g s).mem = s.mem := rfl
@[simp] theorem modHost_step (g) (s : State) : (modHost g s).step = s.step := rfl
@[simp] theorem modHost_prog (g) (s : State) : (modHost g s).prog = s.prog := rfl
@[simp] theorem modHost_seq (g) (s : State) : (modHost g s).seq = s.seq := rfl
@[simp] theorem modHost_fields (g) (s : State) : (modHost g s).fields = s.fields := rfl
@[simp] theorem modHost_sp (g) (s : State) : (modHost g s).sp = s.sp := rfl
@[simp] theorem modHost_acc (g) (s : State) : (modHost g s).acc = s.acc := rfl
@[simp] theorem modHost_np (g) (s : State) : (modHost g s).np = s.np := rfl
@[simp] theorem modHost_t1 (g) (s : State) : (modHost g s).t1 = s.t1 := rfl
@[simp] theorem modHost_t2 (g) (s : State) : (modHost g s).t2 = s.t2 := rfl
@[simp] theorem modHost_str (g) (s : State) : (modHost g s).str = s.str := rfl
@[simp] theorem modHost_mdl (g) (s : State) : (modHost g s).mdl = s.mdl := rfl
@[simp] theorem modHost_kv (g) (s : State) : (modHost g s).kv = s.kv := rfl
@[simp] theorem modHost_srv (g) (s : State) : (modHost g s).srv = s.srv := rfl
@[simp] theorem modHost_gth (g) (s : State) : (modHost g s).gth = s.gth := rfl
@[simp] theorem modHost_hch (g) (s : State) : (modHost g s).hch = s.hch := rfl
@[simp] theorem modHost_fab (g) (s : State) : (modHost g s).fab = s.fab := rfl
@[simp] theorem modHost_host (g) (s : State) : (modHost g s).host = g s.host := rfl
@[simp] theorem modHost_part (g) (s : State) : (modHost g s).part = s.part := rfl
@[simp] theorem modHost_isl (g) (s : State) : (modHost g s).isl = s.isl := rfl
@[simp] theorem modHost_err (g) (s : State) : (modHost g s).err = s.err := rfl
@[simp] theorem modHost_pwr (g) (s : State) : (modHost g s).pwr = s.pwr := rfl
@[simp] theorem modHost_out (g) (s : State) : (modHost g s).out = s.out := rfl
@[simp] theorem modHost_freeCount (g) (s : State) : (modHost g s).freeCount = s.freeCount := rfl
@[simp] theorem modHost_shadow (g) (s : State) : (modHost g s).shadow = s.shadow := rfl
@[simp] theorem modHost_pending (g) (s : State) : (modHost g s).pending = s.pending := rfl

/-! ### modPart -/

@[simp] theorem modPart_now (g) (s : State) : (modPart g s).now = s.now := rfl
@[simp] theorem modPart_mem (g) (s : State) : (modPart g s).mem = s.mem := rfl
@[simp] theorem modPart_step (g) (s : State) : (modPart g s).step = s.step := rfl
@[simp] theorem modPart_prog (g) (s : State) : (modPart g s).prog = s.prog := rfl
@[simp] theorem modPart_seq (g) (s : State) : (modPart g s).seq = s.seq := rfl
@[simp] theorem modPart_fields (g) (s : State) : (modPart g s).fields = s.fields := rfl
@[simp] theorem modPart_sp (g) (s : State) : (modPart g s).sp = s.sp := rfl
@[simp] theorem modPart_acc (g) (s : State) : (modPart g s).acc = s.acc := rfl
@[simp] theorem modPart_np (g) (s : State) : (modPart g s).np = s.np := rfl
@[simp] theorem modPart_t1 (g) (s : State) : (modPart g s).t1 = s.t1 := rfl
@[simp] theorem modPart_t2 (g) (s : State) : (modPart g s).t2 = s.t2 := rfl
@[simp] theorem modPart_str (g) (s : State) : (modPart g s).str = s.str := rfl
@[simp] theorem modPart_mdl (g) (s : State) : (modPart g s).mdl = s.mdl := rfl
@[simp] theorem modPart_kv (g) (s : State) : (modPart g s).kv = s.kv := rfl
@[simp] theorem modPart_srv (g) (s : State) : (modPart g s).srv = s.srv := rfl
@[simp] theorem modPart_gth (g) (s : State) : (modPart g s).gth = s.gth := rfl
@[simp] theorem modPart_hch (g) (s : State) : (modPart g s).hch = s.hch := rfl
@[simp] theorem modPart_fab (g) (s : State) : (modPart g s).fab = s.fab := rfl
@[simp] theorem modPart_host (g) (s : State) : (modPart g s).host = s.host := rfl
@[simp] theorem modPart_part (g) (s : State) : (modPart g s).part = g s.part := rfl
@[simp] theorem modPart_isl (g) (s : State) : (modPart g s).isl = s.isl := rfl
@[simp] theorem modPart_err (g) (s : State) : (modPart g s).err = s.err := rfl
@[simp] theorem modPart_pwr (g) (s : State) : (modPart g s).pwr = s.pwr := rfl
@[simp] theorem modPart_out (g) (s : State) : (modPart g s).out = s.out := rfl
@[simp] theorem modPart_freeCount (g) (s : State) : (modPart g s).freeCount = s.freeCount := rfl
@[simp] theorem modPart_shadow (g) (s : State) : (modPart g s).shadow = s.shadow := rfl
@[simp] theorem modPart_pending (g) (s : State) : (modPart g s).pending = s.pending := rfl

/-! ### modIsl -/

@[simp] theorem modIsl_now (g) (s : State) : (modIsl g s).now = s.now := rfl
@[simp] theorem modIsl_mem (g) (s : State) : (modIsl g s).mem = s.mem := rfl
@[simp] theorem modIsl_step (g) (s : State) : (modIsl g s).step = s.step := rfl
@[simp] theorem modIsl_prog (g) (s : State) : (modIsl g s).prog = s.prog := rfl
@[simp] theorem modIsl_seq (g) (s : State) : (modIsl g s).seq = s.seq := rfl
@[simp] theorem modIsl_fields (g) (s : State) : (modIsl g s).fields = s.fields := rfl
@[simp] theorem modIsl_sp (g) (s : State) : (modIsl g s).sp = s.sp := rfl
@[simp] theorem modIsl_acc (g) (s : State) : (modIsl g s).acc = s.acc := rfl
@[simp] theorem modIsl_np (g) (s : State) : (modIsl g s).np = s.np := rfl
@[simp] theorem modIsl_t1 (g) (s : State) : (modIsl g s).t1 = s.t1 := rfl
@[simp] theorem modIsl_t2 (g) (s : State) : (modIsl g s).t2 = s.t2 := rfl
@[simp] theorem modIsl_str (g) (s : State) : (modIsl g s).str = s.str := rfl
@[simp] theorem modIsl_mdl (g) (s : State) : (modIsl g s).mdl = s.mdl := rfl
@[simp] theorem modIsl_kv (g) (s : State) : (modIsl g s).kv = s.kv := rfl
@[simp] theorem modIsl_srv (g) (s : State) : (modIsl g s).srv = s.srv := rfl
@[simp] theorem modIsl_gth (g) (s : State) : (modIsl g s).gth = s.gth := rfl
@[simp] theorem modIsl_hch (g) (s : State) : (modIsl g s).hch = s.hch := rfl
@[simp] theorem modIsl_fab (g) (s : State) : (modIsl g s).fab = s.fab := rfl
@[simp] theorem modIsl_host (g) (s : State) : (modIsl g s).host = s.host := rfl
@[simp] theorem modIsl_part (g) (s : State) : (modIsl g s).part = s.part := rfl
@[simp] theorem modIsl_isl (g) (s : State) : (modIsl g s).isl = g s.isl := rfl
@[simp] theorem modIsl_err (g) (s : State) : (modIsl g s).err = s.err := rfl
@[simp] theorem modIsl_pwr (g) (s : State) : (modIsl g s).pwr = s.pwr := rfl
@[simp] theorem modIsl_out (g) (s : State) : (modIsl g s).out = s.out := rfl
@[simp] theorem modIsl_freeCount (g) (s : State) : (modIsl g s).freeCount = s.freeCount := rfl
@[simp] theorem modIsl_shadow (g) (s : State) : (modIsl g s).shadow = s.shadow := rfl
@[simp] theorem modIsl_pending (g) (s : State) : (modIsl g s).pending = s.pending := rfl

/-! ### modErr -/

@[simp] theorem modErr_now (g) (s : State) : (modErr g s).now = s.now := rfl
@[simp] theorem modErr_mem (g) (s : State) : (modErr g s).mem = s.mem := rfl
@[simp] theorem modErr_step (g) (s : State) : (modErr g s).step = s.step := rfl
@[simp] theorem modErr_prog (g) (s : State) : (modErr g s).prog = s.prog := rfl
@[simp] theorem modErr_seq (g) (s : State) : (modErr g s).seq = s.seq := rfl
@[simp] theorem modErr_fields (g) (s : State) : (modErr g s).fields = s.fields := rfl
@[simp] theorem modErr_sp (g) (s : State) : (modErr g s).sp = s.sp := rfl
@[simp] theorem modErr_acc (g) (s : State) : (modErr g s).acc = s.acc := rfl
@[simp] theorem modErr_np (g) (s : State) : (modErr g s).np = s.np := rfl
@[simp] theorem modErr_t1 (g) (s : State) : (modErr g s).t1 = s.t1 := rfl
@[simp] theorem modErr_t2 (g) (s : State) : (modErr g s).t2 = s.t2 := rfl
@[simp] theorem modErr_str (g) (s : State) : (modErr g s).str = s.str := rfl
@[simp] theorem modErr_mdl (g) (s : State) : (modErr g s).mdl = s.mdl := rfl
@[simp] theorem modErr_kv (g) (s : State) : (modErr g s).kv = s.kv := rfl
@[simp] theorem modErr_srv (g) (s : State) : (modErr g s).srv = s.srv := rfl
@[simp] theorem modErr_gth (g) (s : State) : (modErr g s).gth = s.gth := rfl
@[simp] theorem modErr_hch (g) (s : State) : (modErr g s).hch = s.hch := rfl
@[simp] theorem modErr_fab (g) (s : State) : (modErr g s).fab = s.fab := rfl
@[simp] theorem modErr_host (g) (s : State) : (modErr g s).host = s.host := rfl
@[simp] theorem modErr_part (g) (s : State) : (modErr g s).part = s.part := rfl
@[simp] theorem modErr_isl (g) (s : State) : (modErr g s).isl = s.isl := rfl
@[simp] theorem modErr_err (g) (s : State) : (modErr g s).err = g s.err := rfl
@[simp] theorem modErr_pwr (g) (s : State) : (modErr g s).pwr = s.pwr := rfl
@[simp] theorem modErr_out (g) (s : State) : (modErr g s).out = s.out := rfl
@[simp] theorem modErr_freeCount (g) (s : State) : (modErr g s).freeCount = s.freeCount := rfl
@[simp] theorem modErr_shadow (g) (s : State) : (modErr g s).shadow = s.shadow := rfl
@[simp] theorem modErr_pending (g) (s : State) : (modErr g s).pending = s.pending := rfl

/-! ### modPwr -/

@[simp] theorem modPwr_now (g) (s : State) : (modPwr g s).now = s.now := rfl
@[simp] theorem modPwr_mem (g) (s : State) : (modPwr g s).mem = s.mem := rfl
@[simp] theorem modPwr_step (g) (s : State) : (modPwr g s).step = s.step := rfl
@[simp] theorem modPwr_prog (g) (s : State) : (modPwr g s).prog = s.prog := rfl
@[simp] theorem modPwr_seq (g) (s : State) : (modPwr g s).seq = s.seq := rfl
@[simp] theorem modPwr_fields (g) (s : State) : (modPwr g s).fields = s.fields := rfl
@[simp] theorem modPwr_sp (g) (s : State) : (modPwr g s).sp = s.sp := rfl
@[simp] theorem modPwr_acc (g) (s : State) : (modPwr g s).acc = s.acc := rfl
@[simp] theorem modPwr_np (g) (s : State) : (modPwr g s).np = s.np := rfl
@[simp] theorem modPwr_t1 (g) (s : State) : (modPwr g s).t1 = s.t1 := rfl
@[simp] theorem modPwr_t2 (g) (s : State) : (modPwr g s).t2 = s.t2 := rfl
@[simp] theorem modPwr_str (g) (s : State) : (modPwr g s).str = s.str := rfl
@[simp] theorem modPwr_mdl (g) (s : State) : (modPwr g s).mdl = s.mdl := rfl
@[simp] theorem modPwr_kv (g) (s : State) : (modPwr g s).kv = s.kv := rfl
@[simp] theorem modPwr_srv (g) (s : State) : (modPwr g s).srv = s.srv := rfl
@[simp] theorem modPwr_gth (g) (s : State) : (modPwr g s).gth = s.gth := rfl
@[simp] theorem modPwr_hch (g) (s : State) : (modPwr g s).hch = s.hch := rfl
@[simp] theorem modPwr_fab (g) (s : State) : (modPwr g s).fab = s.fab := rfl
@[simp] theorem modPwr_host (g) (s : State) : (modPwr g s).host = s.host := rfl
@[simp] theorem modPwr_part (g) (s : State) : (modPwr g s).part = s.part := rfl
@[simp] theorem modPwr_isl (g) (s : State) : (modPwr g s).isl = s.isl := rfl
@[simp] theorem modPwr_err (g) (s : State) : (modPwr g s).err = s.err := rfl
@[simp] theorem modPwr_pwr (g) (s : State) : (modPwr g s).pwr = g s.pwr := rfl
@[simp] theorem modPwr_out (g) (s : State) : (modPwr g s).out = s.out := rfl
@[simp] theorem modPwr_freeCount (g) (s : State) : (modPwr g s).freeCount = s.freeCount := rfl
@[simp] theorem modPwr_shadow (g) (s : State) : (modPwr g s).shadow = s.shadow := rfl
@[simp] theorem modPwr_pending (g) (s : State) : (modPwr g s).pending = s.pending := rfl

/-! ### emit -/

@[simp] theorem emit_now (o : Out) (s : State) : (emit o s).now = s.now := rfl
@[simp] theorem emit_mem (o : Out) (s : State) : (emit o s).mem = s.mem := rfl
@[simp] theorem emit_step (o : Out) (s : State) : (emit o s).step = s.step := rfl
@[simp] theorem emit_prog (o : Out) (s : State) : (emit o s).prog = s.prog := rfl
@[simp] theorem emit_seq (o : Out) (s : State) : (emit o s).seq = s.seq := rfl
@[simp] theorem emit_fields (o : Out) (s : State) : (emit o s).fields = s.fields := rfl
@[simp] theorem emit_sp (o : Out) (s : State) : (emit o s).sp = s.sp := rfl
@[simp] theorem emit_acc (o : Out) (s : State) : (emit o s).acc = s.acc := rfl
@[simp] theorem emit_np (o : Out) (s : State) : (emit o s).np = s.np := rfl
@[simp] theorem emit_t1 (o : Out) (s : State) : (emit o s).t1 = s.t1 := rfl
@[simp] theorem emit_t2 (o : Out) (s : State) : (emit o s).t2 = s.t2 := rfl
@[simp] theorem emit_str (o : Out) (s : State) : (emit o s).str = s.str := rfl
@[simp] theorem emit_mdl (o : Out) (s : State) : (emit o s).mdl = s.mdl := rfl
@[simp] theorem emit_kv (o : Out) (s : State) : (emit o s).kv = s.kv := rfl
@[simp] theorem emit_srv (o : Out) (s : State) : (emit o s).srv = s.srv := rfl
@[simp] theorem emit_gth (o : Out) (s : State) : (emit o s).gth = s.gth := rfl
@[simp] theorem emit_hch (o : Out) (s : State) : (emit o s).hch = s.hch := rfl
@[simp] theorem emit_fab (o : Out) (s : State) : (emit o s).fab = s.fab := rfl
@[simp] theorem emit_host (o : Out) (s : State) : (emit o s).host = s.host := rfl
@[simp] theorem emit_part (o : Out) (s : State) : (emit o s).part = s.part := rfl
@[simp] theorem emit_isl (o : Out) (s : State) : (emit o s).isl = s.isl := rfl
@[simp] theorem emit_err (o : Out) (s : State) : (emit o s).err = s.err := rfl
@[simp] theorem emit_pwr (o : Out) (s : State) : (emit o s).pwr = s.pwr := rfl
@[simp] theorem emit_out (o : Out) (s : State) : (emit o s).out = s.out ++ [o] := rfl
@[simp] theorem emit_freeCount (o : Out) (s : State) : (emit o s).freeCount = s.freeCount := rfl
@[simp] theorem emit_shadow (o : Out) (s : State) : (emit o s).shadow = s.shadow := rfl
@[simp] theorem emit_pending (o : Out) (s : State) : (emit o s).pending = s.pending := rfl

/-! ### modFld and wrBytes -/

@[simp] theorem modFld_now (k : Nat) (g) (s : State) : (modFld k g s).now = s.now := rfl
@[simp] theorem modFld_mem (k : Nat) (g) (s : State) : (modFld k g s).mem = s.mem := rfl
@[simp] theorem modFld_step (k : Nat) (g) (s : State) : (modFld k g s).step = s.step := rfl
@[simp] theorem modFld_prog (k : Nat) (g) (s : State) : (modFld k g s).prog = s.prog := rfl
@[simp] theorem modFld_seq (k : Nat) (g) (s : State) : (modFld k g s).seq = s.seq := rfl
@[simp] theorem modFld_sp (k : Nat) (g) (s : State) : (modFld k g s).sp = s.sp := rfl
@[simp] theorem modFld_acc (k : Nat) (g) (s : State) : (modFld k g s).acc = s.acc := rfl
@[simp] theorem modFld_np (k : Nat) (g) (s : State) : (modFld k g s).np = s.np := rfl
@[simp] theorem modFld_t1 (k : Nat) (g) (s : State) : (modFld k g s).t1 = s.t1 := rfl
@[simp] theorem modFld_t2 (k : Nat) (g) (s : State) : (modFld k g s).t2 = s.t2 := rfl
@[simp] theorem modFld_str (k : Nat) (g) (s : State) : (modFld k g s).str = s.str := rfl
@[simp] theorem modFld_mdl (k : Nat) (g) (s : State) : (modFld k g s).mdl = s.mdl := rfl
@[simp] theorem modFld_kv (k : Nat) (g) (s : State) : (modFld k g s).kv = s.kv := rfl
@[simp] theorem modFld_srv (k : Nat) (g) (s : State) : (modFld k g s).srv = s.srv := rfl
@[simp] theorem modFld_gth (k : Nat) (g) (s : State) : (modFld k g s).gth = s.gth := rfl
@[simp] theorem modFld_hch (k : Nat) (g) (s : State) : (modFld k g s).hch = s.hch := rfl
@[simp] theorem modFld_fab (k : Nat) (g) (s : State) : (modFld k g s).fab = s.fab := rfl
@[simp] theorem modFld_host (k : Nat) (g) (s : State) : (modFld k g s).host = s.host := rfl
@[simp] theorem modFld_part (k : Nat) (g) (s : State) : (modFld k g s).part = s.part := rfl
@[simp] theorem modFld_isl (k : Nat) (g) (s : State) : (modFld k g s).isl = s.isl := rfl
@[simp] theorem modFld_err (k : Nat) (g) (s : State) : (modFld k g s).err = s.err := rfl
@[simp] theorem modFld_pwr (k : Nat) (g) (s : State) : (modFld k g s).pwr = s.pwr := rfl
@[simp] theorem modFld_out (k : Nat) (g) (s : State) : (modFld k g s).out = s.out := rfl
@[simp] theorem modFld_freeCount (k : Nat) (g) (s : State) : (modFld k g s).freeCount = s.freeCount := rfl
@[simp] theorem modFld_shadow (k : Nat) (g) (s : State) : (modFld k g s).shadow = s.shadow := rfl
@[simp] theorem modFld_pending (k : Nat) (g) (s : State) : (modFld k g s).pending = s.pending := rfl
@[simp] theorem wrBytes_now (a : Nat) (bs : List Byte) (s : State) : (wrBytes a bs s).now = s.now := rfl
@[simp] theorem wrBytes_mem (a : Nat) (bs : List Byte) (s : State) : (wrBytes a bs s).mem = putBytes s.mem a bs := rfl
@[simp] theorem wrBytes_step (a : Nat) (bs : List Byte) (s : State) : (wrBytes a bs s).step = s.step := rfl
@[simp] theorem wrBytes_prog (a : Nat) (bs : List Byte) (s : State) : (wrBytes a bs s).prog = s.prog := rfl
@[simp] theorem wrBytes_seq (a : Nat) (bs : List Byte) (s : State) : (wrBytes a bs s).seq = s.seq := rfl
@[simp] theorem wrBytes_fields (a : Nat) (bs : List Byte) (s : State) : (wrBytes a bs s).fields = s.fields := rfl
@[simp] theorem wrBytes_sp (a : Nat) (bs : List Byte) (s : State) : (wrBytes a bs s).sp = s.sp := rfl
@[simp] theorem wrBytes_acc (a : Nat) (bs : List Byte) (s : State) : (wrBytes a bs s).acc = s.acc := rfl
@[simp] theorem wrBytes_np (a : Nat) (bs : List Byte) (s : State) : (wrBytes a bs s).np = s.np := rfl
@[simp] theorem wrBytes_t1 (a : Nat) (bs : List Byte) (s : State) : (wrBytes a bs s).t1 = s.t1 := rfl
@[simp] theorem wrBytes_t2 (a : Nat) (bs : List Byte) (s : State) : (wrBytes a bs s).t2 = s.t2 := rfl
@[simp] theorem wrBytes_str (a : Nat) (bs : List Byte) (s : State) : (wrBytes a bs s).str = s.str := rfl
@[simp] theorem wrBytes_mdl (a : Nat) (bs : List Byte) (s : State) : (wrBytes a bs s).mdl = s.mdl := rfl
@[simp] theorem wrBytes_kv (a : Nat) (bs : List Byte) (s : State) : (wrBytes a bs s).kv = s.kv := rfl
@[simp] theorem wrBytes_srv (a : Nat) (bs : List Byte) (s : State) : (wrBytes a bs s).srv = s.srv := rfl
@[simp] theorem wrBytes_gth (a : Nat) (bs : List Byte) (s : State) : (wrBytes a bs s).gth = s.gth := rfl
@[simp] theorem wrBytes_hch (a : Nat) (bs : List Byte) (s : State) : (wrBytes a bs s).hch = s.hch := rfl
@[simp] theorem wrBytes_fab (a : Nat) (bs : List Byte) (s : State) : (wrBytes a bs s).fab = s.fab := rfl
@[simp] theorem wrBytes_host (a : Nat) (bs : List Byte) (s : State) : (wrBytes a bs s).host = s.host := rfl
@[simp] theorem wrBytes_part (a : Nat) (bs : List Byte) (s : State) : (wrBytes a bs s).part = s.part := rfl
@[simp] theorem wrBytes_isl (a : Nat) (bs : List Byte) (s : State) : (wrBytes a bs s).isl = s.isl := rfl
@[simp] theorem wrBytes_err (a : Nat) (bs : List Byte) (s : State) : (wrBytes a bs s).err = s.err := rfl
@[simp] theorem wrBytes_pwr (a : Nat) (bs : List Byte) (s : State) : (wrBytes a bs s).pwr = s.pwr := rfl
@[simp] theorem wrBytes_out (a : Nat) (bs : List Byte) (s : State) : (wrBytes a bs s).out = s.out := rfl
@[simp] theorem wrBytes_freeCount (a : Nat) (bs : List Byte) (s : State) : (wrBytes a bs s).freeCount = s.freeCount := rfl
@[simp] theorem wrBytes_shadow (a : Nat) (bs : List Byte) (s : State) : (wrBytes a bs s).shadow = s.shadow := rfl
@[simp] theorem wrBytes_pending (a : Nat) (bs : List Byte) (s : State) : (wrBytes a bs s).pending = s.pending := rfl

/-! ### modTier -/

@[simp] theorem modTier_now (t : Nat) (g) (s : State) : (modTier t g s).now = s.now := by unfold modTier; split <;> rfl
@[simp] theorem modTier_mem (t : Nat) (g) (s : State) : (modTier t g s).mem = s.mem := by unfold modTier; split <;> rfl
@[simp] theorem modTier_step (t : Nat) (g) (s : State) : (modTier t g s).step = s.step := by unfold modTier; split <;> rfl
@[simp] theorem modTier_prog (t : Nat) (g) (s : State) : (modTier t g s).prog = s.prog := by unfold modTier; split <;> rfl
@[simp] theorem modTier_seq (t : Nat) (g) (s : State) : (modTier t g s).seq = s.seq := by unfold modTier; split <;> rfl
@[simp] theorem modTier_fields (t : Nat) (g) (s : State) : (modTier t g s).fields = s.fields := by unfold modTier; split <;> rfl
@[simp] theorem modTier_sp (t : Nat) (g) (s : State) : (modTier t g s).sp = s.sp := by unfold modTier; split <;> rfl
@[simp] theorem modTier_acc (t : Nat) (g) (s : State) : (modTier t g s).acc = s.acc := by unfold modTier; split <;> rfl
@[simp] theorem modTier_np (t : Nat) (g) (s : State) : (modTier t g s).np = s.np := by unfold modTier; split <;> rfl
@[simp] theorem modTier_str (t : Nat) (g) (s : State) : (modTier t g s).str = s.str := by unfold modTier; split <;> rfl
@[simp] theorem modTier_mdl (t : Nat) (g) (s : State) : (modTier t g s).mdl = s.mdl := by unfold modTier; split <;> rfl
@[simp] theorem modTier_kv (t : Nat) (g) (s : State) : (modTier t g s).kv = s.kv := by unfold modTier; split <;> rfl
@[simp] theorem modTier_srv (t : Nat) (g) (s : State) : (modTier t g s).srv = s.srv := by unfold modTier; split <;> rfl
@[simp] theorem modTier_gth (t : Nat) (g) (s : State) : (modTier t g s).gth = s.gth := by unfold modTier; split <;> rfl
@[simp] theorem modTier_hch (t : Nat) (g) (s : State) : (modTier t g s).hch = s.hch := by unfold modTier; split <;> rfl
@[simp] theorem modTier_fab (t : Nat) (g) (s : State) : (modTier t g s).fab = s.fab := by unfold modTier; split <;> rfl
@[simp] theorem modTier_host (t : Nat) (g) (s : State) : (modTier t g s).host = s.host := by unfold modTier; split <;> rfl
@[simp] theorem modTier_part (t : Nat) (g) (s : State) : (modTier t g s).part = s.part := by unfold modTier; split <;> rfl
@[simp] theorem modTier_isl (t : Nat) (g) (s : State) : (modTier t g s).isl = s.isl := by unfold modTier; split <;> rfl
@[simp] theorem modTier_err (t : Nat) (g) (s : State) : (modTier t g s).err = s.err := by unfold modTier; split <;> rfl
@[simp] theorem modTier_pwr (t : Nat) (g) (s : State) : (modTier t g s).pwr = s.pwr := by unfold modTier; split <;> rfl
@[simp] theorem modTier_out (t : Nat) (g) (s : State) : (modTier t g s).out = s.out := by unfold modTier; split <;> rfl
@[simp] theorem modTier_freeCount (t : Nat) (g) (s : State) : (modTier t g s).freeCount = s.freeCount := by unfold modTier; split <;> rfl
@[simp] theorem modTier_shadow (t : Nat) (g) (s : State) : (modTier t g s).shadow = s.shadow := by unfold modTier; split <;> rfl
@[simp] theorem modTier_pending (t : Nat) (g) (s : State) : (modTier t g s).pending = s.pending := by unfold modTier; split <;> rfl

end Sys2Proof.Machine
end

