-- ==== Sys2Proof/Laws/Tbl.lean ====
section
/-! SUPPORT. Sparse tables: what a write leaves to be read, and that every operation keeps the canonical form (R11). -/
namespace Sys2Proof.Machine

variable {α : Type}

/-! ### Reading what was written -/

theorem Tbl.get_cons (d : α) (i k : Nat) (v : α) (t : Tbl α) : Tbl.get d ((i, v) :: t) k = if i = k then v else Tbl.get d t k := rfl

/-- A write of a value other than the default is read back. -/
theorem Tbl.get_set_same_ne [DecidableEq α] (d : α) (t : Tbl α) (k : Nat) (v : α) (h : v ≠ d) : Tbl.get d (Tbl.set d t k v) k = v := by
  induction t with
  | nil => simp [Tbl.set, h, Tbl.get]
  | cons p t ih =>
    obtain ⟨i, w⟩ := p
    unfold Tbl.set
    split
    · simp [Tbl.get]
    · split
      · simp [Tbl.get]
      · have : i ≠ k := fun e => by simp_all
        simp [Tbl.get, this, ih]

/-- A write leaves every other index. -/
theorem Tbl.get_set_other [DecidableEq α] (d : α) (t : Tbl α) (k j : Nat) (v : α) (h : j ≠ k) : Tbl.get d (Tbl.set d t k v) j = Tbl.get d t j := by
  induction t with
  | nil => unfold Tbl.set; split <;> simp [Tbl.get, Ne.symm h]
  | cons p t ih =>
    obtain ⟨i, w⟩ := p
    unfold Tbl.set
    split
    · split <;> simp [Tbl.get, Ne.symm h]
    · split
      · rename_i h1 h2; subst h2
        split <;> simp [Tbl.get, Ne.symm h]
      · simp [Tbl.get, ih]

/-- An entry of an optional table is read back. -/
@[simp] theorem Tbl.opt_set_same [DecidableEq α] (r : α) (t : Tbl (Option α)) (k : Nat) (v : α) : Tbl.opt r (Tbl.set none t k (some v)) k = v := by
  simp [Tbl.opt, Tbl.get_set_same_ne]

theorem Tbl.opt_set_other [DecidableEq α] (r : α) (t : Tbl (Option α)) (k j : Nat) (v : Option α) (h : j ≠ k) :
    Tbl.opt r (Tbl.set none t k v) j = Tbl.opt r t j := by
  simp [Tbl.opt, Tbl.get_set_other _ _ _ _ _ h]

/-! ### The canonical form -/

/-- Every index listed is above a bound. -/
def Tbl.above (b : Nat) (t : Tbl α) : Prop := ∀ p ∈ t, b < p.1

theorem Tbl.wf_cons [DecidableEq α] (d : α) (i : Nat) (v : α) (t : Tbl α) :
    Tbl.wf d ((i, v) :: t) = true ↔ v ≠ d ∧ Tbl.above i t ∧ Tbl.wf d t = true := by
  induction t generalizing i v with
  | nil => simp [Tbl.wf, Tbl.above]
  | cons p t ih =>
    obtain ⟨j, w⟩ := p
    have h := ih j w
    simp only [Tbl.wf, Bool.and_eq_true, Bool.not_eq_true', decide_eq_false_iff_not, decide_eq_true_eq]
    constructor
    · rintro ⟨⟨h1, h2⟩, h3⟩
      refine ⟨h1, ?_, h3⟩
      intro p hp
      rcases List.mem_cons.mp hp with rfl | hp
      · exact h2
      · exact Nat.lt_trans h2 ((h.mp h3).2.1 p hp)
    · rintro ⟨h1, h2, h3⟩
      exact ⟨⟨h1, h2 (j, w) (List.mem_cons_self ..)⟩, h3⟩

theorem Tbl.above_set [DecidableEq α] (d : α) (b : Nat) (t : Tbl α) (k : Nat) (v : α) (h : Tbl.above b t) (hk : b < k) :
    Tbl.above b (Tbl.set d t k v) := by
  induction t with
  | nil =>
    unfold Tbl.set; split
    · exact h
    · intro p hp; simp at hp; subst hp; exact hk
  | cons q t ih =>
    obtain ⟨i, w⟩ := q
    have ht : Tbl.above b t := fun p hp => h p (List.mem_cons_of_mem _ hp)
    have hi : b < i := h (i, w) (List.mem_cons_self ..)
    unfold Tbl.set
    split
    · split
      · exact h
      · intro p hp; rcases List.mem_cons.mp hp with rfl | hp
        · exact hk
        · exact h p hp
    · split
      · split
        · exact ht
        · intro p hp; rcases List.mem_cons.mp hp with rfl | hp
          · exact hk
          · exact ht p hp
      · intro p hp; rcases List.mem_cons.mp hp with rfl | hp
        · exact hi
        · exact ih ht p hp

/-- A write keeps the canonical form. -/
theorem Tbl.set_wf [DecidableEq α] (d : α) (t : Tbl α) (k : Nat) (v : α) (h : Tbl.wf d t = true) : Tbl.wf d (Tbl.set d t k v) = true := by
  induction t with
  | nil => unfold Tbl.set; split <;> simp_all [Tbl.wf]
  | cons q t ih =>
    obtain ⟨i, w⟩ := q
    obtain ⟨h1, h2, h3⟩ := (Tbl.wf_cons d i w t).mp h
    unfold Tbl.set
    split
    · split
      · exact h
      · rename_i hk hv
        refine (Tbl.wf_cons d k v _).mpr ⟨hv, ?_, h⟩
        intro p hp; rcases List.mem_cons.mp hp with rfl | hp
        · exact hk
        · exact Nat.lt_trans hk (h2 p hp)
    · split
      · rename_i hk; subst hk
        split
        · exact h3
        · rename_i hv; exact (Tbl.wf_cons d k v _).mpr ⟨hv, h2, h3⟩
      · rename_i hk hne
        exact (Tbl.wf_cons d i w _).mpr ⟨h1, Tbl.above_set d i t k v h2 (by omega), ih h3⟩

/-- Dropping entries keeps the canonical form. -/
theorem Tbl.filter_wf [DecidableEq α] (d : α) (t : Tbl α) (p : Nat × α → Bool) (h : Tbl.wf d t = true) : Tbl.wf d (t.filter p) = true := by
  induction t with
  | nil => rfl
  | cons q t ih =>
    obtain ⟨i, w⟩ := q
    obtain ⟨h1, h2, h3⟩ := (Tbl.wf_cons d i w t).mp h
    unfold List.filter
    split
    · refine (Tbl.wf_cons d i w _).mpr ⟨h1, ?_, ih h3⟩
      intro x hx; exact h2 x (List.mem_filter.mp hx).1
    · exact ih h3

/-- Writing bytes keeps memory's canonical form. -/
theorem putBytes_wf (t : Tbl Byte) (a : Nat) (bs : List Byte) (h : Memory.wf t = true) : Memory.wf (putBytes t a bs) = true := by
  induction bs generalizing t a with
  | nil => exact h
  | cons b bs ih => exact ih _ _ (Tbl.set_wf 0 t a b h)

/-- Clearing a range keeps memory's canonical form. -/
theorem clearRange_wf (t : Tbl Byte) (a n : Nat) (h : Memory.wf t = true) : Memory.wf (clearRange t a n) = true := Tbl.filter_wf 0 t _ h

theorem Tbl.get_of_above (d : α) (t : Tbl α) (b k : Nat) (h : Tbl.above b t) (hk : k ≤ b) : Tbl.get d t k = d := by
  induction t with
  | nil => rfl
  | cons q t ih =>
    obtain ⟨i, w⟩ := q
    have hi : b < i := h (i, w) (List.mem_cons_self ..)
    rw [Tbl.get_cons, if_neg (by omega)]
    exact ih fun p hp => h p (List.mem_cons_of_mem _ hp)

/-- In a canonical table a write is read back, the default too. -/
theorem Tbl.get_set_same [DecidableEq α] (d : α) (t : Tbl α) (k : Nat) (v : α) (h : Tbl.wf d t = true) : Tbl.get d (Tbl.set d t k v) k = v := by
  by_cases hv : v = d
  · subst hv
    induction t with
    | nil => simp [Tbl.set, Tbl.get]
    | cons q t ih =>
      obtain ⟨i, w⟩ := q
      obtain ⟨_, h2, h3⟩ := (Tbl.wf_cons v i w t).mp h
      unfold Tbl.set
      split
      · rename_i hk
        rw [if_pos rfl, Tbl.get_cons, if_neg (by omega)]
        exact Tbl.get_of_above v t i k h2 (by omega)
      · split
        · rename_i hk; subst hk
          rw [if_pos rfl]; exact Tbl.get_of_above v t k k h2 (Nat.le_refl k)
        · rename_i hk hne
          rw [Tbl.get_cons, if_neg (by omega)]; exact ih h3
  · exact Tbl.get_set_same_ne d t k v hv

/-- Bytes outside a written range read as before (R11). -/
theorem get_putBytes_outside (t : Tbl Byte) (a : Nat) (bs : List Byte) (k : Nat) (h : k < a ∨ a + bs.length ≤ k) :
    Tbl.get 0 (putBytes t a bs) k = Tbl.get 0 t k := by
  induction bs generalizing t a with
  | nil => rfl
  | cons b bs ih =>
    simp only [List.length_cons] at h
    rw [putBytes, ih _ _ (by omega), Tbl.get_set_other _ _ _ _ _ (by omega)]

end Sys2Proof.Machine
end

