-- ==== Sys2Proof/Laws/Ops.lean ====
section
/-! SUPPORT. What the shared operations read back and leave: functions, rings, ports, partitions, fields, tiers; commands that start; host memory that answers. -/
namespace Sys2Proof.Machine

/-! ### Functions and rings -/

@[simp] theorem func_modFunc_same (f : Nat) (g : Func → Func) (s : State) : func (modFunc f g s) f = g (func s f) := by
  simp [func, modFunc]

theorem func_modFunc_other (f k : Nat) (g : Func → Func) (s : State) (h : k ≠ f) : func (modFunc f g s) k = func s k := by
  simp [func, modFunc, Tbl.opt_set_other _ _ _ _ _ h]

@[simp] theorem ring_modRing_same (f k : Nat) (g : Ring → Ring) (s : State) : ring (modRing f k g s) f k = g (ring s f k) := by
  unfold modRing
  by_cases h : k < 16 <;> simp [ring, h]

theorem func_emit (o : Out) (s : State) (f : Nat) : func (emit o s) f = func s f := rfl

theorem ring_emit (o : Out) (s : State) (f k : Nat) : ring (emit o s) f k = ring s f k := rfl

/-- An update of a function that leaves its rings leaves every ring. -/
theorem ring_modFunc (f : Nat) (g : Func → Func) (s : State) (hq : ∀ x, (g x).queues = x.queues) (he : ∀ x, (g x).eq = x.eq) (j k : Nat) :
    ring (modFunc f g s) j k = ring s j k := by
  by_cases h : j = f
  · subst h; simp [ring, hq, he]
  · simp [ring, func_modFunc_other _ _ _ _ h]

@[simp] theorem modFunc_out (f : Nat) (g : Func → Func) (s : State) : (modFunc f g s).out = s.out := rfl
@[simp] theorem modFunc_err (f : Nat) (g : Func → Func) (s : State) : (modFunc f g s).err = s.err := rfl
@[simp] theorem modRing_out (f k : Nat) (g : Ring → Ring) (s : State) : (modRing f k g s).out = s.out := rfl
@[simp] theorem modRing_err (f k : Nat) (g : Ring → Ring) (s : State) : (modRing f k g s).err = s.err := rfl

/-- The commands that firmware holds are not touched by an update of a function. -/
@[simp] theorem modFunc_cmds (f : Nat) (g : Func → Func) (s : State) : (modFunc f g s).host.cmds = s.host.cmds := rfl
@[simp] theorem modRing_cmds (f k : Nat) (g : Ring → Ring) (s : State) : (modRing f k g s).host.cmds = s.host.cmds := rfl

theorem onlyIf_true (g : State → State) (s : State) : onlyIf true g s = g s := rfl
theorem onlyIf_false (g : State → State) (s : State) : onlyIf false g s = s := rfl

/-! ### Ports, fields, partitions -/

@[simp] theorem hostPort_modHostPort_same (p : Nat) (g : HostPort → HostPort) (s : State) : hostPort (modHostPort p g s) p = g (hostPort s p) := by
  simp [hostPort, modHostPort]

theorem hostPort_modHostPort_other (p k : Nat) (g : HostPort → HostPort) (s : State) (h : k ≠ p) :
    hostPort (modHostPort p g s) k = hostPort s k := by
  simp [hostPort, modHostPort, Tbl.opt_set_other _ _ _ _ _ h]

@[simp] theorem hostPort_modFunc (f : Nat) (g : Func → Func) (s : State) (p : Nat) : hostPort (modFunc f g s) p = hostPort s p := rfl

@[simp] theorem fld_modFld_same (f : Nat) (g : FieldSt → FieldSt) (s : State) : fld (modFld f g s) f = g (fld s f) := by
  simp [fld, modFld]

theorem fld_modFld_other (f k : Nat) (g : FieldSt → FieldSt) (s : State) (h : k ≠ f) : fld (modFld f g s) k = fld s k := by
  simp [fld, modFld, Tbl.opt_set_other _ _ _ _ _ h]

/-- An update of a function that leaves what R549 looks at leaves which functions are enabled. -/
theorem enabled_modFunc (f : Nat) (g : Func → Func) (s : State)
    (h : ∀ x, (g x).bme = x.bme ∧ (g x).d3hot = x.d3hot ∧ (g x).vfEnable = x.vfEnable ∧ (g x).numVfs = x.numVfs ∧ (g x).disabled = x.disabled) (k : Nat) :
    enabled (modFunc f g s) k = enabled s k := by
  have hf : ∀ j, (func (modFunc f g s) j).bme = (func s j).bme ∧ (func (modFunc f g s) j).d3hot = (func s j).d3hot ∧
      (func (modFunc f g s) j).vfEnable = (func s j).vfEnable ∧ (func (modFunc f g s) j).numVfs = (func s j).numVfs ∧
      (func (modFunc f g s) j).disabled = (func s j).disabled := by
    intro j
    by_cases hj : j = f
    · subst hj; simp [h]
    · simp [func_modFunc_other _ _ _ _ hj]
  obtain ⟨a1, a2, _, _, a5⟩ := hf k
  obtain ⟨_, _, b3, b4, _⟩ := hf (k / 32 * 32)
  simp only [enabled, disableCond, a1, a2, a5, b3, b4, hostPort_modFunc]

theorem enabled_modRing (f k : Nat) (g : Ring → Ring) (s : State) (j : Nat) : enabled (modRing f k g s) j = enabled s j := by
  unfold modRing
  exact enabled_modFunc f _ s (fun x => by split <;> simp) j

/-! ### Completions (R559, R563, R564, R566) -/

/-- The state in which a completion is written or dropped: the command is held no longer and counted. -/
def uncommand (c : Cmd) (s : State) : State :=
  modRing c.m.func c.m.queue (fun r => { r with inflight := r.inflight - 1 })
    (modFunc c.m.func (fun x => { x with cmds := satAdd 64 x.cmds 1 })
      (modHost (fun h => { h with cmds := h.cmds.filter fun x => x.id != c.id }) s))

theorem uncommand_out (c : Cmd) (s : State) : (uncommand c s).out = s.out := rfl
theorem uncommand_err (c : Cmd) (s : State) : (uncommand c s).err = s.err := rfl
theorem uncommand_cmds (c : Cmd) (s : State) : (uncommand c s).host.cmds = s.host.cmds.filter fun x => x.id != c.id := rfl

theorem uncommand_enabled (c : Cmd) (s : State) (f : Nat) : enabled (uncommand c s) f = enabled s f := by
  unfold uncommand
  rw [enabled_modRing, enabled_modFunc _ _ _ (by intro _; exact ⟨rfl, rfl, rfl, rfl, rfl⟩)]
  rfl

theorem uncommand_ring (c : Cmd) (s : State) :
    ring (uncommand c s) c.m.func c.m.queue = { ring s c.m.func c.m.queue with inflight := (ring s c.m.func c.m.queue).inflight - 1 } := by
  unfold uncommand
  rw [ring_modRing_same, ring_modFunc _ _ _ (by intro _; rfl) (by intro _; rfl)]
  rfl

theorem uncommand_func_cplDropped (c : Cmd) (s : State) : (func (uncommand c s) c.m.func).cplDropped = (func s c.m.func).cplDropped := by
  unfold uncommand modRing
  rw [func_modFunc_same]
  by_cases h : c.m.queue < 16 <;> simp [h] <;> rfl

/-- A command that firmware no longer holds completes no more. -/
theorem complete_not_live (c : Cmd) (st det : Nat) (res : List Byte) (s : State) (h : cmdLive s c = false) : complete c st det res s = s := by
  simp [complete, h]

/-- A completion that may be written goes behind those that wait. -/
theorem complete_written (c : Cmd) (st det : Nat) (res : List Byte) (s : State) (hl : cmdLive s c = true)
    (he : (ring s c.m.func c.m.queue).epoch = c.epoch) (hf : enabled s c.m.func = true) (hr : (ring s c.m.func c.m.queue).live = true) :
    complete c st det res s = flushCompletions c.m.func c.m.queue ((ring s c.m.func c.m.queue).waiting ++ [completionBytes c.m st det res]) (uncommand c s) := by
  have h1 : ring (modFunc c.m.func (fun x => { x with cmds := satAdd 64 x.cmds 1 }) (modHost (fun h => { h with cmds := h.cmds.filter fun x => x.id != c.id }) s))
      c.m.func c.m.queue = ring s c.m.func c.m.queue := ring_modFunc _ _ _ (by intro _; rfl) (by intro _; rfl) _ _
  unfold complete
  rw [hl]
  simp only [h1, he, onlyIf, beq_self_eq_true, Bool.not_true, Bool.false_eq_true, if_false, if_true]
  rw [if_neg]
  · rfl
  · have h2 := uncommand_enabled c s c.m.func
    rw [hf] at h2
    simp only [not_or, Bool.not_eq_true, Bool.not_eq_false', ne_eq, not_true_eq_false, not_false_eq_true, true_and]
    exact ⟨h2, hr⟩

/-- A completion of a queue's earlier epoch, of a disabled function or a stopped queue is dropped and counted. -/
theorem complete_dropped (c : Cmd) (st det : Nat) (res : List Byte) (s : State) (hl : cmdLive s c = true)
    (he : (ring s c.m.func c.m.queue).epoch = c.epoch) (hf : enabled s c.m.func = false ∨ (ring s c.m.func c.m.queue).live = false) :
    complete c st det res s = modFunc c.m.func (fun x => { x with cplDropped := satAdd 32 x.cplDropped 1 }) (countError 8 (uncommand c s)) := by
  have h1 : ring (modFunc c.m.func (fun x => { x with cmds := satAdd 64 x.cmds 1 }) (modHost (fun h => { h with cmds := h.cmds.filter fun x => x.id != c.id }) s))
      c.m.func c.m.queue = ring s c.m.func c.m.queue := ring_modFunc _ _ _ (by intro _; rfl) (by intro _; rfl) _ _
  unfold complete
  rw [hl]
  simp only [h1, he, onlyIf, beq_self_eq_true, Bool.not_true, Bool.false_eq_true, if_false, if_true]
  rw [if_pos]
  · rfl
  · refine Or.inr ?_
    have h2 := uncommand_enabled c s c.m.func
    rcases hf with hf | hf
    · rw [hf] at h2; exact Or.inl (by simpa [uncommand] using h2)
    · exact Or.inr (by simp [hf])

/-- With no room in the ring every completion waits. -/
theorem flushCompletions_full (f q : Nat) (e : List Byte) (es : List (List Byte)) (s : State) (h : (ring s f q).size ≤ (ring s f q).unreturned) :
    flushCompletions f q (e :: es) s = modRing f q (fun r => { r with waiting := e :: es }) s := by
  rw [flushCompletions, if_pos h]

/-- With room in the ring the first is written at its tail. -/
theorem flushCompletions_room (f q : Nat) (e : List Byte) (es : List (List Byte)) (s : State) (h : (ring s f q).unreturned < (ring s f q).size) :
    flushCompletions f q (e :: es) s = flushCompletions f q es (checkReport f q (modRing f q (fun r => r.wrote s.now)
      (emit (.completion f q (ring s f q).tail (e.set 3 (BitVec.ofNat 8 (b2n (ring s f q).phase)))) s))) := by
  rw [flushCompletions, if_neg (by omega)]

theorem checkReport_off (f k : Nat) (s : State) (h : (ring s f k).irqEn = false) : checkReport f k s = s := by
  simp [checkReport, h, onlyIf]

/-! ### Commands that start, host memory that answers -/

/-- A command that starts does what its meaning answers. -/
theorem runCmd_of_starts {sp : CmdSpec} {m : Mbx} {s : State} (h : Sys2Proof.Safety.Starts sp m s) :
    runCmd sp m s = answer (newCmd s sp.op m) (sp.body (newCmd s sp.op m) (takeCmd (newCmd s sp.op m) s)) := by
  obtain ⟨h1, h2⟩ := h
  simp [runCmd, h1, h2]

/-- Host memory that answers hands its bytes on, and leaves its translations in the port's cache. -/
theorem withHost_of_gives {c : Cmd} {s : State} {addr len : Nat} {bs : List Byte} (h : Sys2Proof.Safety.HostGives c s addr len bs)
    (k : List Byte → State × Ans) :
    withHost c addr len s k = (noteAts c.m.func (((busAddr s c.m.func addr len).map fun b => b.2.2).getD 0) len (k (padTo len bs)).1, (k (padTo len bs)).2) := by
  obtain ⟨h1, h2, h3⟩ := h
  simp [withHost, h1, h2, h3]

/-- Admitting a command touches the host interface alone. -/
theorem admit_step (c : Cmd) (s : State) : (takeCmd c s).step = s.step := rfl

/-! ### Bytes and numbers (R4) -/

theorem leBytes_length (n x : Nat) : (leBytes n x).length = n := by
  induction n generalizing x with
  | zero => rfl
  | succ n ih => simp [leBytes, ih]

theorem leNat_leBytes (n x : Nat) : leNat (leBytes n x) = x % 256 ^ n := by
  induction n generalizing x with
  | zero => simp [leBytes, leNat, Nat.mod_one]
  | succ n ih =>
    have h : (256 : Nat) ^ (n + 1) = 256 * 256 ^ n := by rw [Nat.pow_succ, Nat.mul_comm]
    simp only [leBytes, leNat, ih, BitVec.toNat_ofNat, h, Nat.mod_mul]

theorem padTo_length (n : Nat) (bs : List Byte) : (padTo n bs).length = n := by simp [padTo]

/-- What stands between a prefix and a suffix is read back at its place. -/
theorem sliceBytes_middle {l : List Byte} (a b c : List Byte) (o n : Nat) (h : l = a ++ b ++ c) (ha : a.length = o) (hb : b.length = n) :
    sliceBytes l o n = b := by
  subst h; subst ha; subst hb
  apply List.ext_getElem
  · simp [sliceBytes]
  · intro i h1 h2
    have : (a ++ b ++ c)[a.length + i]? = some b[i] := by
      rw [List.append_assoc, List.getElem?_append_right (by omega), Nat.add_sub_cancel_left, List.getElem?_append_left h2, List.getElem?_eq_getElem h2]
    simp [sliceBytes, List.getD_eq_getElem?_getD, this, -List.append_assoc]

/-- A number laid out between a prefix and a suffix is read back at its place. -/
theorem leAt_middle {l : List Byte} (a : List Byte) (x : Nat) (c : List Byte) (o n : Nat) (h : l = a ++ leBytes n x ++ c) (ha : a.length = o)
    (hx : x < 256 ^ n) : leAt l o n = x := by
  rw [leAt, sliceBytes_middle a _ c o n h ha (leBytes_length n x), leNat_leBytes, Nat.mod_eq_of_lt hx]

end Sys2Proof.Machine
end

