-- ==== Sys2Proof/Tests/Slice0.lean ====
section
/-! SUPPORT. Tests: a refused ill-formed term for each check of well-formedness, and for each statement concrete states and operands that meet its hypotheses. -/

open Sys2Proof Sys2Proof.Machine Sys2Proof.Safety

namespace Sys2Proof.Tests

/-! ### States to start from -/

/-- A queue that takes commands. -/
def openRing : Ring := { Ring.reset with enable := true, sizeLog2 := 4 }

/-- A function that is enabled, with queue 0 and its event ring open. -/
def openFunc : Func := { Func.reset with bme := true, queues := [(0, some openRing)], eq := openRing }

/-- A partition with quotas, function 0 its primary. -/
def part0 : Part :=
  { draining := false, drainFuncs := [], resetPend := none, primA := some 0, primB := none, t1Limit := 8, t2Limit := 8, t1Used := 0,
    t2Used := 0, reqLimit := 8, resRows := 0 }

/-- A module in service: both tiers trained, function 0 (the device primary PF) enabled in partition 0, a terabyte of local addresses from 2^46 in its window. -/
def up : State :=
  { State.reset with
    pwr := { PwrSt.reset with phase := 8 },
    t1 := { State.reset.t1 with trained := true },
    t2 := { State.reset.t2 with trained := true },
    host := { HostSt.reset with state := 2, primary := some 0, funcs := [(0, some openFunc)], ports := [(0, some { HostPort.reset with linkUp := true, perst := false })] },
    part := { PartSt.reset with parts := [(0, some part0)], funcs := [(0, some (0, true))] },
    str := { StrSt.reset with windows := [(0, some { func := 0, pasid := none, base := 2 ^ 46, host := 0, length := 2 ^ 40 })] } }

/-- A command of function 0 on queue 0, with its parameters as bytes and what host memory answers. -/
def cmd (ps : List Byte) (host : HostRead := .ok []) : Mbx :=
  { func := 0, queue := 0, tag := 7, cookie := 9, fence := false, params := ps ++ List.replicate (48 - ps.length) 0, host := host }

/-- Reads that host memory answers with nothing, and that meet no error. -/
def clean : ReadIn := { host := .ok [], ecc := [], blocks := [] }

/-! ### Steps and time -/

/-- A grid of 100 µs from 1 ms on, with one segment of partition 0. -/
def cfg0 : StepCfg :=
  { period := 100000, origin := 1000000, segs := [{ valid := true, partition := 0, budget := 1000 }], overrunLimit := 8, lateEvents := false }

/-- Stepping on that grid, its second tick due. -/
def due : State :=
  { up with step := { StepSt.reset with run := true, active := some cfg0, nextTick := 1100000, rackTime := 1100005 } }

/-- A step that runs, its one segment next. -/
def run0 : StepRun := { StepRun.start with segs := cfg0.segs }

theorem test_hyps_tick_starts :
    gridAt due (rack due) = some cfg0 ∧ dieOn due = true ∧ due.step.run = true ∧ cfg0.period ≠ 0 ∧ due.step.nextTick ≤ rack due ∧
      due.step.running = none := by decide

/-- The same, with a step still running. -/
def busyDue : State := { due with step := { due.step with running := some run0 } }

theorem test_hyps_tick_missed :
    gridAt busyDue (rack busyDue) = some cfg0 ∧ dieOn busyDue = true ∧ busyDue.step.run = true ∧ cfg0.period ≠ 0 ∧
      busyDue.step.nextTick ≤ rack busyDue ∧ busyDue.step.running = some run0 := by decide

/-- And with the sequencer halted by a debugger. -/
def haltedDue : State := { busyDue with seq := { busyDue.seq with halt := true } }

theorem test_hyps_tick_halted :
    gridAt haltedDue (rack haltedDue) = some cfg0 ∧ dieOn haltedDue = true ∧ haltedDue.step.run = true ∧ cfg0.period ≠ 0 ∧
      haltedDue.step.nextTick ≤ rack haltedDue ∧ haltedDue.step.running = some run0 ∧ haltedDue.seq.halt = true ∧
      run0.missedHere = false := by decide

/-- A program of one empty bundle, with no cost. -/
def prog0 : Prog :=
  { part := 0, base := 0, image := [], unverified := false, verified := true, formula := { knees := [], terms := [], exact := false },
    report := [], hostCounts := [], cmd := none }

/-- Partition 0 has it active. -/
def active0 : ActiveProg := { handle := 1, relocs := [], counts := [] }

/-- A step whose segment's partition has a program, at the moment SEGMENT_START leaves the reserve. -/
def entering : State :=
  { busyDue with step := { busyDue.step with segment := 0, inReserve := false }, prog := { progs := [(1, some prog0)], active := [(0, some active0)] } }

theorem test_hyps_segment_runs :
    entering.step.running = some run0 ∧ run0.segs[run0.next]? = some { valid := true, partition := 0, budget := 1000 } ∧ dieOn entering = true ∧
      run0.inSeg = false ∧ runsIn entering run0 0 = true ∧ Tbl.get none entering.prog.active 0 = some active0 ∧
      activeProg entering 0 = some prog0 := by decide

theorem test_hyps_segment_idle :
    busyDue.step.running = some run0 ∧ run0.segs[run0.next]? = some { valid := true, partition := 0, budget := 1000 } ∧ dieOn busyDue = true ∧
      run0.inSeg = false ∧ runsIn { busyDue with step := { busyDue.step with segment := 0, inReserve := false } } run0 0 = false := by decide

/-- A program that has just ended. -/
def overRun : SeqRun :=
  { part := 0, handle := 1, pos := { pc := 0, left := none, jumped := false, loops := [], loopOn := [], base := [], ended := true }, counts := [],
    work := 4, ready := 4, resume := 0, parts := [], flights := [], adds := [], goal := 0, ahead := [], masks := [], inSpan := false, stall := none, waitHorizon := false, mark := none, kvNext := [],
    fault := none, faultRec := (0, 0, 0), hitchEntry := [] }

def ending : State := { entering with seq := { entering.seq with cur := some overRun } }

theorem test_hyps_program_end :
    ending.seq.cur = some overRun ∧ ending.step.running = some run0 ∧ dieOn ending = true ∧ programOver overRun = true ∧
      heldUp (finishParts overRun ending) = false ∧ (finishParts overRun ending).seq.cur.isSome = true ∧
      (finishParts overRun ending).step.running.isSome = true := by decide

theorem test_hyps_config_takes_effect :
    let s : State := { up with step := { StepSt.reset with staged := some cfg0, rackTime := 1000001 } }
    s.step.staged = some cfg0 ∧ dieOn s = true ∧ stepping s = false ∧ cfg0.origin ≤ rack s := by decide

/-- DEV_STEP_CONFIG of that grid from a table in host memory. -/
def stepConfigCmd : Mbx :=
  cmd (leBytes 4 100000 ++ [8, 0, 0, 0] ++ leBytes 8 1000000 ++ leBytes 8 (2 ^ 46)) (.ok (leBytes 8 (2 ^ 63 + 1000) ++ List.replicate 120 0))

theorem test_hyps_step_config :
    Starts devStepConfigSpec stepConfigCmd up ∧
      HostGives (newCmd up 0x0102 stepConfigCmd) (takeCmd (newCmd up 0x0102 stepConfigCmd) up) (2 ^ 46) 128 (leBytes 8 (2 ^ 63 + 1000) ++ List.replicate 120 0) ∧
      (((List.range 16).map fun i => leAt (padTo 128 (leBytes 8 (2 ^ 63 + 1000) ++ List.replicate 120 0)) (8 * i) 8).all fun x => bits x 36 27 == 0) = true ∧
      up.step.staged = none ∧ configFits (takeCmd (newCmd up 0x0102 stepConfigCmd) up) { cfg0 with lateEvents := false } = true := by decide

/-- A period of 1,000 ns does not fit. -/
theorem test_hyps_step_config_refused : configFits up { cfg0 with period := 1000 } = false := by decide

theorem test_hyps_step_config_busy :
    Starts devStepConfigSpec stepConfigCmd { up with step := { up.step with staged := some cfg0 } } := by decide

theorem test_hyps_run_control :
    dieOn up = true ∧ up.step.run = false ∧ due.step.run = true ∧ due.step.running = none ∧ busyDue.step.run = true ∧
      busyDue.step.running = some run0 := by decide

theorem test_hyps_step_run :
    Starts devStepRunSpec (cmd [1]) up ∧ up.step.active = none ∧ Starts devStepRunSpec (cmd [1]) due ∧ due.step.active ≠ none ∧
      pBit (newCmd due 0x0103 (cmd [1])) 0 0 = true ∧ Starts devStepRunSpec (cmd [0]) busyDue ∧
      pBit (newCmd busyDue 0x0103 (cmd [0])) 0 0 = false := by decide

theorem test_hyps_step_run_start :
    let s : State := { due with step := { due.step with run := false } }
    Starts devStepRunSpec (cmd [1]) s ∧ s.step.active ≠ none ∧ s.step.run = false := by decide

theorem test_hyps_time_set :
    Starts devTimeSetSpec (cmd [5]) up ∧ hostKeepsTime (takeCmd (newCmd up 0x0104 (cmd [5])) up) = true ∧
      hostKeepsTime { up with step := { up.step with rackrefEver := true } } = false := by decide

theorem test_hyps_clock :
    Starts devClockSpec (cmd [11]) up ∧ Starts devClockSpec (cmd [10]) up ∧ stepping up = false ∧ Starts devClockSpec (cmd [10]) due ∧
      stepping due = true := by decide

theorem test_hyps_racksync : dieOn up = true ∧ up.step.lastSync = none := by decide

theorem test_hyps_rackref_loss : up.step.holdover = true ∧ ({ up with step := { up.step with holdover := false } } : State).step.holdover = false := by decide

/-! ### Queues, events, ports -/

/-- A command of function 0 that firmware holds. -/
def held : Cmd := { id := 3, op := 0x0108, m := cmd [], epoch := 0, part := some 0 }

def holding : State := { up with host := { up.host with cmds := [held] } }

theorem test_hyps_completion_written :
    cmdLive holding held = true ∧ held.m.queue < 16 ∧ (ring holding 0 0).epoch = held.epoch ∧ enabled holding 0 = true ∧
      (ring holding 0 0).live = true ∧ (ring holding 0 0).waiting = [] ∧ (ring holding 0 0).unreturned < (ring holding 0 0).size ∧
      (ring holding 0 0).irqEn = false ∧ held.m.tag < 2 ^ 16 ∧ held.m.cookie < 2 ^ 64 := by decide

/-- The worked example of chapter 14: tag 0x002A, cookie 0x7001, REQUEST 0x000C1A2B, OK, first pass of the ring. -/
theorem test_completion_bytes :
    (completionBytes { cmd [] with tag := 0x2A, cookie := 0x7001 } 0 0 (leBytes 4 0x000C1A2B)).set 3 (BitVec.ofNat 8 (b2n true)) =
      [0x2A, 0, 0, 1, 0, 0, 0, 0, 0x01, 0x70, 0, 0, 0, 0, 0, 0, 0x2B, 0x1A, 0x0C, 0, 0, 0, 0, 0, 0, 0, 0, 0, 0, 0, 0, 0] := by decide

/-- A full ring, and a function whose bus mastering is off. -/
def full : State := modRing 0 0 (fun r => { r with unreturned := 16 }) holding
def off : State := modFunc 0 (fun x => { x with bme := false }) holding

theorem test_hyps_completion_waits_or_drops :
    cmdLive full held = true ∧ (ring full 0 0).size ≤ (ring full 0 0).unreturned ∧ enabled full 0 = true ∧ (ring full 0 0).live = true ∧
      cmdLive off held = true ∧ enabled off 0 = false := by decide

theorem test_hyps_events :
    (func (modFunc 0 (fun x => { x with suppressed := [0x0102] }) up) 0).suppressed.contains 0x0102 = true ∧
      (func up 0).suppressed.contains 0x0102 = false ∧ enabled up 0 = true ∧ (func up 0).eq.live = true ∧
      (func up 0).eq.unreturned < (func up 0).eq.size ∧ (func up 0).eq.irqEn = false ∧ enabled off 0 = false := by decide

/-- Two entries unreported on a ring that reports at two or after 1 µs. -/
def telling : State :=
  { modRing 0 0 (fun r => { r with irqEn := true, coalCount := 2, coalUs := 1, unreported := 2, vector := 3 }) up with now := 1000 }

theorem test_hyps_interrupts :
    (ring telling 0 0).irqEn = true ∧ max (ring telling 0 0).coalCount 1 ≤ (ring telling 0 0).unreported ∧ (ring telling 0 0).coalUs ≠ 0 ∧
      (ring telling 0 0).oldest + 1000 * (ring telling 0 0).coalUs ≤ telling.now ∧ (ring up 0 0).irqEn = false ∧ (msixOf up 0 3).masked = true ∧
      (msixOf (setMsix 0 3 { addr := 0, data := 0, masked := false } up) 0 3).masked = false ∧
      (func (modFunc 0 (fun x => { x with pba := 8 }) up) 0).pba.testBit 3 = true ∧ (func up 0).pba.testBit 3 = false := by decide

theorem test_hyps_queues :
    (ring up 0 1).enable = false ∧ (ring up 0 1).sqBase % 4096 = 0 ∧ (ring up 0 1).cqBase % 4096 = 0 ∧ 4 ≤ bits 0x04000000 24 4 ∧
      bits 0x0C000000 24 4 ≤ 12 ∧ bits 0x03000000 24 4 < 4 ∧ 12 < bits 0x0D000000 24 4 ∧ (ring State.reset 0 16).enable = false ∧
      6 ≤ bits 0x06000000 24 4 ∧ (ring up 0 0).enable = true ∧ up.host.state ≠ 0 ∧ (ring up 0 0).error = false ∧ 15 < (ring up 0 0).size ∧
      (ring up 0 0).size ≤ 16 := by decide

theorem test_hyps_reset_function :
    funcPart (resetFuncRegs 0 up) 0 = some 0 ∧ (primaries (resetFuncRegs 0 up) 0).contains 0 = true ∧ funcPart (resetFuncRegs 1 up) 1 = none ∧
      funcPart (resetFuncRegs 5 { up with part := { up.part with funcs := [(0, (some (0, true))), (5, some (0, false))] } }) 5 = some 0 := by decide

theorem test_hyps_links :
    (hostPort up 0).linkUp = true ∧ (hostPort up 1).linkUp = false ∧ (hostPort up 1).perst = true ∧
      (let s : State := { modHostPort 1 (fun x => { x with perst := false, downSince := some 0 }) up with
        pwr := { up.pwr with pgOut := true }, now := 100000000 }
       (hostPort s 1).linkUp = false ∧ (hostPort s 1).perst = false ∧ s.pwr.pgOut = true ∧ s.pwr.pgOutAt + 100000000 ≤ s.now ∧ s.host.primary = some 0) ∧
      (let s : State := { modHostPort 1 (fun x => { x with linkUp := true }) (modHostPort 0 (fun x => { x with linkUp := false, downSince := some 0 }) up) with now := 100000000 }
       s.host.primary = some 0 ∧ (hostPort s 0).downSince = some 0 ∧ (hostPort s 1).linkUp = true) := by decide

/-- A port whose configuration space is ready, and a map of BAR2 to the start of T1. -/
def mapped : State :=
  let s := modHostPort 0 (fun x => { x with readyAt := some 0 }) up
  modFunc 0 (fun x => { x with bar2 := some (tierBase 0, 2097152) }) { s with t1 := { s.t1 with owner := [(0, 1)] } }

theorem test_hyps_configuration :
    (hostPort up 0).linkUp = true ∧ (hostPort up 0).readyAt = none ∧ (hostPort mapped 0).readyAt = some 0 ∧ funcPresent mapped 0 = true ∧
      bar2Place up 0 0 4 = none ∧ bar2Place mapped 0 0 4 = some (0, 0) ∧ sharedHome mapped 0 0 4 = false := by decide

theorem test_hyps_device_commands :
    Starts devNopSpec (cmd []) up ∧ Starts devIdentifySpec (cmd []) up ∧ Starts devEventMaskSpec (cmd [2, 1, 1]) up ∧
      0x0102 ∈ eventCodes ∧ pNum (newCmd up 0x0107 (cmd [2, 1, 1])) 0 2 = 0x0102 ∧ Starts devPrimarySpec (cmd [0]) up ∧
      Starts devPrimarySpec (cmd [1]) up ∧ up.host.primary = some 0 ∧ (hostPort up 1).linkUp = false ∧
      (hostPort (modHostPort 1 (fun x => { x with linkUp := true }) up) 1).linkUp = true ∧ Starts devPrimarySpec (cmd [2]) { up with host := { up.host with primary := none } } ∧
      Starts devPrimarySpec (cmd [2]) { up with host := { up.host with primary := some 1 } } ∧ Starts devBar2MapSpec (cmd [0, 0]) up := by decide

/-! ### Commands read from a queue, registers -/

/-- A descriptor waits at the head of queue 0. -/
def waitingDesc : State := modRing 0 0 (fun r => { r with sqTail := 1 }) up

/-- DEV_NOP; an opcode nobody knows; DEV_NOP with a reserved header bit, with a reserved parameter byte. -/
def nopDesc : List Byte := [0x08, 0x01, 7, 0]

theorem test_hyps_command_read :
    mayRead waitingDesc 0 0 = true ∧ mayStart (padTo 64 nopDesc) (descMbx 0 0 (padTo 64 nopDesc) (.ok [])) waitingDesc = true ∧
      (specOf (leAt (padTo 64 nopDesc) 0 2)).isSome = true ∧ descReserved (padTo 64 nopDesc) = none ∧
      (specOf (leAt (padTo 64 [0xFF, 0xFF]) 0 2)).isNone = true ∧ descReserved (padTo 64 [0x08, 0x01, 0, 0, 2]) = some 4 ∧
      firstReserved devNopSpec.allow 48 (descMbx 0 0 (padTo 64 nopDesc) (.ok [])).params = none ∧
      firstReserved devNopSpec.allow 48 (descMbx 0 0 (padTo 64 (nopDesc ++ List.replicate 12 0 ++ [1])) (.ok [])).params = some 0 := by decide

/-- From COMMAND_READ to its completion: DEV_NOP of tag 7 completes with OK. -/
theorem test_command_read_nop :
    (match exec (.commandRead 0 0 (.ok nopDesc) (.ok [])) waitingDesc with
      | .next t => t.out == [.completion 0 0 0 ([7, 0, 0, 0] ++ List.replicate 28 0)] && (ring t 0 0).head == 1
      | _ => false) = true := by decide

theorem test_hyps_registers : dieOn up = true ∧ up.step.periodNs < 2 ^ 32 ∧ up.step.origin < 2 ^ 64 := by decide

theorem test_hyps_mirror :
    (func up 0).mirrorSel = 0 ∧ funcPart up 0 = some 0 ∧ funcPart up 1 = none ∧ (func up 1).mirrorSel = 0 ∧ funcAnswers up 0 = true ∧
      accessOk 0x1FFF8 8 = true ∧ debugOpen up = true ∧ debugOpen { up with isl := { up.isl with lc := 1 } } = false := by decide

/-! ### Partitions -/

/-- PART_CREATE of partition 1 with function 3 of Port A as its primary and no quotas. -/
def createCmd : Mbx := cmd [1, 0, 3, 0xFF]

/-- No quota given away yet. -/
def noQuotas : State := { up with part := { up.part with parts := [(0, some { part0 with t1Limit := 0, t2Limit := 0 })] } }

theorem test_hyps_part_create :
    Starts partCreateSpec createCmd noQuotas ∧ primOf (pByte (newCmd noQuotas 0x0202 createCmd) 2) 0 = some (some 3) ∧
      primOf (pByte (newCmd noQuotas 0x0202 createCmd) 3) 1 = some none ∧ pByte (newCmd noQuotas 0x0202 createCmd) 0 = 1 ∧
      pBit (newCmd noQuotas 0x0202 createCmd) 1 0 = false ∧ funcPart noQuotas 3 = none ∧ part? noQuotas 1 = none ∧
      part? noQuotas 0 ≠ none ∧ quotasFit noQuotas 1 0 0 0 = true ∧ quotasFit noQuotas 1 0 0 32769 = false := by decide

theorem test_hyps_part_func :
    Starts partFuncSpec (cmd [5, 0, 0]) up ∧ funcBusy (takeCmd (newCmd up 0x0204 (cmd [5, 0, 0])) up) 5 = false ∧ Tbl.get none up.part.funcs 5 = none ∧
      part? up 0 ≠ none ∧ funcBusy (takeCmd (newCmd up 0x0204 (cmd [0, 0, 0])) up) 0 = true ∧
      (let s : State := { up with part := { up.part with funcs := [(0, (some (0, true))), (5, some (0, false))] } }
       Starts partFuncSpec (cmd [5, 0xFF, 0]) s ∧ Tbl.get none s.part.funcs 5 = some (0, false)) := by decide

theorem test_hyps_part_qos :
    Starts partQosSpec (cmd [0, 1, 3, 4, 5]) up ∧ stepping up = false ∧ stepping due = true ∧ part? up 0 ≠ none ∧ activeProg up 0 = none ∧
      Starts partQosSpec (cmd [0, 2]) noQuotas ∧ quotasFit noQuotas 0 0 0 0 = true ∧ belowUse noQuotas 0 0 0 0 0 = false ∧
      quotasFit noQuotas 0 0 0 32769 = false := by decide

theorem test_hyps_part_reset :
    Starts partResetSpec (cmd [0]) up ∧ Starts partDestroySpec (cmd [0]) up ∧ part? up 0 = some part0 ∧ Starts partResumeSpec (cmd [0]) up ∧
      bit up.step.suspended 0 = false ∧ bit 1 0 = true ∧ Starts partQuerySpec (cmd ([0, 0, 0, 0, 0, 0, 0, 0] ++ leBytes 8 (2 ^ 46))) up ∧
      hostOk up (newCmd up 0x0208 (cmd [])) (2 ^ 46) 4096 = true ∧ (tier { up with t1 := { up.t1 with zeroing := [3] } } 0).zeroing.contains 3 = true := by decide

/-! ### Hitches, barriers, windows -/

/-- Hitch 5 at the last value but one. -/
def fullHitch : State := { up with hch := { up.hch with hitchVal := [(5, 0xFFFFFFFE)] } }

theorem test_hyps_hitch_saturates :
    0xFFFFFFFF < hitchVal fullHitch 5 + 2 ∧ fullHitch.hch.faultValid = false ∧ hitchVal fullHitch 5 + 1 ≤ 0xFFFFFFFF ∧
      0 < hitchVal fullHitch 5 + 1 := by decide

theorem test_hyps_hitch_commands :
    Starts hitchConfigSpec (cmd [1, 0, 2, 0]) up ∧ Starts hitchConfigSpec (cmd [0xFF, 0x0F, 2, 0]) up ∧ stepping up = false ∧
      Starts hitchConfigSpec (cmd [1, 0, 2, 0]) due ∧ stepping due = true ∧
      4096 < pNum (newCmd up 0x0801 (cmd [0xFF, 0x0F, 2, 0])) 0 2 + pNum (newCmd up 0x0801 (cmd [0xFF, 0x0F, 2, 0])) 2 2 ∧
      Starts hitchReadSpec (cmd ([0, 0, 1, 0, 0, 0, 0, 0] ++ leBytes 8 (2 ^ 46))) up ∧
      hostOk up (newCmd up 0x0802 (cmd [])) (2 ^ 46) 8 = true := by decide

theorem test_hyps_hitch_set :
    Starts hitchSetSpec (cmd [0, 1, 5, 0, 7]) up ∧ mayName (newCmd up 0x0803 (cmd [])) 0 = true ∧
      handPermitted (takeCmd (newCmd up 0x0803 (cmd [])) up) 0 = true ∧
      (let s : State := { up with isl := { up.isl with lc := 1 } }
       Starts hitchSetSpec (cmd [0, 1, 5, 0, 7]) s ∧ handPermitted s 0 = false) := by decide

/-- Window 3 of partition 0, open, and closed since 30 µs. -/
def openWin : State := { up with hch := { up.hch with wins := [(3, some { Win.reset with opened := true, inUse := true })] } }
def shutWin : State :=
  { up with now := 40000, hch := { up.hch with wins := [(3, some { Win.reset with inUse := true, closedAt := some 10000 })] } }

/-- WIN_OPEN of window 3 over the first KiB of the scratchpad window. -/
def winOpenCmd : Mbx := cmd ([3, 0, 5, 0, 0, 0, 0, 0] ++ leBytes 8 0 ++ leBytes 8 1024)

theorem test_hyps_win_open :
    Starts winOpenSpec winOpenCmd openWin ∧ (win openWin 3).opened = true ∧ Starts winOpenSpec winOpenCmd shutWin ∧
      (win shutWin 3).opened = false ∧ (∀ t, (win shutWin 3).closedAt = some t → t + 20000 ≤ shutWin.now) ∧
      windowRange shutWin 0 0 1024 = none ∧
      Starts winOpenSpec winOpenCmd { shutWin with now := 29999 } ∧ winSoon winOpenCmd { shutWin with now := 29999 } = true := by
  refine ⟨by decide, by decide, by decide, by decide, ?_, by decide, by decide, by decide⟩
  intro t h
  have e : (win shutWin 3).closedAt = some 10000 := by decide
  rw [e] at h
  cases h
  decide

theorem test_hyps_win_close_bind :
    Starts winCloseSpec (cmd [3, 0]) openWin ∧ Starts winCloseSpec (cmd [3, 0]) shutWin ∧ openWin.hch.inbound = [] ∧
      Starts winBindSpec (cmd [2, 0, 9, 0, 3]) up ∧ Tbl.get none up.hch.outs 2 = none ∧
      (let s : State := { up with hch := { up.hch with
         outs := [(2, some { stale := false, chip := 9, window := 3, gen := 0, partition := 1, fwOwned := false })] } }
       Starts winBindSpec (cmd [2, 0, 9, 0, 3]) s ∧ Tbl.get none s.hch.outs 2 ≠ none) := by decide

/-- A home barrier of two engines of this chip, the first perhaps entered. -/
def home (cur next cur1 : Bool) : Barrier :=
  { proxy := false, homeChip := 0, homeBar := 0, partIndex := 0, broken := false, partition := 0,
    slots := [{ kind := 1, chip := 0, cur := cur, next := next }, { kind := 2, chip := 7, cur := cur1, next := false }], slotBase := 0, epoch := 2,
    gen := 0, waiters := [], outstanding := 0 }

def withBar (x : Barrier) : State := { up with hch := { up.hch with bars := [(4, some x)] } }

theorem test_hyps_home_entry :
    bar? (withBar (home false false false)) 4 = some (home false false false) ∧ (home false false false).proxy = false ∧
      (home false false false).slots[0]? = some { kind := 1, chip := 0, cur := false, next := false } ∧
      (home false false false).slots[1]? = some { kind := 2, chip := 7, cur := false, next := false } ∧
      (home true false false).slots[0]? = some { kind := 1, chip := 0, cur := true, next := false } ∧
      (home true true false).slots[0]? = some { kind := 1, chip := 0, cur := true, next := true } ∧ (3 : Nat) ≠ (home true true false).epoch := by
  decide

theorem test_hyps_home_entry_completes (j : Nat) (q : PSlot) (h : j ≠ 0) (hq : (home false false true).slots[j]? = some q) : q.cur = true := by
  match j, h, hq with
  | 1, _, hq => cases hq; rfl
  | n + 2, _, hq => simp [home] at hq

theorem test_hyps_bar_config :
    Starts barConfigSpec (cmd [4, 0, 2, 0, 0, 0, 9, 0, 1]) up ∧ bar? up 4 = none ∧ pBit (newCmd up 0x0820 (cmd [4, 0, 2])) 2 1 = true ∧
      (let m := cmd ([4, 0, 0, 0, 1, 0, 0, 0, 0, 0, 0, 0, 0, 0, 0, 0] ++ leBytes 8 (2 ^ 46)) (.ok [0, 0, 0, 0x90])
       Starts barConfigSpec m up ∧ HostGives (newCmd up 0x0820 m) (takeCmd (newCmd up 0x0820 m) up) (2 ^ 46) 4 [0, 0, 0, 0x90] ∧
         pslotOk (leAt [0, 0, 0, 0x90] 0 4) = true ∧ freeSlots up 1 = some 0) := by decide

theorem test_hyps_bar_free_force :
    Starts barFreeSpec (cmd [4, 0]) (withBar (home true false false)) ∧ barBusy (home true false false) = true ∧
      Starts barFreeSpec (cmd [4, 0]) (withBar (home false false false)) ∧ barBusy (home false false false) = false ∧
      Starts barForceSpec (cmd [4, 0]) (withBar (home true false false)) ∧ handPermitted (withBar (home true false false)) 0 = true ∧
      handPermitted { withBar (home true false false) with isl := { up.isl with lc := 1 } } 0 = false := by decide

/-- A BAR_ENTRY of participant 1 (an engine of kind 2 on chip 7) in epoch `e`, and a BAR_RELEASE of chip 7's barrier 6. -/
def entryPkt (e : Nat) : Packet :=
  { w0 := BitVec.ofNat 64 (4 * 2 ^ 60 + 7 * 2 ^ 36), w1 := BitVec.ofNat 64 (4 + 2 ^ 10 + e * 2 ^ 20 + 2 * 2 ^ 28), w2 := 0, w3 := 0, payload := [] }
def releasePkt (broken e : Nat) : Packet :=
  { w0 := BitVec.ofNat 64 (5 * 2 ^ 60 + 7 * 2 ^ 36), w1 := BitVec.ofNat 64 (6 + 3 * 2 ^ 10 + broken * 2 ^ 26 + e * 2 ^ 27), w2 := 0, w3 := 0, payload := [] }
def leavePkt : Packet := { w0 := BitVec.ofNat 64 (8 * 2 ^ 60 + 7 * 2 ^ 36), w1 := 0, w2 := 0, w3 := 0, payload := [] }

/-- In a rack, with chip 7 joined. -/
def inRack (x : Barrier) : State :=
  { withBar x with fab := { FabSt.reset with assigned := true, joined := [(7, some 0)] } }

/-- A proxy of chip 7's barrier 6 with one entry outstanding. -/
def proxy7 : Barrier := { home false false false with proxy := true, homeChip := 7, homeBar := 6, slots := [], outstanding := 1, waiters := [(1, 0)] }

theorem test_hyps_bar_packets :
    Accepts [4] (entryPkt 2) (inRack (home false false false)) ∧ (home false false false).slots[1]? = some { kind := 2, chip := 7, cur := false, next := false } ∧
      Pk.src (entryPkt 2) = 7 ∧ Pk.field (entryPkt 2).w1 28 3 = 2 ∧ Pk.field (entryPkt 2).w1 20 8 = 2 ∧ Pk.field (entryPkt 2).w1 10 10 = 1 ∧
      Accepts [4] (entryPkt 2) (inRack { home false false false with broken := true }) ∧
      Accepts [5] (releasePkt 1 2) (inRack proxy7) ∧ Accepts [5] (releasePkt 0 2) (inRack proxy7) ∧ Accepts [5] (releasePkt 0 1) (inRack proxy7) ∧
      ((inRack proxy7).hch.bars.find? fun q => q.2.any fun x => x.proxy && x.homeChip == Pk.src (releasePkt 1 2) &&
        x.homeBar == Pk.field (releasePkt 1 2).w1 0 10) = some (4, some proxy7) := by decide

theorem test_hyps_departures :
    dieOn (inRack proxy7) = true ∧ Tbl.get none (inRack proxy7).fab.joined 7 = some 0 ∧ 0 + 50000000 ≤ { inRack proxy7 with now := 50000000 }.now ∧
      (inRack proxy7).now < 0 + 50000000 ∧ Accepts [8] leavePkt (inRack proxy7) ∧ Pk.src leavePkt ≠ (inRack proxy7).fab.chip := by decide

/-- A release finds the proxy with an entry outstanding, or with none. -/
theorem test_hyps_bar_outstanding :
    proxy7.outstanding = 1 ∧ Accepts [5] (releasePkt 0 2) (inRack { proxy7 with outstanding := 0, waiters := [] }) := by decide

/-! ### Fabric -/

/-- In a rack as chip 3 with one port in a given condition, a route to chip 5 over ports 0 and (alternate) 1. -/
def withPort (x : Port) : State :=
  { up with
    now := 20000000
    fab := { FabSt.reset with
      assigned := true, chip := 3, systemId := 11, ports := [(0, some x)],
      routes := [(5, some { valid := true, loc := false, spread := false, alternate := 2, primary := 1 })] } }

def training : Port := { Port.reset with state := 1, lanesUp := 4 }
def upPort : Port := { Port.reset with state := 3, lanesUp := 4, wasUp := true }

theorem test_hyps_port_links :
    dieOn (withPort training) = true ∧ (port (withPort training) 0).state = 1 ∧ (port (withPort training) 0).trainFails = 0 ∧
      (port (withPort training) 0).lanesUp = 4 ∧ (port (withPort training) 0).lastLinkId = none ∧
      (port (withPort { upPort with sinceProgress := 8 }) 0).sinceProgress = 8 ∧ (port (withPort { upPort with sinceProgress := 8 }) 0).state = 3 ∧
      (port (withPort { training with trainFails := 2 }) 0).trainFails = 2 := by decide

/-- A LINK_ID of chip `c` in system `sys`, assigned or not, and a HEARTBEAT of chip `c` from slot `sl`. -/
def linkIdPkt (c sys a : Nat) : Packet :=
  { w0 := BitVec.ofNat 64 (9 * 2 ^ 60 + c * 2 ^ 36), w1 := 0, w2 := BitVec.ofNat 64 a, w3 := 0, payload := leBytes 8 sys }
def heartPkt (c sl : Nat) : Packet :=
  { w0 := BitVec.ofNat 64 (7 * 2 ^ 60 + c * 2 ^ 36), w1 := BitVec.ofNat 64 (sl * 2 ^ 14), w2 := 0, w3 := 0, payload := [] }

theorem test_hyps_link_id :
    Accepts [9] (linkIdPkt 5 11 1) (withPort training) ∧ bit (Pk.arg (linkIdPkt 5 11 1)) 0 = true ∧ leAt (linkIdPkt 5 11 1).payload 0 8 = 11 ∧
      Pk.src (linkIdPkt 5 11 1) = 5 ∧ Accepts [9] (linkIdPkt 5 11 0) (withPort training) ∧ bit (Pk.arg (linkIdPkt 5 11 0)) 0 = false ∧
      Accepts [9] (linkIdPkt 5 12 1) (withPort training) ∧ Accepts [9] (linkIdPkt 3 11 1) (withPort training) ∧
      (port (withPort upPort) 0).wasUp = true ∧ (port (withPort training) 0).wasUp = false := by decide

theorem test_hyps_heartbeats :
    (withPort upPort).fab.lastHeartbeat = none ∧ routedChips (withPort upPort) = [5] ∧ Accepts [7] (heartPkt 5 0) (withPort upPort) ∧
      Tbl.get none (withPort upPort).fab.joined 5 = none ∧ Accepts [7] (heartPkt 7 0) (inRack proxy7) ∧
      (Tbl.get none (inRack proxy7).fab.joined 7).isSome = true ∧ Accepts [7] (heartPkt 3 1) (withPort upPort) ∧
      Pk.coords (heartPkt 3 1) ≠ (0, 0, 0) ∧ Pk.coords (heartPkt 3 0) = (0, 0, 0) := by decide

/-- A NAK or a heartbeat for chip `d` with `h` hops behind it. -/
def crossing (ty d h : Nat) : Packet :=
  { w0 := BitVec.ofNat 64 (ty * 2 ^ 60 + d * 2 ^ 48 + 9 * 2 ^ 36), w1 := BitVec.ofNat 64 (h * 2 ^ 52), w2 := 0, w3 := 0, payload := [] }

theorem test_hyps_router :
    portUp (withPort upPort) 0 = true ∧ Accepts [1, 2, 3, 4, 5, 7, 8] (crossing 7 3 0) (withPort upPort) ∧ Pk.dst (crossing 7 3 0) = 3 ∧
      Accepts [1, 2, 3, 4, 5, 7, 8] (crossing 7 5 3) (withPort upPort) ∧ Pk.hops (crossing 7 5 3) = 3 ∧ Pk.hops (crossing 7 5 2) = 2 ∧
      (route (withPort upPort) 5).valid = true ∧ bit (route (withPort upPort) 5).primary 0 = true ∧ (route (withPort upPort) 6).valid = false ∧
      Accepts [1, 2, 3, 4, 5, 7, 8] (crossing 3 6 0) (withPort upPort) ∧ Pk.type (crossing 3 6 0) = 3 ∧ Pk.type (crossing 7 6 0) = 7 := by decide

/-- A TIME packet: a request, or the root's reply. -/
def timePkt (reply : Nat) : Packet :=
  { w0 := BitVec.ofNat 64 (6 * 2 ^ 60), w1 := 0, w2 := BitVec.ofNat 64 reply, w3 := 0, payload := leBytes 8 0 ++ leBytes 8 500 ++ leBytes 8 500 }

/-- The same port with a request outstanding, and rack time 100 ns on. -/
def asked (rackref : Bool) : State :=
  { withPort { upPort with t1 := some 0 } with step := { StepSt.reset with rackTime := 100, rackref := rackref } }

theorem test_hyps_time :
    (port (withPort upPort) 0).lastTime = none ∧ Accepts [6] (timePkt 0) (withPort upPort) ∧ bit (Pk.arg (timePkt 0)) 0 = false ∧
      Accepts [6] (timePkt 1) (asked false) ∧ bit (Pk.arg (timePkt 1)) 0 = true ∧ bits (Pk.arg (timePkt 1)) 1 8 = 0 ∧
      (asked false).fab.timeRoot = false ∧ leAt (timePkt 1).payload 0 8 = 0 ∧
      timeParent (modPort 0 (fun q => { q with timeHops := some 0 }) (gotPacket 0 (asked false))) = some (0, 0) ∧
      (timeOffset 0 500 500 100).natAbs ≤ 100000 ∧ (asked true).step.rackref = true ∧ 100000 < (timeOffset 0 500000 500000 100).natAbs ∧
      Starts fabTimeCfgSpec (cmd [3, 0, 1]) up := by decide

theorem test_hyps_fabric_commands :
    Starts fabBondSpec (cmd [0, 0, 3, 0]) up ∧ maskCount 3 = 2 ∧ maskCount 1 = 1 ∧ Starts fabPortCtrlSpec (cmd [0, 0]) up ∧
      Starts fabPortCtrlSpec (cmd [0, 1]) (withPort { upPort with state := 4 }) ∧ Starts fabPortCtrlSpec (cmd [0, 2]) (withPort upPort) ∧
      Starts fabPortCtrlSpec (cmd [0, 3]) up ∧ Starts fabInjectSpec (cmd [0]) up ∧ lcPermits up (fun _ => false) = true ∧
      lcPermits { up with isl := { up.isl with lc := 1 } } (fun _ => false) = false ∧
      Starts fabQuerySpec (cmd ([0, 0, 0, 0, 0, 0, 0, 0] ++ leBytes 8 (2 ^ 46))) up ∧
      hostOk up (newCmd up 0x0730 (cmd [])) (2 ^ 46) 65536 = true := by decide

/-- Another group holds ports 0 and 1; a staged table waits for its E. -/
def bonded : State := { up with fab := { up.fab with bonds := [(1, 3)], stagedE := some 0 } }

/-- FAB_ROUTE_LOAD with its E 100 µs ahead, or at once. -/
def routeCmd (e : Nat) : Mbx := cmd (leBytes 8 (2 ^ 46) ++ leBytes 8 e) (.ok [])

theorem test_hyps_route_load :
    Starts fabBondSpec (cmd [0, 0, 3, 0]) bonded ∧ (∃ b ∈ bonded.fab.bonds, b.1 ≠ 0 ∧ b.2 &&& 3 ≠ 0) ∧ dieOn bonded = true ∧ stepping bonded = false ∧
      Starts fabRouteLoadSpec (routeCmd 100000) up ∧ HostGives (newCmd up 0x0701 (routeCmd 100000)) up (2 ^ 46) 32768 [] ∧
      Starts fabRouteLoadSpec (routeCmd 0) up ∧ rack up + 100000 ≤ 100000 := by decide

/-- A route table of which entry 0 alone is local, as bytes. -/
theorem local_table (k : Nat) (h : k < 4096) (x : List Byte) (hx : x.length = 8) :
    leAt (padTo 32768 x) (8 * k) 8 = if k = 0 then leNat x else 0 := by
  have e : padTo 32768 x = x ++ List.replicate 32760 0 := by
    unfold padTo
    rw [List.take_append, List.take_of_length_le (by omega), List.take_replicate, hx]
    rfl
  match x, hx with
  | [a, b, c, d, f, g, i, j], _ =>
    unfold leAt sliceBytes
    rw [e]
    rcases k with _ | k
    · rfl
    · rw [if_neg (by omega)]
      have z : ∀ n, ([a, b, c, d, f, g, i, j] ++ List.replicate 32760 (0 : Byte)).getD (8 * (k + 1) + n) 0 = 0 := by
        intro n
        rw [List.getD_eq_getElem?_getD, List.getElem?_append_right (by simp; omega), List.getElem?_replicate]
        split <;> rfl
      simp only [z]
      rfl

theorem test_hyps_route_tables :
    (∃ k, k < 4096 ∧ bit (leAt (padTo 32768 [0, 0, 0, 0, 0, 0, 0, 0]) (8 * k) 8) 62 ≠ decide (k = up.fab.chip)) ∧
      routesOk up.fab.chip (padTo 32768 [0, 0, 0, 0, 0, 0, 0, 0x40]) = true := by
  constructor
  · refine ⟨0, by decide, ?_⟩
    rw [local_table 0 (by decide) _ rfl]
    decide
  · unfold routesOk
    rw [List.all_eq_true]
    intro k hk
    simp only [local_table k (List.mem_range.mp hk) [0, 0, 0, 0, 0, 0, 0, 0x40] rfl]
    by_cases h : k = 0
    · subst h
      decide
    · simp only [if_neg h]
      have : up.fab.chip = 0 := rfl
      simp [this, h, bits, bit]

/-- Entries with a reserved bit set: 12 or 28. -/
theorem test_hyps_route_tables_dirty :
    bits (leAt (padTo 32768 [0, 0, 0, 0x10, 0, 0, 0, 0x40]) (8 * 0) 8) 28 33 ≠ 0 ∧ bits (leAt (padTo 32768 [0, 0x10, 0, 0, 0, 0, 0, 0x40]) (8 * 0) 8) 12 4 ≠ 0 := by
  rw [local_table 0 (by decide) _ rfl, local_table 0 (by decide) _ rfl]
  decide

/-! ### Remote transfers -/

/-- Rack time 2 s: a packet born at 0 is too old. -/
def late (x : Port) : State := { withPort x with step := { StepSt.reset with rackTime := 2000000000 } }

theorem test_hyps_too_old :
    dieOn (late upPort) = true ∧ 1000000 < (rack (late upPort) / 1000 % 2 ^ 24 + 2 ^ 24 - Pk.birth (crossing 1 3 0)) % 2 ^ 24 ∧
      portUp (late upPort) 0 = true ∧ ([1, 2, 3, 4, 5, 6, 7, 8, 9].all fun t => Pk.type (crossing t 3 0) == t) = true ∧
      (port (late training) 0).state = 1 ∧ (port (late training) 0).lanesUp ≠ 0 := by decide

/-- A WRITE of a row from chip 9 through window 3, of generation g, to scratchpad row r of field 0. -/
def writePkt (g r : Nat) : Packet :=
  { w0 := BitVec.ofNat 64 (2 ^ 60 + 9 * 2 ^ 36 + 5 * 2 ^ 16 + g + 2 ^ 32), w1 := BitVec.ofNat 64 (3 * 2 ^ 56 + r * 1024), w2 := 0,
    w3 := BitVec.ofNat 64 (2 ^ 32), payload := List.replicate 640 0 }

/-- Chip 0 of a rack with window 3 open for chip `c` over two rows of field 0, and perhaps a transfer tracked. -/
def windowed (c : Nat) (i : List Inbound) : State :=
  { up with
    fab := { FabSt.reset with assigned := true },
    hch := { up.hch with wins := [(3, some { Win.reset with opened := true, inUse := true, sender := c, length := 2048 })], inbound := i } }

def tracked : Inbound :=
  { chip := 9, tag := 5, window := 3, gen := 0, accepted := 1, total := some 1, increment := 2, hitch := 7, dropped := false, lastAt := 0, awaiting := [] }

theorem test_hyps_windows :
    Accepts [1] (writePkt 0 1) (windowed 9 []) ∧ Pk.dst (writePkt 0 1) = 0 ∧ (win (windowed 9 []) 3).gen = Pk.gen (writePkt 0 1) ∧
      Pk.src (writePkt 0 1) = 9 ∧ Pk.addr (writePkt 0 1) = 1024 ∧ inboundOf (windowed 9 []) 9 5 = none ∧
      inboundOf (windowed 9 [tracked]) 9 5 = some tracked ∧ (win (windowed 9 []) 3).gen ≠ Pk.gen (writePkt 1 1) ∧
      (win (windowed 8 []) 3).sender ≠ 9 ∧ ¬(Pk.addr (writePkt 0 2) + 640 ≤ 2048) := by decide

theorem test_hyps_write_length : (writePkt 0 1).payload.length = 640 := List.length_replicate

/-- The tracker is full of other transfers. -/
theorem test_hyps_tracker_full (n : Nat) (h : n = 4096) :
    inboundOf (windowed 9 (List.replicate n { tracked with chip := 8 })) 9 5 = none ∧
      4096 ≤ (windowed 9 (List.replicate n { tracked with chip := 8 })).hch.inbound.length := by
  refine ⟨?_, Nat.le_trans (Nat.le_of_eq h.symm) (Nat.le_of_eq List.length_replicate.symm)⟩
  unfold inboundOf
  rw [List.find?_eq_none]
  intro x hx
  rw [(List.mem_replicate.mp hx).2]
  decide

theorem test_hyps_accepted :
    place (Pk.addr (writePkt 0 1)) (max 1 640) = .row 0 1 ∧ rowWaits (windowed 9 []) (some 0) 0 1 = true ∧
      rowWaits (windowed 9 []) none 0 1 = false ∧ place (tierBase 0) 640 = .tier 0 0 := by decide

theorem test_hyps_transfer_ends :
    inboundOf (windowed 9 [tracked]) 9 5 = some tracked ∧ tracked.dropped = false ∧ tracked.total = some tracked.accepted ∧ tracked.awaiting = [] ∧
      inboundOf (windowed 9 [{ tracked with awaiting := [7] }]) 9 5 = some { tracked with awaiting := [7] } ∧
      (windowed 9 [tracked]).now < tracked.lastAt + 100000000 ∧ dieOn (windowed 9 [tracked]) = true ∧
      tracked.lastAt + 100000000 ≤ { windowed 9 [tracked] with now := 100000000 }.now := by decide

/-- An answer of chip 9 to transfer 5 of chip 0: DONE, or a NAK with a status. -/
def answerPkt (ty st : Nat) : Packet :=
  { w0 := BitVec.ofNat 64 (ty * 2 ^ 60 + 9 * 2 ^ 36 + 5 * 2 ^ 16), w1 := 0, w2 := BitVec.ofNat 64 st, w3 := 0, payload := [] }

/-- Transfer 5 of chip 0 under way, with perhaps a packet to send again. -/
def sending (knot : Bool) (again : List (Packet × Nat)) : Outbound :=
  { tag := 5, knot := knot, engine := 2, packets := [crossing 1 0 0], lastAt := 0, resend := again, binding := 1, part := some 0 }

def chain0 : Chain :=
  { table := [], first := 0, base := [], part := some 0, background := false, image := [], seen := 0, poisoned := false, cmd := none }

/-- An engine that waits for transfer 5. -/
def waiting5 : ChainRun := { chain := chain0, idx := 0, seen := 0, moved := true, failed := none, poisoned := false, tag := none, awaiting := [5] }
def knot5 : KnotRun :=
  { knot := 0, part := 0, op := 0, regs := List.replicate 4 (0, 0), counters := [0, 0], tags := [5], waiting := false, failed := none }

def sender (o : Outbound) : State :=
  { up with
    fab := { FabSt.reset with assigned := true, outbound := [o], engines := [(2, some { FabEng.reset with cur := some knot5 })] },
    str := { up.str with engines := [(2, { queue := [], back := [], cur := some waiting5 })] } }

theorem test_hyps_answers :
    Pk.dst (answerPkt 2 0) = 0 ∧ ((sender (sending false [])).fab.outbound.find? fun x => decide (x.tag = Pk.tag (answerPkt 2 0))) = some (sending false []) ∧
      Accepts [2] (answerPkt 2 0) (sender (sending false [])) ∧ Accepts [3] (answerPkt 3 0x15) (sender (sending false [])) ∧
      bits (Pk.arg (answerPkt 3 0x15)) 0 8 = 0x15 ∧ bits (Pk.arg (answerPkt 3 0x0E)) 0 8 = 0x0E ∧ bits (Pk.arg (answerPkt 3 6)) 0 8 = 6 ∧
      ((sending false []).packets.find? fun q => decide (Pk.addr q = Pk.addr (answerPkt 3 0x15))) = some (crossing 1 0 0) := by decide

theorem test_hyps_resend_timeout :
    ((sender (sending false [(crossing 1 0 0, 0)])).fab.outbound.find? fun x => decide (x.tag = 5)) = some (sending false [(crossing 1 0 0, 0)]) ∧
      dieOn (sender (sending false [])) = true ∧ (sending false []).resend = [] ∧
      (sending false []).lastAt + 200000000 ≤ { sender (sending false []) with now := 200000000 }.now ∧
      (engine (sender (sending false [])) 2).cur = some waiting5 ∧ waiting5.awaiting.contains 5 = true ∧
      (fabEng (sender (sending true [])) 2).cur = some knot5 ∧ knot5.tags.contains 5 = true := by decide

/-! ### Knots -/

/-- An operation of a knot: its code, flags, hitch, increment, binding and combine byte, operands, length, target and register. -/
def knotOp (op flags hitch inc comb src dst len target reg : Nat) : List Byte :=
  leBytes 1 op ++ leBytes 1 flags ++ leBytes 2 hitch ++ leBytes 2 inc ++ leBytes 1 0 ++ leBytes 1 comb ++ leBytes 8 src ++ leBytes 8 dst ++
    leBytes 4 len ++ leBytes 1 target ++ leBytes 1 reg ++ [0, 0]

/-- A knot image of one operation, and of one that starts a loop. -/
def knotImg (o : List Byte) : List Byte := leBytes 4 0x4B4E5856 ++ leBytes 2 1 ++ List.replicate 26 0 ++ o

/-- The knot 0 of partition 0 at its first operation. -/
def knotRun (waiting : Bool) (counter : Nat) : KnotRun :=
  { knot := 0, part := 0, op := 0, regs := List.replicate 4 (8, 1), counters := [counter, 0], tags := [], waiting := waiting, failed := none }

/-- Engine 1 runs it; binding 0 of partition 0 names chip 9; barrier 4 has this engine as its participant; the engine's release has perhaps come. -/
def atKnot (o : List Byte) (r : KnotRun) (rel : List (Nat × Bool)) : State :=
  { up with
    fab := { FabSt.reset with
      assigned := true, knots := [(0, some { part := 0, image := knotImg o })], engines := [(1, some { FabEng.reset with cur := some r, busy := true })] },
    hch := { up.hch with
      hitchVal := [(3, 1)], released := rel,
      bars := [(4, some { home false false false with slots := [{ kind := 2, chip := 0, cur := false, next := false }, { kind := 3, chip := 0, cur := false, next := false }] })],
      outs := [(0, some { stale := false, chip := 9, window := 3, gen := 0, partition := 0, fwOwned := false })] } }

def host16 : Nat := 2 ^ 46

def sendOp (src : Nat) : List Byte := knotOp 1 1 3 1 0 src (tierBase 0) 16 0 0
def copyOp (op src : Nat) : List Byte := knotOp op 0 0 0 7 src (host16 + 4096) 16 0 0

theorem test_hyps_knot_send :
    (let s := atKnot (sendOp host16) (knotRun false 0) []
     AtKnotOp 1 1 (knotRun false 0) s ∧
       firstFault [knotFault s 0 false (host16, 16) (.ok []), if extentOk true (tierBase 0, 16) then none else some 0x16, bindFault s 0 0 9] = none ∧
       knotHeld s 0 true (host16, 16) = [] ∧ tagFree s = true) ∧
    (let s := atKnot (knotOp 1 0 0 0 0 0 (tierBase 0) 640 0 0) (knotRun false 0) []
     AtKnotOp 1 1 (knotRun false 0) s ∧ knotFault s 0 false (0, 640) (.ok []) = none ∧ knotHeld s 0 true (0, 640) = [(0, 0)]) ∧
    bindFault (atKnot (sendOp host16) (knotRun false 0) []) 1 0 9 = some 6 := by decide

theorem test_hyps_knot_combine_copy :
    (let s := atKnot (copyOp 2 host16) (knotRun false 0) []
     AtKnotOp 2 1 (knotRun false 0) s ∧ knotFault s 0 false (host16, 16) (.ok []) = none ∧ knotFault s 0 true (host16 + 4096, 16) (.ok []) = none ∧
       knotFault s 0 false (host16 + 4096, 16) (.ok []) = none ∧
       knotHeld s 0 true (host16, 16) = [] ∧ knotHeld s 0 true (host16 + 4096, 16) = [] ∧ knotHeld s 0 true (0, 640) = [(0, 0)]) ∧
    AtKnotOp 3 1 (knotRun false 0) (atKnot (copyOp 3 host16) (knotRun false 0) []) ∧
    AtKnotOp 3 1 (knotRun false 0) (atKnot (copyOp 3 0x30000000) (knotRun false 0) []) ∧
    knotFault (atKnot (copyOp 3 0x30000000) (knotRun false 0) []) 0 false (0x30000000, 16) (.ok []) = some 0x16 := by decide

theorem test_hyps_knot_sync :
    AtKnotOp 4 1 (knotRun false 0) (atKnot (knotOp 4 0 3 0 0 0 0 0 0 0) (knotRun false 0) []) ∧
      hitchTgt (atKnot (knotOp 4 0 3 0 0 0 0 0 0 0) (knotRun false 0) []) 3 ≤ hitchVal (atKnot (knotOp 4 0 3 0 0 0 0 0 0 0) (knotRun false 0) []) 3 ∧
      hitchVal (atKnot (knotOp 4 0 5 0 0 0 0 0 0 0) (knotRun false 0) []) 5 < hitchTgt (atKnot (knotOp 4 0 5 0 0 0 0 0 0 0) (knotRun false 0) []) 5 ∧
      AtKnotOp 5 1 (knotRun false 0) (atKnot (knotOp 5 0 3 1 0 0 0 0 0 0) (knotRun false 0) []) := by decide

theorem test_hyps_knot_barrier :
    (let o := knotOp 6 2 4 0 0 0 0 0 0 0
     AtKnotOp 6 1 (knotRun true 0) (atKnot o (knotRun true 0) []) ∧ releasedFor (atKnot o (knotRun true 0) []) 2 = none ∧
       releasedFor (atKnot o (knotRun true 0) [(2, false)]) 2 = some false ∧ releasedFor (atKnot o (knotRun true 0) [(2, true)]) 2 = some true ∧
       AtKnotOp 6 1 (knotRun false 0) (atKnot o (knotRun false 0) []) ∧ (enterBarrier 0 4 2 true (atKnot o (knotRun false 0) [])).1 = none ∧
       (enterBarrier 0 4 2 false (atKnot o (knotRun false 0) [])).1 = none) ∧
    (let s := atKnot (knotOp 6 2 4 0 0 0 0 0 0 0) (knotRun false 0) []
     let t := { s with hch := { s.hch with bars := [(4, some { home false false false with slots := [{ kind := 2, chip := 0, cur := true, next := true }] })] } }
     AtKnotOp 6 1 (knotRun false 0) t ∧ (enterBarrier 0 4 2 true t).1 = some 0x0F) := by decide

theorem test_hyps_knot_registers :
    AtKnotOp 7 1 (knotRun false 0) (atKnot (knotOp 7 0 0 0 0 8 3 0 0 1) (knotRun false 0) []) ∧
      AtKnotOp 8 1 (knotRun false 0) (atKnot (knotOp 8 0 0 0 0 0 3 0 0 1) (knotRun false 0) []) ∧ (knotRun false 0).regs.getD 1 (0, 0) = (8, 1) ∧
      AtKnotOp 9 1 (knotRun false 1) (atKnot (knotOp 9 0 0 0 0 0 0 3 0 0) (knotRun false 1) []) ∧ (knotRun false 1).counters.getD 0 0 = 1 ∧
      AtKnotOp 9 1 (knotRun false 2) (atKnot (knotOp 9 0 0 0 0 0 0 3 0 0) (knotRun false 2) []) ∧
      AtKnotOp 0 1 (knotRun false 0) (atKnot (knotOp 0 0 0 0 0 0 0 0 0 0) (knotRun false 0) []) ∧
      knotStop (atKnot (knotOp 10 0 0 0 0 0 0 0 0 0) (knotRun false 0) []) (knotRun false 0) = some 0x16 := by decide

theorem test_hyps_knot_commands :
    (let m := cmd ([0, 0, 0, 0, 0, 0, 0, 0] ++ leBytes 8 (2 ^ 46) ++ leBytes 4 64) (.ok (knotImg (knotOp 0 0 0 0 0 0 0 0 0 0)))
     Starts knotLoadSpec m up ∧ knot? up 0 = none ∧ knotBusy up 0 = false ∧
       HostGives (newCmd up 0x0710 m) (takeCmd (newCmd up 0x0710 m) up) (2 ^ 46) 64 (knotImg (knotOp 0 0 0 0 0 0 0 0 0 0)) ∧
       Kn.headerOk (padTo 64 (knotImg (knotOp 0 0 0 0 0 0 0 0 0 0))) = true ∧
       (∀ j, j < Kn.ops (padTo 64 (knotImg (knotOp 0 0 0 0 0 0 0 0 0 0))) → Kn.dirty (Kn.opAt (padTo 64 (knotImg (knotOp 0 0 0 0 0 0 0 0 0 0))) j) = false) ∧
       Kn.dirty (Kn.opAt (padTo 64 (knotImg (knotOp 4 0 0x1000 0 0 0 0 0 0 0))) 0) = true ∧ knotBytes up 0 + 64 ≤ 0x100000 ∧
       Starts knotLoadSpec m (atKnot [] (knotRun false 0) [])) ∧
    Starts knotUnloadSpec (cmd [0, 0]) (atKnot [] (knotRun false 0) []) ∧ knotBusy (atKnot [] (knotRun false 0) []) 0 = true ∧
    knot? (atKnot [] (knotRun false 0) []) 0 = some { part := 0, image := knotImg [] } ∧
    knotBusy { up with fab := { up.fab with knots := [(0, some { part := 0, image := [] })] } } 0 = false ∧
    Starts knotAbortSpec (cmd [1]) (atKnot [] (knotRun false 0) []) ∧ (fabEng (atKnot [] (knotRun false 0) []) 1).cur = some (knotRun false 0) ∧
    (fabEng (atKnot [] (knotRun false 0) []) 1).queue.length < 16 := by decide

/-- A store with no room left, knot 1 taking it all. -/
theorem test_hyps_knot_store_full (n : Nat) (h : n = 0x100000) :
    0x100000 < knotBytes { up with fab := { up.fab with knots := [(1, some { part := 0, image := List.replicate n 0 })] } } 0 + 64 := by
  have e : knotBytes { up with fab := { up.fab with knots := [(1, some { part := 0, image := List.replicate n 0 })] } } 0 = n + 0 :=
    congrArg (· + 0) (List.length_replicate (n := n) (a := (0 : Byte)))
  rw [e, h]
  decide

/-! ### Stream engines -/

/-- A descriptor of an operation, from a place to a place. -/
def desc (op src dst len rows fmt : Nat) : Desc :=
  { Desc.nothing with op := op, src := src, dst := dst, length := len, rows := rows, fmt := fmt, reserved := false }

def chainOf (ds : List Desc) : Chain := { chain0 with table := ds }
def runAt (d : Desc) : ChainRun :=
  { chain := chainOf [d], idx := 0, seen := 1, moved := false, failed := none, poisoned := false, tag := none, awaiting := [] }

/-- Engine 2 runs it. -/
def atDesc (r : ChainRun) : State := { up with str := { up.str with engines := [(2, { queue := [], back := [], cur := some r })] } }

theorem test_hyps_stream_ops :
    ([0, 1, 2, 3, 4, 5, 6, 7, 8, 9, 10].all fun op =>
      decide (AtDesc op 2 (runAt (desc op 0 (tierBase 0) 10 1 0)) (atDesc (runAt (desc op 0 (tierBase 0) 10 1 0))))) = true := by decide

/-- FILL of ten bytes of T1 moves; a COPY from a row that is not full is blocked; one from a host window that no longer answers fails. -/
theorem test_hyps_stream_moves :
    (let d := desc 10 0 (tierBase 0) 10 1 0
     moveFault (atDesc (runAt d)) (chainOf [d]) d (.ok []) = none ∧ blockedRows (atDesc (runAt d)) (runAt d) d = [] ∧
       (rowwise fillRow (atDesc (runAt d)) (runAt d) d [([], false)]).isSome = true ∧ Ds.remote d = false ∧ tagFree up = true) ∧
    (let d := desc 0 0 (tierBase 0) 640 1 0
     moveFault (atDesc (runAt d)) (chainOf [d]) d (.ok []) = none ∧ blockedRows (atDesc (runAt d)) (runAt d) d = [(0, 0)]) ∧
    (let d := desc 0 (2 ^ 46) (tierBase 0) 10 1 0
     moveFault (atDesc (runAt d)) (chainOf [d]) d .timeout = some 0x0C) ∧
    (let d := desc 2 (2 ^ 46) (tierBase 0) 5 1 0
     moveFault (atDesc (runAt d)) (chainOf [d]) d (.ok [7]) = none ∧ blockedRows (atDesc (runAt d)) (runAt d) d = [] ∧
       rowwise (fun _ d bs => (packTrits (bs.take d.length)).map fun b => [b]) (atDesc (runAt d)) (runAt d) d [([7], false)] = none) ∧
    packTrits [0, 1, 255] ≠ none ∧ packTrits [0, 2] = none := by decide

/-- An idle engine with a chain of either queue. -/
def idle (q b : List Chain) : State := { up with str := { up.str with engines := [(2, { queue := q, back := b, cur := none })] } }

theorem test_hyps_stream_chain :
    dieOn (idle [chain0] []) = true ∧ (engine (idle [chain0] []) 2).cur = none ∧ (engine (idle [chain0] []) 2).queue = [chain0] ∧
      (engine (idle [] [chain0]) 2).queue = [] ∧ (engine (idle [] [chain0]) 2).back = [chain0] ∧ (engine (idle [] []) 2).back = [] ∧
      (engine (atDesc { runAt (desc 10 0 (tierBase 0) 10 1 0) with moved := true }) 2).cur = some { runAt (desc 10 0 (tierBase 0) 10 1 0) with moved := true } ∧
      Ds.last (desc 10 0 (tierBase 0) 10 1 0) = true ∧ Ds.last { desc 10 0 (tierBase 0) 10 1 0 with next := 0 } = false ∧
      (engine (atDesc { runAt (desc 10 0 (tierBase 0) 10 1 0) with failed := some 6 }) 2).cur = some { runAt (desc 10 0 (tierBase 0) 10 1 0) with failed := some 6 } ∧
      restOf (chainOf [desc 10 0 (tierBase 0) 10 1 0]) 0 0 = [desc 10 0 (tierBase 0) 10 1 0] ∧
      descRows (chainOf [desc 10 0 (tierBase 0) 10 1 0]) (desc 10 0 (tierBase 0) 10 1 0) = [] := by decide

/-- A list of one descriptor in host memory: FILL, its flags as given. -/
def listed (fl : Nat) : List Byte :=
  leBytes 8 0 ++ leBytes 8 (tierBase 0) ++ leBytes 4 10 ++ leBytes 2 1 ++ [0, 10] ++ leBytes 8 0 ++ leBytes 2 fl ++ leBytes 6 0 ++ leBytes 2 0x8000 ++
    List.replicate 22 0
def copyCmd (fl : Nat) : Mbx := cmd (leBytes 8 (2 ^ 46) ++ leBytes 2 1) (.ok (listed fl))

theorem test_hyps_mem_copy :
    Starts memCopySpec (copyCmd 0) up ∧ HostGives (newCmd up 0x0601 (copyCmd 0)) (takeCmd (newCmd up 0x0601 (copyCmd 0)) up) (2 ^ 46) 64 (listed 0) ∧
      (∀ d ∈ descTable (padTo 64 (listed 0)), d.reserved = false ∧ bits d.flags 2 2 = 0) ∧ Tbl.get none up.prog.active 0 = none ∧
      Starts memCopySpec (copyCmd 4) up ∧ (∃ d ∈ descTable (padTo 64 (listed 4)), d.reserved = true ∨ bits d.flags 2 2 ≠ 0) := by decide

/-- The first window while engine 2 reads host memory through it, and while it belongs to another partition's function. -/
theorem test_hyps_mem_unmap :
    Starts memT3UnmapSpec (cmd [0, 0]) up ∧ (Tbl.get none up.str.windows 0).isSome = true ∧ windowBusy up { func := 0, pasid := none, base := 2 ^ 46, host := 0, length := 2 ^ 40 } = false ∧
      (let r := runAt (desc 0 (2 ^ 46) (tierBase 0) 10 1 0)
       let s := { atDesc r with str := { (atDesc r).str with windows := up.str.windows } }
       Starts memT3UnmapSpec (cmd [0, 0]) s ∧ windowBusy s { func := 0, pasid := none, base := 2 ^ 46, host := 0, length := 2 ^ 40 } = true) ∧
      (let s := { up with str := { up.str with windows := [(0, some { func := 1, pasid := none, base := 2 ^ 46, host := 0, length := 2 ^ 40 })] } }
       Starts memT3UnmapSpec (cmd [0, 0]) s ∧ funcPart s 1 ≠ funcPart s 0) := by decide

/-- A remote FILL, and no transfer tag left. -/
theorem test_hyps_no_tag (n : Nat) (h : n = 65535) :
    Ds.remote (desc 10 0 (2 ^ 63 + tierBase 0) 10 1 0) = true ∧
      ∀ x, tagFree { up with fab := { up.fab with outbound := List.replicate n x } } = false := by
  refine ⟨by decide, fun x => ?_⟩
  show decide ((List.replicate n x).length < 65535) = false
  rw [List.length_replicate, h]
  decide

/-- A failed FILL of a transient row, while no program of its partition runs. -/
theorem test_hyps_descriptor_waits :
    (let d := desc 10 0 0 640 1 0
     let s := atDesc { runAt d with failed := some 6 }
     d.reserved = false ∧ d.op ≤ 10 ∧ descRows (chainOf [d]) d = [(0, 0)] ∧ transientWaits s (some (chainPart (chainOf [d]))) 0 0 = true ∧
       (engine s 2).cur = some { runAt d with failed := some 6 }) := by decide

/-! ### Tiers and scratchpad -/

theorem test_hyps_tier_write :
    0 + ([1, 2] : List Byte).length ≤ tierBytes 0 ∧ Memory.wf up.mem = true ∧ (∀ g ∈ granulesOf 0 ([1, 2] : List Byte).length, deadGranule up 0 g = false) := by decide

theorem test_hyps_tier_ecc :
    dieOn up = true ∧ (tier up 0).trained = true ∧ (tier up 0).offline = false ∧ 5 < tierBytes 0 / 64 ∧ (tier up 0).coded.contains 5 = false ∧
      (tier (modTier 0 (fun x => { x with coded := [5] }) up) 0).coded.contains 5 = true ∧
      (tier up 1).trained = true ∧ tierBytes 1 / 64 - 1 < tierBytes 1 / 64 := by decide

theorem test_hyps_mem_retire :
    Starts memRetireSpec (cmd [1, 0, 0, 0, 7]) up ∧ 7 < tierGranules 0 ∧ (tier up 0).retired.contains 7 = false ∧ (tier up 0).retired.length < 4096 ∧
      (let s := modTier 0 (fun x => { x with retired := [7] }) up
       Starts memRetireSpec (cmd [1, 0, 0, 0, 7]) s ∧ (tier s 0).retired.contains 7 = true) ∧
      Starts memRetireReadSpec (cmd ([2, 0, 0, 0, 0, 0, 0, 0] ++ leBytes 8 (2 ^ 46))) up ∧ hostOk up (newCmd up 0x0603 (cmd [])) (2 ^ 46) 32768 = true := by decide

/-- A full table of other granules. -/
theorem test_hyps_retire_full (n : Nat) (h : n = 4096) :
    let s := modTier 0 (fun x => { x with retired := List.replicate n 8 }) up
    (tier s 0).retired.contains 7 = false ∧ 4096 ≤ (tier s 0).retired.length := by
  refine ⟨?_, Nat.le_trans (Nat.le_of_eq h.symm) (Nat.le_of_eq (List.length_replicate (n := n) (a := 8)).symm)⟩
  show (List.replicate n 8).contains 7 = false
  rw [List.contains_eq_mem, decide_eq_false_iff_not]
  intro hm
  have e := (List.mem_replicate.mp hm).2
  omega

/-- MEM_T3_MAP of window `k` of Port A at an offset of the port's range. -/
def mapCmd (k off : Nat) : Mbx := cmd ([0, BitVec.ofNat 8 k, 0, 0, 0, 0, 0, 0x80] ++ leBytes 8 (2 ^ 46 + off) ++ leBytes 8 0 ++ leBytes 8 0x200000)

theorem test_hyps_mem_map :
    Starts memT3MapSpec (mapCmd 1 (2 ^ 41)) up ∧ place (2 ^ 46 + 2 ^ 41) 0x200000 = .host 0 ∧ Tbl.get none up.str.windows 1 = none ∧
      (up.str.windows.any fun q => decide (q.1 / 256 = 0) && q.2.any fun w => meets (2 ^ 46 + 2 ^ 41) 0x200000 w.base w.length) = false ∧
      Starts memT3MapSpec (mapCmd 0 (2 ^ 41)) up ∧ (Tbl.get none up.str.windows 0).isSome = true ∧ funcPart up 0 = some 0 := by decide

theorem test_hyps_mem_mode_lock :
    Starts memModeSpec (cmd [3, 1]) up ∧ Starts memModeSpec (cmd [3, 1]) due ∧ stepping due = true ∧ stepping up = false ∧
      (let m := cmd ([2, 0] ++ leBytes 2 3900)
       Starts memLockSpec m up ∧ lockOk (newCmd up 0x0607 m) up = true ∧ Starts memLockSpec m due ∧ lockOk (newCmd due 0x0607 m) due = true) ∧
      Starts memLockSpec (cmd [8]) up ∧ lockOk (newCmd up 0x0607 (cmd [8])) up = false := by decide

/-- Field 0 with rows 0 to 3 resident for a partition, and something set. -/
def withField (g : FieldSt → FieldSt) : State :=
  modFld 0 (fun x => g { x with resRanges := [(0, some { valid := true, readOnly := false, partitions := 2, first := 0, count := 4 })] }) up

theorem test_hyps_rows :
    inCacheBank up 9 = false ∧ inCacheBank { up with sp := { up.sp with cacheBanks := 4 } } 31 = true ∧ powered up 0 9 = true ∧ suppressed up 0 0 9 true = false ∧ powered (withField id) 0 1 = true ∧ suppressed (withField id) 0 0 1 true = true ∧
      powered (withField fun x => { x with pwrOn := 0 }) 0 1 = false := by decide

theorem test_hyps_scratchpad :
    (fld (withField fun x => { x with patrolEn := true }) 0).patrolEn = true ∧ (rangeOf (withField fun x => { x with patrolEn := true }) 0 1).isSome = true ∧
      insPending (withField fun x => { x with patrolEn := true }) 0 1 = false ∧ insPending (withField fun x => { x with ccPending := [(1, 4, 0, 7)] }) 0 1 = true ∧
      dieOn up = true ∧ debugOpen up = true ∧ (fld up 0).dbgWaits = none ∧ dbgHeld up 0 5 = false ∧
      (let s := withField fun x => { x with ccPending := [(5, 4, 0, 7)] }
       dbgHeld s 0 5 = true ∧ ((fld s 0).ccPending.find? fun p => p.1 == 5) = some (5, 4, 0, 7) ∧ powered s 0 5 = true) ∧
      powered (withField fun x => { x with ccPending := [(5, 4, 0, 7)], pwrOn := 0 }) 0 5 = false := by decide

/-- Four cache banks, region 2 over the first 512 bytes of T1, its line awaited. -/
def cached : State :=
  { up with sp := { up.sp with cacheBanks := 4, regions := [(2, some { gen := 0, partitions := 1, length := 512, base := tierBase 0 })], fills := [(2, tierBase 0 / 512)] } }

theorem test_hyps_cache :
    cached.sp.fills.contains (2, tierBase 0 / 512) = true ∧ (Tbl.get none cached.sp.regions 2).isSome = true ∧
      (lruOf cached ((cacheHome 4 (tierBase 0 / 512)).1 * 65536 + (cacheHome 4 (tierBase 0 / 512)).2.1)).find?
        (fun w => !(fld cached (cacheHome 4 (tierBase 0 / 512)).1).retired.contains (cacheRow 4 (tierBase 0 / 512) w)) = some 0 := by decide

theorem test_hyps_cache_config :
    (let m := cmd [1, 4]
     Starts spCacheConfigSpec m up ∧ cacheRefusal (newCmd up 0x0660 m) up = none ∧ cacheBanksTaken up 4 = false ∧ stepping up = false ∧
       Starts spCacheConfigSpec m due ∧ cacheRefusal (newCmd due 0x0660 m) due = none ∧ stepping due = true) ∧
    cacheRefusal (newCmd up 0x0660 (cmd [1, 5])) up = some 0x16 ∧
    (let m := cmd ([2, 0, 2, 0, 1, 0, 0, 0] ++ leBytes 8 (tierBase 0) ++ leBytes 8 512)
     Starts spCacheConfigSpec m up ∧ cacheRefusal (newCmd up 0x0660 m) up = none) ∧
    (let s := modFld 0 (fun x => { x with resRanges := [(0, some { valid := true, readOnly := false, partitions := 1, first := 31, count := 1 })] }) up
     Starts spCacheConfigSpec (cmd [1, 4]) s ∧ cacheRefusal (newCmd s 0x0660 (cmd [1, 4])) s = none ∧ cacheBanksTaken s 4 = true) := by decide

theorem test_hyps_retire_row :
    Starts spRetireRowSpec (cmd [0, 0, 5, 0]) up ∧ (fld up 0).retired.length < 64 ∧
      Starts spRetireRowSpec (cmd [0, 0, 5, 0]) (withField fun x => { x with retired := [5] }) ∧
      (fld (withField fun x => { x with retired := [5] }) 0).retired.contains 5 = true ∧
      Starts spRetireRowSpec (cmd [0, 0, 5, 0]) (withField fun x => { x with retired := List.replicate 64 6 }) ∧
      (fld (withField fun x => { x with retired := List.replicate 64 6 }) 0).retired.length = 64 := by decide

/-- The row the line goes to, with power and without. -/
theorem test_hyps_cache_power :
    (let h := (cacheHome 4 (tierBase 0 / 512)).1
     let r := cacheRow 4 (tierBase 0 / 512) 0
     powered cached h r = true ∧ powered (modFld h (fun x => { x with pwrOn := 0 }) cached) h r = false) := by decide

/-! ### The sequencer and programs -/

/-- An image of one bundle of only a global part: its repeat count, operation and argument. -/
def oneBundle (rep op arg : Nat) : List Byte :=
  padTo 128 (List.replicate 12 0 ++ leBytes 4 128) ++ leBytes 32 (2 ^ 251 + 2 ^ 250 + rep * 2 ^ 214 + op * 2 ^ 142 + arg * 2 ^ 118)

/-- The program at its first bundle. -/
def running (st : Option Stall) : SeqRun :=
  { overRun with
    pos := { overRun.pos with ended := false, loops := [0, 0, 0, 0], loopOn := [false, false, false, false] }, counts := List.replicate 8 0, stall := st }

/-- A step runs it: its image, its stall. -/
def inProgram (i : List Byte) (r : SeqRun) : State :=
  { entering with prog := { progs := [(1, some { prog0 with image := i })], active := [(0, some active0)] }, seq := { entering.seq with cur := some r } }

set_option maxRecDepth 20000 in
theorem test_hyps_bundle_issue :
    mayIssue (inProgram (oneBundle 1 0 0) (running none)) = true ∧ (inProgram (oneBundle 1 0 0) (running none)).seq.halt = false ∧
      ((running none).pos.toIssue (runImage (inProgram (oneBundle 1 0 0) (running none)) (running none)) (running none).counts walkFuel).ended = false ∧
      ((running none).pos.toIssue (runImage (inProgram (oneBundle 0 0 0) (running none)) (running none)) (running none).counts walkFuel).ended = true := by decide

/-- A loop of no trips has no issue: the bundle that begins it is passed. -/
def emptyLoop : List Byte := padTo 128 (List.replicate 12 0 ++ leBytes 4 128) ++ leBytes 32 (2 ^ 251 + 2 ^ 250 + 2 ^ 249 + 2 ^ 248 + 2 ^ 214)

theorem test_hyps_bundle_passed :
    ((running none).pos.toIssue (runImage (inProgram emptyLoop (running none)) (running none)) (running none).counts walkFuel).ended = true ∧
      mayIssue (inProgram emptyLoop (running none)) = true := by decide

theorem test_hyps_actions :
    Gp.seqOp (globalOf (inProgram (oneBundle 1 6 3) (running none)) (running none)) = 6 ∧
      Gp.seqArg (globalOf (inProgram (oneBundle 1 6 3) (running none)) (running none)) = 3 ∧
      hitchVal (inProgram (oneBundle 1 6 3) (running none)) 3 < hitchTgt (inProgram (oneBundle 1 6 3) (running none)) 3 ∧
      (let s := inProgram (oneBundle 1 6 3) (running none)
       let t := { s with hch := { s.hch with hitchVal := [(3, 1)] } }
       hitchTgt t 3 ≤ hitchVal t 3 ∧ Gp.seqOp (globalOf t (running none)) = 6) ∧
      Gp.seqOp (globalOf (inProgram (oneBundle 1 7 3) (running none)) (running none)) = 7 ∧
      Gp.seqOp (globalOf (inProgram (oneBundle 1 8 4) (running none)) (running none)) = 8 ∧
      (enterBarrier 0 4 0 true (inProgram (oneBundle 1 8 4) (running none))).1 = some 6 ∧
      (let s := inProgram (oneBundle 1 8 4) (running none)
       (enterBarrier 0 4 0 true { s with hch := { s.hch with
         bars := [(4, some { home false false false with slots := [{ kind := 0, chip := 0, cur := false, next := false }, { kind := 2, chip := 0, cur := false, next := false }] })] } }).1 = none) ∧
      Gp.seqOp (globalOf (inProgram (oneBundle 1 9 0) (running none)) (running none)) = 9 := by decide

theorem test_hyps_stalls :
    dieOn (inProgram [] (running (some (.blocked 0 1 false false)))) = true ∧ (running (some (.queueFull 0))).stall = some (.queueFull 0) ∧
      (running (some (.hitch 3))).stall = some (.hitch 3) ∧ hitchReady (inProgram [] (running (some (.hitch 3)))) (hitchOf 0 3) = false ∧
      (let s := inProgram [] (running (some (.hitch 3)))
       hitchReady { s with hch := { s.hch with hitchVal := [(3, 1)] } } (hitchOf 0 3) = true) ∧
      releasedFor (inProgram [] (running (some (.barrier 4)))) 0 = none ∧
      (let s := inProgram [] (running (some (.barrier 4)))
       releasedFor { s with hch := { s.hch with released := [(0, false)] } } 0 = some false ∧
       releasedFor { s with hch := { s.hch with released := [(0, true)] } } 0 = some true) := by decide

theorem test_hyps_halt :
    debugOpen (inProgram [] (running none)) = true ∧ (inProgram [] (running none)).seq.halt = false ∧
      (let s := inProgram [] (running none)
       { s with seq := { s.seq with halt := true } }.seq.halt = true ∧ mayIssue { s with seq := { s.seq with halt := true } } = true) := by decide

/-- A mark at the program's start, and the program at its horizon. -/
def mark0 : Mark := { pos := (running none).pos, stats := [], windows := [], full := [], kvNext := [], fault := none, faultRec := (0, 0, 0) }
def atHorizon (m : Option Mark) : SeqRun := { running none with waitHorizon := true, mark := m }

/-- An untested breach of layer 5, which was used with exponent 9 and may be replayed. -/
def breached (m : Option Mark) : State :=
  let s := inProgram (oneBundle 1 2 0) (atHorizon m)
  { s with np := { s.np with
    breaches := [(5, 1, true, 0)], usedExp := [(5, some 9)], layerCfg := [(5, some { replayEn := true, clipThresh := 0, nullThresh := 0 })] } }

theorem test_hyps_horizon :
    dieOn (breached (some mark0)) = true ∧ (atHorizon (some mark0)).stall = none ∧ heldUp (breached (some mark0)) = false ∧
      (let u := finishParts (atHorizon (some mark0)) (breached (some mark0))
       heldUp u = false ∧ u.np.inReplay = false ∧ (u.np.breaches.any fun b => b.2.2.1 && replayable u (oneBundle 1 2 0) b.1) = true ∧
         u.np.replayedParts.contains 0 = false ∧ chainsInFlight u 0 = false) ∧
      (let s := breached (some mark0)
       let t := { s with str := { s.str with engines := [(2, { queue := [chain0], back := [], cur := none })] } }
       chainsInFlight (finishParts (atHorizon (some mark0)) t) 0 = true) ∧
      (let s := breached none
       let u := finishParts (atHorizon none) { s with np := { s.np with inReplay := true } }
       u.np.inReplay = true ∧ u.seq.cur.isSome = true ∧ heldUp u = false) ∧
      heldUp (inProgram [] (running (some (.blocked 0 1 false false)))) = true := by decide

/-- A program whose layer table has one entry, of monitor layer 5. -/
def layered : List Byte := padTo 128 (List.replicate 118 0 ++ [1, 0] ++ leBytes 4 128) ++ [5, 0, 0, 0, 0, 0, 0, 0]

/-- Partition 0 has it active under handle 1. -/
def withProg (g : Prog) (a : Bool) : State :=
  { up with prog := { progs := [(1, some g)], active := if a then [(0, some active0)] else [] } }

theorem test_hyps_np_config :
    Starts npConfigSpec (cmd [5, 1, 7]) (withProg { prog0 with image := layered } true) ∧
      isMonitorLayer (withProg { prog0 with image := layered } true) 0 5 = true ∧ stepping (withProg prog0 true) = false ∧
      isMonitorLayer (withProg { prog0 with image := layered } true) 0 6 = false ∧
      pBit (newCmd up 0x0380 (cmd [5, 1, 7])) 1 0 = true ∧ pBit (newCmd up 0x0380 (cmd [5, 1, 7])) 1 1 = false ∧
      (let s := { withProg { prog0 with image := layered } true with step := due.step }
       Starts npConfigSpec (cmd [5, 1, 7]) s ∧ isMonitorLayer s 0 5 = true ∧ stepping s = true) := by decide

/-- PROG_LOAD of 96 bytes. -/
def loadCmd (unv : Byte) : Mbx := cmd (leBytes 8 (2 ^ 46) ++ leBytes 4 96 ++ [unv, 0, 0, 0] ++ leBytes 8 (2 ^ 46 + 8192)) (.ok [])

theorem test_hyps_prog_load :
    Starts progLoadSpec (loadCmd 0) up ∧ hostOk up (newCmd up 0x0401 (loadCmd 0)) (2 ^ 46 + 8192) 4096 = true ∧
      HostGives (newCmd up 0x0401 (loadCmd 0)) (takeCmd (newCmd up 0x0401 (loadCmd 0)) up) (2 ^ 46) 96 [] ∧ freeExtent up (storeNeed (padTo 96 [])) = some 0 ∧
      Tbl.free up.prog.progs 64 = some 0 ∧ Starts progLoadSpec (loadCmd 1) up ∧ pBit (newCmd up 0x0401 (loadCmd 1)) 12 0 = true ∧ up.isl.lc ≠ 3 := by decide

/-- The PROG_LOAD command that waits for handle 1's verification. -/
def loading : Prog := { prog0 with unverified := true, verified := false, cmd := some (newCmd up 0x0401 (loadCmd 1)) }

theorem test_hyps_verification :
    loading.cmd = some (newCmd up 0x0401 (loadCmd 1)) ∧ (checkUnverified loading.image).1.isSome = true ∧
      ((verifyImage up 0 ({ loading with unverified := false } : Prog).image).1).isSome = true := by decide

theorem test_hyps_prog_activate :
    Starts progActivateSpec (cmd [1, 0]) (withProg prog0 false) ∧ pNum (newCmd up 0x0402 (cmd [1, 0])) 0 2 = 1 ∧
      Tbl.get none (withProg prog0 false).prog.progs 1 = some prog0 ∧ prog0.verified = true ∧ funcPart up 0 = some prog0.part ∧
      (∀ b ∈ budgetsOf (withProg prog0 false) 0, prog0.formula.eval (Img.minimums prog0.image) ≤ b) ∧
      (bindProgram (withProg prog0 false) 0 prog0.image).isSome = true ∧ Starts progActivateSpec (cmd [1, 0]) (withProg { prog0 with part := 1 } false) ∧
      funcPart up 0 ≠ some 1 ∧
      (let s := { withProg { prog0 with formula := { knees := [], terms := [(512000, 0xFF, 0xFF)], exact := true } } false with
         step := { up.step with active := some cfg0 } }
       Starts progActivateSpec (cmd [1, 0]) s ∧ stepping s = false ∧ (∃ b ∈ budgetsOf s 0, b < (Formula.mk [] [(512000, 0xFF, 0xFF)] true).eval (Img.minimums []))) ∧
      (let s := { withProg prog0 false with step := due.step }
       Starts progActivateSpec (cmd [1, 0]) s ∧ stepping s = true) := by decide

theorem test_hyps_prog_unload :
    Starts progUnloadSpec (cmd [1, 0]) (withProg prog0 true) ∧ activeHandle (withProg prog0 true) 0 = some 1 ∧
      Starts progUnloadSpec (cmd [1, 0]) (withProg prog0 false) ∧ activeHandle (withProg prog0 false) 0 = none ∧ (withProg prog0 false).seq.cur = none ∧
      Starts progGetReportSpec (cmd ([1, 0, 0, 0, 0, 0, 0, 0] ++ leBytes 8 (2 ^ 46))) (withProg prog0 false) ∧
      hostOk (withProg prog0 false) (newCmd up 0x0404 (cmd [])) (2 ^ 46) 4096 = true ∧
      Starts progDeactivateSpec (cmd [1, 0]) (withProg prog0 true) ∧ servedLive (withProg prog0 true) 0 1 = false ∧
      Starts progDeactivateSpec (cmd [1, 0]) (withProg prog0 false) ∧
      (let s := { withProg prog0 true with step := due.step }
       Starts progDeactivateSpec (cmd [1, 0]) s ∧ stepping s = true ∧ activeHandle s 0 = some 1) := by decide

/-- An image that lets the host set counts, each from 0 to 3. -/
def counted : List Byte := [0, 0, 0, 0, 0, 0, 1, 0, 0, 0, 0, 0, 0, 0, 0, 0] ++ (List.range 8).flatMap fun _ => leBytes 4 0 ++ leBytes 4 3

theorem test_hyps_set_counts :
    Img.hostCounts counted = true ∧ Img.hostCounts prog0.image = false ∧ Starts progSetCountsSpec (cmd [1, 0]) (withProg prog0 false) ∧
      Starts progSetCountsSpec (cmd [1, 0]) (withProg { prog0 with image := counted } false) ∧
      countsFit { prog0 with image := counted } (countsParam (newCmd up 0x0405 (cmd [1, 0]))) (budgetsOf up 0) = true ∧
      countsFit { prog0 with image := counted } (countsParam (newCmd up 0x0405 (cmd ([1, 0] ++ List.replicate 14 0 ++ [4])))) (budgetsOf up 0) = false ∧
      Starts progSetCountsSpec (cmd ([1, 0] ++ List.replicate 14 0 ++ [4])) (withProg { prog0 with image := counted } false) ∧
      (let s := { withProg { prog0 with image := counted } false with step := due.step }
       Starts progSetCountsSpec (cmd [1, 0]) s ∧ stepping s = true) := by decide

/-- The smallest image: one bundle that ends the program, a formula without terms, no signature to speak of. -/
def tiny : List Byte :=
  padTo 128 (leBytes 4 0x50425856 ++ leBytes 2 2 ++ leBytes 2 0 ++ leBytes 4 32 ++ leBytes 4 128 ++ List.replicate 108 0 ++ leBytes 4 160) ++
    leBytes 32 (2 ^ 250 + 2 ^ 214) ++ List.replicate 144 0

set_option maxRecDepth 20000 in
theorem test_hyps_verification_done :
    (checkUnverified tiny).1 = none ∧ (checkUnverified tiny).2.isSome = true ∧
      (((checkUnverified tiny).2.map fun f => f.eval (Img.minimums tiny)).getD 0) ≤ 2238794368 ∧
      groupsReady (groupsOf 0 tiny) (powerGroups (groupsOf 0 tiny) up) = true := by decide

/-- The same with a PRELOAD part, so that field 0's first bank group is named. -/
def tinyPreload : List Byte :=
  padTo 128 (leBytes 4 0x50425856 ++ leBytes 2 2 ++ leBytes 2 0 ++ leBytes 4 64 ++ leBytes 4 128 ++ List.replicate 108 0 ++ leBytes 4 192) ++
    leBytes 32 (2 ^ 251 + 2 ^ 250 + 2 ^ 214) ++ leBytes 32 (2 ^ 253 + 2 ^ 236 + 2 ^ 197 + 2 ^ 165) ++ List.replicate 144 0

set_option maxRecDepth 20000 in
theorem test_hyps_verification_waits :
    (checkUnverified tinyPreload).1 = none ∧ (checkUnverified tinyPreload).2.isSome = true ∧
      (let s := modFld 0 (fun x => { x with pwrOn := 0 }) up
       groupsReady (groupsOf 0 tinyPreload) (powerGroups (groupsOf 0 tinyPreload) s) = false) := by decide

/-- Partition 0's binding 2 is served by the program, with a live request. -/
def servedBinding : Binding :=
  { part := 0, image := 0, layerImage := [], state := 2, held := false, retries := [], retryLimit := 0, deadline := none, swap := none, journal := none,
    repair := [], rowRepair := [], placed := [], cmd := none }

def served : State :=
  { withProg prog0 true with
    mdl := { up.mdl with bindings := [(2, some servedBinding)] },
    srv := { up.srv with configs := [(2, some { block := [1, 0] })], requests := [(0, some { Request.reset with state := .waiting, binding := 2 })] } }

theorem test_hyps_served_live : Starts progDeactivateSpec (cmd [1, 0]) served ∧ servedLive served 0 1 = true ∧ activeHandle served 0 = some 1 := by decide

/-! ### Weight images -/

/-- A manifest of one layer with one resident tensor of one byte, in row 0 of field 0, which one shard carries from source `src`. -/
def mani (flags src : Byte) : List Byte :=
  padTo 128 (leBytes 4 0x4D575856 ++ [1, 0, flags, 0] ++ leBytes 8 7 ++ leBytes 4 1 ++ [1, 0, 1, 0] ++ leBytes 4 1 ++ [12, 0, 0, 0] ++ leBytes 4 128 ++ leBytes 4 160 ++
      leBytes 4 224 ++ leBytes 4 256) ++
    padTo 32 [0, 0, 1] ++ padTo 64 ([0, 1, 0, 2] ++ leBytes 4 1 ++ leBytes 4 1 ++ leBytes 4 1 ++ leBytes 8 65536 ++ leBytes 8 1) ++
    padTo 32 ([0, 0, 0, src] ++ leBytes 20 0 ++ leBytes 4 1) ++ List.replicate 96 0

/-- The image of it, its layer active with its tensor home, or in another state. -/
def home0 : Home := { tensor := 0, tier := 2, nominal := 0, actual := 0, bytes := 1, rows := 1, mask := 1 }
def layer0 (st : Nat) (got : List Nat) : LayerSt := { homes := [home0], arrived := got, status := st, rowData := [] }
def img0 (flags src : Byte) (st : Nat) (got : List Nat) (d : Nat) : Image :=
  { manifest := mani flags src, digest := d, layers := [(0, some (layer0 st got))], shareMask := 0xFFFF, loader := 0 }

/-- Partition 0 may hold a resident row. -/
def roomy : State := { up with part := { up.part with parts := [(0, some { part0 with resRows := 8 })] } }

/-- Binding 2 of partition 0 to an image, in a state. -/
def bound (im : Image) (g : Binding → Binding) : State :=
  { roomy with mdl := { images := [(0, some im)], bindings := [(2, some (g servedBinding))] } }

/-- MODEL_LOAD of the manifest in `f`. -/
def loadM (ms : Nat) (share : Byte) (f : List Byte) : Mbx := cmd (leBytes 8 (2 ^ 46) ++ leBytes 4 352 ++ leBytes 4 ms ++ [0, 0, share, 0]) (.ok f)

set_option maxRecDepth 20000 in
theorem test_manifest_ok : manifestOk (padTo 352 (mani 0 0)) = true ∧ manifestOk (padTo 352 (mani 3 0)) = true ∧ manifestOk [] = false := by decide

set_option maxRecDepth 20000 in
theorem test_hyps_model_load :
    Starts modelLoadSpec (loadM 0 0 []) up ∧ deadlineOk (pNum (newCmd up 0x0301 (loadM 0 0 [])) 12 4) = false ∧
      Starts modelLoadSpec (loadM 9 0 (mani 0 0)) roomy ∧ deadlineOk 9 = true ∧ pNum (newCmd roomy 0x0301 (loadM 9 0 (mani 0 0))) 8 4 = 352 ∧
      HostGives (newCmd roomy 0x0301 (loadM 9 0 (mani 0 0))) (takeCmd (newCmd roomy 0x0301 (loadM 9 0 (mani 0 0))) roomy) (2 ^ 46) 352 (mani 0 0) ∧
      Tbl.free roomy.mdl.bindings 256 = some 0 ∧ (∀ d ∈ [0, 1], sharedImage roomy d = none) ∧ loadedImages roomy < 64 ∧
      nominalMeets roomy 0 (padTo 352 (mani 0 0)) = false ∧ Tbl.free roomy.mdl.images 512 = some 0 ∧
      Starts modelLoadSpec (loadM 9 0 []) roomy ∧ HostGives (newCmd roomy 0x0301 (loadM 9 0 [])) (takeCmd (newCmd roomy 0x0301 (loadM 9 0 [])) roomy) (2 ^ 46) 352 [] := by decide

theorem test_hyps_model_load_shared : sharedImage roomy (Config.sha384 (padTo 352 (mani 0 0))) = none := rfl

set_option maxRecDepth 20000 in
theorem test_hyps_model_load_places :
    ((placeLayers 0 0 (padTo 352 (mani 0 0)) false [0]
      (setImage 0 (some { manifest := padTo 352 (mani 0 0), digest := 0, layers := [], shareMask := 0, loader := 0 }) roomy)).isSome) = true := by decide

/-- An image that is loaded, shareable and active, of any digest, is attached to. -/
theorem test_hyps_model_attach (d : Nat) :
    sharedImage (bound (img0 1 0 1 [0] d) id) d = some (0, img0 1 0 1 [0] d) ∧ bit (img0 1 0 1 [0] d).shareMask 0 = true ∧
      Tbl.free (bound (img0 1 0 1 [0] d) id).mdl.bindings 256 = some 0 := by
  refine ⟨?_, ?_, rfl⟩
  rotate_left
  · show bit 0xFFFF 0 = true
    decide
  unfold sharedImage
  simp only [bound, List.findSome?, Option.bind]
  rw [if_pos]
  refine ⟨rfl, ?_, ?_⟩
  · show Mf.shareable (mani 1 0) = true
    decide
  · show ((List.range (Mf.layers (mani 1 0))).all fun l => (Tbl.get none [(0, some (layer0 1 [0]))] l).any fun y => y.status == 1) = true
    decide

theorem test_hyps_model_attach_starts : Starts modelLoadSpec (loadM 9 0 (mani 1 0)) (bound (img0 1 0 1 [0] 3) id) := by decide

/-- The parameters of the commands that bring a manifest for binding `h`. -/
def swapM (h : Byte) (f : List Byte) : Mbx := cmd ([h, 0, 0, 0, 0, 0, 0, 0] ++ leBytes 8 (2 ^ 46) ++ leBytes 4 352 ++ leBytes 4 9) (.ok f)

/-- An INCOMPLETE model, its layer failed; or its layer to be repaired. -/
def incomplete (r : List Nat) : State := bound (img0 0 0 2 [] 3) fun b => { b with state := 1, repair := r }

set_option maxRecDepth 20000 in
theorem test_hyps_model_reload :
    Starts modelReloadSpec (swapM 2 (mani 0 1)) (incomplete []) ∧ myBinding (incomplete []) (newCmd (incomplete []) 0x0303 (swapM 2 (mani 0 1))) 2 = some { servedBinding with state := 1 } ∧
      sameButSources (padTo 352 (mani 0 1)) (mani 0 0) = true ∧ manifestOk (padTo 352 (mani 0 1)) = true ∧
      (layer? (incomplete []) 0 0).any (fun y => y.status == 2) = true ∧
      (placeLayers 0 0 (padTo 352 (mani 0 1)) false [0] (modImage 0 (fun x => { x with manifest := padTo 352 (mani 0 1), digest := 4 }) (incomplete []))).isSome = true ∧
      Starts modelReloadSpec (swapM 2 (mani 0 1)) (incomplete [0]) ∧ Starts modelReloadSpec (swapM 3 []) (incomplete []) ∧
      myBinding (incomplete []) (newCmd (incomplete []) 0x0303 (swapM 3 [])) 3 = none ∧ sameButSources (padTo 352 (mani 1 1)) (mani 0 0) = false ∧
      manifestOk (padTo 352 (mani 1 1)) = true ∧
      HostGives (newCmd up 0x0303 (swapM 2 (mani 0 1))) (takeCmd (newCmd up 0x0303 (swapM 2 (mani 0 1))) (incomplete [])) (2 ^ 46) 352 (mani 0 1) := by decide

/-- A READY model, and a MIXED one whose journal says that image 0 is new and old from layer `k`. -/
def ready : State := bound (img0 2 0 1 [0] 3) id
def mixed (k : Nat) (st : Nat) : State := bound (img0 2 0 1 [0] 3) fun b => { b with state := st, journal := some (0, 0, k) }

set_option maxRecDepth 20000 in
theorem test_hyps_model_swap :
    Starts modelSwapSpec (swapM 2 (mani 2 1)) ready ∧ myBinding ready (newCmd ready 0x0304 (swapM 2 (mani 2 1))) 2 = some servedBinding ∧
      swapOk (mani 2 0) (padTo 352 (mani 2 1)) = true ∧ sharedResident ready 0 [0] = false ∧ quotaHolds ready 0 (padTo 352 (mani 2 1)) [0] = true ∧
      Tbl.free ready.mdl.images 512 = some 1 ∧ Starts modelSwapSpec (swapM 2 []) (mixed 1 3) ∧ swapBusy { servedBinding with state := 3 } = true ∧
      manifestOk (padTo 352 (mani 2 1)) = true ∧ swapOk (mani 2 0) (padTo 352 ((mani 2 1).take 8 ++ [9] ++ (mani 2 1).drop 9)) = false ∧
      manifestOk (padTo 352 ((mani 2 1).take 8 ++ [9] ++ (mani 2 1).drop 9)) = true := by decide

set_option maxRecDepth 20000 in
theorem test_hyps_model_resume :
    Starts modelSwapResumeSpec (swapM 2 (mani 2 0)) (mixed 0 4) ∧ Starts modelSwapRevertSpec (swapM 2 (mani 2 0)) (mixed 1 4) ∧
      Starts modelSwapRevertSpec (swapM 2 (mani 2 0)) (mixed 1 3) ∧ Starts modelSwapResumeSpec (swapM 2 (mani 2 0)) ready ∧
      quotaHolds (mixed 0 4) 0 (padTo 352 (mani 2 0)) [0] = true ∧ sharedResident (mixed 0 4) 0 [0] = false ∧
      myBinding (mixed 1 4) (newCmd (mixed 1 4) 0x0306 (swapM 2 [])) 2 = some { servedBinding with state := 4, journal := some (0, 0, 1) } := by decide

/-- The image's digest is that of the manifest the command brings, whichever that is. -/
theorem test_hyps_model_resume_digest (f : List Byte) :
    (image? (bound { img0 2 0 1 [0] (Config.sha384 f) with digest := Config.sha384 f } id) 0).map Image.digest = some (Config.sha384 f) := rfl

/-- MODEL_UPDATE and MODEL_CHECKPOINT of layer 0, with an address in T1 and a host buffer. -/
def layerM (h : Byte) (buf : Nat) : Mbx := cmd ([h, 0, 0, 0, 0, 0, 0, 0] ++ leBytes 8 (tierBase 1) ++ leBytes 8 buf)

/-- Partition 0 owns granule 0 of T2. -/
def owning (s : State) : State := ownRun 0 1 0 1 s

theorem test_hyps_model_update :
    Starts modelUpdateSpec (layerM 2 0) (owning ready) ∧ myBinding (owning ready) (newCmd ready 0x0307 (layerM 2 0)) 2 = some servedBinding ∧
      Mf.trainable (mani 2 0) = true ∧ Mf.trainable (mani 0 0) = false ∧ layersNamed (newCmd ready 0x0307 (layerM 2 0)) (mani 2 0) = some (0, 1) ∧
      place (tierBase 1) (max 1 (((([0].flatMap (Mf.layerTensors (mani 2 0))).filter (updated (mani 2 0))).map fun t => Ts.stored (Mf.tensor (mani 2 0) t)).sum)) = .tier 1 0 ∧
      ownsExtent (owning ready) 0 1 0 1 = true ∧ quotaHolds (owning ready) 0 (mani 2 0) [0] = true ∧
      (ready.mdl.bindings.filter fun x => x.2.any fun y => y.refersTo 0).length ≤ 1 ∧ Starts modelUpdateSpec (layerM 2 0) (mixed 1 3) ∧
      Starts modelUpdateSpec (layerM 2 0) (bound (img0 0 0 1 [0] 3) id) := by decide

theorem test_hyps_model_unload :
    Starts modelUnloadSpec (cmd [2]) ready ∧ swapBusy servedBinding = false ∧ boundActive ready servedBinding = false ∧ bindingLive ready 2 = false ∧
      Starts modelUnloadSpec (cmd [2]) (mixed 1 3) := by decide

set_option maxRecDepth 20000 in
theorem test_hyps_model_checkpoint :
    Starts modelCheckpointSpec (layerM 2 (2 ^ 46)) (owning ready) ∧ stepping (owning ready) = false ∧ pByte (newCmd ready 0x0308 (layerM 2 (2 ^ 46))) 6 ≤ 2 ∧
      place (tierBase 1) 1 = .tier 1 0 ∧ ownsWritable (owning ready) 0 1 0 1 = true ∧ (checkpointForm (owning ready) (mani 2 0) (layer0 1 [0]) 0 0).1.length = 1 ∧
      hostOk (owning ready) (newCmd ready 0x0308 (layerM 2 (2 ^ 46))) (2 ^ 46) 352 = true ∧ Starts modelCheckpointSpec (layerM 2 (2 ^ 46)) { ready with step := due.step } ∧
      stepping { ready with step := due.step } = true ∧ Starts modelCheckpointSpec (layerM 2 (2 ^ 46)) (mixed 1 3) := by decide

theorem test_hyps_model_query :
    (let m := cmd ([2, 0, 0, 0, 0, 0, 0, 0] ++ leBytes 8 (2 ^ 46))
     Starts modelQuerySpec m ready ∧ Starts modelQuerySpec m (mixed 1 4) ∧ Starts modelQuerySpec m up ∧
       hostOk (takeCmd (newCmd ready 0x0309 m) ready) (newCmd ready 0x0309 m) (2 ^ 46) 4096 = true ∧ myBinding up (newCmd up 0x0309 m) 2 = none) := by decide

/-- A load whose layer waits for its shard; a swap whose staged layer does. -/
def loadingModel (n : Nat) : State := bound (img0 0 0 0 [] 3) fun b => { b with state := 0, retries := if n = 0 then [] else [(0, n)], retryLimit := 2, deadline := some 0 }
def swap0 (st : Nat) (got : List Nat) : Swap :=
  { newSwap 0 0 0 1 false (newCmd up 0x0304 (swapM 2 [])) with staged := [(0, some (layer0 st got))], retryLimit := 2, deadline := some 0 }
def swapping (w : Swap) : State := bound (img0 2 0 1 [0] 3) fun b => { b with state := 3, swap := some w }

theorem test_hyps_shard_arrived :
    fetchOf (idleModels (loadingModel 0)) 2 = some (0, false, [0]) ∧ fetched (idleModels (loadingModel 0)) 2 0 false 0 = some (layer0 0 []) ∧
      Mf.layerOf (mani 0 0) 0 = 0 ∧ (shardPieces (mani 0 0) 0 [9]).map Prod.snd = some (0, 0) ∧ Mf.layerShards (mani 0 0) 0 = [0] ∧ (loadingModel 0).host.state = 2 ∧
      (layer0 0 []).home 0 ≠ none ∧ fetchOf (idleModels (bound (img0 0 0 1 [0] 3) fun b => { b with state := 0 })) 2 = some (0, false, []) ∧
      fetchOf (idleModels ready) 2 = none ∧ fetchOf (idleModels (swapping (swap0 0 []))) 2 = some (0, true, [0]) := by decide

theorem test_hyps_shard_fails :
    fetchOf (loadingModel 0) 2 = some (0, false, [0]) ∧ Tbl.get 0 ((binding? (loadingModel 0) 2).map Binding.retries |>.getD []) 0 < 2 ∧
      2 ≤ Tbl.get 0 ((binding? (loadingModel 2) 2).map Binding.retries |>.getD []) 0 ∧ fetchOf (swapping (swap0 0 [])) 2 = some (0, true, [0]) ∧
      Tbl.get 0 (swap0 0 []).retries 0 < (swap0 0 []).retryLimit ∧ (swap0 0 []).retries = [] := by decide

theorem test_hyps_model_deadline :
    binding? (loadingModel 0) 2 = some { servedBinding with state := 0, retryLimit := 2, deadline := some 0 } ∧ binding? ready 2 = some servedBinding ∧
      ((swap0 0 []).deadline <|> servedBinding.deadline) = some 0 ∧ (∀ l ∈ (swap0 3 [0]).order.drop 0, ∃ y, Tbl.get none (swap0 3 [0]).staged l = some y ∧ y.status = 3) ∧
      (∃ l ∈ ({ swap0 0 [] with staged := [] } : Swap).order.drop 0, Tbl.get none ({ swap0 0 [] with staged := [] } : Swap).staged l = none) := by
  refine ⟨by decide, by decide, by decide, fun l h => ⟨layer0 3 [0], ?_, rfl⟩, ⟨0, by decide, by decide⟩⟩
  revert l
  decide

theorem test_hyps_layer_staged :
    (let u := idleModels (swapping (swap0 0 [0]))
     ((binding? u 2).bind Binding.swap) = some (swap0 0 [0]) ∧ u.host.state = 2 ∧ fetchedShards (mani 2 0) false 0 = [0] ∧
       layerTilesSound u (mani 2 0) (layer0 0 [0]) 0 = true) ∧
      ((binding? (idleModels (swapping (swap0 0 []))) 2).bind Binding.swap) = some (swap0 0 []) ∧
      ((binding? (idleModels (swapping { swap0 0 [] with kind := 1 })) 2).bind Binding.swap) = some { swap0 0 [] with kind := 1 } := by decide

/-- A tensor of a shareable image lies at the start of T1. -/
theorem test_hyps_shared_home :
    (let x : LayerSt := { homes := [{ home0 with tier := 0, actual := tierBase 0 }], arrived := [0], status := 1, rowData := [] }
     let im : Image := { manifest := mani 1 0, digest := 3, layers := [(0, some x)], shareMask := 0xFFFF, loader := 0 }
     sharedHome { mapped with mdl := { mapped.mdl with images := [(0, some im)] } } 0 0 4 = true) := by decide

/-! ### Paged key-value caches -/

theorem getD_pad (n i : Nat) (xs : List Byte) (h : i < n) : (padTo n xs).getD i 0 = xs.getD i 0 := by
  unfold padTo
  rw [List.getD_eq_getElem?_getD, List.getD_eq_getElem?_getD, List.getElem?_take_of_lt h]
  by_cases h1 : i < xs.length
  · rw [List.getElem?_append_left h1]
  · rw [List.getElem?_append_right (by omega), List.getElem?_replicate, if_pos (by omega), List.getElem?_eq_none (by omega)]
    rfl

theorem leAt_pad (n o k : Nat) (xs : List Byte) (h : o + k ≤ n) : leAt (padTo n xs) o k = leAt xs o k := by
  unfold leAt sliceBytes
  congr 1
  refine List.map_congr_left fun i hi => getD_pad n (o + i) xs ?_
  have := List.mem_range.mp hi
  omega

theorem leNat_zero (ls : List Nat) : leNat (ls.map fun _ => (0 : Byte)) = 0 := by
  induction ls with
  | nil => rfl
  | cons x xs ih => simp only [List.map_cons, leNat, ih]; rfl

theorem leAt_beyond (o k : Nat) (xs : List Byte) (h : xs.length ≤ o) : leAt xs o k = 0 := by
  unfold leAt sliceBytes
  rw [List.map_congr_left (g := fun _ => (0 : Byte)), leNat_zero]
  intro i _
  rw [List.getD_eq_getElem?_getD, List.getElem?_eq_none (by omega)]
  rfl

theorem foldl_same {α β : Type} (f : β → α → β) (b : β) (l : List α) (h : ∀ x ∈ l, f b x = b) : l.foldl f b = b := by
  induction l with
  | nil => rfl
  | cons x xs ih => rw [List.foldl_cons, h x (by simp)]; exact ih fun y hy => h y (by simp [hy])

theorem cleanBytes_short (allow : List (Nat × Nat × Nat)) (n : Nat) (xs : List Byte)
    (hx : ∀ i, i < xs.length → allowedBits allow i = 255) : cleanBytes allow n (padTo n xs) = true := by
  unfold cleanBytes firstReserved
  rw [Option.isNone_iff_eq_none, List.find?_eq_none]
  intro i hi
  rw [getD_pad n i xs (List.mem_range.mp hi)]
  by_cases h1 : i < xs.length
  · rw [hx i h1]
    simp
  · rw [List.getD_eq_getElem?_getD, List.getElem?_eq_none (by omega)]
    simp

/-- The pool's block: one head of 128 values in FRC-8, three pages of 16 KiB in T1, one table. -/
def poolBlk : List Byte :=
  [1, 0xC, 1, 128] ++ leBytes 4 3 ++ leBytes 8 (tierBase 0) ++ leBytes 8 (tierBase 0 + 65536) ++ leBytes 4 1 ++ leBytes 2 1 ++ leBytes 2 0 ++
    leBytes 8 (tierBase 0 + 131072) ++ leBytes 8 (tierBase 0 + 196608) ++ leBytes 4 8

def poolMf : List Byte := List.replicate 28 0 ++ [14]

/-- The pool it asks for. -/
def pool0 : Pool :=
  { tier := 0, kvFmt := 0xC, heads := 1, dim := 128, shift := 14, layers := 0, pages := 3, base := tierBase 0, arenaBase := tierBase 0 + 65536, arenaTables := 1,
    maskBands := 1, maskBase := tierBase 0 + 131072, listBase := tierBase 0 + 196608, listBytes := 8, windows := [], slots := [], counts := [], tables := [],
    lists := [], parkUsed := [], park3Used := [] }

theorem test_pool_windows : ((List.range 1024).foldl (fun t l => if bit (leAt (padTo 8192 poolBlk) (64 + 4 * l) 4) 31
    then Tbl.set none t l (some (bits (leAt (padTo 8192 poolBlk) (64 + 4 * l) 4) 0 18)) else t) []) = ([] : Tbl (Option Nat)) := by
  refine foldl_same _ _ _ fun l hl => ?_
  have := List.mem_range.mp hl
  rw [leAt_pad _ _ _ _ (by omega), leAt_beyond _ _ _ (by show 52 ≤ _; omega)]
  rfl

theorem test_pool_of_block : poolOf poolMf (padTo 8192 poolBlk) = pool0 := by
  unfold poolOf
  rw [test_pool_windows]
  rw [leAt_pad 8192 0 1 _ (by decide), leAt_pad 8192 1 1 _ (by decide), leAt_pad 8192 2 1 _ (by decide), leAt_pad 8192 3 1 _ (by decide),
    leAt_pad 8192 4 4 _ (by decide), leAt_pad 8192 8 8 _ (by decide), leAt_pad 8192 16 8 _ (by decide), leAt_pad 8192 24 4 _ (by decide),
    leAt_pad 8192 28 2 _ (by decide), leAt_pad 8192 30 2 _ (by decide), leAt_pad 8192 32 8 _ (by decide), leAt_pad 8192 40 8 _ (by decide),
    leAt_pad 8192 48 4 _ (by decide), show leAt poolBlk 30 2 = 0 by decide]
  decide

theorem test_pool_allowed (i : Nat) (hi : i < 52) : allowedBits kvBlockAllow i = 255 := by
  unfold allowedBits kvBlockAllow
  rw [List.append_assoc, List.foldl_append, foldl_same]
  · simp only [List.foldl_cons, List.foldl_nil]
    rw [if_pos ⟨Nat.zero_le i, Nat.le_of_lt_succ hi⟩]
    decide
  · intro x hx
    rw [List.mem_append, List.mem_flatMap, List.mem_map] at hx
    rw [if_neg]
    rcases hx with ⟨l, _, hl⟩ | ⟨j, _, rfl⟩
    · simp only [List.mem_cons, List.not_mem_nil, or_false] at hl
      rcases hl with rfl | rfl | rfl <;> simp only [not_and] <;> omega
    · simp only [not_and]
      omega

theorem test_hyps_pool_form (s : State) : poolFormOk s 0 poolMf (padTo 8192 poolBlk) = true ∧ geometryOk pool0 = true ∧ pool0.base % pool0.payload = 0 ∧ areasInTier pool0 = true := by
  refine ⟨?_, by decide, by decide, by decide⟩
  unfold poolFormOk
  simp only [test_pool_of_block]
  rw [cleanBytes_short kvBlockAllow 8192 poolBlk (fun i hi => test_pool_allowed i hi), leAt_pad 8192 0 1 _ (by decide), leAt_pad 8192 30 2 _ (by decide),
    show leAt poolBlk 30 2 = 0 by decide]
  rfl

/-- Binding 2 with that manifest, with or without the pool. -/
def pooled (p : Option Pool) : State :=
  let s := bound { img0 0 0 1 [0] 3 with manifest := poolMf } id
  { s with kv := { s.kv with pools := match p with | some x => [(2, some x)] | none => [] } }

/-- Other areas of partition 0 lie on granules 0 to 3 of T1. -/
def claimed (s : State) : State := modTier 0 (fun x => { x with claims := [(0, 1), (16, 1), (32, 1), (48, 1)] }) s

def poolM (release : Byte) : Mbx := cmd ([2, 0, release, 0, 0, 0, 0, 0] ++ leBytes 8 (2 ^ 46)) (.ok poolBlk)

theorem test_hyps_pool_config :
    Starts kvPoolConfigSpec (poolM 0) (pooled none) ∧ Starts kvPoolConfigSpec (poolM 1) (pooled (some pool0)) ∧
      HostGives (newCmd up 0x0680 (poolM 0)) (takeCmd (newCmd up 0x0680 (poolM 0)) (pooled none)) (2 ^ 46) 8192 poolBlk ∧
      myBinding (pooled none) (newCmd up 0x0680 (poolM 0)) 2 = some servedBinding ∧ poolLive (pooled none) 2 = false ∧
      Starts kvPoolConfigSpec (cmd [3]) (pooled none) ∧ myBinding (pooled none) (newCmd up 0x0680 (cmd [3])) 3 = none ∧
      ((pooled none).kv.pools.filter fun q => q.2.isSome).length < 256 ∧ bindingManifest (pooled none) 2 = poolMf ∧
      (claimAreas 0 (poolAreas pool0) (releasePool 2 0 (claimed (pooled none)))).isSome = true ∧ Starts kvPoolConfigSpec (poolM 0) (claimed (pooled none)) ∧ geometryOk { pool0 with kvFmt := 1 } = false ∧
      areasInTier { pool0 with base := tierBase 1 } = false := by decide

/-- A partition without quota. -/
def poor : State :=
  let s := pooled none
  { s with part := { s.part with parts := [(0, some { part0 with t1Limit := 0 })] } }

theorem test_hyps_pool_no_quota : claimAreas 0 (poolAreas pool0) (releasePool 2 0 poor) = none ∧ Starts kvPoolConfigSpec (poolM 0) poor := by
  refine ⟨?_, by decide⟩
  show (claimArea 0 0 0 49152 poor).bind _ = none
  unfold claimArea
  rw [if_pos]
  · rfl
  · rw [Bool.or_eq_true]
    exact Or.inr (by decide)

/-- A sequence of request 0 in that pool, with page 2 in its entry of layer 0, page 0. -/
def entry0 (shared : Bool) : PageEntry := { state := 1, shared := shared, tentative := false, poisoned := false, fill := 64, page := 2 }
def seq0 (copying : List (Nat × Nat)) : SeqPages :=
  { binding := 2, directory := none, tops := [], seconds := [], watermark := 64, written := 64, entries := [(0, some (entry0 true))], fresh := [], copying := copying }
def request0 : Request := { Request.reset with state := .idle, binding := 2, copied := true, inputs := 64, prefilled := 64 }

def sequenced (r : Request) (copying : List (Nat × Nat)) : State :=
  let s := pooled (some { pool0 with pages := 6, counts := [(2, 1)] })
  { s with kv := { s.kv with seqs := [(0, some (seq0 copying))] }, srv := { s.srv with configs := [(2, some { block := [1, 0] })], requests := [(0, some r)] } }

theorem test_hyps_kv_query :
    (let m := cmd ([0, 0, 0, 0, 0, 0, 0, 0] ++ leBytes 8 (2 ^ 46))
     Starts kvSeqQuerySpec m (sequenced request0 []) ∧ Tbl.get none (sequenced request0 []).srv.requests 0 = some request0 ∧
       seqp? (sequenced request0 []) 0 = some (seq0 []) ∧ hostOk up (newCmd up 0x0681 m) (2 ^ 46) 65536 = true ∧ (newCmd up 0x0681 m).part = some request0.part ∧
       Starts kvSeqQuerySpec m (sequenced { request0 with part := 1 } []) ∧ Starts kvSeqQuerySpec m up) ∧
      (let m := cmd ([2, 0, 0, 0, 0, 0, 0, 0] ++ leBytes 8 (2 ^ 46))
       Starts kvPoolStatusSpec m (pooled (some pool0)) ∧ pool? (pooled (some pool0)) 2 = some pool0 ∧ Starts kvPoolStatusSpec m (pooled none)) := by decide

/-- A batch whose slot 0 decodes request 0. -/
def batch0 : Batch :=
  { binding := 2, seg := 0, slots := [{ voidSlot with req := 0, kind := 1 }], counts := [], finalised := false, bags := [], ran := false, status := none,
    results := [], poisoned := [] }

theorem test_hyps_kv_drop :
    Starts kvDropSpec (cmd []) (sequenced request0 []) ∧ myRequest (sequenced request0 []) (newCmd up 0x0683 (cmd [])) 0 = some request0 ∧
      inBatch (sequenced request0 []) 0 = false ∧ Starts kvDropSpec (cmd []) up ∧
      (let s := sequenced request0 []
       let t := { s with srv := { s.srv with curBatches := [(0, [batch0])] } }
       inBatch t 0 = true ∧ Starts kvDropSpec (cmd []) t) ∧ poolLive (sequenced request0 []) 2 = true ∧ Starts kvPoolConfigSpec (poolM 0) (sequenced request0 []) := by decide

theorem test_hyps_cow :
    seqp? (sequenced request0 [(0, 3)]) 0 = some (seq0 [(0, 3)]) ∧ Tbl.get none (seq0 [(0, 3)]).entries 0 = some (entry0 true) ∧
      (pool? (sequenced request0 [(0, 3)]) 2).isSome = true ∧ seqp? up 0 = none := by decide

theorem test_hyps_pages :
    Tbl.wf 0 ({ pool0 with counts := [(2, 1)] } : Pool).counts = true ∧ 3 ∉ retiredPages (pooled (some { pool0 with pages := 6, counts := [(2, 1)] })) pool0 ∧
      3 ∈ retiredPages (modTier 0 (fun x => { x with retired := [0] }) (pooled (some pool0))) pool0 ∧ ((allocPage 2 (pooled (some { pool0 with pages := 6, counts := [(2, 1)] }))).map Prod.fst) = some 3 ∧
      (allocPage 2 (pooled (some { pool0 with counts := [(2, 1)] }))).map Prod.fst = none := by decide

/-! ### Serving -/

theorem cleanBytes_zeros (allow : List (Nat × Nat × Nat)) (n : Nat) (xs : List Byte)
    (hx : ∀ i, i < xs.length → (xs.getD i 0).toNat &&& (255 - allowedBits allow i) = 0) : cleanBytes allow n (padTo n xs) = true := by
  unfold cleanBytes firstReserved
  rw [Option.isNone_iff_eq_none, List.find?_eq_none]
  intro i hi
  rw [getD_pad n i xs (List.mem_range.mp hi)]
  by_cases h1 : i < xs.length
  · rw [hx i h1]
    simp
  · rw [List.getD_eq_getElem?_getD, List.getElem?_eq_none (by omega)]
    simp

/-- A serving configuration of program 1: one slot, 64 output bytes, records of 4 bytes a token. -/
def srvBlkAt (a : Nat) : List Byte :=
  [1, 0, 0xFF, 0xFF, 0, 0, 1, 0] ++ leBytes 8 a ++ leBytes 8 (tierBase 0 + 2048) ++ leBytes 8 (tierBase 0 + 4096) ++ leBytes 4 64 ++ leBytes 4 10000 ++
    leBytes 4 4 ++ leBytes 4 1 ++ leBytes 8 (tierBase 1)

def srvBlk : List Byte := srvBlkAt (tierBase 0)
/-- The same with its batch list in no tier. -/
def srvFar : List Byte := srvBlkAt (2 ^ 46)

/-- A READY model and program 1, with room in both tiers; the configuration in force, or not. -/
def servable (cfg : Option (List Byte)) : State :=
  let s := modTier 1 (fun x => { x with claims := [(0, 1)] }) (modTier 0 (fun x => { x with claims := [(0, 1)] }) (pooled (some { pool0 with pages := 9 })))
  { s with
    prog := { progs := [(1, some prog0)], active := [(0, some active0)] },
    srv := { s.srv with
      configs := match cfg with | some b => [(2, some { block := b })] | none => [],
      classes := [(0, some ClassCfg.reset)] } }

def srvM (release : Byte) (bs : List Byte) : Mbx := cmd ([2, 0, release, 0, 0, 0, 0, 0] ++ leBytes 8 (2 ^ 46)) (.ok bs)

theorem test_hyps_srv_block_clean (b : List Byte) (hb : b = srvBlk ∨ b = srvFar) : cleanBytes srvBlockAllow 4096 (padTo 4096 b) = true :=
  cleanBytes_zeros _ _ _ (by rcases hb with rfl | rfl <;> decide)

theorem srv_pad (b : List Byte) (f : List Byte → Nat) (o k : Nat) (hf : ∀ b, f b = leAt b o k) (h : o + k ≤ 4096) : f (padTo 4096 b) = f b := by
  rw [hf, hf, leAt_pad _ _ _ _ h]

theorem srv_short (b : List Byte) (hb : b = srvBlk ∨ b = srvFar) (o k : Nat) (h : 56 ≤ o) (h2 : o + k ≤ 4096) : leAt (padTo 4096 b) o k = 0 := by
  rw [leAt_pad _ _ _ _ h2, leAt_beyond _ _ _ (Nat.le_trans (by rcases hb with rfl | rfl <;> decide) h)]

theorem srv_areas (b : List Byte) : srvAreas (padTo 4096 b) = srvAreas b := by
  unfold srvAreas
  rw [srv_pad b Sc.batchBase 8 8 (fun _ => rfl) (by decide), srv_pad b Sc.resultBase 16 8 (fun _ => rfl) (by decide), srv_pad b Sc.outBase 24 8 (fun _ => rfl) (by decide),
    srv_pad b Sc.outBytes 32 4 (fun _ => rfl) (by decide), srv_pad b Sc.tokenBase 48 8 (fun _ => rfl) (by decide),
    srv_pad b Sc.tokenGranules 44 4 (fun _ => rfl) (by decide), srv_pad b Sc.maxSlots 6 2 (fun _ => rfl) (by decide)]

theorem srv_in_tier (b : List Byte) : srvAreasInTier (padTo 4096 b) = srvAreasInTier b := by
  unfold srvAreasInTier
  rw [srv_pad b Sc.batchBase 8 8 (fun _ => rfl) (by decide), srv_pad b Sc.resultBase 16 8 (fun _ => rfl) (by decide), srv_pad b Sc.outBase 24 8 (fun _ => rfl) (by decide),
    srv_pad b Sc.outBytes 32 4 (fun _ => rfl) (by decide), srv_pad b Sc.tokenBase 48 8 (fun _ => rfl) (by decide),
    srv_pad b Sc.tokenGranules 44 4 (fun _ => rfl) (by decide), srv_pad b Sc.maxSlots 6 2 (fun _ => rfl) (by decide)]

theorem test_hyps_srv_form (b : List Byte) (hb : b = srvBlk ∨ b = srvFar) : srvFormOk (servable none) 0 (padTo 4096 b) = true := by
  have d : Sc.draft (padTo 4096 b) = Sc.draft b := by
    unfold Sc.draft
    rw [leAt_pad 4096 2 2 _ (by decide)]
  have roles : ((List.range 8).all fun v => decide (Sc.role (padTo 4096 b) v ≤ 7)) = true := by
    refine List.all_eq_true.mpr fun v hv => ?_
    have := List.mem_range.mp hv
    unfold Sc.role
    rw [srv_short b hb _ _ (by omega) (by omega)]
    rfl
  have tables : ∀ t ∈ List.range 16, Sc.defined (padTo 4096 b) t = false := by
    intro t ht
    have := List.mem_range.mp ht
    unfold Sc.defined
    rw [srv_short b hb _ _ (by omega) (by omega), bne_self_eq_false, Bool.and_false]
  unfold srvFormOk
  rw [test_hyps_srv_block_clean b hb, roles, d, List.all_eq_true.mpr (fun t ht => by rw [tables t ht]; rfl)]
  rw [srv_pad b Sc.program 0 2 (fun _ => rfl) (by decide), srv_pad b Sc.batchBase 8 8 (fun _ => rfl) (by decide), srv_pad b Sc.resultBase 16 8 (fun _ => rfl) (by decide),
    srv_pad b Sc.outBase 24 8 (fun _ => rfl) (by decide), srv_pad b Sc.tokenBase 48 8 (fun _ => rfl) (by decide), srv_pad b Sc.maxSlots 6 2 (fun _ => rfl) (by decide),
    srv_pad b Sc.cutoff 36 4 (fun _ => rfl) (by decide), srv_pad b Sc.tokenBytes 40 4 (fun _ => rfl) (by decide), srv_pad b Sc.dedupRows 78 2 (fun _ => rfl) (by decide),
    srv_pad b Sc.dedupBase 76 2 (fun _ => rfl) (by decide), srv_pad b Sc.goutFmt 85 1 (fun _ => rfl) (by decide), leAt_pad 4096 4 1 _ (by decide), leAt_pad 4096 80 6 _ (by decide)]
  rcases hb with rfl | rfl <;> decide

theorem test_hyps_srv_areas : srvAreasInTier (padTo 4096 srvBlk) = true ∧ srvAreasInTier (padTo 4096 srvFar) = false ∧ Sc.dedupRows srvBlk = 0 := by
  rw [srv_in_tier, srv_in_tier]
  decide

/-- A block of zeros has no slot. -/
theorem test_hyps_srv_bad (s : State) : srvFormOk s 0 (padTo 4096 []) = false := by
  refine Bool.eq_false_iff.mpr fun h => ?_
  unfold srvFormOk at h
  simp only [Bool.and_eq_true, decide_eq_true_eq] at h
  have h1 := h.1.1.1.1.1.1.1.1.1.1.1.1.1.1.2
  revert h1
  rw [srv_pad [] Sc.maxSlots 6 2 (fun _ => rfl) (by decide)]
  decide

theorem test_hyps_srv_config :
    Starts srvConfigSpec (srvM 0 srvBlk) (servable none) ∧ Starts srvConfigSpec (srvM 1 []) (servable (some srvBlk)) ∧ bindingLive (servable none) 2 = false ∧
      Starts srvConfigSpec (srvM 0 srvFar) (servable none) ∧ Starts srvConfigSpec (srvM 0 []) (servable none) ∧
      HostGives (newCmd up 0x0501 (srvM 0 srvBlk)) (takeCmd (newCmd up 0x0501 (srvM 0 srvBlk)) (servable none)) (2 ^ 46) 4096 srvBlk ∧
      (claimAreas 0 (srvAreas srvBlk) (servable none)).isSome = true ∧ Starts srvConfigSpec (srvM 0 []) (sequenced request0 []) ∧
      bindingLive (sequenced request0 []) 2 = true ∧ Starts srvConfigSpec (cmd [3]) up := by decide

theorem test_hyps_srv_no_quota : claimAreas 0 (srvAreas srvBlk) poor = none := by
  show (claimArea 0 0 0 32 poor).bind _ = none
  unfold claimArea
  rw [if_pos]
  · rfl
  · rw [Bool.or_eq_true]
    exact Or.inr (by decide)

/-- SRV_CLASS 0: risk 50, chunks of 64 positions, windows of 1. -/
def classM (risk : Byte) : Mbx := cmd [0, 0, 0, risk, 0, 0, 0, 0, 0, 0, 0, 0, 64, 0, 0, 0, 1, 0, 1, 0]

theorem test_hyps_srv_class :
    Starts srvClassSpec (classM 50) up ∧ classOk (newCmd up 0x0502 (classM 50)) = true ∧ Starts srvClassSpec (classM 0) up ∧
      classOk (newCmd up 0x0502 (classM 0)) = false ∧ Starts srvClassSpec (classM 50) due ∧ stepping due = true := by decide

/-- SRV_SUBMIT to binding `h`: one position, at most `out` outputs, of request `id`, with prefix `pre`. -/
def submitM (h cls : Byte) (id pre out : Nat) : Mbx :=
  cmd ([h, 0, cls, 0] ++ leBytes 4 id ++ leBytes 4 pre ++ leBytes 4 1 ++ leBytes 8 (2 ^ 46) ++ leBytes 8 (2 ^ 46) ++ leBytes 4 64 ++ leBytes 4 out)

def none32 : Nat := 0xFFFFFFFF

/-- With the model in another state. -/
def servedAs (st : Nat) : State :=
  let s := servable (some srvBlk)
  { s with mdl := { s.mdl with bindings := [(2, some { servedBinding with state := st })] } }

theorem test_hyps_submit :
    Starts srvSubmitSpec (submitM 2 0 none32 none32 1) (servedAs 2) ∧ srvOf (servedAs 2) 2 = some srvBlk ∧ Sc.single srvBlk = false ∧
      hostOk (takeCmd (newCmd up 0x0503 (submitM 2 0 none32 none32 1)) (servedAs 2)) (newCmd up 0x0503 (submitM 2 0 none32 none32 1)) (2 ^ 46) (1 * recUnit srvBlk) = true ∧
      hostOk up (newCmd up 0x0503 (submitM 2 0 none32 none32 1)) (2 ^ 46) 64 = true ∧ (liveSlots (servedAs 2)).length < 262144 ∧
      partLive (servedAs 2) 0 < ((part? (servedAs 2) 0).map Part.reqLimit).getD 0 ∧ Starts srvSubmitSpec (submitM 3 0 none32 none32 1) (servedAs 2) ∧
      Starts srvSubmitSpec (submitM 2 16 none32 none32 1) (servedAs 2) ∧
      Starts srvSubmitSpec (submitM 2 0 none32 none32 1) (servedAs 0) ∧ Starts srvSubmitSpec (submitM 2 0 none32 none32 1) (servedAs 1) ∧
      Starts srvSubmitSpec (submitM 2 0 none32 none32 1) (servedAs 4) ∧ Starts srvSubmitSpec (submitM 2 0 none32 none32 16777215) (servedAs 2) ∧
      Starts srvSubmitSpec (submitM 2 0 none32 5 1) (servedAs 2) ∧ findReq (servedAs 2) 0 7 = .inl 0x16 ∧ Starts srvSubmitSpec (submitM 2 0 7 none32 1) (servedAs 2) := by decide

/-- Request 0 there, in a state, with its sequence and a prefix of its first page. -/
def prefix0 (bad : Bool) : Prefix :=
  { gen := 0, live := true, part := 0, binding := 2, positions := 64, pages := [(0, 2)], record := [], poisoned := bad, flushed := false }
def serving (r : Request) (bad : Bool) : State :=
  let s := servedAs 2
  { s with
    kv := { s.kv with pools := [(2, some { pool0 with pages := 9, counts := [(2, 1)] })], seqs := [(0, some (seq0 []))] },
    srv := { s.srv with requests := [(0, some r)], prefixes := [(5, some (prefix0 bad))] } }

theorem test_hyps_submit_turn :
    Starts srvSubmitSpec (submitM 2 0 0 none32 1) (serving request0 false) ∧ findReq (serving request0 false) 0 0 = .inr 0 ∧
      (req (serving request0 false) 0).state = .idle ∧ (req (serving request0 false) 0).inputs = 64 ∧
      Starts srvSubmitSpec (submitM 2 0 0 none32 1) (serving { request0 with state := .decode } false) ∧
      findReq (serving { request0 with state := .decode } false) 0 0 = .inr 0 ∧
      Starts srvSubmitSpec (submitM 2 0 0 none32 1) (serving { request0 with state := .parked } false) ∧
      findReq (serving { request0 with state := .parked } false) 0 0 = .inr 0 ∧ request0.wantUnpark = false ∧
      Starts srvSubmitSpec (submitM 2 0 none32 5 1) (serving request0 false) ∧ findPrefix (serving request0 false) 0 5 = .inr (prefix0 false) ∧
      findPrefix (serving request0 true) 0 5 = .inr (prefix0 true) ∧ (liveSlots (serving request0 false)).length < 262144 ∧
      partLive (serving request0 false) 0 < ((part? (serving request0 false) 0).map Part.reqLimit).getD 0 := by decide

/-- The partition has as many live requests as it may. -/
def crowded : State :=
  let s := serving request0 false
  { s with part := { s.part with parts := [(0, some { part0 with reqLimit := 1 })] } }

theorem test_hyps_submit_full :
    Starts srvSubmitSpec (submitM 2 0 none32 none32 1) crowded ∧ ((part? crowded 0).map Part.reqLimit).getD 0 ≤ partLive crowded 0 := by decide

/-- A single-shot model. -/
def singleBlk : List Byte := [1, 0, 0xFF, 0xFF, 1]
theorem test_hyps_submit_single :
    (let s := { servedAs 2 with srv := { (servedAs 2).srv with configs := [(2, some { block := singleBlk })] } }
     Starts srvSubmitSpec (submitM 2 0 none32 none32 1) s ∧ srvOf s 2 = some singleBlk ∧ Sc.single singleBlk = true) := by decide

set_option maxRecDepth 20000 in
theorem test_hyps_input :
    (let r := { request0 with copied := false, state := .waiting }
     (req (serving r false) 0).live = true ∧ (req (serving r false) 0).copied = false ∧ enabled (serving r false) 0 = true ∧
       hostStatus .timeout = some 0x0C ∧ (extendRecord 0 (padTo (64 * recUnit (reqCfg (serving r false) 0)) []) (serving r false)).isSome = true) ∧
      (let r := { request0 with copied := false, state := .waiting, turnFunc := 9 }
       enabled (serving r false) 9 = false) ∧ (req (serving request0 false) 0).copied = true ∧ (req up 0).live = false := by decide

theorem test_hyps_cancel :
    Starts srvCancelSpec (cmd []) (serving request0 false) ∧ request0.inTurn = false ∧ Starts srvCancelSpec (cmd []) (serving { request0 with state := .decode } false) ∧
      ({ request0 with state := .decode } : Request).inTurn = true ∧ findReq up 0 0 = .inl 0x16 ∧ Starts srvCancelSpec (cmd []) up ∧
      (let r := { request0 with state := .ending }
       Starts srvCancelSpec (cmd []) (serving r false) ∧ findReq (serving r false) 0 0 = .inr 0) ∧
      (let s := { serving request0 false with step := due.step }
       Starts srvCancelSpec (cmd []) s ∧ stepping s = true ∧ findReq s 0 0 = .inr 0) := by decide

theorem test_hyps_delivery :
    (let r := { request0 with deliveries := [([1, 2], 1)], outUsed := 2, progress := true }
     (req (serving r false) 0).deliveries = [([1, 2], 1)] ∧ enabled (serving r false) (req (serving r false) 0).turnFunc = true) ∧
      enabled (serving { request0 with turnFunc := 9 } false) 9 = false ∧ (req up 0).deliveries = [] ∧
      (let m := cmd ([0, 0, 0, 0, 0, 0, 0, 0] ++ leBytes 8 (2 ^ 46))
       Starts srvQuerySpec m (serving request0 false) ∧ hostOk up (newCmd up 0x0508 m) (2 ^ 46) 4096 = true ∧ Starts srvQuerySpec m up) := by decide

def parkM (dest : Byte) (ttl : Nat) : Mbx := cmd ([0, 0, 0, 0, dest, 0, 0, 0] ++ leBytes 4 ttl)

theorem test_hyps_park :
    Starts srvParkSpec (parkM 0 1) (serving request0 false) ∧ parkKeys (serving request0 false) 0 = [] ∧ parkKeys up 0 = [] ∧
      Starts srvParkSpec (parkM 0 1000001) (serving request0 false) ∧ Starts srvParkSpec (parkM 0 1) (serving { request0 with state := .decode } false) ∧
      Starts srvParkSpec (parkM 0 1) up ∧
      (let s := { serving request0 false with step := due.step }
       Starts srvParkSpec (parkM 0 1) s ∧ stepping s = true) ∧
      (let s := serving request0 false
       let t := { s with kv := { pools := [(2, some { pool0 with counts := [(2, 1)] })], seqs := [(0, some { seq0 [] with entries := [(0, some (entry0 false))] })] } }
       Starts srvParkSpec (parkM 0 1) t ∧ findReq t 0 0 = .inr 0 ∧ parkKeys t 0 = [0] ∧ takeParks 2 false 0 [0] t = none) := by decide

theorem test_hyps_park_moves :
    (let r := { request0 with state := .parking, moves := [(0, 12)] }
     seqp? (serving r false) 0 = some (seq0 []) ∧ (pool? (serving r false) 2).isSome = true ∧ (req (serving r false) 0).state = .parking ∧
       (req (serving r false) 0).moved = false ∧ (req (serving r false) 0).parkDest ≠ 1 ∧ Tbl.get none (seq0 []).entries 0 = some (entry0 true)) ∧
      (let r := { request0 with state := .unparking, moves := [(0, 3)] }
       (req (serving r false) 0).state = .unparking ∧ (req (serving r false) 0).moved = false ∧ (req (serving { r with parkDest := 1 } false) 0).parkDest = 1) ∧
      hostStatus .timeout = some 0x0C := by decide

theorem test_hyps_park_expiry :
    (let r := { request0 with state := .parked, parkStart := 0, parkTtl := 0 }
     stepping (serving r false) = false ∧ (req (serving r false) 0).state = .parked ∧ (req (serving r false) 0).parkStart + 1000000000 * 0 ≤ rack (serving r false)) ∧
      (req (serving request0 false) 0).state ≠ .parked ∧ stepping due = true ∧ due.step.inReserve = false := by decide

def prefixM (n : Nat) : Mbx := cmd (leBytes 4 0 ++ leBytes 4 n)

theorem test_hyps_prefix :
    (let s := serving request0 false
     let t := { s with kv := { s.kv with pools := [(2, some { pool0 with pages := 9, counts := [(2, 1)], windows := [(0, some 0)] })] } }
     Starts srvPrefixCreateSpec (prefixM 64) t ∧ findReq t 0 0 = .inr 0 ∧
       prefixPages (seq0 []) { pool0 with pages := 9, counts := [(2, 1)], windows := [(0, some 0)] } 64 = some [(0, 2)] ∧
       (livePrefixes t).length < 65536 ∧ Starts srvPrefixCreateSpec (prefixM 65) t ∧
       prefixPages { seq0 [] with entries := [] } { pool0 with windows := [(0, some 0)] } 64 = none) ∧
      Starts srvPrefixCreateSpec (prefixM 64) up ∧
      (let s := { serving request0 false with step := due.step }
       Starts srvPrefixCreateSpec (prefixM 64) s ∧ Starts srvPrefixReleaseSpec (cmd (leBytes 4 5)) s ∧ findPrefix s 0 5 = .inr (prefix0 false)) ∧
      Starts srvPrefixReleaseSpec (cmd (leBytes 4 5)) (serving request0 false) ∧ Starts srvPrefixReleaseSpec (cmd (leBytes 4 6)) (serving request0 false) ∧
      findPrefix (serving request0 false) 0 6 = .inl 0x16 := by decide

/-- In the reserve, at the tick at which the request's time ends. -/
theorem test_hyps_park_expiry_reserve :
    (let r := { request0 with state := .parked, parkStart := 0, parkTtl := 0 }
     let s := { serving r false with step := { due.step with inReserve := true, lastTick := some 7 } }
     stepping s = true ∧ s.step.inReserve = true ∧ (req s 0).state = .parked ∧ (req s 0).parkStart + 1000000000 * (req s 0).parkTtl ≤ s.step.lastTick.getD (rack s)) := by decide

/-- Submissions that a check turns away: a reserved bit, a second turn while the request waits to be restored. -/
theorem test_hyps_submit_rejected :
    (let m := submitM 2 0 none32 none32 1
     let m := { m with params := m.params.set 3 8 }
     canStart (servedAs 2) m = true ∧ firstReserved srvSubmitSpec.allow 48 m.params = some 3) ∧
      (let r := { request0 with state := .parked, wantUnpark := true }
       Starts srvSubmitSpec (submitM 2 0 0 none32 1) (serving r false) ∧ (req (serving r false) 0).state ≠ .idle ∧ (req (serving r false) 0).wantUnpark = true) ∧
      hostStatus .timeout = some 0x0C ∧ (submitM 2 0 none32 none32 1).host = .ok [] := by decide

/-! ### Batches and gathering -/

/-- The last nanosecond before a tick, request 0 to decode in a served model with a configuration. -/
def toCut (r : Request) : State :=
  let s := serving r false
  { s with step := { due.step with nextTick := 1000 } }

theorem test_hyps_cutoff :
    dieOn (toCut request0) = true ∧ (toCut request0).step.run = true ∧ (toCut request0).step.nextTick ≤ rack (toCut request0) + cutoffOf (toCut request0) 0 ∧
      servedBindings (toCut request0) 0 = [2] ∧ Tbl.get [] (toCut request0).srv.nextBatches 0 = [] ∧ dieOn State.reset = false ∧
      (waitingCmds (toCut request0) 0x0502) = [] ∧
      (let s := toCut request0
       let t := { s with srv := { s.srv with nextBatches := [(0, [batch0])] } }
       Tbl.get [] t.srv.nextBatches 0 ≠ [] ∧ t.step.nextTick ≤ rack t + cutoffOf t 0) := by decide

theorem test_hyps_consider :
    (boosted (toCut request0) 1000 1000 0 && bit (reqClass (toCut request0) 0).policy 1) = false ∧ Sc.single (reqCfg (toCut request0) 0) = false ∧
      decodes (toCut { request0 with state := .decode }) 0 = true ∧ decodes (toCut request0) 0 = false ∧ Sc.role [0, 0] 0 = 0 ∧
      Sc.role (List.replicate 96 0 ++ [1]) 0 ≠ 0 := by decide

theorem test_hyps_finalise :
    stepDone (toCut request0) 0 = true ∧ stepDone entering 0 = false ∧ (req (toCut request0) 0).live = true ∧ endingSoon (toCut request0) 0 = false ∧
      cancelWaits (toCut request0) 0 = false ∧ (req up 0).live = false ∧ batch0.slots[0]? = some { voidSlot with req := 0, kind := 1 } := by decide

/-- A job of one bag of the first ID of table 0, to gather or fetched. -/
def job0 (next : Nat) (ready : List (Nat × List Nat)) : GthJob :=
  { part := 0, binding := 2, bags := [{ table := 0, op := 1, ids := [0] }], wave := 0, next := next, buffer := [], ready := ready }
def gathering (j : GthJob) (cfg : List Byte) : State :=
  let s := servable (some cfg)
  { s with gth := { s.gth with busy := true, job := some j } }

theorem test_hyps_gather :
    (gathering (job0 0 []) srvBlk).gth.job = some (job0 0 []) ∧ (job0 0 []).next < (job0 0 []).bags.length ∧ Sc.dedupRows srvBlk = 0 ∧
      Sc.dedupRows (srvBlk ++ List.replicate 22 0 ++ [1]) ≠ 0 ∧ (job0 1 []).bags.length ≤ (job0 1 []).next ∧ up.gth.job = none ∧
      (job0 1 [(0, [0])]).ready.find? (fun x => x.1 == 0) = some (0, [0]) ∧ (job0 1 []).ready.find? (fun x => x.1 == 0) = none ∧
      ((job0 1 [(0, [0])]).ready.filter fun x => x.1 != 0) = [] ∧ ((job0 1 [(0, [0]), (1, [0])]).ready.filter fun x => x.1 != 0) ≠ [] ∧
      idOk srvBlk 0 0 = false ∧ idOk (List.replicate 264 0 ++ [1]) 0 0 = true := by decide

/-- A slot of the request that was there when the batch was cut, and of one before it; a dedup row that an insertion holds, or that nothing does. -/
theorem test_hyps_batch_slots :
    slotLive (toCut request0) { voidSlot with req := 0, kind := 1, gen := request0.gen } = true ∧
      slotLive (toCut request0) { voidSlot with req := 0, kind := 1, gen := request0.gen + 1 } = false ∧ copiesDone (toCut request0) 0 = true := by decide

def dedupBlk : List Byte := List.replicate 78 0 ++ [1]

theorem test_hyps_dedup :
    dedupHeld (gathering (job0 0 []) dedupBlk) dedupBlk = [] ∧ dedupHeld (gathering (job0 0 []) srvBlk) srvBlk = [] ∧
      dedupHeld (modFld 0 (fun x => { x with ccPending := [(0, 8, 0, 7)] }) (gathering (job0 0 []) dedupBlk)) dedupBlk ≠ [] ∧ Sc.dedupRows dedupBlk ≠ 0 := by decide

/-! ### Power -/

/-- A power phase and what else stands with it. -/
def inPhase (n : Nat) (g : PwrSt → PwrSt := id) : State := { up with pwr := g { up.pwr with phase := n } }

theorem test_hyps_vin :
    State.reset.pwr.phase = 0 ∧ (inPhase 1).pwr.phase = 1 ∧ bootSlot (inPhase 1) false false = none ∧
      (let s := inPhase 1
       let t := { s with isl := { s.isl with flash := [(0, some { islandDigest := 1, avporDigest := 2, version := 3, svn := 0 })] } }
       bootSlot t true false = some (0, false)) ∧
      (inPhase 2).host.state ≠ 3 ∧ (inPhase 2).pwr.pwrEn = false ∧ (inPhase 2 fun p => { p with pwrEn := true }).pwr.pwrEn = true ∧
      (inPhase 3 fun p => { p with tripHold := true }).pwr.tripHold = true ∧ (inPhase 3).pwr.supplyHold = false := by decide

theorem test_hyps_supply :
    2 ≤ (inPhase 3).pwr.phase ∧ (inPhase 1).pwr.phase < 2 ∧ (inPhase 3 fun p => { p with heldStart := true }).pwr.heldStart = true ∧
      (inPhase 3).pwr.heldStart = false ∧ 4 ≤ (inPhase 8).pwr.phase ∧ (inPhase 3).pwr.downCause = 0 ∧
      (inPhase 3 fun p => { p with downCause := 1 }).pwr.downCause ≠ 0 ∧ (inPhase 3).now - (inPhase 3).pwr.pwrEnSince < 10000000 := by decide

theorem test_hyps_rails :
    (inPhase 4).pwr.rails = 0 ∧ (inPhase 4 fun p => { p with rails := 2, railAt := 7 }).now < 7 + 500000 ∧
      (let s := { inPhase 4 with now := 5000000 }
       s.pwr.railAt + (if s.pwr.rails = 0 then 0 else 500000) + 5000000 ≤ s.now) ∧
      (inPhase 4).now < (inPhase 4).pwr.railAt + 5000000 ∧ (inPhase 5).now < (inPhase 5).pwr.railAt + 1000000 ∧
      (let s := { inPhase 5 with now := 1000000 }
       s.pwr.railAt + 1000000 ≤ s.now ∧ s.pwr.heldReset = false) := by decide

theorem test_hyps_bring_up :
    (let s := inPhase 6
     { s with host := { s.host with state := 0 } }.host.state = 0 ∧ { s with host := { s.host with state := 0 } }.pwr.phase = 6) ∧
      (let s := inPhase 7
       { s with host := { s.host with state := 1 } }.host.state = 1 ∧ s.isl.erasing = false) ∧
      (inPhase 9 fun p => { p with heldReset := true }).pwr.heldReset = true ∧ (inPhase 9).pwr.heldReset = false ∧
      (let s := { inPhase 3 (fun p => { p with restartDue := true }) with now := 100000000 }
       s.pwr.restartDue = true ∧ s.pwr.offAt + 100000000 ≤ s.now) ∧ (inPhase 3).pwr.restartDue = false := by decide

theorem test_hyps_lifeline_power :
    3 ≤ (inPhase 8).pwr.phase ∧ (inPhase 8).isl.erasing = false ∧ (inPhase 3).pwr.tripHold = false ∧
      (let s := inPhase 8
       let t := { s with isl := { s.isl with erasing := true }, host := { s.host with state := 1 } }
       t.isl.erasing = true ∧ t.host.state = 1 ∧ t.pwr.phase ≠ 3) ∧ 8 < (inPhase 9).pwr.phase ∧ (inPhase 0).pwr.phase < 3 := by decide

/-! ### Errors -/

/-- A hang record of a cause, captured at time 0; time 0 or a minute later. -/
def hung (c t : Nat) : State := { up with now := t, err := { up.err with hang := some { cause := c, at_ := 0, bytes := [] } } }

theorem test_hyps_hang :
    (hung 1 0).err.hang = some { cause := 1, at_ := 0, bytes := [] } ∧ (hung 1 0).now < 0 + 60000000000 ∧ 0 + 60000000000 ≤ (hung 2 60000000000).now ∧
      up.err.hang = none ∧ up.err.log.length ≤ 4096 := by decide

/-- A log as full as it gets. -/
theorem test_hyps_log_full (n : Nat) (h : n = 4096) : (List.replicate n ({ seq := 0, bytes := [] } : LogEntry)).length = 4096 := by
  rw [List.length_replicate, h]

theorem test_hyps_stall_hang :
    (let s := inProgram [] (running (some (.hitch 3)))
     dieOn s = true ∧ s.seq.cur = some (running (some (.hitch 3))) ∧ s.seq.hangNoted = false ∧
       stalledNs s < 1000000 * max 10 (min 60000 s.err.hangMs) ∧
       (let t : State := { s with now := s.now + 10000000, err := { s.err with hangMs := 0 } }
        t.seq.cur = some (running (some (.hitch 3))) ∧ 1000000 * max 10 (min 60000 t.err.hangMs) ≤ stalledNs t)) := by decide

theorem test_hyps_watchdog :
    dieOn up = true ∧ 7 ≤ up.pwr.phase ∧ up.pwr.phase ≤ 8 ∧ up.isl.coreMissed.contains 7 = false ∧ coreMs up 7 < 100 ∧ 100 ≤ coreMs { up with now := 100000000 } 7 := by decide

theorem test_hyps_counters :
    Starts errCounterClearSpec (cmd [0x10, 3, 0xFF]) up ∧ byPrimary up (newCmd up 0x0A01 (cmd [])) = true ∧ Starts errCounterClearSpec (cmd [0x11]) up ∧
      Starts errCounterClearSpec (cmd [0x10, 1, 15]) up ∧ Starts errCounterClearSpec (cmd [0x10, 1, 16]) up ∧
      (let s := { up with host := { up.host with primary := some 32 } }
       Starts errCounterClearSpec (cmd [0x10, 3, 0xFF]) s ∧ byPrimary s (newCmd s 0x0A01 (cmd [])) = false ∧ (newCmd s 0x0A01 (cmd [])).part ≠ some 15 ∧
         (newCmd s 0x0A01 (cmd [])).part = some 0 ∧ Starts errCounterClearSpec (cmd [0x10, 1, 15]) s) := by decide

theorem test_hyps_error_reads :
    (let m := cmd ([0, 0, 0, 0, 1, 0, 0, 0] ++ leBytes 8 (2 ^ 46))
     Starts errLogReadSpec m up ∧ hostOk up (newCmd up 0x0A02 m) (2 ^ 46) 64 = true) ∧
      (let m := cmd ([0, 0, 0, 0, 1, 0x10, 0, 0] ++ leBytes 8 (2 ^ 46))
       Starts errLogReadSpec m up ∧ 4096 < pNum (newCmd up 0x0A02 m) 4 2) ∧
      (let m := cmd ([0, 0, 0, 0, 0, 0, 0, 0] ++ leBytes 8 (2 ^ 46))
       Starts errHangReadSpec m up ∧ Starts errHangReadSpec m (hung 1 0) ∧ hostOk up (newCmd up 0x0A03 m) (2 ^ 46) 8192 = true) ∧
      Starts errHangCaptureSpec (cmd []) up ∧ Starts errCfgSetSpec (cmd (leBytes 2 10)) up ∧ Starts errCfgSetSpec (cmd (leBytes 2 60001)) up := by decide

/-! ### The island -/

theorem test_hyps_sec_reads :
    (let m := cmd ([0, 0, 0, 0, 0, 0, 0, 0] ++ leBytes 8 (2 ^ 46))
     Starts secIdentitySpec m up ∧ hostOk up (newCmd up 0x0901 m) (2 ^ 46) 16384 = true) ∧
      (let m := cmd ([0, 0] ++ leBytes 38 0 ++ leBytes 8 (2 ^ 46))
       Starts secAttestSpec m up ∧ hostOk up (newCmd up 0x0902 m) (2 ^ 46) 4096 = true) ∧
      (let m := cmd ([1, 0] ++ leBytes 38 0 ++ leBytes 8 (2 ^ 46))
       Starts secAttestSpec m up ∧ funcPart up 0 = some 0) ∧
      Starts secAttestSpec (cmd [2]) up ∧ Starts secAttestSpec (cmd [1, 1]) up ∧ funcPart up 0 ≠ some 1 ∧ Starts secChallengeSpec (cmd []) up ∧
      Starts secLcStatusSpec (cmd []) up := by decide

/-- An authorisation for a target state. -/
def authFor (new : Byte) : List Byte := [0, 0, 0, 0, 0, 0, new, 0]

def authM (n : Byte) (a : List Byte) : Mbx := cmd ([n, 0, 0, 0, 0, 0, 0, 0] ++ leBytes 8 (2 ^ 46)) (.ok a)

theorem clean_auth (new : Byte) : Auth.clean (padTo 320 (authFor new)) = true := by
  unfold Auth.clean Auth.scope
  rw [cleanBytes_zeros _ 320 _ (by
    intro i hi
    have h8 : i < 8 := hi
    have := (show i = 0 ∨ i = 1 ∨ i = 2 ∨ i = 3 ∨ i = 4 ∨ i = 5 ∨ i = 6 ∨ i = 7 by omega)
    rcases this with rfl | rfl | rfl | rfl | rfl | rfl | rfl | rfl
    case inr.inr.inr.inr.inr.inr.inl => show new.toNat &&& (255 - allowedBits _ 6) = 0; rw [show allowedBits _ 6 = 255 by decide]; exact Nat.and_zero _
    all_goals exact Nat.zero_and _), leAt_pad _ _ _ _ (by decide), leAt_beyond _ _ _ (by show 8 ≤ 60; decide)]
  decide

theorem slice_pad (n : Nat) (xs : List Byte) : sliceBytes (padTo n xs) 0 n = padTo n xs := by
  have hl : (padTo n xs).length = n := by
    unfold padTo
    rw [List.length_take, List.length_append, List.length_replicate]
    omega
  unfold sliceBytes
  refine List.ext_getElem (by rw [List.length_map, List.length_range, hl]) fun i h1 h2 => ?_
  rw [List.getElem_map, List.getElem_range, List.getD_eq_getElem?_getD, Nat.zero_add, List.getElem?_eq_getElem h2]
  rfl

theorem test_hyps_transition (new : Byte) :
    (((List.range 1).map fun i => sliceBytes (padTo (320 * 1) (authFor new)) (320 * i) 320).all Auth.clean) = true ∧
      Auth.target ((((List.range 1).map fun i => sliceBytes (padTo (320 * 1) (authFor new)) (320 * i) 320)).headD []) = new.toNat := by
  have h : ((List.range 1).map fun i => sliceBytes (padTo (320 * 1) (authFor new)) (320 * i) 320) = [padTo 320 (authFor new)] :=
    congrArg (fun x => [x]) (slice_pad 320 (authFor new))
  rw [h]
  refine ⟨by rw [List.all_cons, clean_auth]; rfl, ?_⟩
  show leAt (padTo 320 (authFor new)) 6 1 = _
  rw [leAt_pad _ _ _ _ (by decide)]
  show new.toNat + 256 * 0 = _
  omega

theorem test_hyps_transition_starts :
    Starts secLcTransitionSpec (authM 1 (authFor 1)) up ∧ lcStep up.isl.lc 1 = true ∧ lcStep up.isl.lc 3 = false ∧ Starts secLcTransitionSpec (authM 3 []) up ∧
      HostGives (newCmd up 0x0905 (authM 1 (authFor 1))) (takeCmd (newCmd up 0x0905 (authM 1 (authFor 1))) up) (2 ^ 46) 320 (authFor 1) := by decide

/-- An authorisation with a reserved bit set. -/
theorem test_hyps_transition_dirty : Auth.clean [0, 0, 0, 0, 0, 0, 0, 1] = false := by decide

/-- The life cycle at a state, and other settings of the island. -/
def island (g : IslSt → IslSt) : State := { up with isl := g up.isl }

theorem test_hyps_owner_keys :
    (let m := cmd ([0, 0, 0, 0, 0, 0, 0, 0] ++ leBytes 8 (2 ^ 46)) (.ok [])
     Starts secOwnerKeysSpec m up ∧ Starts secOwnerKeysSpec m (island fun i => { i with lc := 3 }) ∧
       HostGives (newCmd up 0x0906 m) (takeCmd (newCmd up 0x0906 m) up) (2 ^ 46) 320 [] ∧ Starts secTokenSpec m up ∧
       Starts secTokenSpec m (island fun i => { i with erasing := true }) ∧
       HostGives (newCmd up 0x0907 m) (takeCmd (newCmd up 0x0907 m) up) (2 ^ 46) 320 []) ∧
      Starts secTokenSpec (cmd [1]) up ∧ pBit (newCmd up 0x0907 (cmd [1])) 0 0 = true ∧ up.isl.lc ≠ 3 := by decide

theorem test_hyps_owner_key_form : Auth.clean (padTo 320 (authFor 0)) = true ∧ Auth.slot (padTo 320 (authFor 0)) ≤ 3 ∧ Auth.op (padTo 320 (authFor 0)) = 0 := by
  refine ⟨clean_auth 0, ?_, ?_⟩
  · unfold Auth.slot
    rw [leAt_pad _ _ _ _ (by decide)]
    decide
  · unfold Auth.op
    rw [leAt_pad _ _ _ _ (by decide)]
    decide

theorem test_hyps_firmware :
    (let m := cmd ([0, 0, 0, 0, 0, 0, 0, 0] ++ leBytes 8 (2 ^ 46) ++ leBytes 4 16) (.ok [])
     Starts secFwUpdateSpec m up ∧ HostGives (newCmd up 0x0908 m) (takeCmd (newCmd up 0x0908 m) up) (2 ^ 46) 16 []) ∧ Starts secFwUpdateSpec (cmd []) up ∧
      (let s := island fun i => { i with flash := [(1, some { islandDigest := 1, avporDigest := 2, version := 3, svn := 0 })] }
       Starts secFwActivateSpec (cmd []) s ∧ s.isl.fwSvn ≤ (flashOf s (idleSlot s)).svn) ∧
      (let s := island fun i => { i with fwSvn := 2, flash := [(1, some { islandDigest := 1, avporDigest := 2, version := 3, svn := 0 })] }
       Starts secFwActivateSpec (cmd []) s ∧ (flashOf s (idleSlot s)).svn < s.isl.fwSvn) ∧
      Starts secSvnCommitSpec (cmd []) (island fun i => { i with runningSvn := 63 }) ∧ Starts secSvnCommitSpec (cmd []) (island fun i => { i with runningSvn := 64 }) := by decide

theorem test_hyps_power_cfg :
    Starts secPowerCfgSpec (cmd (leBytes 2 300)) up ∧ Starts secPowerCfgSpec (cmd (leBytes 2 751)) up ∧
      Starts secPowerCfgSpec (cmd (leBytes 2 750 ++ [22, 1] ++ leBytes 2 640)) up ∧ thresholdOk 22 640 = true ∧ thresholdOk 22 1121 = false ∧
      Starts secPowerCfgSpec (cmd (leBytes 2 750 ++ [22, 1] ++ leBytes 2 1121)) up := by decide

theorem test_hyps_token :
    (let t : Token := { signer := 0, scope := 1, hitchParts := 1, injectParts := 0, injectPorts := 0, lifetime := 0, since := 0, digest := 0 }
     (island fun i => { i with token := some t }).isl.token = some t ∧ 0 + 1000000000 * 0 ≤ up.now ∧ up.now < 0 + 1000000000 * 1) ∧
      (let s := island fun i => { i with erasing := true }
       let t := { s with host := { s.host with state := 1 } }
       t.isl.erasing = true ∧ t.pwr.phase = 8 ∧ t.host.state = 1 ∧ t.pwr.heldReset = false) ∧ up.isl.erasing = false ∧ 3 ≤ up.pwr.phase ∧ State.reset.pwr.phase < 3 := by decide

theorem test_hyps_bus :
    (busOp 0x0904 (List.replicate 48 0) [] up).2.reset = false ∧ (List.replicate 50 (0 : Byte)).length = 50 ∧ ¬ (List.replicate 50 (0 : Byte)).length < 50 := by decide

theorem test_hyps_lifeline :
    leAt [0, 24] 0 1 + leAt [0, 24] 1 1 ≤ 24 ∧ leAt [101, 0] 0 2 ≤ 101 ∧ 101 < leAt [102, 0] 0 2 ∧ handPermitted up 15 = true ∧
      handPermitted (island fun i => { i with lc := 2 }) 0 = false ∧ leAt [15, 1, 0xFF, 0x0F, 0, 0, 0, 0, 0, 0, 0, 0] 2 2 ≤ 4095 := by decide

/-- A sensor's value. -/
def heated (i : Nat) (v : Int) (hold : Bool) : State :=
  let s := island fun x => { x with temps := [(i, ofSigned 16 v)] }
  { s with pwr := { s.pwr with tripHold := hold } }

theorem test_hyps_sensors :
    tripAt 0 = some 1760 ∧ 1760 ≤ temp (heated 0 1760 false) 0 ∧ temp (heated 0 1759 false) 0 < 1760 ∧ tripCooled (heated 0 1600 true) = true ∧
      tripCooled (heated 0 1601 true) = false ∧ (heated 0 0 true).pwr.tripHold = true := by decide

theorem test_hyps_gate :
    dieOn up = true ∧ up.isl.cap < 751 ∧ 750 ≤ up.isl.cap ∧ threshold up 0 = some 1520 ∧ (1520 : Int) < temp (heated 0 1521 false) 0 ∧
      (hotSensors up) = [] ∧ gateCooled up = true ∧ gateCooled (heated 0 1500 false) = false ∧ 100 * 734 < 98 * up.isl.cap ∧ 98 * up.isl.cap ≤ 100 * 735 := by decide

/-- A cap below and above its range, and in it (log entry 42). -/
theorem test_hyps_power_cap :
    powerCap (modIsl (fun i => { i with cap := 299 }) up) = 300 ∧ powerCap up = 750 ∧ powerCap (modIsl (fun i => { i with cap := 751 }) up) = 750 := by decide


/-! ### The step, reset and what every step keeps -/

/-- A command runs from the front of the queue; what waits behind it stays. -/
theorem test_step_runs_front : step { State.reset with pending := [.vinRise, .pwrEnRise] } = exec .vinRise { State.reset with pending := [.pwrEnRise] } := rfl

/-- With an empty queue a nanosecond passes, with the die off and on. -/
theorem test_hyps_idle : State.reset.pending = [] ∧ dieOn State.reset = false ∧ up.pending = [] ∧ dieOn up = true := by decide

/-- With the die on rack time goes with the clock; a correction moves it only at a 10 µs boundary (R527). -/
theorem test_idle_slews :
    (passTime 1 up).step.rackTime = 1 ∧
    (passTime 1 { up with now := 9999, fab := { up.fab with slewRest := 5 } }).step.rackTime = 2 ∧
    (passTime 1 { up with now := 9998, fab := { up.fab with slewRest := 5 } }).step.rackTime = 1 ∧
    (passTime 1 { up with now := 9999, fab := { up.fab with slewRest := -5 } }).step.rackTime = 0 := by decide

theorem test_hyps_invariants : Memory.wf State.reset.mem = true ∧ (300 ≤ State.reset.isl.cap ∧ State.reset.isl.cap ≤ 750) ∧ QueueOk State.reset := by
  exact ⟨by decide, by decide, rfl⟩

/-- A step from a state with data in memory, at either end of the cap's range. -/
theorem test_hyps_kept : Memory.wf ({ up with mem := [(5, 1)] } : State).mem = true ∧ CapInRange (modIsl (fun i => { i with cap := 300 }) up) ∧
    CapInRange up ∧ ¬ CapInRange (modIsl (fun i => { i with cap := 299 }) up) ∧ step up = .next (passTime 1 up) := by
  refine ⟨by decide, ⟨by decide, by decide⟩, ⟨by decide, by decide⟩, ?_, rfl⟩
  unfold CapInRange; decide

/-- A byte equal to zero, or out of order, is not canonical. -/
theorem test_memory_wf_refuses : Memory.wf [(5, 0)] = false ∧ Memory.wf [(5, 1), (5, 2)] = false ∧ Memory.wf [(6, 1), (5, 2)] = false := by decide

/-- The life cycle has four steps and no way back (R635). -/
theorem test_life_cycle_has_no_way_back : lcStep 0 1 = true ∧ lcStep 1 2 = true ∧ lcStep 1 3 = true ∧ lcStep 2 3 = true ∧ lcStep 2 1 = false ∧ lcStep 0 2 = false ∧
    lcStep 3 0 = false := by decide

/-- Some command of every kind that the frame names, and some that it does not. -/
theorem test_leaves_memory : leavesMemory .heartbeatSend = true ∧ leavesMemory (.knotWait 0) = true ∧ leavesMemory (.knotCopy 0 clean) = false ∧
    leavesMemory (.bar2Write 0 0 []) = false := by decide

/-- An answer goes behind what was sent before. -/
theorem test_out_grows : (emit (.msix 0 1) { State.reset with out := [.msix 0 0] }).out = [.msix 0 0, .msix 0 1] := by decide

/-! ### Well-formedness: a term that each check refuses -/

theorem test_wf_mailbox : Instr.wf (.devNop (cmd [])) = true ∧ Instr.wf (.devNop { cmd [] with func := 64 }) = false ∧
    Instr.wf (.devNop { cmd [] with queue := 16 }) = false ∧ Instr.wf (.devNop { cmd [] with tag := 65536 }) = false ∧
    Instr.wf (.devNop { cmd [] with cookie := 2 ^ 64 }) = false ∧ Instr.wf (.devNop { cmd [] with params := [] }) = false := by decide

theorem test_wf_scratchpad : Instr.wf (.bundleIssue [{ field := 16, row := 0, word := 0, corrected := true }]) = false ∧
    Instr.wf (.blockedAccessRetry [{ field := 0, row := 32768, word := 0, corrected := true }]) = false ∧
    Instr.wf (.scratchpadPatrol { field := 0, row := 0, word := 10, corrected := true }) = false ∧
    Instr.wf (.scratchpadPatrol { field := 0, row := 0, word := 10, corrected := false }) = true ∧
    Instr.wf (.scratchpadPatrol { field := 0, row := 0, word := 11, corrected := false }) = false ∧
    Instr.wf (.spDebugAccess 0 { op := .row 0, ecc := [{ field := 0, row := 0, word := 11, corrected := true }] }) = false ∧
    Instr.wf (.spDebugAccess 16 { op := .row 0, ecc := [] }) = false ∧ Instr.wf (.spDebugAccess 0 { op := .row (2 ^ 32), ecc := [] }) = false ∧
    Instr.wf (.spDebugAccess 0 { op := .cc 3 4 0 0, ecc := [] }) = false ∧ Instr.wf (.spDebugAccess 0 { op := .cc 0 5 0 0, ecc := [] }) = false ∧
    Instr.wf (.spDebugAccess 0 { op := .cc 0 4 (2 ^ 32) 0, ecc := [] }) = false ∧ Instr.wf (.spDebugAccess 0 { op := .cc 0 4 0 32768, ecc := [] }) = false ∧ Instr.wf (.ccInsWrite 16 0) = false ∧ Instr.wf (.ccInsWrite 0 32768) = false ∧
    Instr.wf (.cacheFill 16 0) = false ∧ Instr.wf (.cacheFill 0 (2 ^ 39)) = false := by decide

/-- Reads that meet a corrected block of a tier. -/
def meeting (t b : Nat) : ReadIn := { clean with blocks := [(t, b)] }

theorem test_wf_reads : Instr.wf (.knotCopy 0 (meeting 1 0x2E7FFFFFF)) = true ∧ Instr.wf (.knotCopy 0 (meeting 2 0)) = false ∧
    Instr.wf (.fill 0 (meeting 0 0x2E800000)) = false ∧ Instr.wf (.narrow 0 (meeting 1 0x2E8000000)) = false ∧
    Instr.wf (.knotCopy 0 { clean with ecc := [{ field := 0, row := 32768, word := 0, corrected := true }] }) = false ∧
    Instr.wf (.knotCombine 0 clean (meeting 2 0)) = false ∧ Instr.wf (.knotSend 4 clean) = false := by decide

theorem test_wf_tiers_and_models : Instr.wf (.streamCopy 32 clean) = false ∧ Instr.wf (.descriptorFail 0 0x17) = false ∧
    Instr.wf (.tierReadRetry 2 0 true) = false ∧ Instr.wf (.tierPatrol 0 (2 ^ 32) true) = false ∧ Instr.wf (.bar2Read 64 0 { len := 0, found := clean }) = false ∧
    Instr.wf (.bar2Read 0 0x1000000000 { len := 0, found := clean }) = false ∧ Instr.wf (.bar2Read 0 0 { len := 4097, found := clean }) = false ∧ Instr.wf (.shardArrived 65536 0 []) = false ∧
    Instr.wf (.shardTransferFail 0 0 0x17) = false ∧ Instr.wf (.cowCopyComplete 262144) = false ∧ Instr.wf (.batchCutoff 16) = false := by decide

theorem test_wf_fabric : Instr.wf (.flitCrcError 12) = false ∧ Instr.wf (.laneTrainingDone 0 true 16) = false ∧
    Instr.wf (.transferAbandon 4096 0) = false ∧ Instr.wf (.transferAbandon 0 65536) = false ∧ Instr.wf (.fabricIdentityAssign 256 0 0 0 0) = false ∧
    Instr.wf (.fabricIdentityAssign 0 64 0 0 0) = false ∧ Instr.wf (.fabricIdentityAssign 0 0 16 0 0) = false ∧
    Instr.wf (.fabricIdentityAssign 0 0 0 4096 0) = false ∧ Instr.wf (.fabricIdentityAssign 0 0 0 0 (2 ^ 64)) = false ∧ Instr.wf (.knotEnd 4) = false := by decide

theorem test_wf_payload (bs : List Byte) (h : bs.length = 1025) : Instr.wf (.doneReceived { w0 := 0, w1 := 0, w2 := 0, w3 := 0, payload := bs }) = false := by
  simp [Instr.wf, Packet.wf, below, h]

theorem test_wf_host : Instr.wf (.sqDoorbell 0 0 4096) = false ∧ Instr.wf (.queueEnable 0 0 (2 ^ 32)) = false ∧ Instr.wf (.interruptCoalesceTimer 0 17) = false ∧
    Instr.wf (.msixVectorUnmask 0 32) = false ∧ Instr.wf (.pfDebugWindowAccess 0 0x20000 4 none) = false ∧ Instr.wf (.pfDebugWindowAccess 0 0 2 none) = false ∧
    Instr.wf (.configRequest 0 (.readOther 4096)) = false ∧ Instr.wf (.configRequest 0 (.setVf true 32)) = false ∧ Instr.wf (.atsInvalidation 2 0 0) = false ∧
    Instr.wf (.atsInvalidation 0 (2 ^ 64) 0) = false ∧ Instr.wf (.registerWrite (.bar0 64) 0 4 0) = false ∧ Instr.wf (.registerWrite .control 0x10000000 4 0) = false ∧
    Instr.wf (.registerWrite .control 0 5 0) = false ∧ Instr.wf (.registerWrite .control 0 4 (2 ^ 32)) = false := ⟨rfl, rfl, rfl, rfl, rfl, rfl, rfl, rfl, rfl, rfl, rfl, rfl, rfl, rfl⟩

theorem test_wf_island : Instr.wf (.llTelemetry 1 256 []) = false ∧ Instr.wf (.secRead 0 65536) = false ∧ Instr.wf (.pldmRequest (.readSensor 26)) = false ∧
    Instr.wf (.pldmRequest (.setThreshold 24 0)) = false ∧ Instr.wf (.pldmRequest (.setCap 65536)) = false ∧ Instr.wf (.sensorSample 26 0) = false ∧
    Instr.wf (.gateRecompute 65536) = false ∧ Instr.wf (.watchdogRefresh 8 0) = false ∧ Instr.wf (.watchdogRefresh 0 (2 ^ 32)) = false ∧
    Instr.wf (.islandReady 8) = false ∧ Instr.wf (.supplyFault 16) = false ∧ Instr.wf (.selfTestComplete [(16, 0)] true true) = false ∧
    Instr.wf (.selfTestComplete [(0, 32768)] true true) = false := by decide

/-- A step within its limits, from a queue that neither writes control space nor sets the power; and commands that do. -/
theorem test_hyps_power_kept :
    CapInRange { up with pending := [.devNop (cmd [])] } ∧ writesControlSpace (.devNop (cmd [])) = false ∧ maySetPower (.devNop (cmd [])) = false ∧
      (∃ t, step { up with pending := [.devNop (cmd [])] } = .next t) ∧ writesControlSpace (.registerWrite .control 0xF0001C 4 0) = true ∧
      maySetPower (.secPowerCfg (cmd [])) = true := ⟨⟨by decide, by decide⟩, rfl, rfl, ⟨_, rfl⟩, rfl, rfl⟩

end Sys2Proof.Tests
end

section
/-! PROOFS. Memory under a tier's accesses: the bytes a write of a tier leaves, and that a read of the tier sees them (R292). -/
namespace Sys2Proof.Machine

/-! ### What filters and writes of a table leave to be read -/

/-- Dropping entries of other indexes leaves an index. -/
theorem Tbl.get_filter_of_keep {α : Type} (d : α) (t : Tbl α) (p : Nat × α → Bool) (k : Nat) (h : ∀ v, p (k, v) = true) :
    Tbl.get d (t.filter p) k = Tbl.get d t k := by
  induction t with
  | nil => rfl
  | cons q t ih =>
    obtain ⟨i, v⟩ := q
    by_cases hk : i = k
    · subst hk; simp [h, Tbl.get_cons]
    · rw [List.filter_cons, Tbl.get_cons, if_neg hk]
      split
      · rw [Tbl.get_cons, if_neg hk, ih]
      · exact ih

/-- Bytes outside a cleared range read as before. -/
theorem get_clearRange_outside {α : Type} (d : α) (t : Tbl α) (a n k : Nat) (h : k < a ∨ a + n ≤ k) :
    Tbl.get d (clearRange t a n) k = Tbl.get d t k :=
  Tbl.get_filter_of_keep d t _ k fun _ => by
    simp only [Bool.not_eq_true', Bool.and_eq_false_iff, decide_eq_false_iff_not]; omega

/-- In canonical memory the bytes written are read back at their places. -/
theorem get_putBytes_inside (t : Tbl Byte) (a : Nat) (bs : List Byte) (i : Nat) (h : Memory.wf t = true) (hi : i < bs.length) :
    Tbl.get 0 (putBytes t a bs) (a + i) = bs[i] := by
  induction bs generalizing t a i with
  | nil => exact absurd hi (Nat.not_lt_zero i)
  | cons b bs ih =>
    rw [putBytes]
    cases i with
    | zero => rw [get_putBytes_outside _ _ _ _ (by omega)]; exact Tbl.get_set_same 0 t a b h
    | succ i =>
      rw [show a + (i + 1) = a + 1 + i by omega]
      exact ih _ _ i (Tbl.set_wf 0 t a b h) (Nat.lt_of_succ_lt_succ hi)

/-- Writing each byte at its offset from a base is writing the run of bytes. -/
theorem foldl_set_mapIdx (base off : Nat) (bs : List Byte) (m : Tbl Byte) :
    (bs.mapIdx fun i b => (off + i, b)).foldl (fun m p => Tbl.set 0 m (base + p.1) p.2) m = putBytes m (base + off) bs := by
  induction bs generalizing off m with
  | nil => rfl
  | cons b bs ih =>
    have hshift : (fun i (b : Byte) => (off + (i + 1), b)) = fun i b => (off + 1 + i, b) := by
      funext i b; rw [show off + (i + 1) = off + 1 + i by omega]
    rw [List.mapIdx_cons, hshift, List.foldl_cons, ih, putBytes]
    rfl

/-! ### Memory under the controller and the cache regions -/

@[simp] theorem wcbWrite_mem (t e lo hi : Nat) (s : State) : (wcbWrite t e lo hi s).mem = s.mem := modTier_mem ..

@[simp] theorem hintTouch_mem (t hint e : Nat) (write : Bool) (s : State) : (hintTouch t hint e write s).mem = s.mem := modTier_mem ..

/-- In every mode the controller's buffers leave memory: a line records only what it covers, or what memory held before a write. -/
@[simp] theorem controllerTouch_mem (t off len hint : Nat) (write : Bool) (s : State) : (controllerTouch t off len hint write s).mem = s.mem := by
  refine List.foldlRecOn (motive := fun u : State => u.mem = s.mem) _ _ rfl fun u hu e _ => ?_
  dsimp only
  split
  · split
    · rw [wcbWrite_mem, hu]
    · exact hu
  · rw [hintTouch_mem, hu]

/-- Invalidating a region's lines changes bytes of scratchpad rows alone. -/
theorem rdByte_invalidateRegion (j a : Nat) (s : State) (ha : 0x20000000 ≤ a) : rdByte (invalidateRegion j s) a = rdByte s a := by
  refine List.foldlRecOn (motive := fun u : State => rdByte u a = rdByte s a) _ _ rfl fun u hu k hk => ?_
  obtain ⟨b, _, hb⟩ := List.mem_filterMap.mp hk
  split at hb
  · rename_i hrow
    obtain rfl := Option.some.inj hb
    split
    · rw [← hu]
      exact get_clearRange_outside 0 u.mem _ 8 a (by unfold rowAddr; omega)
    · exact hu
  · exact nomatch hb

/-- Advancing the generations of the regions a write meets leaves every byte above the scratchpad. -/
theorem rdByte_bumpRegions (addr len a : Nat) (s : State) (ha : 0x20000000 ≤ a) : rdByte (bumpRegions addr len s) a = rdByte s a := by
  refine List.foldlRecOn (motive := fun u : State => rdByte u a = rdByte s a) _ _ rfl fun u hu p _ => ?_
  obtain ⟨j, _ | x⟩ := p
  · exact hu
  · dsimp only
    split
    · split
      · rw [rdByte_invalidateRegion _ _ _ ha]; exact hu
      · exact hu
    · exact hu

/-! ### Writes and reads of a tier (R292) -/

theorem le_tierBase (t : Nat) : 0x20000000 ≤ tierBase t := by unfold tierBase; split <;> omega

/-- Above the scratchpad, a write of a tier that meets no freed retired granule leaves memory with its bytes written and no other byte changed. -/
theorem rdByte_tierWrite (t off : Nat) (bs : List Byte) (poison : Bool) (hint a : Nat) (s : State) (ha : 0x20000000 ≤ a)
    (hlive : ∀ g ∈ granulesOf off bs.length, deadGranule s t g = false) :
    rdByte (tierWrite t off bs poison hint s) a = Tbl.get 0 (putBytes s.mem (tierBase t + off) bs) a := by
  have hdead : (granulesOf off bs.length).filter (deadGranule s t) = [] := by simpa using hlive
  by_cases hnil : bs.length = 0
  · rw [List.eq_nil_of_length_eq_zero hnil]; rfl
  · simp only [tierWrite, if_neg hnil, rdByte_bumpRegions _ _ _ _ ha]
    simp only [rdByte, modTier_mem, controllerTouch_mem, hdead, List.contains_nil, Bool.not_false, List.filter_true, foldl_set_mapIdx]

/-- A read of a tier delivers what memory holds there. -/
theorem tierRead_bytes (t off len hint : Nat) (s : State) : (tierRead t off len hint s).1.1 = rdBytes s (tierBase t + off) len := rfl

/-- Settles O37: an accepted write goes to memory at once, whatever the controller buffers of it, and a read delivers what memory holds. -/
theorem tierReadsSeeAcceptedWrites : Obligations.TierReadsSeeAcceptedWrites := by
  unfold Obligations.TierReadsSeeAcceptedWrites
  intro t off bs poison hw hr s _ _ hwf hlive
  refine ⟨?_, fun a ha hout => ?_⟩
  · rw [tierRead_bytes]
    refine List.ext_getElem (by simp [rdBytes]) fun i _ hi => ?_
    have hbase := le_tierBase t
    simp only [rdBytes, List.getElem_map, List.getElem_range]
    rw [rdByte_tierWrite _ _ _ _ _ _ _ (by omega) hlive, get_putBytes_inside _ _ _ _ hwf hi]
  · rw [rdByte_tierWrite _ _ _ _ _ _ _ (le_trans (le_tierBase 0) ha) hlive]
    exact get_putBytes_outside _ _ _ _ hout

end Sys2Proof.Machine
end

section
/-! PROOFS. The pages of a pool: the lowest free page is the one given, and counts move by one within 16 bits (R380, R663). -/
namespace Sys2Proof.Machine

/-! ### The pools of a state -/

/-- Changing a pool that is there is read back. -/
theorem pool?_modPool_same (b : Nat) (g : Pool → Pool) (s : State) : pool? (modPool b g s) b = (pool? s b).map g := by
  unfold modPool
  split
  · rename_i p hp
    rw [hp]
    exact Tbl.get_set_same_ne none _ b (some (g p)) (Option.some_ne_none _)
  · rename_i hp
    rw [hp, Option.map_none]

/-- Changing a sequence leaves every pool. -/
@[simp] theorem modSeqp_pools (k : Nat) (g : SeqPages → SeqPages) (s : State) : (modSeqp k g s).kv.pools = s.kv.pools := by
  unfold modSeqp; split <;> rfl

/-! ### Writes of a tier leave the page manager -/

/-- What each step of a fold leaves of the page manager, the fold leaves. -/
theorem foldl_kv {α : Type} (f : State → α → State) (l : List α) (s : State) (h : ∀ u a, (f u a).kv = u.kv) : (l.foldl f s).kv = s.kv :=
  List.foldlRecOn (motive := fun u : State => u.kv = s.kv) l f rfl fun u hu a _ => (h u a).trans hu

@[simp] theorem controllerTouch_kv (t off len hint : Nat) (write : Bool) (s : State) : (controllerTouch t off len hint write s).kv = s.kv := by
  refine foldl_kv _ _ _ fun u e => ?_
  dsimp only
  split
  · split
    · exact modTier_kv ..
    · rfl
  · exact modTier_kv ..

@[simp] theorem invalidateRegion_kv (j : Nat) (s : State) : (invalidateRegion j s).kv = s.kv := by
  refine foldl_kv _ _ _ fun u k => ?_
  split <;> rfl

@[simp] theorem bumpRegions_kv (addr len : Nat) (s : State) : (bumpRegions addr len s).kv = s.kv := by
  refine foldl_kv _ _ _ fun u p => ?_
  obtain ⟨j, _ | x⟩ := p
  · rfl
  · dsimp only
    split
    · split
      · exact invalidateRegion_kv ..
      · rfl
    · rfl

@[simp] theorem tierWrite_kv (t off : Nat) (bs : List Byte) (poison : Bool) (hint : Nat) (s : State) : (tierWrite t off bs poison hint s).kv = s.kv := by
  unfold tierWrite
  dsimp only
  split
  · rfl
  · rw [bumpRegions_kv, modTier_kv, controllerTouch_kv, modTier_kv]

@[simp] theorem wrLocal_kv (a : Nat) (bs : List Byte) (s : State) : (wrLocal a bs s).kv = s.kv := by
  unfold wrLocal
  split
  · exact tierWrite_kv ..
  · rfl

/-! ### Sharing bits follow the counts and leave the pools -/

/-- Writing a valid entry of a page table leaves every pool: no table of the path falls empty. -/
@[simp] theorem setEntry_some_pools (k key : Nat) (e : PageEntry) (s : State) : (setEntry k key (some e) s).kv.pools = s.kv.pools := by
  unfold setEntry
  split
  · rfl
  · simp only [Option.isNone_some, Bool.false_eq_true, if_false, modSeqp_pools]
    split
    · rw [wrLocal_kv]
    · rfl

/-- Setting the shared bits of a page's entries leaves every pool. -/
@[simp] theorem refreshShared_pools (b page : Nat) (s : State) : (refreshShared b page s).kv.pools = s.kv.pools := by
  refine List.foldlRecOn (motive := fun u : State => u.kv.pools = s.kv.pools) _ _ rfl fun u hu q _ => ?_
  obtain ⟨k, _ | x⟩ := q
  · exact hu
  · dsimp only
    split
    · exact hu
    · refine List.foldlRecOn (motive := fun v : State => v.kv.pools = s.kv.pools) _ _ hu fun v hv e _ => ?_
      obtain ⟨key, _ | y⟩ := e
      · exact hv
      · dsimp only
        split
        · rw [setEntry_some_pools, hv]
        · exact hv

/-! ### The lowest free page (R380) -/

/-- A canonical table lists exactly the indexes that do not hold the default. -/
theorem Tbl.mem_keys_iff {α : Type} [DecidableEq α] (d : α) (t : Tbl α) (k : Nat) (h : Tbl.wf d t = true) : k ∈ Tbl.keys t ↔ Tbl.get d t k ≠ d := by
  induction t with
  | nil => simp [Tbl.keys, Tbl.get]
  | cons q t ih =>
    obtain ⟨i, v⟩ := q
    obtain ⟨hv, _, ht⟩ := (Tbl.wf_cons d i v t).mp h
    have hkeys : k ∈ Tbl.keys ((i, v) :: t) ↔ k = i ∨ k ∈ Tbl.keys t := List.mem_cons
    rw [hkeys, ih ht, Tbl.get_cons]
    by_cases hk : i = k
    · simp [hk, hv]
    · simp [hk, Ne.symm hk]

/-- From 2 on, a page cannot be given exactly when it has a count or lies on a retired granule. -/
theorem mem_takenPages_iff (s : State) (p : Pool) (k : Nat) (hwf : Tbl.wf 0 p.counts = true) (hk : 2 ≤ k) :
    k ∈ takenPages s p ↔ Tbl.get 0 p.counts k ≠ 0 ∨ k ∈ retiredPages s p := by
  have h0 : k ≠ 0 := by omega
  have h1 : k ≠ 1 := by omega
  have h2 : 1 < k := hk
  simp only [takenPages, List.mem_append, List.mem_cons, List.not_mem_nil, or_false, List.mem_filter, Tbl.mem_keys_iff 0 _ _ hwf,
    Bool.and_eq_true, decide_eq_true_eq, beq_iff_eq, h0, h1, h2, false_or, true_and]
  tauto

/-- Up to a page from 2 on that can be given there is one whose predecessor cannot: page 1 starts every search. -/
theorem exists_untaken_succ_taken {taken : List Nat} (h1 : 1 ∈ taken) (k : Nat) (hk : 2 ≤ k) (hfree : k ∉ taken) :
    ∃ j, j ∈ taken ∧ 2 ≤ j + 1 ∧ j + 1 ≤ k ∧ j + 1 ∉ taken := by
  induction k, hk using Nat.le_induction with
  | base => exact ⟨1, h1, le_refl 2, le_refl 2, hfree⟩
  | succ k hk ih =>
    by_cases hprev : k ∈ taken
    · exact ⟨k, hprev, by omega, le_refl _, hfree⟩
    · obtain ⟨j, hj, hj2, hjk, hjfree⟩ := ih hprev
      exact ⟨j, hj, hj2, by omega, hjfree⟩

/-- The pages `freePage` takes the least of: those that can be given and follow one that cannot. -/
def pageCandidates (s : State) (p : Pool) : List Nat :=
  ((takenPages s p).map (· + 1)).filter fun n =>
    decide (1 < n) && decide (n < p.pages) && decide (n < 0xFFFFFFFF) && !(takenPages s p).contains n

theorem freePage_eq_min? (s : State) (p : Pool) : freePage s p = (pageCandidates s p).min? := rfl

theorem mem_pageCandidates_iff (s : State) (p : Pool) (n : Nat) :
    n ∈ pageCandidates s p ↔ (∃ j ∈ takenPages s p, j + 1 = n) ∧ 2 ≤ n ∧ n < p.pages ∧ n < 0xFFFFFFFF ∧ n ∉ takenPages s p := by
  simp [pageCandidates, and_assoc, Nat.succ_le_iff]

/-- Up to a page of the pool that can be given there is a candidate. -/
theorem exists_candidate_le (s : State) (p : Pool) (k : Nat) (h2 : 2 ≤ k) (hp : k < p.pages) (hnull : k < 0xFFFFFFFF)
    (hfree : k ∉ takenPages s p) : ∃ j ∈ pageCandidates s p, j ≤ k := by
  obtain ⟨j, hj, hj2, hjk, hjfree⟩ := exists_untaken_succ_taken (by simp [takenPages]) k h2 hfree
  exact ⟨j + 1, (mem_pageCandidates_iff ..).mpr ⟨⟨j, hj, rfl⟩, hj2, by omega, by omega, hjfree⟩, hjk⟩

/-- The page found can be given, and every lower one from 2 on cannot. -/
theorem freePage_some (s : State) (p : Pool) (n : Nat) (h : freePage s p = some n) :
    2 ≤ n ∧ n < p.pages ∧ n < 0xFFFFFFFF ∧ n ∉ takenPages s p ∧ ∀ k, 2 ≤ k → k < n → k ∈ takenPages s p := by
  rw [freePage_eq_min?, List.min?_eq_some_iff] at h
  obtain ⟨hmem, hleast⟩ := h
  obtain ⟨_, h2, hpages, hnull, hfree⟩ := (mem_pageCandidates_iff ..).mp hmem
  refine ⟨h2, hpages, hnull, hfree, fun k hk hkn => ?_⟩
  by_contra hkfree
  obtain ⟨j, hj, hjk⟩ := exists_candidate_le s p k hk (by omega) (by omega) hkfree
  have := hleast j hj
  omega

/-- Where no page is found, no page of the pool can be given. -/
theorem freePage_none (s : State) (p : Pool) (h : freePage s p = none) (k : Nat) (h2 : 2 ≤ k) (hp : k < p.pages) (hnull : k < 0xFFFFFFFF) :
    k ∈ takenPages s p := by
  rw [freePage_eq_min?, List.min?_eq_none_iff] at h
  by_contra hfree
  obtain ⟨j, hj, _⟩ := exists_candidate_le s p k h2 hp hnull hfree
  simp [h] at hj

/-! ### Taking a page and counting its references -/

/-- A pool with the count of one page set. -/
def setCount (n c : Nat) (p : Pool) : Pool := { p with counts := Tbl.set 0 p.counts n c }

/-- Setting one count of a canonical pool keeps it canonical, is read back, and leaves every other count. -/
theorem setCount_counts (n c : Nat) (p : Pool) (hwf : Tbl.wf 0 p.counts = true) :
    Tbl.wf 0 (setCount n c p).counts = true ∧ Tbl.get 0 (setCount n c p).counts n = c ∧
      ∀ k, k ≠ n → Tbl.get 0 (setCount n c p).counts k = Tbl.get 0 p.counts k :=
  ⟨Tbl.set_wf 0 _ n c hwf, Tbl.get_set_same 0 _ n c hwf, fun k hk => Tbl.get_set_other 0 _ n k c hk⟩

/-- Over a binding with a pool, a page is taken exactly where a free one is found. -/
theorem allocPage_eq (b : Nat) (s : State) (p : Pool) (hp : pool? s b = some p) :
    allocPage b s = (freePage s p).map fun n => (n, modPool b (setCount n 1) s) := by
  rw [allocPage, hp]; rfl

/-- The pool after a count is raised or lowered: that count alone is another, raising held at 65,535. -/
theorem pool?_addCount_same (b n : Nat) (up : Bool) (s : State) (p : Pool) (hp : pool? s b = some p) :
    pool? (addCount b n up s) b =
      some (setCount n (if up then min 65535 (Tbl.get 0 p.counts n + 1) else Tbl.get 0 p.counts n - 1) p) := by
  have h : pool? (addCount b n up s) b = pool? (modPool b (fun p =>
      setCount n (if up then min 65535 (Tbl.get 0 p.counts n + 1) else Tbl.get 0 p.counts n - 1) p) s) b :=
    congrArg (Tbl.get none · b) (refreshShared_pools b n _)
  rw [h, pool?_modPool_same, hp, Option.map_some]

/-- Settles O44: the least candidate is the least page that can be given, for below any such page a candidate follows a taken one, page 1 being taken; the shared bits that follow a count leave the pools. -/
theorem pagesAreTakenInAscendingOrderAndCounted : Obligations.PagesAreTakenInAscendingOrderAndCounted := by
  unfold Obligations.PagesAreTakenInAscendingOrderAndCounted
  refine ⟨fun b n p s t hwf hp halloc => ?_, fun b p s hwf hp halloc k hk hpages hnull => ?_, fun b n up p s hwf hp hle => ?_⟩
  · rw [allocPage_eq b s p hp, Option.map_eq_some_iff] at halloc
    obtain ⟨m, hfree, hmt⟩ := halloc
    obtain ⟨rfl, rfl⟩ := Prod.mk.inj hmt
    obtain ⟨h2, hpages, hnull, huntaken, hlower⟩ := freePage_some s p m hfree
    rw [mem_takenPages_iff s p m hwf h2, not_or, not_not] at huntaken
    obtain ⟨hcount, hretired⟩ := huntaken
    have hpool : pool? (modPool b (setCount m 1) s) b = some (setCount m 1 p) := by rw [pool?_modPool_same, hp, Option.map_some]
    exact ⟨h2, hpages, hnull, hcount, hretired, fun k hk hkm => (mem_takenPages_iff s p k hwf hk).mp (hlower k hk hkm),
      setCount m 1 p, hpool, setCount_counts m 1 p hwf⟩
  · rw [allocPage_eq b s p hp, Option.map_eq_none_iff] at halloc
    exact (mem_takenPages_iff s p k hwf hk).mp (freePage_none s p halloc k hk hpages hnull)
  · obtain ⟨hwf', hsame, hother⟩ := setCount_counts n (if up then min 65535 (Tbl.get 0 p.counts n + 1) else Tbl.get 0 p.counts n - 1) p hwf
    refine ⟨_, pool?_addCount_same b n up s p hp, hwf', fun k => ?_, hsame, hother⟩
    have hn := hle n
    by_cases hk : k = n
    · rw [hk, hsame]; split <;> omega
    · rw [hother k hk]; exact hle k

end Sys2Proof.Machine
end

section
/-! PROOFS. Reports and packets: raising an event or sending a packet changes the fabric, the host's rings, the partitions' counts, the error log and the outputs alone. -/
namespace Sys2Proof.Machine

/-! ### The frame of a report -/

/-- From `s` to `t` nothing is changed but the blocks that a report or a packet passes through. -/
def ReportsOnly (s t : State) : Prop := t = { s with fab := t.fab, host := t.host, part := t.part, err := t.err, out := t.out }

namespace ReportsOnly

variable {s t u : State}

theorem refl (s : State) : ReportsOnly s s := rfl

theorem trans (h : ReportsOnly s t) (h' : ReportsOnly t u) : ReportsOnly s u := by
  unfold ReportsOnly at *
  rw [h'] at *
  rw [h]

theorem hch_eq (h : ReportsOnly s t) : t.hch = s.hch := by rw [h]
theorem now_eq (h : ReportsOnly s t) : t.now = s.now := by rw [h]
theorem step_eq (h : ReportsOnly s t) : t.step = s.step := by rw [h]
theorem pwr_eq (h : ReportsOnly s t) : t.pwr = s.pwr := by rw [h]
theorem sp_eq (h : ReportsOnly s t) : t.sp = s.sp := by rw [h]
theorem t1_eq (h : ReportsOnly s t) : t.t1 = s.t1 := by rw [h]
theorem t2_eq (h : ReportsOnly s t) : t.t2 = s.t2 := by rw [h]

theorem modFab (g : FabSt → FabSt) (s : State) : ReportsOnly s (modFab g s) := rfl
theorem modHost (g : HostSt → HostSt) (s : State) : ReportsOnly s (modHost g s) := rfl
theorem modPart (g : PartSt → PartSt) (s : State) : ReportsOnly s (modPart g s) := rfl
theorem modErr (g : ErrSt → ErrSt) (s : State) : ReportsOnly s (modErr g s) := rfl
theorem emit (o : Out) (s : State) : ReportsOnly s (emit o s) := rfl
theorem modFunc (f : Nat) (g : Func → Func) (s : State) : ReportsOnly s (modFunc f g s) := modHost ..
theorem modRing (f k : Nat) (g : Ring → Ring) (s : State) : ReportsOnly s (modRing f k g s) := modFunc ..
theorem modPort (n : Nat) (g : Port → Port) (s : State) : ReportsOnly s (modPort n g s) := modFab ..
theorem countError (c : Nat) (s : State) : ReportsOnly s (countError c s) := modErr ..
theorem logError (code cls part : Nat) (bs : List Byte) (s : State) : ReportsOnly s (logError code cls part bs s) := rfl

theorem onlyIf (c : Bool) {f : State → State} (hf : ∀ v, ReportsOnly v (f v)) (s : State) : ReportsOnly s (onlyIf c f s) := by
  cases c
  · exact refl s
  · exact hf s

theorem foldl {α : Type} {f : State → α → State} (hf : ∀ v a, ReportsOnly v (f v a)) (l : List α) (s : State) : ReportsOnly s (l.foldl f s) :=
  List.foldlRecOn (motive := fun v : State => ReportsOnly s v) l f (refl s) fun v hv a _ => hv.trans (hf v a)

end ReportsOnly

/-! ### Events -/

theorem sendVector_reportsOnly (f v : Nat) (s : State) : ReportsOnly s (sendVector f v s) := by
  unfold sendVector
  split
  · exact .modFunc ..
  · exact .emit ..

theorem checkReport_reportsOnly (f k : Nat) (s : State) : ReportsOnly s (checkReport f k s) :=
  .onlyIf _ (fun _ => (ReportsOnly.modRing ..).trans (sendVector_reportsOnly ..)) s

theorem writeEvent_reportsOnly (code part : Nat) (bs : List Byte) (f : Nat) (s : State) : ReportsOnly s (writeEvent code part bs f s) := by
  unfold writeEvent
  dsimp only
  split
  · exact .refl s
  · split
    · exact (ReportsOnly.countError 8 s).trans (.modFunc ..)
    · exact ((ReportsOnly.emit _ s).trans (.modFunc ..)).trans (checkReport_reportsOnly ..)

theorem countUnheard_reportsOnly (s : State) (r : Recip) : ReportsOnly s (countUnheard s r) := by
  cases r with
  | prims p => exact .onlyIf _ (fun _ => .modPart ..) s
  | func f => exact .refl s
  | pfs => exact .refl s
  | primaryPf => exact .refl s

theorem raiseTo_reportsOnly (code part : Nat) (whom : List Recip) (bs : List Byte) (s : State) : ReportsOnly s (raiseTo code part whom bs s) :=
  (ReportsOnly.foldl countUnheard_reportsOnly whom s).trans (.foldl (fun _ _ => writeEvent_reportsOnly ..) _ _)

theorem raiseError_reportsOnly (cls code part : Nat) (whom : List Recip) (bs : List Byte) (s : State) :
    ReportsOnly s (raiseError cls code part whom bs s) :=
  ((ReportsOnly.countError cls s).trans (.logError ..)).trans (raiseTo_reportsOnly ..)

/-! ### Packets -/

theorem putWire_reportsOnly (n : Nat) (p : Packet) (s : State) : ReportsOnly s (putWire n p s) :=
  (((ReportsOnly.modPort ..).trans (.modFab ..)).trans (.emit ..)).trans (.foldl (fun _ _ => .emit ..) _ _)

theorem transmit_reportsOnly (n : Nat) (part : Option Nat) (p : Packet) (s : State) : ReportsOnly s (transmit n part p s) := by
  unfold transmit
  dsimp only
  split
  · exact putWire_reportsOnly ..
  · refine (ReportsOnly.modPort n (fun q => { q with draws := q.draws + 4 }) s).trans ?_
    split
    · exact .modPort ..
    · split
      · split
        · exact (ReportsOnly.modPort ..).trans (putWire_reportsOnly ..)
        · exact (((ReportsOnly.modPort ..).trans (.modPort ..)).trans (.countError ..)).trans (putWire_reportsOnly ..)
      · split
        · exact (ReportsOnly.modPort ..).trans (.modPort ..)
        · exact putWire_reportsOnly ..

theorem turn_reportsOnly (key : Nat) (ps : List Nat) (s : State) : ReportsOnly s (turn key ps s).2 := rfl

theorem choosePort_reportsOnly (p : Packet) (s : State) : ReportsOnly s (choosePort p s).2 := by
  unfold choosePort
  dsimp only
  split
  · exact .refl s
  · split
    · exact turn_reportsOnly ..
    · split
      · exact .refl s
      · split
        · exact .refl s
        · exact turn_reportsOnly ..

theorem routeTo_reportsOnly (part : Option Nat) {lost : Packet → State → State} (hlost : ∀ q v, ReportsOnly v (lost q v)) (p : Packet) (s : State) :
    ReportsOnly s (routeTo part lost p s) := by
  have hchoose := choosePort_reportsOnly p s
  unfold routeTo
  split
  · exact .emit ..
  · split
    · rename_i n v hv
      rw [hv] at hchoose
      exact hchoose.trans (transmit_reportsOnly ..)
    · rename_i v hv
      rw [hv] at hchoose
      exact ((hchoose.trans (.countError ..)).trans (.modFab ..)).trans (hlost ..)

theorem sendNak_reportsOnly (p : Packet) (st : Nat) (s : State) : ReportsOnly s (sendNak p st s) :=
  routeTo_reportsOnly none (fun _ v => .refl v) _ s

theorem gotPacket_reportsOnly (n : Nat) (s : State) : ReportsOnly s (gotPacket n s) := by
  unfold gotPacket
  split
  · exact .refl s
  · exact (ReportsOnly.modPort ..).trans (.modFab ..)

end Sys2Proof.Machine
end

section
/-! PROOFS. Hitches: an increment adds exactly or holds at the largest value (R464). -/
namespace Sys2Proof.Machine

/-! ### The first fault (R493) leaves hitches, barriers, windows and transfers -/

section
variable (kind part status chip object : Nat) (s : State)

@[simp] theorem hchFault_hitchVal : (hchFault kind part status chip object s).hch.hitchVal = s.hch.hitchVal := by
  unfold hchFault; dsimp only [modHch_hch]; split <;> rfl
@[simp] theorem hchFault_overflows : (hchFault kind part status chip object s).hch.overflows = s.hch.overflows := by
  unfold hchFault; dsimp only [modHch_hch]; split <;> rfl
@[simp] theorem hchFault_bars : (hchFault kind part status chip object s).hch.bars = s.hch.bars := by
  unfold hchFault; dsimp only [modHch_hch]; split <;> rfl
@[simp] theorem hchFault_barOverruns : (hchFault kind part status chip object s).hch.barOverruns = s.hch.barOverruns := by
  unfold hchFault; dsimp only [modHch_hch]; split <;> rfl
@[simp] theorem hchFault_wins : (hchFault kind part status chip object s).hch.wins = s.hch.wins := by
  unfold hchFault; dsimp only [modHch_hch]; split <;> rfl
@[simp] theorem hchFault_inbound : (hchFault kind part status chip object s).hch.inbound = s.hch.inbound := by
  unfold hchFault; dsimp only [modHch_hch]; split <;> rfl

/-- Where no fault is recorded, this one is. -/
theorem hchFault_records (h : s.hch.faultValid = false) :
    (hchFault kind part status chip object s).hch = { s.hch with
      faultValid := true, faultKind := kind, faultPart := part, faultStatus := status, faultChip := chip, faultObject := object } := by
  unfold hchFault; rw [modHch_hch, h]; rfl

end

/-! ### Writing a hitch -/

theorem hitchVal_setHitch_same (h v : Nat) (s : State) (hv : v ≠ 0) : hitchVal (setHitch h v s) h = v :=
  Tbl.get_set_same_ne 0 _ h v hv

theorem hitchVal_setHitch_other (h v k : Nat) (s : State) (hk : k ≠ h) : hitchVal (setHitch h v s) k = hitchVal s k :=
  Tbl.get_set_other 0 _ h k v hk

/-! ### Incrementing a hitch -/

theorem incHitch_exact (h n : Nat) (s : State) (hle : hitchVal s h + n ≤ 0xFFFFFFFF) : incHitch h n s = setHitch h (hitchVal s h + n) s :=
  if_pos hle

/-- The state in which an increment past the largest value is reported. -/
def overflowedHitch (h : Nat) (s : State) : State :=
  hchFault 1 (h / 4096) stOk 0 h (modHch (fun x => { x with overflows := satAdd 32 x.overflows 1 }) (setHitch h 0xFFFFFFFF s))

theorem incHitch_overflow (h n : Nat) (s : State) (hlt : 0xFFFFFFFF < hitchVal s h + n) :
    incHitch h n s = raiseError 5 evHitchOverflow (h / 4096) [.prims (h / 4096)] [] (overflowedHitch h s) :=
  if_neg (Nat.not_le.mpr hlt)

theorem hitchVal_overflowedHitch (h k : Nat) (s : State) : hitchVal (overflowedHitch h s) k = hitchVal (setHitch h 0xFFFFFFFF s) k :=
  congrArg (Tbl.get 0 · k) (hchFault_hitchVal ..)

theorem hitchVal_raiseError (cls code part : Nat) (whom : List Recip) (bs : List Byte) (s : State) (h : Nat) :
    hitchVal (raiseError cls code part whom bs s) h = hitchVal s h :=
  congrArg (fun x : SyncSt => Tbl.get 0 x.hitchVal h) (raiseError_reportsOnly ..).hch_eq

/-- Settles O19: the write of the value is read back, the record and the report that follow leave every hitch. -/
theorem hitchIncrementsSaturate : Obligations.HitchIncrementsSaturate := by
  unfold Obligations.HitchIncrementsSaturate
  refine fun h n s => ⟨fun hlt => ?_, fun hle hpos => ?_⟩
  · have hsame : hitchVal (overflowedHitch h s) h = 0xFFFFFFFF := by
      rw [hitchVal_overflowedHitch, hitchVal_setHitch_same _ _ _ (by decide)]
    have hinc := incHitch_overflow h n s hlt
    refine ⟨overflowedHitch h s, hinc, hsame, hchFault_overflows .., fun k hk => ?_, fun hnone => ?_, ?_⟩
    · rw [hitchVal_overflowedHitch, hitchVal_setHitch_other _ _ _ _ hk]
    · have hrec : (overflowedHitch h s).hch = _ := hchFault_records _ _ _ _ _ _ hnone
      rw [hrec]
      exact ⟨rfl, rfl, rfl, rfl⟩
    · rw [hinc, hitchVal_raiseError, hsame]
  · rw [incHitch_exact h n s hle]
    exact ⟨hitchVal_setHitch_same _ _ _ (by omega), rfl, rfl, fun k hk => hitchVal_setHitch_other _ _ _ _ hk⟩

end Sys2Proof.Machine
end

section
/-! PROOFS. Barriers at their home: an entry is held in the first clear bit of its participant, and the last one of a round releases it (R484, R485). -/
namespace Sys2Proof.Machine

/-! ### The barriers of a state -/

/-- Changing a barrier that is there writes that entry of the table alone. -/
theorem modBar_of_bar? {b : Nat} {s : State} {x : Barrier} (hx : bar? s b = some x) (g : Barrier → Barrier) :
    modBar b g s = modHch (fun h => { h with bars := Tbl.set none h.bars b (some (g x)) }) s := by
  unfold modBar
  rw [hx]

theorem bar?_modBar_same {b : Nat} {s : State} {x : Barrier} (hx : bar? s b = some x) (g : Barrier → Barrier) : bar? (modBar b g s) b = some (g x) := by
  rw [modBar_of_bar? hx]
  exact Tbl.get_set_same_ne none _ b (some (g x)) (Option.some_ne_none _)

/-! ### Releasing a home (R485) -/

/-- A home releases nothing while a current bit is clear. -/
theorem tryRelease_of_clear {b : Nat} {s : State} {x : Barrier} (hx : bar? s b = some x) {q : PSlot} (hq : q ∈ x.slots) (hcur : q.cur = false) :
    tryRelease b s = s := by
  have hall : x.slots.all PSlot.cur = false := List.all_eq_false.mpr ⟨q, hq, by simp [hcur]⟩
  unfold tryRelease
  simp [hx, hall]

/-- The barrier after its release: the next generation, each next bit moved into its current bit, later waiters one round nearer. -/
def Barrier.released (x : Barrier) : Barrier :=
  { x with gen := (x.gen + 1) % 65536, slots := x.slots.map (fun p => { p with cur := p.next, next := false }), waiters := laterRounds x }

/-- A home whose current bits are all set advances and sends its releases. -/
theorem tryRelease_of_full {b : Nat} {s : State} {x : Barrier} (hx : bar? s b = some x) (hhome : x.proxy = false) (hne : x.slots ≠ [])
    (hcur : ∀ q ∈ x.slots, q.cur = true) :
    tryRelease b s = sendReleases b x.released false (releaseLocal (firstRound x) false (modBar b (fun _ => x.released) s)) := by
  have hall : x.slots.all PSlot.cur = true := List.all_eq_true.mpr hcur
  have hfull : ¬(x.proxy || x.slots.isEmpty || !x.slots.all PSlot.cur) = true := by simp [hhome, hne, hall]
  unfold tryRelease
  rw [hx]
  exact if_neg hfull

/-! ### An entry at its home (R484, R486, R488) -/

section
variable {b i chip : Nat} {s : State} {x : Barrier} {p : PSlot}

theorem homeEntry_of_stale (hx : bar? s b = some x) (e : Nat) (he : e ≠ x.epoch) :
    homeEntry b i e chip s = (false, modHch (fun h => { h with barStale := satAdd 32 h.barStale 1 }) s) := by
  unfold homeEntry
  simp only [hx, if_pos he]

theorem homeEntry_of_overrun (hx : bar? s b = some x) (hp : x.slots[i]? = some p) (hcur : p.cur = true) (hnext : p.next = true) :
    homeEntry b i x.epoch chip s = (true, raiseError 5 evBarrierOverrun x.partition [.prims x.partition] []
      (hchFault 3 x.partition stBarrierOverrun chip b (modHch (fun h => { h with barOverruns := satAdd 32 h.barOverruns 1 }) s))) := by
  unfold homeEntry
  simp [hx, hp, hcur, hnext]

/-- The participant's bits after an entry that is no overrun. -/
def PSlot.entered (p : PSlot) : PSlot := if p.cur then { p with next := true } else { p with cur := true }

/-- An entry that is no overrun sets its bit, and the home is released if that was the last. -/
theorem homeEntry_of_room (hx : bar? s b = some x) (hp : x.slots[i]? = some p) (hroom : (p.cur && p.next) = false) :
    homeEntry b i x.epoch chip s = (false, tryRelease b (modBar b (fun y => { y with slots := y.slots.set i p.entered }) s)) := by
  unfold homeEntry
  simp [hx, hp, hroom, PSlot.entered]

/-- While another participant's current bit is clear, an entry sets its bit and no more happens. -/
theorem homeEntry_of_waiting (hx : bar? s b = some x) (hp : x.slots[i]? = some p) (hroom : (p.cur && p.next) = false)
    (hother : ∃ j q, j ≠ i ∧ x.slots[j]? = some q ∧ q.cur = false) :
    homeEntry b i x.epoch chip s = (false, modBar b (fun y => { y with slots := y.slots.set i p.entered }) s) := by
  obtain ⟨j, q, hji, hq, hclear⟩ := hother
  have hmem : q ∈ x.slots.set i p.entered := List.mem_of_getElem? ((List.getElem?_set_ne hji.symm).trans hq)
  rw [homeEntry_of_room hx hp hroom, tryRelease_of_clear (bar?_modBar_same hx _) hmem hclear]

/-- After the last entry of a round every current bit is set. -/
theorem cur_of_last_entry (hclear : p.cur = false) (hothers : ∀ j q, j ≠ i → x.slots[j]? = some q → q.cur = true) :
    ∀ q ∈ x.slots.set i p.entered, q.cur = true := by
  intro q hq
  obtain ⟨j, hj⟩ := List.mem_iff_getElem?.mp hq
  by_cases hji : j = i
  · subst hji
    rw [List.getElem?_set_self'] at hj
    obtain ⟨_, _, rfl⟩ := Option.map_eq_some_iff.mp hj
    simp [PSlot.entered, hclear]
  · exact hothers j q hji ((List.getElem?_set_ne (Ne.symm hji)).symm.trans hj)

end

/-- Settles O21: an entry sets one bit, and the release follows exactly where no current bit of the slots is left clear. -/
theorem homeBarriersHoldEntries : Obligations.HomeBarriersHoldEntries := by
  unfold Obligations.HomeBarriersHoldEntries
  intro b i chip s x p hx hhome hp
  refine ⟨fun hcur hother => ?_, fun hcur hnext hother => ?_, fun hcur hnext => ?_, fun e he => ?_, fun hcur hothers => ?_⟩
  · rw [homeEntry_of_waiting hx hp (by simp [hcur]) hother, modBar_of_bar? hx]
    simp only [PSlot.entered, hcur]
    rfl
  · rw [homeEntry_of_waiting hx hp (by simp [hnext]) hother, modBar_of_bar? hx]
    simp only [PSlot.entered, hcur]
    rfl
  · exact ⟨_, homeEntry_of_overrun hx hp hcur hnext, hchFault_bars .., hchFault_barOverruns ..⟩
  · exact homeEntry_of_stale hx e he
  · have hx' := bar?_modBar_same hx fun y => { y with slots := y.slots.set i p.entered }
    have hne : x.slots.set i p.entered ≠ [] := by
      rw [Ne, List.set_eq_nil_iff]
      exact fun hnil => by simp [hnil] at hp
    refine ⟨_, rfl, ?_⟩
    rw [homeEntry_of_room hx hp (by simp [hcur]), tryRelease_of_full hx' hhome hne (cur_of_last_entry hcur hothers), modBar_of_bar? hx',
      modBar_of_bar? hx]
    simp only [PSlot.entered, hcur]
    rfl

end Sys2Proof.Machine
end

section
/-! PROOFS. Receive windows: a WRITE packet is accepted through an open window that it fits, and refused with a NAK otherwise (R476, R506). -/
namespace Sys2Proof.Machine

open Sys2Proof.Safety (Accepts)

/-! ### What every packet passes (R503, R509, R511) -/

section
variable {types : List Nat} {p : Packet} {s : State}

/-- A packet that passes is handed on. -/
theorem receive_of_accepts (h : Accepts types p s) (k : State → State) : receive types p k s = k s := by
  obtain ⟨hdie, htype, hpos, hlt, hyoung, hident⟩ := h
  have hknown : ¬(Pk.type p = 0 ∨ 10 ≤ Pk.type p) := by omega
  have hnamed : (!s.fab.assigned && decide (Pk.type p ≠ 6) && decide (Pk.type p ≠ 9)) = false := by
    rcases hident with h | h | h <;> simp [h]
  unfold receive
  simp only [hdie, if_neg hknown, htype, hyoung, hnamed, Bool.not_true, Bool.false_eq_true, if_false]

@[simp] theorem gotPacket_assigned (n : Nat) (s : State) : (gotPacket n s).fab.assigned = s.fab.assigned := by
  unfold gotPacket; split <;> rfl
@[simp] theorem gotPacket_chip (n : Nat) (s : State) : (gotPacket n s).fab.chip = s.fab.chip := by
  unfold gotPacket; split <;> rfl
@[simp] theorem gotPacket_hch (n : Nat) (s : State) : (gotPacket n s).hch = s.hch := (gotPacket_reportsOnly n s).hch_eq
@[simp] theorem gotPacket_now (n : Nat) (s : State) : (gotPacket n s).now = s.now := (gotPacket_reportsOnly n s).now_eq

/-- Counting a packet at its port leaves what decides whether it passes. -/
theorem accepts_gotPacket (n : Nat) (h : Accepts types p s) : Accepts types p (gotPacket n s) := by
  have hgot := gotPacket_reportsOnly n s
  have hdie : dieOn (gotPacket n s) = dieOn s := by rw [dieOn, hgot.pwr_eq, dieOn]
  have hage : tooOld (gotPacket n s) p = tooOld s p := by rw [tooOld, birthNow, rack, hgot.step_eq]; rfl
  rwa [Accepts, hdie, hage, gotPacket_assigned]

end

/-! ### Windows and the transfers tracked -/

theorem win_gotPacket (n : Nat) (s : State) (w : Nat) : win (gotPacket n s) w = win s w := by
  rw [win, gotPacket_hch, win]

theorem inboundOf_gotPacket (n : Nat) (s : State) (chip tag : Nat) : inboundOf (gotPacket n s) chip tag = inboundOf s chip tag := by
  rw [inboundOf, gotPacket_hch, inboundOf]

theorem win_modWin_same (w : Nat) (g : Win → Win) (s : State) : win (modWin w g s) w = g (win s w) := Tbl.opt_set_same ..

/-- Marking a transfer dropped counts no packet of any. -/
theorem accepted_modInbound_dropped (chip tag : Nat) (s : State) :
    (modInbound chip tag (fun i => { i with dropped := true }) s).hch.inbound.map Inbound.accepted = s.hch.inbound.map Inbound.accepted := by
  simp only [modInbound, modHch_hch, List.map_map]
  refine List.map_congr_left fun i _ => ?_
  rw [Function.comp_apply]
  split <;> rfl

/-! ### Why a window refuses a packet -/

section
variable {x : Win} {p : Packet}

/-- The tests of R476 and R506 in their order. -/
theorem windowRefusal_eq (x : Win) (p : Packet) : windowRefusal x p =
    if ¬(x.opened = true ∧ x.gen = Pk.gen p) then some stWindowClosed
    else if ¬(x.anySender = true ∨ x.sender = Pk.src p) then some stNotPermitted
    else if ¬(x.base ≤ Pk.addr p ∧ Pk.addr p + p.payload.length ≤ x.base + x.length) then some stNotPermitted
    else if Pk.addr p < 0x20000000 ∧ ¬(Pk.addr p % 1024 = 0 ∧ p.payload.length = 640) then some stBadCommand
    else none := by
  unfold windowRefusal
  simp only [Bool.or_eq_true, Bool.and_eq_true, Bool.not_eq_true', bne_iff_ne, beq_iff_eq, decide_eq_true_eq, ← Bool.not_eq_true, not_and_or, not_or, ne_eq]

theorem windowRefusal_of_closed (h : ¬(x.opened = true ∧ x.gen = Pk.gen p)) : windowRefusal x p = some stWindowClosed := by
  rw [windowRefusal_eq, if_pos h]

theorem windowRefusal_of_notPermitted (hours : x.opened = true ∧ x.gen = Pk.gen p)
    (h : ¬((x.anySender = true ∨ x.sender = Pk.src p) ∧ (x.base ≤ Pk.addr p ∧ Pk.addr p + p.payload.length ≤ x.base + x.length))) :
    windowRefusal x p = some stNotPermitted := by
  rw [windowRefusal_eq, if_neg (not_not.mpr hours)]
  by_cases hsender : x.anySender = true ∨ x.sender = Pk.src p
  · rw [if_neg (not_not.mpr hsender), if_pos fun hwithin => h ⟨hsender, hwithin⟩]
  · rw [if_pos hsender]

theorem windowRefusal_of_fits (hours : x.opened = true ∧ x.gen = Pk.gen p) (hsender : x.anySender = true ∨ x.sender = Pk.src p)
    (hwithin : x.base ≤ Pk.addr p ∧ Pk.addr p + p.payload.length ≤ x.base + x.length)
    (hform : Pk.addr p < 0x20000000 → Pk.addr p % 1024 = 0 ∧ p.payload.length = 640) : windowRefusal x p = none := by
  rw [windowRefusal_eq, if_neg (not_not.mpr hours), if_neg (not_not.mpr hsender), if_neg (not_not.mpr hwithin), if_neg fun h => h.2 (hform h.1)]

end

/-! ### A WRITE packet at its window -/

/-- The transfer that a packet begins. -/
def newInbound (p : Packet) (now : Nat) : Inbound :=
  { chip := Pk.src p, tag := Pk.tag p, window := Pk.window p, gen := Pk.gen p, accepted := 0, total := none, increment := 0, hitch := 0,
    dropped := false, lastAt := now, awaiting := [] }

/-- What the receiver does with a packet for this chip that has passed. -/
def windowWrite (p : Packet) (s : State) : State :=
  match windowRefusal (win s (Pk.window p)) p with
  | some st => dropPacket (Pk.window p) p st s
  | none =>
    match inboundOf s (Pk.src p) (Pk.tag p) with
    | some _ => acceptPacket (win s (Pk.window p)) p s
    | none =>
      if 4096 ≤ s.hch.inbound.length then sendNak p stBusy (modHch (fun h => { h with trackFull := satAdd 32 h.trackFull 1 }) s)
      else acceptPacket (win s (Pk.window p)) p (modHch (fun h => { h with inbound := h.inbound ++ [newInbound p s.now] }) s)

/-- A packet for this chip that comes in on a port that is up, or from the chip itself, comes to its window. -/
theorem exec_writePacketReceived_of_accepts {n : Nat} {p : Packet} {s : State} (hport : 12 ≤ n ∨ portUp s n = true) (hacc : Accepts [1] p s)
    (hdst : Pk.dst p = s.fab.chip) : exec (.writePacketReceived n p) s = .next (windowWrite p (gotPacket n s)) := by
  have hup : (decide (n < 12) && !portUp s n) = false := by
    rcases hport with h | h <;> simp [h]
  have hhere : ¬Pk.dst p ≠ (gotPacket n s).fab.chip := by rw [gotPacket_chip]; exact not_not.mpr hdst
  change execWritePacketReceived n p s = _
  unfold execWritePacketReceived
  rw [hup, receive_of_accepts (accepts_gotPacket n hacc), if_neg hhere]
  rfl

section
variable {p : Packet} {s : State}

theorem windowWrite_of_refused {st : Nat} (h : windowRefusal (win s (Pk.window p)) p = some st) : windowWrite p s = dropPacket (Pk.window p) p st s := by
  unfold windowWrite; rw [h]

theorem windowWrite_of_tracked {i : Inbound} (h : windowRefusal (win s (Pk.window p)) p = none) (hi : inboundOf s (Pk.src p) (Pk.tag p) = some i) :
    windowWrite p s = acceptPacket (win s (Pk.window p)) p s := by
  unfold windowWrite; rw [h, hi]

theorem windowWrite_of_new (h : windowRefusal (win s (Pk.window p)) p = none) (hi : inboundOf s (Pk.src p) (Pk.tag p) = none)
    (hroom : s.hch.inbound.length < 4096) : windowWrite p s =
      acceptPacket (win s (Pk.window p)) p (modHch (fun h => { h with inbound := h.inbound ++ [newInbound p s.now] }) s) := by
  unfold windowWrite; rw [h, hi]; exact if_neg (Nat.not_le.mpr hroom)

theorem windowWrite_of_full (h : windowRefusal (win s (Pk.window p)) p = none) (hi : inboundOf s (Pk.src p) (Pk.tag p) = none)
    (hfull : 4096 ≤ s.hch.inbound.length) : windowWrite p s =
      sendNak p stBusy (modHch (fun h => { h with trackFull := satAdd 32 h.trackFull 1 }) s) := by
  unfold windowWrite; rw [h, hi]; exact if_pos hfull

end

/-! ### A packet a window drops -/

/-- The state in which a window's drop is answered: the transfer marked, the error and the drop counted, the first fault recorded. -/
def droppedAt (w : Nat) (p : Packet) (st : Nat) (s : State) : State :=
  hchFault 2 (win s w).partition st (Pk.src p) w
    (modWin w (fun y => { y with dropped := satAdd 32 y.dropped 1 })
      (countError 4 (modInbound (Pk.src p) (Pk.tag p) (fun i => { i with dropped := true }) s)))

theorem dropPacket_of_window {w st : Nat} (p : Packet) (s : State) (h : st ≠ stBadCommand) : dropPacket w p st s = sendNak p st (droppedAt w p st s) :=
  if_neg h

theorem droppedAt_t1 (w : Nat) (p : Packet) (st : Nat) (s : State) : (droppedAt w p st s).t1 = s.t1 := by
  simp only [droppedAt, hchFault, modWin, countError, modInbound, modHch_t1, modErr_t1]
theorem droppedAt_t2 (w : Nat) (p : Packet) (st : Nat) (s : State) : (droppedAt w p st s).t2 = s.t2 := by
  simp only [droppedAt, hchFault, modWin, countError, modInbound, modHch_t2, modErr_t2]
theorem droppedAt_sp (w : Nat) (p : Packet) (st : Nat) (s : State) : (droppedAt w p st s).sp = s.sp := by
  simp only [droppedAt, hchFault, modWin, countError, modInbound, modHch_sp, modErr_sp]
theorem droppedAt_now (w : Nat) (p : Packet) (st : Nat) (s : State) : (droppedAt w p st s).now = s.now := by
  simp only [droppedAt, hchFault, modWin, countError, modInbound, modHch_now, modErr_now]

theorem droppedAt_accepted (w : Nat) (p : Packet) (st : Nat) (s : State) :
    (droppedAt w p st s).hch.inbound.map Inbound.accepted = s.hch.inbound.map Inbound.accepted := by
  unfold droppedAt
  rw [hchFault_inbound]
  exact accepted_modInbound_dropped ..

theorem win_droppedAt (w : Nat) (p : Packet) (st : Nat) (s : State) : (win (droppedAt w p st s) w).dropped = satAdd 32 (win s w).dropped 1 := by
  have hwins : win (droppedAt w p st s) w = win (modWin w _ _) w := congrArg (Tbl.opt Win.reset · w) (hchFault_wins ..)
  rw [hwins, win_modWin_same]
  rfl

/-- Settles O29: once the packet is counted at its port, the window's one test decides, and the drop with its NAK changes only the window's count, the first fault, the transfer's mark and what reports pass through. -/
theorem windowsAdmitOrDropPackets : Obligations.WindowsAdmitOrDropPackets := by
  unfold Obligations.WindowsAdmitOrDropPackets
  intro n p s hport hacc hdst u w x ours sender within drop
  have hexec : exec (.writePacketReceived n p) s = .next (windowWrite p u) := exec_writePacketReceived_of_accepts hport hacc hdst
  have hwin : win u w = x := win_gotPacket n s w
  have hfind : inboundOf u (Pk.src p) (Pk.tag p) = inboundOf s (Pk.src p) (Pk.tag p) := inboundOf_gotPacket ..
  have hhch : u.hch = s.hch := gotPacket_hch n s
  have hnew : newInbound p u.now = newInbound p s.now := congrArg (newInbound p) (gotPacket_now n s)
  have hdrop (st : Nat) : drop st = sendNak p st (droppedAt w p st u) := by
    unfold droppedAt
    rw [hwin]
    rfl
  refine ⟨fun hclosed => ?_, fun hours hwrong => ?_, fun st => ?_, fun hours hsender hwithin hform => ?_⟩
  · have hrefused : windowRefusal (win u w) p = some stWindowClosed := by rw [hwin]; exact windowRefusal_of_closed hclosed
    rw [hexec, windowWrite_of_refused hrefused, dropPacket_of_window _ _ (by decide), hdrop]
  · have hrefused : windowRefusal (win u w) p = some stNotPermitted := by rw [hwin]; exact windowRefusal_of_notPermitted hours hwrong
    rw [hexec, windowWrite_of_refused hrefused, dropPacket_of_window _ _ (by decide), hdrop]
  · rw [hdrop]
    have hnak := sendNak_reportsOnly p st (droppedAt w p st u)
    have hgot : ReportsOnly s u := gotPacket_reportsOnly n s
    refine ⟨?_, ?_, ?_, ?_, ?_, ?_⟩
    · rw [hnak.t1_eq, droppedAt_t1, hgot.t1_eq]
    · rw [hnak.t2_eq, droppedAt_t2, hgot.t2_eq]
    · rw [hnak.sp_eq, droppedAt_sp, hgot.sp_eq]
    · rw [hnak.hch_eq, droppedAt_accepted, hhch]
    · rw [hnak.now_eq, droppedAt_now, hgot.now_eq]
    · rw [win, hnak.hch_eq, ← win, win_droppedAt, hwin]
      rfl
  · have hnone : windowRefusal (win u w) p = none := by rw [hwin]; exact windowRefusal_of_fits hours hsender hwithin hform
    refine ⟨fun i hi => ?_, fun hi hroom => ?_, fun hi hfull => ?_⟩
    · rw [hexec, windowWrite_of_tracked hnone (hfind.trans hi), hwin]
    · rw [hexec, windowWrite_of_new hnone (hfind.trans hi) (hhch ▸ hroom), hwin, hnew]
      rfl
    · rw [hexec, windowWrite_of_full hnone (hfind.trans hi) (hhch ▸ hfull)]
      rfl

end Sys2Proof.Machine
end

section
/-! PROOFS. A packet past its lifetime: whoever holds it discards it and counts it, and nothing else happens (R509). -/
namespace Sys2Proof.Machine

/-! ### The one test of age -/

/-- The state in which a packet past its lifetime has been discarded. -/
def droppedForAge (s : State) : State := modFab (fun f => { f with dropsAge := satAdd 32 f.dropsAge 1 }) s

/-- A packet of a known type that its receiver takes, but past its lifetime, is never handed on, whether or not the chip has an identity. -/
theorem receive_of_tooOld {types : List Nat} {p : Packet} {s : State} (hdie : dieOn s = true) (hold : tooOld s p = true) (htype : Pk.type p ∈ types)
    (hknown : 0 < Pk.type p ∧ Pk.type p < 10) (k : State → State) : receive types p k s = droppedForAge s := by
  have hnamed : ¬(Pk.type p = 0 ∨ 10 ≤ Pk.type p) := by omega
  have htaken : types.contains (Pk.type p) = true := List.contains_iff_mem.mpr htype
  unfold receive
  simp only [hdie, if_neg hnamed, htaken, hold, Bool.not_true, Bool.false_eq_true, if_false, if_true]
  rfl

theorem dieOn_gotPacket (n : Nat) (s : State) : dieOn (gotPacket n s) = dieOn s := by
  rw [dieOn, (gotPacket_reportsOnly n s).pwr_eq, dieOn]

theorem tooOld_gotPacket (n : Nat) (p : Packet) (s : State) : tooOld (gotPacket n s) p = tooOld s p := by
  rw [tooOld, birthNow, rack, (gotPacket_reportsOnly n s).step_eq]
  rfl

/-- The same of a packet counted at the port it came on. -/
theorem receive_gotPacket_of_tooOld {types : List Nat} {p : Packet} {s : State} (n : Nat) (hdie : dieOn s = true) (hold : tooOld s p = true)
    (htype : Pk.type p ∈ types) (hknown : 0 < Pk.type p ∧ Pk.type p < 10) (k : State → State) :
    receive types p k (gotPacket n s) = droppedForAge (gotPacket n s) :=
  receive_of_tooOld (by rw [dieOn_gotPacket, hdie]) (by rw [tooOld_gotPacket, hold]) htype hknown k

/-! ### Every packet that comes on a port is counted there and tested -/

section
variable {n : Nat} {p : Packet} {s : State}

/-- What the router does with a packet that has passed the tests (R515). -/
def crossRouter (p : Packet) (s : State) : State :=
  if Pk.dst p = s.fab.chip then emit (.loopback p) s
  else if 3 ≤ Pk.hops p then modFab (fun f => { f with dropsHops := satAdd 32 f.dropsHops 1 }) s
  else routePacket none (Pk.hop p) s

theorem exec_routerForward_of_up (hup : portUp s n = true) :
    exec (.routerForward n p) s = .next (receive [1, 2, 3, 4, 5, 7, 8] p (crossRouter p) (gotPacket n s)) :=
  congrArg Host.Outcome.next (if_neg (by simp [hup]))

theorem exec_writePacketReceived_of_up (hport : 12 ≤ n ∨ portUp s n = true) :
    ∃ k, exec (.writePacketReceived n p) s = .next (receive [1] p k (gotPacket n s)) := by
  have hup : ¬(decide (n < 12) && !portUp s n) = true := by
    rcases hport with h | h <;> simp [h]
  exact ⟨_, congrArg Host.Outcome.next (if_neg hup)⟩

theorem exec_timeReceived_of_trained (hn : n < 12) (hlink : (port s n).state = 3 ∨ ((port s n).state = 1 ∧ (port s n).lanesUp ≠ 0)) :
    ∃ k, exec (.timeReceived n p) s = .next (receive [6] p k (gotPacket n s)) := by
  have htrained : ¬(!decide (n < 12) || !(decide ((port s n).state = 3) || (decide ((port s n).state = 1) && decide ((port s n).lanesUp ≠ 0)))) = true := by
    rcases hlink with h | ⟨h, hlanes⟩
    · simp [hn, h]
    · simp [hn, h, hlanes]
  exact ⟨_, congrArg Host.Outcome.next (if_neg htrained)⟩

theorem exec_linkIdReceived_of_training (hn : n < 12) (hstate : (port s n).state = 1) (hlanes : (port s n).lanesUp ≠ 0) :
    ∃ k, exec (.linkIdReceived n p) s = .next (receive [9] p k (gotPacket n s)) := by
  have htraining : ¬(!decide (n < 12) || decide ((port s n).state ≠ 1) || decide ((port s n).lanesUp = 0)) = true := by simp [hn, hstate, hlanes]
  exact ⟨_, congrArg Host.Outcome.next (if_neg htraining)⟩

end

/-- Settles O28: each of these receivers begins with the one test of age, after the count of the port the packet came on. -/
theorem packetsPastTheirLifetimeVanish : Obligations.PacketsPastTheirLifetimeVanish := by
  unfold Obligations.PacketsPastTheirLifetimeVanish
  intro n p s hdie hage old u oldAt
  have hold : tooOld s p = true := decide_eq_true hage
  have hport : droppedForAge (gotPacket n s) = oldAt := by
    simp only [oldAt, u]
    unfold gotPacket
    split <;> rfl
  have here {types : List Nat} (k : State → State) (htype : Pk.type p ∈ types) (hknown : 0 < Pk.type p ∧ Pk.type p < 10) :
      (.next (receive types p k s) : Host.Outcome State Fault Refusal) = .next old :=
    congrArg _ (receive_of_tooOld hdie hold htype hknown k)
  have onPort {types : List Nat} (k : State → State) (htype : Pk.type p ∈ types) (hknown : 0 < Pk.type p ∧ Pk.type p < 10) :
      (.next (receive types p k (gotPacket n s)) : Host.Outcome State Fault Refusal) = .next oldAt :=
    congrArg _ ((receive_gotPacket_of_tooOld n hdie hold htype hknown k).trans hport)
  have only {t : Nat} (ht : Pk.type p = t) : Pk.type p ∈ [t] := List.mem_singleton.mpr ht
  refine ⟨fun hup htype => ?_, fun hup htype => ?_, fun htype => here _ (only htype) (by omega), fun htype => here _ (only htype) (by omega),
    fun htype => here _ (only htype) (by omega), fun htype => here _ (only htype) (by omega), fun htype => here _ (only htype) (by omega),
    fun htype => here _ (only htype) (by omega), fun hn hlink htype => ?_, fun hn hstate hlanes htype => ?_⟩
  · rw [exec_routerForward_of_up hup]
    refine onPort _ htype ?_
    simp only [List.mem_cons, List.not_mem_nil, or_false] at htype
    omega
  · obtain ⟨k, hexec⟩ := exec_writePacketReceived_of_up (p := p) hup
    exact hexec.trans (onPort k (only htype) (by omega))
  · obtain ⟨k, hexec⟩ := exec_timeReceived_of_trained (p := p) hn hlink
    exact hexec.trans (onPort k (only htype) (by omega))
  · obtain ⟨k, hexec⟩ := exec_linkIdReceived_of_training (p := p) hn hstate hlanes
    exact hexec.trans (onPort k (only htype) (by omega))

end Sys2Proof.Machine
end

section
/-! PROOFS. The router: a packet for another chip crosses one more link of those that its route offers, or is discarded and counted (R514, R515). -/
namespace Sys2Proof.Machine

/-! ### One more link crossed -/

section
variable (p : Packet) (w : BitVec 64)

theorem Pk.dst_withW1 : Pk.dst { p with w1 := w } = Pk.dst p := rfl
theorem Pk.src_withW1 : Pk.src { p with w1 := w } = Pk.src p := rfl
theorem Pk.type_withW1 : Pk.type { p with w1 := w } = Pk.type p := rfl
theorem Pk.hops_withW1 : Pk.hops { p with w1 := w } = bits w.toNat 52 4 := rfl

@[simp] theorem Pk.dst_hop : Pk.dst (Pk.hop p) = Pk.dst p := Pk.dst_withW1 p _
@[simp] theorem Pk.src_hop : Pk.src (Pk.hop p) = Pk.src p := Pk.src_withW1 p _
@[simp] theorem Pk.type_hop : Pk.type (Pk.hop p) = Pk.type p := Pk.type_withW1 p _

end

/-- Below 15 the field of the hops takes the step without a carry. -/
theorem bits_hops_succ {x : Nat} (h : bits x 52 4 < 15) : bits ((x + 2 ^ 52) % 2 ^ 64) 52 4 = bits x 52 4 + 1 := by
  simp only [bits, Nat.shiftRight_eq_div_pow] at h ⊢
  omega

theorem toNat_add_hop (w : BitVec 64) : (w + 0x0010000000000000#64).toNat = (w.toNat + 2 ^ 52) % 2 ^ 64 := BitVec.toNat_add ..

theorem Pk.hops_hop {p : Packet} (h : Pk.hops p < 15) : Pk.hops (Pk.hop p) = Pk.hops p + 1 :=
  calc Pk.hops (Pk.hop p) = bits (p.w1 + 0x0010000000000000#64).toNat 52 4 := Pk.hops_withW1 p _
    _ = bits ((p.w1.toNat + 2 ^ 52) % 2 ^ 64) 52 4 := by rw [toNat_add_hop]
    _ = Pk.hops p + 1 := bits_hops_succ h

/-! ### The ports that a route offers (R514) -/

/-- The ports of a mask that are up. -/
def upIn (s : State) (mask : Nat) : List Nat := (List.range 12).filter fun n => bit mask n && portUp s n

@[simp] theorem mem_upIn {s : State} {mask k : Nat} : k ∈ upIn s mask ↔ k < 12 ∧ bit mask k = true ∧ portUp s k = true := by
  simp [upIn]

theorem upIn_eq_nil {s : State} {mask : Nat} : upIn s mask = [] ↔ ∀ k, k < 12 → portUp s k = true → bit mask k = false := by
  simp only [List.eq_nil_iff_forall_not_mem, mem_upIn, not_and, Bool.not_eq_true]
  refine forall_congr' fun k => forall_congr' fun _ => ?_
  cases bit mask k <;> simp

/-- The alternate mask serves only where no primary port is up. -/
theorem routePorts_eq (s : State) (r : Route) : routePorts s r = if upIn s r.primary = [] then upIn s r.alternate else upIn s r.primary :=
  if_congr List.isEmpty_iff rfl rfl

theorem routePorts_eq_nil {s : State} {r : Route} :
    routePorts s r = [] ↔ ∀ k, k < 12 → portUp s k = true → bit r.primary k = false ∧ bit r.alternate k = false := by
  have hboth : routePorts s r = [] ↔ upIn s r.primary = [] ∧ upIn s r.alternate = [] := by
    rw [routePorts_eq]
    split <;> simp [*]
  rw [hboth, upIn_eq_nil, upIn_eq_nil]
  exact ⟨fun h k hk hup => ⟨h.1 k hk hup, h.2 k hk hup⟩, fun h => ⟨fun k hk hup => (h k hk hup).1, fun k hk hup => (h k hk hup).2⟩⟩

/-- A port that a route offers is up and stands in the primary mask, or in the alternate one while no primary port is up. -/
theorem offered_of_mem_routePorts {s : State} {r : Route} {k : Nat} (h : k ∈ routePorts s r) :
    k < 12 ∧ portUp s k = true ∧
      (bit r.primary k = true ∨ (bit r.alternate k = true ∧ ∀ i, i < 12 → portUp s i = true → bit r.primary i = false)) := by
  rw [routePorts_eq] at h
  split at h
  next hnone =>
    obtain ⟨hk, halt, hup⟩ := mem_upIn.mp h
    exact ⟨hk, hup, .inr ⟨halt, upIn_eq_nil.mp hnone⟩⟩
  next =>
    obtain ⟨hk, hprim, hup⟩ := mem_upIn.mp h
    exact ⟨hk, hup, .inl hprim⟩

/-! ### The port chosen (R500, R514) -/

theorem getD_mod_length_mem {ps : List Nat} (i : Nat) (h : ps ≠ []) : ps.getD (i % ps.length) 0 ∈ ps := by
  have hlt : i % ps.length < ps.length := Nat.mod_lt _ (List.length_pos_iff.mpr h)
  rw [List.getD_eq_getElem _ _ hlt]
  exact List.getElem_mem hlt

theorem turn_mem {key : Nat} {ps : List Nat} {s : State} (h : ps ≠ []) : (turn key ps s).1 ∈ ps := by
  have hmax : max 1 ps.length = ps.length := max_eq_right (List.length_pos_iff.mpr h)
  simp only [turn, hmax]
  exact getD_mod_length_mem _ h

theorem turn_out (key : Nat) (ps : List Nat) (s : State) : (turn key ps s).2.out = s.out := rfl

/-- Without a valid entry, or with no port offered, no port is chosen. -/
theorem choosePort_of_unrouted {p : Packet} {s : State} (h : (route s (Pk.dst p)).valid = false ∨ routePorts s (route s (Pk.dst p)) = []) :
    choosePort p s = (none, s) := by
  unfold choosePort
  rcases h with h | h <;> simp [h]

/-- By turn, by hash, or by turn within a bonded group: the port chosen is one that the route offers, and choosing sends nothing. -/
theorem choosePort_of_routed {p : Packet} {s : State} (hvalid : (route s (Pk.dst p)).valid = true) (hps : routePorts s (route s (Pk.dst p)) ≠ []) :
    ∃ k v, choosePort p s = (some k, v) ∧ v.out = s.out ∧ k ∈ routePorts s (route s (Pk.dst p)) := by
  unfold choosePort
  have hoffers : ¬(!(route s (Pk.dst p)).valid || (routePorts s (route s (Pk.dst p))).isEmpty) = true := by simp [hvalid, hps]
  rw [if_neg hoffers]
  dsimp only
  split
  · exact ⟨_, _, rfl, turn_out .., turn_mem hps⟩
  · split
    · exact ⟨_, _, rfl, rfl, getD_mod_length_mem _ hps⟩
    · split
      · exact ⟨_, _, rfl, rfl, getD_mod_length_mem _ hps⟩
      next hmembers =>
        obtain ⟨-, hmem⟩ := List.mem_filter.mp (turn_mem (mt List.isEmpty_iff.mpr hmembers))
        exact ⟨_, _, rfl, turn_out .., List.contains_iff_mem.mp hmem⟩

/-! ### A packet for another chip on its route (R515) -/

section
variable {part : Option Nat} {p : Packet} {s : State}

theorem routePacket_of_chosen {k : Nat} {v : State} (hdst : Pk.dst p ≠ s.fab.chip) (h : choosePort p s = (some k, v)) :
    routePacket part p s = transmit k part p v := by
  unfold routePacket routeTo
  simp only [hdst, decide_false, Bool.and_false, Bool.false_eq_true, if_false, h]

/-- The state in which a packet without a route has been discarded. -/
def droppedUnrouted (s : State) : State := modFab (fun f => { f with dropsNoRoute := satAdd 32 f.dropsNoRoute 1 }) (countError 4 s)

theorem routePacket_of_unrouted (hdst : Pk.dst p ≠ s.fab.chip) (h : choosePort p s = (none, s)) :
    routePacket part p s = if Pk.type p = 2 ∨ Pk.type p = 3 then droppedUnrouted s else sendNak p stNoResource (droppedUnrouted s) := by
  unfold routePacket routeTo
  simp only [hdst, decide_false, Bool.and_false, Bool.false_eq_true, if_false, h]
  rfl

end

/-! ### Counting a packet at its port leaves what routes it -/

/-- Progress on one link leaves every port's state. -/
theorem port_state_gotPacket (n : Nat) (s : State) (k : Nat) : (port (gotPacket n s) k).state = (port s k).state := by
  unfold gotPacket
  split
  · rfl
  · by_cases hk : k = n
    · subst hk
      simp [port, modPort]
    · simp [port, modPort, Tbl.opt_set_other _ _ _ _ _ hk]

theorem portUp_gotPacket (n : Nat) (s : State) (k : Nat) : portUp (gotPacket n s) k = portUp s k := by
  rw [portUp, port_state_gotPacket, portUp]

theorem route_gotPacket (n : Nat) (s : State) (c : Nat) : route (gotPacket n s) c = route s c := by
  unfold gotPacket
  split <;> rfl

theorem routePorts_gotPacket (n : Nat) (s : State) (r : Route) : routePorts (gotPacket n s) r = routePorts s r := by
  simp only [routePorts, portUp_gotPacket]

theorem gotPacket_out (n : Nat) (s : State) : (gotPacket n s).out = s.out := by
  unfold gotPacket
  split <;> rfl

/-! ### The router -/

section
variable {p : Packet} {s : State}

theorem crossRouter_of_here (hdst : Pk.dst p = s.fab.chip) : crossRouter p s = emit (.loopback p) s := if_pos hdst

theorem crossRouter_of_crossed (hdst : Pk.dst p ≠ s.fab.chip) (hhops : 3 ≤ Pk.hops p) :
    crossRouter p s = modFab (fun f => { f with dropsHops := satAdd 32 f.dropsHops 1 }) s := (if_neg hdst).trans (if_pos hhops)

theorem crossRouter_of_crossing (hdst : Pk.dst p ≠ s.fab.chip) (hhops : Pk.hops p < 3) : crossRouter p s = routePacket none (Pk.hop p) s :=
  (if_neg hdst).trans (if_neg (Nat.not_le.mpr hhops))

end

/-- Settles O25: the port chosen is always one of those that the route offers, which are up; with none offered the packet is lost before any is chosen. -/
theorem theRouterForwardsOrDiscards : Obligations.TheRouterForwardsOrDiscards := by
  unfold Obligations.TheRouterForwardsOrDiscards
  intro n p s hup hacc u r q
  have hexec : exec (.routerForward n p) s = .next (crossRouter p u) := by
    rw [exec_routerForward_of_up hup, receive_of_accepts (accepts_gotPacket n hacc)]
  have hchip : u.fab.chip = s.fab.chip := gotPacket_chip n s
  have hroute : route u (Pk.dst (Pk.hop p)) = r := by rw [Pk.dst_hop]; exact route_gotPacket ..
  have hports : routePorts u r = routePorts s r := routePorts_gotPacket ..
  refine ⟨fun hdst => ?_, fun hdst hhops => ?_, fun hdst hhops => ?_⟩
  · rw [hexec, crossRouter_of_here (hdst.trans hchip.symm)]
    rfl
  · rw [hexec, crossRouter_of_crossed (hchip ▸ hdst) hhops]
    rfl
  · have haway : Pk.dst (Pk.hop p) ≠ u.fab.chip := by rw [Pk.dst_hop, hchip]; exact hdst
    have hcross : exec (.routerForward n p) s = .next (routePacket none (Pk.hop p) u) := by
      rw [hexec, crossRouter_of_crossing (hchip ▸ hdst) hhops]
    refine ⟨Pk.hops_hop (by omega), Pk.dst_hop p, Pk.src_hop p, Pk.type_hop p, fun hnone => ?_, fun j hvalid hj hjup hmask => ?_⟩
    · have hlost : choosePort (Pk.hop p) u = (none, u) :=
        choosePort_of_unrouted (by rw [hroute, hports]; exact hnone.imp_right routePorts_eq_nil.mpr)
      have hdrop := hcross.trans (congrArg _ (routePacket_of_unrouted haway hlost))
      rw [Pk.type_hop] at hdrop
      exact ⟨fun hanswer => hdrop.trans (congrArg _ (if_pos hanswer)),
        fun hnotDone hnotNak => hdrop.trans (congrArg _ (if_neg (not_or.mpr ⟨hnotDone, hnotNak⟩)))⟩
    · have hoffers : routePorts s r ≠ [] := fun hnil => by
        obtain ⟨hprim, halt⟩ := routePorts_eq_nil.mp hnil j hj hjup
        simp [hprim, halt] at hmask
      obtain ⟨k, v, hchoose, hout, hk⟩ := choosePort_of_routed (by rw [hroute]; exact hvalid) (by rw [hroute, hports]; exact hoffers)
      rw [hroute, hports] at hk
      exact ⟨k, v, hchoose, hcross.trans (congrArg _ (routePacket_of_chosen haway hchoose)), hout.trans (gotPacket_out n s),
        offered_of_mem_routePorts hk⟩

end Sys2Proof.Machine
end

section
/-! PROOFS. A command read from its queue: the checks of R569 in their order, and only then its own meaning. -/
namespace Sys2Proof.Machine

/-! ### What firmware reads at the head of a queue -/

/-- The state in which firmware has read the descriptor at the head of a queue (R565). -/
def passHead (f q : Nat) (s : State) : State := modRing f q (fun r => { r with head := (r.head + 1) % r.size }) s

section
variable {f q : Nat} {host : HostRead} {s : State}

theorem exec_commandRead_of_failed (hread : mayRead s f q = true) {r : HostRead} (hfailed : ∀ b, r ≠ .ok b) :
    exec (.commandRead f q r host) s = .next (queueError f q 3 s) := by
  change execCommandRead f q r host s = _
  cases r with
  | ok b => exact absurd rfl (hfailed b)
  | error | timeout | refused => simp [execCommandRead, hread]

theorem exec_commandRead_of_mayStart (hread : mayRead s f q = true) {b : List Byte}
    (hstart : mayStart (padTo 64 b) (descMbx f q (padTo 64 b) host) s = true) :
    exec (.commandRead f q (.ok b) host) s = .next (startDesc f q (padTo 64 b) host (passHead f q s)) := by
  change execCommandRead f q (.ok b) host s = _
  simp [execCommandRead, hread, hstart, passHead]

/-! ### The checks of the descriptor's opcode and header -/

variable {d : List Byte}

theorem startDesc_of_unknown (hop : specOf (leAt d 0 2) = none) : startDesc f q d host s = failCmd (descMbx f q d host) 0x8000 s := by
  simp [startDesc, hop]

theorem startDesc_of_headerReserved {sp : CmdSpec} {i : Nat} (hop : specOf (leAt d 0 2) = some sp) (hres : descReserved d = some i) :
    startDesc f q d host s = failCmd (descMbx f q d host) (0x8000 + i) s := by
  simp [startDesc, hop, hres]

theorem startDesc_of_known {sp : CmdSpec} (hop : specOf (leAt d 0 2) = some sp) (hclean : descReserved d = none) :
    startDesc f q d host s = runCmd sp (descMbx f q d host) s := by
  simp [startDesc, hop, hclean]

end

/-! ### The checks of the parameters, of permission and of the device state -/

section
variable {sp : CmdSpec} {c : Cmd} {s : State}

theorem refusal_of_paramReserved {i : Nat} (hres : firstReserved sp.allow 48 c.m.params = some i) :
    refusal sp c s = some (stBadCommand, 0x8000 + (16 + i)) := by
  simp only [refusal, hres]
  rw [← Nat.add_assoc]

theorem refusal_of_denied (hclean : firstReserved sp.allow 48 c.m.params = none) (hdenied : groupOk s c sp.op = false ∨ sp.perm s c = false) :
    refusal sp c s = some (stNotPermitted, 0) := by
  have hnot : (groupOk s c sp.op && sp.perm s c) = false := Bool.and_eq_false_iff.mpr hdenied
  simp [refusal, hclean, hnot]

theorem refusal_of_unaccepted (hclean : firstReserved sp.allow 48 c.m.params = none) (hgroup : groupOk s c sp.op = true)
    (hperm : sp.perm s c = true) (hstate : stateOk s sp.op = false) : refusal sp c s = some (stBusy, 0) := by
  simp [refusal, hclean, hgroup, hperm, hstate]

theorem refusal_of_allowed (hclean : firstReserved sp.allow 48 c.m.params = none) (hgroup : groupOk s c sp.op = true)
    (hperm : sp.perm s c = true) (hstate : stateOk s sp.op = true) : refusal sp c s = none := by
  simp [refusal, hclean, hgroup, hperm, hstate]

end

/-- A command that firmware takes up and R569 refuses completes with that status, its meaning not reached. -/
theorem runCmd_of_refused {sp : CmdSpec} {m : Mbx} {s : State} {st det : Nat} (hstart : canStart s m = true)
    (href : refusal sp (newCmd s sp.op m) (takeCmd (newCmd s sp.op m) s) = some (st, det)) :
    runCmd sp m s = complete (newCmd s sp.op m) st det [] (takeCmd (newCmd s sp.op m) s) := by
  simp [runCmd, hstart, href]

/-- Settles O14: the opcode and the header decide whether a command runs at all, and the refusal of the one that runs, the first that applies, whether its meaning is reached. -/
theorem commandsAreCheckedInOrder : Obligations.CommandsAreCheckedInOrder := by
  unfold Obligations.CommandsAreCheckedInOrder
  intro f q host s hread
  refine ⟨fun r hfailed => exec_commandRead_of_failed hread hfailed, ?_⟩
  intro b d m u hstart
  have hexec : exec (.commandRead f q (.ok b) host) s = .next (startDesc f q d host u) := exec_commandRead_of_mayStart hread hstart
  refine ⟨fun hop => ?unknown, fun sp i hop hres => ?header, ?known⟩
  case unknown =>
    rw [hexec, startDesc_of_unknown hop]
    rfl
  case header =>
    rw [hexec, startDesc_of_headerReserved hop hres]
    rfl
  case known =>
    intro sp hop hclean hcan c v
    have hrun : exec (.commandRead f q (.ok b) host) s = .next (runCmd sp m u) := by rw [hexec, startDesc_of_known hop hclean]
    have hrefused {st det : Nat} (href : refusal sp c v = some (st, det)) :
        exec (.commandRead f q (.ok b) host) s = .next (complete c st det [] v) := by rw [hrun, runCmd_of_refused hcan href]
    refine ⟨fun i hres => hrefused (refusal_of_paramReserved hres), fun hparams hdenied => hrefused (refusal_of_denied hparams hdenied),
      fun hparams hgroup hperm hstate => hrefused (refusal_of_unaccepted hparams hgroup hperm hstate), ?_⟩
    intro hparams hgroup hperm hstate
    have hnone : refusal sp c v = none := refusal_of_allowed hparams hgroup hperm hstate
    rw [hrun, runCmd_of_starts ⟨hcan, hnone⟩]

end Sys2Proof.Machine
end
section
/-! PROOFS. The power cap: COMMAND_READ runs whichever mailbox command it finds, SEC_POWER_CFG among them. -/
namespace Sys2Proof.Machine

/-- A queue of 16 entries with one descriptor to read. -/
def capQueue : Ring := { Ring.reset with enable := true, sizeLog2 := 4, sqTail := 1 }

/-- A module in service whose primary function's queue 0 holds a descriptor that COMMAND_READ is to read. -/
def capState (i : Instr) : State :=
  { State.reset with
    pending := [i],
    host := { HostSt.reset with
      state := 2, primary := some 0, funcs := [(0, some { Func.reset with bme := true, queues := [(0, some capQueue)] })],
      ports := [(0, some { HostPort.reset with linkUp := true, perst := false })] } }

/-- COMMAND_READ of a descriptor of SEC_POWER_CFG with a cap of 300 W (R567, R642). -/
def readsPowerCfg : Instr := .commandRead 0 0 (.ok ([0x0B, 0x09] ++ List.replicate 14 0 ++ [0x2C, 0x01])) (.ok [])

/-- The step that reads the descriptor lowers the cap that reset gives. -/
theorem capState_steps_to_lower_cap : ∃ t, step (capState readsPowerCfg) = .next t ∧ t.isl.cap = 300 := ⟨_, rfl, by decide⟩

/-- Refutes O57: COMMAND_READ is none of the named commands, and SEC_POWER_CFG read from a queue sets the cap. -/
theorem not_onlyNamedCommandsMoveTheCapOutOfItsRangeOrAtAll : ¬ Obligations.OnlyNamedCommandsMoveTheCapOutOfItsRangeOrAtAll := by
  unfold Obligations.OnlyNamedCommandsMoveTheCapOutOfItsRangeOrAtAll
  intro h
  obtain ⟨t, hstep, hcap⟩ := capState_steps_to_lower_cap
  obtain ⟨-, hkept, -⟩ := h _ t hstep
  have hunnamed : ∀ i rest, (capState readsPowerCfg).pending = i :: rest → Safety.maySetPower i = false := by
    intro i rest hpending
    obtain ⟨rfl, -⟩ := List.cons.inj hpending
    rfl
  have hsame : t.isl.cap = 750 := (hkept hunnamed).1
  omega

end Sys2Proof.Machine
end
section
/-! PROOFS. What the meaning of every command keeps: memory's canonical form, the clock and the queue, what was sent, and what the island holds for good. -/
namespace Sys2Proof.Machine

/-! ### The relation -/

/-- What the island holds that only few commands change: life cycle and fuses. -/
def IslSt.held (i : IslSt) : Nat × Nat × Nat × Nat × Nat :=
  (i.lc, i.fwSvn, i.deviceId, i.secret, i.vendorRevoked)

/-- From `s` to `t` memory stays canonical, clock and queue stand, and nothing sent is taken back. -/
structure Sound (s t : State) : Prop where
  mem : Memory.wf s.mem = true → Memory.wf t.mem = true
  now : t.now = s.now
  pending : t.pending = s.pending
  out : s.out <+: t.out

/-- Sound, and what the island holds for good is as it was. -/
structure Keeps (s t : State) : Prop extends Sound s t where
  held : t.isl.held = s.isl.held

section
variable {s₀ s t : State}

theorem Sound.refl (s : State) : Sound s s := ⟨id, rfl, rfl, List.prefix_rfl⟩

theorem Sound.trans {u : State} (h : Sound s t) (h' : Sound t u) : Sound s u :=
  ⟨h'.mem ∘ h.mem, h'.now.trans h.now, h'.pending.trans h.pending, h.out.trans h'.out⟩

theorem Keeps.refl (s : State) : Keeps s s := ⟨.refl s, rfl⟩

theorem Keeps.trans {u : State} (h : Keeps s t) (h' : Keeps t u) : Keeps s u :=
  ⟨h.toSound.trans h'.toSound, h'.held.trans h.held⟩

/-! ### Updates -/

/-- An update of other blocks. -/
theorem Keeps.update (h : Keeps s₀ s) (hmem : t.mem = s.mem) (hnow : t.now = s.now) (hpending : t.pending = s.pending) (hout : t.out = s.out)
    (hheld : t.isl.held = s.isl.held) : Keeps s₀ t :=
  h.trans ⟨⟨fun hwf => hmem ▸ hwf, hnow, hpending, hout ▸ List.prefix_rfl⟩, hheld⟩

/-- An update of the other blocks keeps all of it. -/
theorem modStep_keeps {g} (h : Keeps s₀ s) : Keeps s₀ (modStep g s) := h.update rfl rfl rfl rfl rfl
theorem modProg_keeps {g} (h : Keeps s₀ s) : Keeps s₀ (modProg g s) := h.update rfl rfl rfl rfl rfl
theorem modSeq_keeps {g} (h : Keeps s₀ s) : Keeps s₀ (modSeq g s) := h.update rfl rfl rfl rfl rfl
theorem modSp_keeps {g} (h : Keeps s₀ s) : Keeps s₀ (modSp g s) := h.update rfl rfl rfl rfl rfl
theorem modAcc_keeps {g} (h : Keeps s₀ s) : Keeps s₀ (modAcc g s) := h.update rfl rfl rfl rfl rfl
theorem modNp_keeps {g} (h : Keeps s₀ s) : Keeps s₀ (modNp g s) := h.update rfl rfl rfl rfl rfl
theorem modStr_keeps {g} (h : Keeps s₀ s) : Keeps s₀ (modStr g s) := h.update rfl rfl rfl rfl rfl
theorem modMdl_keeps {g} (h : Keeps s₀ s) : Keeps s₀ (modMdl g s) := h.update rfl rfl rfl rfl rfl
theorem modKv_keeps {g} (h : Keeps s₀ s) : Keeps s₀ (modKv g s) := h.update rfl rfl rfl rfl rfl
theorem modSrv_keeps {g} (h : Keeps s₀ s) : Keeps s₀ (modSrv g s) := h.update rfl rfl rfl rfl rfl
theorem modGth_keeps {g} (h : Keeps s₀ s) : Keeps s₀ (modGth g s) := h.update rfl rfl rfl rfl rfl
theorem modHch_keeps {g} (h : Keeps s₀ s) : Keeps s₀ (modHch g s) := h.update rfl rfl rfl rfl rfl
theorem modFab_keeps {g} (h : Keeps s₀ s) : Keeps s₀ (modFab g s) := h.update rfl rfl rfl rfl rfl
theorem modHost_keeps {g} (h : Keeps s₀ s) : Keeps s₀ (modHost g s) := h.update rfl rfl rfl rfl rfl
theorem modPart_keeps {g} (h : Keeps s₀ s) : Keeps s₀ (modPart g s) := h.update rfl rfl rfl rfl rfl
theorem modErr_keeps {g} (h : Keeps s₀ s) : Keeps s₀ (modErr g s) := h.update rfl rfl rfl rfl rfl
theorem modPwr_keeps {g} (h : Keeps s₀ s) : Keeps s₀ (modPwr g s) := h.update rfl rfl rfl rfl rfl
theorem modIsl_keeps {g : IslSt → IslSt} (hg : (g s.isl).held = s.isl.held) (h : Keeps s₀ s) : Keeps s₀ (modIsl g s) := h.update rfl rfl rfl rfl hg

/-- Writing bytes. -/
theorem wrBytes_keeps {a bs} (h : Keeps s₀ s) : Keeps s₀ (wrBytes a bs s) := h.trans ⟨⟨putBytes_wf _ _ _, rfl, rfl, List.prefix_rfl⟩, rfl⟩

/-- Writing one by one. -/
theorem foldl_set_wf {f : Nat → Nat} {t : Tbl Byte} (ps : List (Nat × Byte)) (h : Memory.wf t = true) :
    Memory.wf (ps.foldl (fun m p => Tbl.set 0 m (f p.1) p.2) t) = true :=
  List.foldlRecOn (motive := fun t => Memory.wf t = true) ps _ h fun t ht _ _ => Tbl.set_wf 0 t _ _ ht

/-- Zeroing a range. -/
theorem zeroMem_keeps {a n} (h : Keeps s₀ s) : Keeps s₀ (zeroMem a n s) := h.trans ⟨⟨clearRange_wf _ _ _, rfl, rfl, List.prefix_rfl⟩, rfl⟩

/-- Sending something outside. -/
theorem emit_keeps {o} (h : Keeps s₀ s) : Keeps s₀ (emit o s) := h.trans ⟨⟨id, rfl, rfl, List.prefix_append ..⟩, rfl⟩

/-! ### Choices and repetitions -/

theorem Keeps.ite {c : Prop} {_ : Decidable c} (hs : Keeps s₀ s) (ht : Keeps s₀ t) : Keeps s₀ (if c then s else t) := by
  split
  · exact hs
  · exact ht

theorem Keeps.fst_ite {α} {c : Prop} {_ : Decidable c} {a b : State × α} (ha : Keeps s₀ a.1) (hb : Keeps s₀ b.1) : Keeps s₀ (if c then a else b).1 := by
  split
  · exact ha
  · exact hb

theorem Keeps.snd_ite {α} {c : Prop} {_ : Decidable c} {a b : α × State} (ha : Keeps s₀ a.2) (hb : Keeps s₀ b.2) : Keeps s₀ (if c then a else b).2 := by
  split
  · exact ha
  · exact hb

theorem onlyIf_keeps {c f} (hf : ∀ s, Keeps s₀ s → Keeps s₀ (f s)) (h : Keeps s₀ s) : Keeps s₀ (onlyIf c f s) := .ite (hf s h) h

theorem Keeps.foldl {α} {f : State → α → State} {xs : List α} (hf : ∀ s x, Keeps s₀ s → Keeps s₀ (f s x)) (h : Keeps s₀ s) :
    Keeps s₀ (xs.foldl f s) := by
  induction xs generalizing s with
  | nil => exact h
  | cons x xs ih => exact ih (hf s x h)

/-- A repetition that carries more than the state. -/
theorem Keeps.foldl_of {α β} (st : β → State) {f : β → α → β} {xs : List α} {a : β} (hf : ∀ a x, Keeps s₀ (st a) → Keeps s₀ (st (f a x)))
    (h : Keeps s₀ (st a)) : Keeps s₀ (st (xs.foldl f a)) :=
  List.foldlRecOn (motive := fun a => Keeps s₀ (st a)) xs f h fun a ha x _ => hf a x ha

/-- A repetition that carries something in front of the state. -/
theorem Keeps.foldl_snd {α β} {f : β × State → α → β × State} {xs : List α} {a : β × State} (hf : ∀ a x, Keeps s₀ a.2 → Keeps s₀ (f a x).2)
    (h : Keeps s₀ a.2) : Keeps s₀ (xs.foldl f a).2 := Keeps.foldl_of Prod.snd hf h

end

/-! ### Commands, register tables, meanings -/

/-- A mailbox command whose own meaning keeps it all. -/
def CmdSpec.Keeping (sp : CmdSpec) : Prop := ∀ c s₀ s, Keeps s₀ s → Keeps s₀ (sp.body c s).1

/-- A table of register writes each of which keeps it all. -/
def KeepingPuts (ps : List (Nat × Put)) : Prop := ∀ p ∈ ps, ∀ i n w s₀ s, Keeps s₀ s → Keeps s₀ (p.2 i n w s)

theorem KeepingPuts.nil : KeepingPuts [] := fun _ hp => absurd hp List.not_mem_nil

theorem KeepingPuts.cons {k : Nat} {p : Put} {ps : List (Nat × Put)} (hp : ∀ i n w s₀ s, Keeps s₀ s → Keeps s₀ (p i n w s)) (hps : KeepingPuts ps) :
    KeepingPuts ((k, p) :: ps) := by
  intro q hq
  obtain rfl | hq := List.mem_cons.mp hq
  · exact hp
  · exact hps q hq

/-- The meaning of a command answers a next state that keeps it all. -/
def KeepsTo (s : State) (o : Host.Outcome State Fault Refusal) : Prop := ∃ t, o = .next t ∧ Keeps s t

end Sys2Proof.Machine
end
section
/-! PROOFS. What every command keeps, in the model's file Ops: the operations every family shares. -/
namespace Sys2Proof.Machine
section
variable {s₀ s : State}

theorem modFld_keeps {f g} (h : Keeps s₀ s) : Keeps s₀ (modFld f g s) := h.update rfl rfl rfl rfl rfl
theorem modTier_keeps {t g} (h : Keeps s₀ s) : Keeps s₀ (modTier t g s) := .ite (h.update rfl rfl rfl rfl rfl) (h.update rfl rfl rfl rfl rfl)
theorem modFunc_keeps {f g} (h : Keeps s₀ s) : Keeps s₀ (modFunc f g s) := modHost_keeps h
theorem modHostPort_keeps {p g} (h : Keeps s₀ s) : Keeps s₀ (modHostPort p g s) := modHost_keeps h
theorem modPartn_keeps {p g} (h : Keeps s₀ s) : Keeps s₀ (modPartn p g s) := by
  unfold modPartn
  split
  · exact modPart_keeps h
  · exact h

theorem modRing_keeps {f k g} (h : Keeps s₀ s) : Keeps s₀ (modRing f k g s) := modFunc_keeps h
theorem freshFree_keeps (h : Keeps s₀ s) : Keeps s₀ (freshFree s).2 := h.update rfl rfl rfl rfl rfl
theorem freeFinds_keeps (h : Keeps s₀ s) : Keeps s₀ (freeFinds s).2 := h.update rfl rfl rfl rfl rfl
theorem sendVector_keeps {f v} (h : Keeps s₀ s) : Keeps s₀ (sendVector f v s) := .ite (modFunc_keeps h) (emit_keeps h)
theorem reportRing_keeps {f k} (h : Keeps s₀ s) : Keeps s₀ (reportRing f k s) := sendVector_keeps (modRing_keeps h)
theorem checkReport_keeps {f k} (h : Keeps s₀ s) : Keeps s₀ (checkReport f k s) := onlyIf_keeps (fun _ h' => reportRing_keeps h') h
theorem countError_keeps {cls} (h : Keeps s₀ s) : Keeps s₀ (countError cls s) := modErr_keeps h
theorem logError_keeps {code cls part payload} (h : Keeps s₀ s) : Keeps s₀ (logError code cls part payload s) := by
  unfold logError
  exact modErr_keeps h

theorem writeEvent_keeps {code part payload f} (h : Keeps s₀ s) : Keeps s₀ (writeEvent code part payload f s) :=
  .ite h (.ite (modFunc_keeps (countError_keeps h)) (checkReport_keeps (modFunc_keeps (emit_keeps h))))
theorem countUnheard_keeps {x1} (h : Keeps s₀ s) : Keeps s₀ (countUnheard s x1) := by
  unfold countUnheard
  split
  · exact onlyIf_keeps (fun _ h' => modPart_keeps h') h
  · exact h

theorem raiseTo_keeps {code part whom payload} (h : Keeps s₀ s) : Keeps s₀ (raiseTo code part whom payload s) :=
  Keeps.foldl (fun _ _ h' => writeEvent_keeps h') (Keeps.foldl (fun _ _ h' => countUnheard_keeps h') h)
theorem raiseError_keeps {cls code part whom payload} (h : Keeps s₀ s) : Keeps s₀ (raiseError cls code part whom payload s) :=
  raiseTo_keeps (logError_keeps (countError_keeps h))
theorem setDeviceState_keeps {st cause} (h : Keeps s₀ s) : Keeps s₀ (setDeviceState st cause s) := .ite h (raiseTo_keeps (modHost_keeps h))
theorem queueError_keeps {f k cause} (h : Keeps s₀ s) : Keeps s₀ (queueError f k cause s) := raiseError_keeps (modFunc_keeps (modRing_keeps h))
theorem flushCompletions_keeps {f q es} (h : Keeps s₀ s) : Keeps s₀ (flushCompletions f q es s) := by
  induction es generalizing s with
  | nil => exact modRing_keeps h
  | cons e es ih => exact .ite (modRing_keeps h) (ih (checkReport_keeps (modRing_keeps (emit_keeps h))))

theorem complete_keeps {c status detail results} (h : Keeps s₀ s) : Keeps s₀ (complete c status detail results s) :=
  .ite h (.ite (modFunc_keeps (countError_keeps (onlyIf_keeps (fun _ h' => modRing_keeps h') (modFunc_keeps (modHost_keeps h)))))
  (flushCompletions_keeps (onlyIf_keeps (fun _ h' => modRing_keeps h') (modFunc_keeps (modHost_keeps h)))))
theorem completeOk_keeps {c} (h : Keeps s₀ s) : Keeps s₀ (completeOk c s) := complete_keeps h
theorem abandonCmds_keeps {p} (h : Keeps s₀ s) : Keeps s₀ (abandonCmds p s) := modHost_keeps h
theorem completeAll_keeps {p status} (h : Keeps s₀ s) : Keeps s₀ (completeAll p status s) := Keeps.foldl (fun _ _ h' => complete_keeps h') h

end
end Sys2Proof.Machine
end
section
/-! PROOFS. What every command keeps, in the model's file Operands: what a mailbox command brings. -/
namespace Sys2Proof.Machine
section
variable {s₀ s : State}

theorem countRead_keeps {status} (h : Keeps s₀ s) : Keeps s₀ (countRead status s) := onlyIf_keeps (fun _ h' => countError_keeps h') h
theorem noteAts_keeps {f addr len} (h : Keeps s₀ s) : Keeps s₀ (noteAts f addr len s) := .ite h (modHostPort_keeps h)
theorem writeHost_keeps {f addr bs poisoned} (h : Keeps s₀ s) : Keeps s₀ (writeHost f addr bs poisoned s) := by
  unfold writeHost
  split
  · exact h
  · split
    · exact emit_keeps (noteAts_keeps h)
    · split
      · exact modPart_keeps h
      · exact h

theorem refuse_keeps {status} (h : Keeps s₀ s) : Keeps s₀ (refuse status s).1 := h
theorem done_keeps (h : Keeps s₀ s) : Keeps s₀ (done s).1 := h
theorem doneWith_keeps {results} (h : Keeps s₀ s) : Keeps s₀ (doneWith results s).1 := h
theorem withHost_keeps {c addr len k} (h : Keeps s₀ s) (hk : ∀ bs, Keeps s₀ (k bs).1) : Keeps s₀ (withHost c addr len s k).1 := by
  unfold withHost
  split
  · exact refuse_keeps h
  · split
    · exact refuse_keeps h
    · split
      · exact noteAts_keeps (hk _)
      · exact refuse_keeps (countRead_keeps h)

theorem intoHost_keeps {c addr len bs} (h : Keeps s₀ s) : Keeps s₀ (intoHost c addr len bs s).1 := by
  unfold intoHost
  split
  · exact refuse_keeps h
  · exact done_keeps (writeHost_keeps h)

theorem later_keeps (h : Keeps s₀ s) : Keeps s₀ (later s).1 := h
theorem takeCmd_keeps {c} (h : Keeps s₀ s) : Keeps s₀ (takeCmd c s) := modRing_keeps (modHost_keeps h)
theorem answer_keeps {c a} (h : Keeps s₀ a.1) : Keeps s₀ (answer c a) := by
  obtain ⟨s, ans⟩ := a
  cases ans with
  | done st det res => exact complete_keeps h
  | wait => exact h

theorem runCmd_keeps {sp m} (hsp : sp.Keeping) (h : Keeps s₀ s) : Keeps s₀ (runCmd sp m s) := by
  unfold runCmd
  dsimp only
  split
  · exact h
  · split
    · exact complete_keeps (takeCmd_keeps h)
    · exact answer_keeps (hsp _ _ _ (takeCmd_keeps h))

theorem applyWaiting_keeps {op f} (hf : ∀ c s, Keeps s₀ s → Keeps s₀ (f c s).1) (h : Keeps s₀ s) : Keeps s₀ (applyWaiting op f s) :=
  Keeps.foldl (fun _ _ h' => .ite (answer_keeps (hf _ _ h')) h') h

end
end Sys2Proof.Machine
end
section
/-! PROOFS. What every command keeps, in the model's file Fabric: fabric. -/
namespace Sys2Proof.Machine
section
variable {s₀ s : State}

theorem modPort_keeps {n g} (h : Keeps s₀ s) : Keeps s₀ (modPort n g s) := modFab_keeps h
theorem checkBonds_keeps (h : Keeps s₀ s) : Keeps s₀ (checkBonds s) := Keeps.foldl (fun _ _ h' => raiseError_keeps h') (modFab_keeps h)
theorem portLost_keeps {n} (h : Keeps s₀ s) : Keeps s₀ (portLost n s) := .ite (raiseError_keeps (modPort_keeps h)) h
theorem portDown_keeps {n st} (h : Keeps s₀ s) : Keeps s₀ (portDown n st s) := checkBonds_keeps (portLost_keeps (modPort_keeps h))
theorem portTrain_keeps {n} (h : Keeps s₀ s) : Keeps s₀ (portTrain n s) := checkBonds_keeps (modPort_keeps h)
theorem putWire_keeps {n p} (h : Keeps s₀ s) : Keeps s₀ (putWire n p s) :=
  Keeps.foldl (fun _ _ h' => emit_keeps h') (emit_keeps (modFab_keeps (modPort_keeps h)))
theorem transmit_keeps {n part p} (h : Keeps s₀ s) : Keeps s₀ (transmit n part p s) :=
  .ite (putWire_keeps h) (.ite (modPort_keeps (modPort_keeps h)) (.ite (.ite (putWire_keeps (modPort_keeps (modPort_keeps h))) (putWire_keeps
  (countError_keeps (modPort_keeps (modPort_keeps (modPort_keeps h)))))) (.ite (modPort_keeps (modPort_keeps (modPort_keeps h))) (putWire_keeps
  (modPort_keeps h)))))
theorem turn_keeps {key ps} (h : Keeps s₀ s) : Keeps s₀ (turn key ps s).2 := by
  unfold turn
  dsimp only
  exact modFab_keeps h

theorem choosePort_keeps {p} (h : Keeps s₀ s) : Keeps s₀ (choosePort p s).2 := by
  unfold choosePort
  dsimp only
  split
  · exact h
  · split
    · exact turn_keeps h
    · split
      · exact h
      · split
        · exact h
        · exact turn_keeps h

theorem routeTo_keeps {part lost p} (hlost : ∀ p s, Keeps s₀ s → Keeps s₀ (lost p s)) (h : Keeps s₀ s) : Keeps s₀ (routeTo part lost p s) := by
  have hchoose := choosePort_keeps (p := p) h
  unfold routeTo
  split
  · exact emit_keeps h
  · split
    next heq =>
      rw [heq] at hchoose
      exact transmit_keeps hchoose
    next heq =>
      rw [heq] at hchoose
      exact hlost _ _ (modFab_keeps (countError_keeps hchoose))

theorem sendNak_keeps {p status} (h : Keeps s₀ s) : Keeps s₀ (sendNak p status s) := routeTo_keeps (fun _ _ h' => h') h
theorem routePacket_keeps {part p} (h : Keeps s₀ s) : Keeps s₀ (routePacket part p s) := routeTo_keeps (fun _ _ h' => .ite h' (sendNak_keeps h')) h
theorem sendPacket_keeps {part p} (h : Keeps s₀ s) : Keeps s₀ (sendPacket part p s) := .ite (routePacket_keeps h) h
theorem badPacket_keeps (h : Keeps s₀ s) : Keeps s₀ (badPacket s) := modFab_keeps h
theorem gotPacket_keeps {n} (h : Keeps s₀ s) : Keeps s₀ (gotPacket n s) := .ite h (modFab_keeps (modPort_keeps h))
theorem receive_keeps {types p k} (hk : ∀ s, Keeps s₀ s → Keeps s₀ (k s)) (h : Keeps s₀ s) : Keeps s₀ (receive types p k s) :=
  .ite h (.ite (badPacket_keeps h) (.ite h (.ite (modFab_keeps h) (.ite (badPacket_keeps h) (hk _ h)))))

theorem execRouterForward_keeps {n p} : KeepsTo s (execRouterForward n p s) :=
  ⟨_, rfl, .ite (.refl s) (receive_keeps (fun _ h' => .ite (emit_keeps h') (.ite (modFab_keeps h') (routePacket_keeps h'))) (gotPacket_keeps
  (.refl s)))⟩
theorem execFlitCrcError_keeps {n} : KeepsTo s (execFlitCrcError n s) := ⟨_, rfl, .ite (.refl s) (countError_keeps (modPort_keeps (.refl s)))⟩
theorem execPortRetrain_keeps {n} : KeepsTo s (execPortRetrain n s) := ⟨_, rfl, .ite (portTrain_keeps (.refl s)) (.refl s)⟩
theorem execLaneTrainingDone_keeps {n ok lanes} : KeepsTo s (execLaneTrainingDone n ok lanes s) :=
  ⟨_, rfl, .ite (.refl s) (.ite (modPort_keeps (.refl s)) (.ite (portDown_keeps (.refl s)) (modPort_keeps (.refl s))))⟩
theorem sendLinkId_keeps {n} (h : Keeps s₀ s) : Keeps s₀ (sendLinkId n s) := transmit_keeps (modPort_keeps h)
theorem execLinkIdSend_keeps {n} : KeepsTo s (execLinkIdSend n s) := ⟨_, rfl, .ite (sendLinkId_keeps (.refl s)) (.refl s)⟩
theorem execLinkIdReceived_keeps {n p} : KeepsTo s (execLinkIdReceived n p s) :=
  ⟨_, rfl, .ite (.refl s) (receive_keeps (fun _ h' => .ite (modPort_keeps h') (.ite (checkBonds_keeps (raiseError_keeps (portLost_keeps (modPort_keeps
  (modPort_keeps h'))))) (.ite (checkBonds_keeps (raiseError_keeps (portLost_keeps (modPort_keeps (modPort_keeps h'))))) (checkBonds_keeps
  (raiseTo_keeps (modPort_keeps (modPort_keeps h'))))))) (gotPacket_keeps (.refl s)))⟩
theorem execFabricIdentityAssign_keeps {rack sled slot chip systemId} : KeepsTo s (execFabricIdentityAssign rack sled slot chip systemId s) :=
  ⟨_, rfl, .ite (.refl s) (Keeps.foldl (fun _ _ h' => sendLinkId_keeps h') (modFab_keeps (.refl s)))⟩
theorem execHeartbeatSend_keeps : KeepsTo s (execHeartbeatSend s) :=
  ⟨_, rfl, .ite (Keeps.foldl (fun _ _ h' => sendPacket_keeps h') (modFab_keeps (.refl s))) (.refl s)⟩
theorem sendLeave_keeps {cause} (h : Keeps s₀ s) : Keeps s₀ (sendLeave cause s) := Keeps.foldl (fun _ _ h' => sendPacket_keeps h') h
theorem execHeartbeatReceived_keeps {p} : KeepsTo s (execHeartbeatReceived p s) :=
  ⟨_, rfl, receive_keeps (fun _ h' => .ite (.ite h' (raiseError_keeps h')) (.ite (modFab_keeps h') (raiseTo_keeps (modFab_keeps h')))) (.refl s)⟩
theorem execTimeExchangeSend_keeps {n} : KeepsTo s (execTimeExchangeSend n s) := ⟨_, rfl, .ite (transmit_keeps (modPort_keeps (.refl s))) (.refl s)⟩
theorem setRack_keeps {t} (h : Keeps s₀ s) : Keeps s₀ (setRack t s) := modStep_keeps h
theorem correctTime_keeps {off} (h : Keeps s₀ s) : Keeps s₀ (correctTime off s) := .ite h (.ite (modFab_keeps (modStep_keeps h)) (modFab_keeps h))
theorem execTimeReceived_keeps {n p} : KeepsTo s (execTimeReceived n p s) :=
  ⟨_, rfl, .ite (.refl s) (receive_keeps (fun _ h' => .ite (transmit_keeps (modPort_keeps h')) (.ite (modPort_keeps h') (correctTime_keeps
  (modFab_keeps (modPort_keeps (.ite (modPort_keeps h') (freshFree_keeps (modPort_keeps h')))))))) (gotPacket_keeps (.refl s)))⟩
theorem applyRoutes_keeps (h : Keeps s₀ s) : Keeps s₀ (applyRoutes s) := by
  unfold applyRoutes
  split
  · exact h
  · exact raiseTo_keeps (modFab_keeps h)

theorem fabRouteLoad_keeps {c} (h : Keeps s₀ s) : Keeps s₀ (fabRouteLoad c s).1 := by
  unfold fabRouteLoad
  refine withHost_keeps h (fun _ => ?_)
  split
  · exact refuse_keeps h
  · split
    · exact refuse_keeps h
    · exact done_keeps (modFab_keeps h)

theorem fabRouteLoadSpec_keeps : fabRouteLoadSpec.Keeping := fun _ _ _ h => fabRouteLoad_keeps h
theorem execFabRouteLoad_keeps {m} : KeepsTo s (execFabRouteLoad m s) := ⟨_, rfl, runCmd_keeps fabRouteLoadSpec_keeps (.refl s)⟩
theorem execRouteApplyUnstepped_keeps : KeepsTo s (execRouteApplyUnstepped s) := ⟨_, rfl, .ite (applyRoutes_keeps (.refl s)) (.refl s)⟩
theorem fabBond_keeps {c} (h : Keeps s₀ s) : Keeps s₀ (fabBond c s).1 := by
  unfold fabBond
  dsimp only
  split
  · exact refuse_keeps h
  · split
    · exact refuse_keeps h
    · split
      · exact refuse_keeps h
      · exact done_keeps (checkBonds_keeps (modFab_keeps h))

theorem fabBondSpec_keeps : fabBondSpec.Keeping := fun _ _ _ h => fabBond_keeps h
theorem execFabBond_keeps {m} : KeepsTo s (execFabBond m s) := ⟨_, rfl, runCmd_keeps fabBondSpec_keeps (.refl s)⟩
theorem fabPortCtrl_keeps {c} (h : Keeps s₀ s) : Keeps s₀ (fabPortCtrl c s).1 := by
  unfold fabPortCtrl
  dsimp only
  split
  · exact refuse_keeps h
  · split
    · exact done_keeps (portDown_keeps h)
    · exact done_keeps (.ite (modPort_keeps h) h)
    · exact done_keeps (.ite h (portTrain_keeps h))
    · exact refuse_keeps h

theorem fabPortCtrlSpec_keeps : fabPortCtrlSpec.Keeping := fun _ _ _ h => fabPortCtrl_keeps h
theorem execFabPortCtrl_keeps {m} : KeepsTo s (execFabPortCtrl m s) := ⟨_, rfl, runCmd_keeps fabPortCtrlSpec_keeps (.refl s)⟩
theorem fabTimeCfg_keeps {c} (h : Keeps s₀ s) : Keeps s₀ (fabTimeCfg c s).1 := by
  unfold fabTimeCfg
  dsimp only
  split
  · exact refuse_keeps h
  · exact done_keeps (modFab_keeps h)

theorem fabTimeCfgSpec_keeps : fabTimeCfgSpec.Keeping := fun _ _ _ h => fabTimeCfg_keeps h
theorem execFabTimeCfg_keeps {m} : KeepsTo s (execFabTimeCfg m s) := ⟨_, rfl, runCmd_keeps fabTimeCfgSpec_keeps (.refl s)⟩
theorem fabInject_keeps {c} (h : Keeps s₀ s) : Keeps s₀ (fabInject c s).1 := by
  unfold fabInject
  dsimp only
  split
  · exact refuse_keeps h
  · split
    · exact refuse_keeps h
    · exact done_keeps (modPort_keeps (modFab_keeps h))

theorem fabInjectSpec_keeps : fabInjectSpec.Keeping := fun _ _ _ h => fabInject_keeps h
theorem execFabInject_keeps {m} : KeepsTo s (execFabInject m s) := ⟨_, rfl, runCmd_keeps fabInjectSpec_keeps (.refl s)⟩

end
end Sys2Proof.Machine
end
section
/-! PROOFS. What every command keeps, in the model's file Scratch: the field scratchpad. -/
namespace Sys2Proof.Machine
section
variable {s₀ s : State}

theorem storeRow_keeps {f r bs} (h : Keeps s₀ s) : Keeps s₀ (storeRow f r bs s) := wrBytes_keeps h
theorem setTag_keeps {f r t} (h : Keeps s₀ s) : Keeps s₀ (setTag f r t s) := modSp_keeps h
theorem countBlocked_keeps {f} (h : Keeps s₀ s) : Keeps s₀ (countBlocked f s) := modFld_keeps h
theorem countDown_keeps {f} (h : Keeps s₀ s) : Keeps s₀ (countDown f s) := modFld_keeps h
theorem faultSegment_keeps {part status unit field cause} (h : Keeps s₀ s) : Keeps s₀ (faultSegment part status unit field cause s) := modSeq_keeps h
theorem countSuppressed_keeps {stream part f} (h : Keeps s₀ s) : Keeps s₀ (countSuppressed stream part f s) :=
  onlyIf_keeps (fun _ h' => faultSegment_keeps h') (modFld_keeps (countError_keeps h))
theorem accessRow_keeps {stream part f r consume} (h : Keeps s₀ s) : Keeps s₀ (accessRow stream part f r consume s).2 := by
  unfold accessRow
  dsimp only
  split
  · exact h
  · split
    · exact countDown_keeps h
    · split
      · exact countSuppressed_keeps h
      · exact .ite (setTag_keeps (onlyIf_keeps (fun _ h' => modSp_keeps h') h)) (onlyIf_keeps (fun _ h' => modSp_keeps h') h)

theorem accessRows_keeps {stream part f consume rs} (h : Keeps s₀ s) : Keeps s₀ (accessRows stream part f consume rs s).2 := by
  induction rs generalizing s with
  | nil => exact h
  | cons r rs ih => exact ih (accessRow_keeps h)

theorem eccHit_keeps {n} (h : Keeps s₀ s) : Keeps s₀ (eccHit n s) :=
  .ite (modFld_keeps (countError_keeps h)) (modFld_keeps (setTag_keeps (countError_keeps h)))
theorem eccHits_keeps {hs} (h : Keeps s₀ s) : Keeps s₀ (eccHits hs s) := Keeps.foldl (fun _ _ h' => eccHit_keeps h') h
theorem eccIn_keeps {rows hs} (h : Keeps s₀ s) : Keeps s₀ (eccIn rows hs s) := eccHits_keeps h
theorem execScratchpadPatrol_keeps {ecc} : KeepsTo s (execScratchpadPatrol ecc s) := ⟨_, rfl, onlyIf_keeps (fun _ h' => eccHit_keeps h') (.refl s)⟩
theorem ccWrite_keeps {f r size idx key} (h : Keeps s₀ s) : Keeps s₀ (ccWrite f r size idx key s) := wrBytes_keeps h
theorem dbgRow_keeps {f ctrl} (h : Keeps s₀ s) : Keeps s₀ (dbgRow f ctrl s) :=
  .ite (modFld_keeps (countDown_keeps h)) (.ite (.ite (setTag_keeps (storeRow_keeps h)) (storeRow_keeps h)) (modFld_keeps h))
theorem dbgCc_keeps {f kind size key r} (h : Keeps s₀ s) : Keeps s₀ (dbgCc f kind size key r s) := by
  unfold dbgCc
  exact modFld_keeps (.ite h (countDown_keeps h))

theorem dbgAccess_keeps {f op} (h : Keeps s₀ s) : Keeps s₀ (dbgAccess f op s) := by
  unfold dbgAccess
  split
  · exact h
  · split
    · exact countBlocked_keeps (modFld_keeps h)
    · split
      · exact dbgRow_keeps h
      · exact dbgCc_keeps h

theorem releaseDbg_keeps {f} (h : Keeps s₀ s) : Keeps s₀ (releaseDbg f s) := by
  unfold releaseDbg
  split
  · exact h
  · exact .ite h (dbgAccess_keeps (modFld_keeps h))

theorem dbgRowAccess_keeps {f ctrl} (h : Keeps s₀ s) : Keeps s₀ (dbgRowAccess f ctrl s) := .ite (dbgAccess_keeps (modFld_keeps h)) (modFld_keeps h)
theorem execSpDebugAccess_keeps {field access} : KeepsTo s (execSpDebugAccess field access s) := by
  refine ⟨_, rfl, ?_⟩
  dsimp only
  split
  · exact .refl s
  · split
    · exact dbgRowAccess_keeps (.ite (.refl s) (eccIn_keeps (.refl s)))
    · exact dbgAccess_keeps (.ite (.refl s) (eccIn_keeps (.refl s)))

theorem execCcInsWrite_keeps {field row} : KeepsTo s (execCcInsWrite field row s) := by
  refine ⟨_, rfl, ?_⟩
  dsimp only
  split
  · exact releaseDbg_keeps (modFld_keeps (.ite (ccWrite_keeps (.refl s)) (countDown_keeps (.refl s))))
  · exact .refl s

theorem touchWay_keeps {key w} (h : Keeps s₀ s) : Keeps s₀ (touchWay key w s) := modSp_keeps h
theorem cacheLookup_keeps {part addr} (h : Keeps s₀ s) : Keeps s₀ (cacheLookup part addr s).2 := by
  unfold cacheLookup
  dsimp only
  split
  · exact h
  · split
    · exact h
    · exact touchWay_keeps (modFld_keeps h)
    · dsimp only
      exact modSp_keeps (modFld_keeps h)

theorem invalidateRegion_keeps {j} (h : Keeps s₀ s) : Keeps s₀ (invalidateRegion j s) := Keeps.foldl (fun _ _ h' => .ite (zeroMem_keeps h') h') h
theorem bumpRegions_keeps {addr len} (h : Keeps s₀ s) : Keeps s₀ (bumpRegions addr len s) := by
  unfold bumpRegions
  dsimp only
  refine Keeps.foldl (fun _ _ h' => ?_) h
  split
  · exact .ite (.ite (invalidateRegion_keeps (modSp_keeps h')) (modSp_keeps h')) h'
  · exact h'

theorem scrubWhere_keeps {p} (h : Keeps s₀ s) : Keeps s₀ (scrubWhere p s) :=
  h.trans ⟨⟨Tbl.filter_wf 0 _ _, rfl, rfl, List.prefix_rfl⟩, rfl⟩

theorem powerUpGroup_keeps {f g} (h : Keeps s₀ s) : Keeps s₀ (powerUpGroup f g s) := .ite h (modFld_keeps (scrubWhere_keeps h))
theorem powerGroups_keeps {gs} (h : Keeps s₀ s) : Keeps s₀ (powerGroups gs s) := Keeps.foldl (fun _ _ h' => powerUpGroup_keeps h') h
theorem applyCacheBanks_keeps {m} (h : Keeps s₀ s) : Keeps s₀ (applyCacheBanks m s) :=
  Keeps.foldl (fun _ _ h' => releaseDbg_keeps h') (modSp_keeps (Keeps.foldl (fun _ _ h' => Keeps.foldl (fun _ _ h'' => powerUpGroup_keeps h'') h')
  (scrubWhere_keeps h)))

end
end Sys2Proof.Machine
end
section
/-! PROOFS. What every command keeps, in the model's file Tiers: the lower tiers. -/
namespace Sys2Proof.Machine
section
variable {s₀ s : State}

theorem finishDestroys_keeps (h : Keeps s₀ s) : Keeps s₀ (finishDestroys s) :=
  Keeps.foldl (fun _ _ h' => completeOk_keeps (modPart_keeps h')) (modPart_keeps h)
theorem zeroGranule_keeps {t granule} (h : Keeps s₀ s) : Keeps s₀ (zeroGranule t granule s) :=
  finishDestroys_keeps (modPart_keeps (modTier_keeps (zeroMem_keeps h)))
theorem zeroNeeded_keeps {t gs} (h : Keeps s₀ s) : Keeps s₀ (zeroNeeded t gs s) := Keeps.foldl (fun _ _ h' => zeroGranule_keeps h') h
theorem charge_keeps {p t n} (h : Keeps s₀ s) : Keeps s₀ (charge p t n s) := modPartn_keeps h
theorem uncharge_keeps {p t n} (h : Keeps s₀ s) : Keeps s₀ (uncharge p t n s) := modPartn_keeps h
theorem ownRun_keeps {p t g n} (h : Keeps s₀ s) : Keeps s₀ (ownRun p t g n s) := modTier_keeps h
theorem freeRunOf_keeps {t n x} (h : Keeps s₀ s) (hx : freeRunOf t n s = some x) : Keeps s₀ x.2 := by
  unfold freeRunOf at hx
  split at hx
  · cases hx
    exact h
  · obtain ⟨g, -, rfl⟩ := Option.map_eq_some_iff.mp hx
    exact zeroNeeded_keeps h

theorem allocRun_keeps {p t n x} (h : Keeps s₀ s) (hx : allocRun p t n s = some x) : Keeps s₀ x.2 := by
  unfold allocRun at hx
  split at hx
  · cases hx
  · obtain ⟨g, hg, rfl⟩ := Option.map_eq_some_iff.mp hx
    exact charge_keeps (ownRun_keeps ((freeRunOf_keeps h hg).update rfl rfl rfl rfl rfl))

theorem freeRun_keeps {p t g n} (h : Keeps s₀ s) : Keeps s₀ (freeRun p t g n s) := Keeps.foldl (fun _ _ h' => modTier_keeps h') h
theorem setClaims_keeps {p t g n} (h : Keeps s₀ s) : Keeps s₀ (setClaims p t g n s) := modTier_keeps h
theorem claimArea_keeps {p t off len u} (h : Keeps s₀ s) (hu : claimArea p t off len s = some u) : Keeps s₀ u := by
  unfold claimArea at hu
  dsimp only at hu
  split at hu
  · cases hu
  · cases hu
    exact charge_keeps (Keeps.foldl (fun _ _ h' => setClaims_keeps (.ite (ownRun_keeps h') h')) (zeroNeeded_keeps h))

theorem releaseArea_keeps {p t off len} (h : Keeps s₀ s) : Keeps s₀ (releaseArea p t off len s) :=
  Keeps.foldl (fun _ _ h' => .ite (uncharge_keeps (freeRun_keeps (setClaims_keeps h'))) (setClaims_keeps h')) h
theorem claimAreas_keeps {p xs u} (h : Keeps s₀ s) (hu : claimAreas p xs s = some u) : Keeps s₀ u := by
  induction xs generalizing s with
  | nil =>
    cases hu
    exact h
  | cons x xs ih =>
    obtain ⟨v, hv, hu⟩ := Option.bind_eq_some_iff.mp hu
    exact ih (claimArea_keeps h hv) hu

theorem hintTouch_keeps {t hint e write} (h : Keeps s₀ s) : Keeps s₀ (hintTouch t hint e write s) := by
  unfold hintTouch
  exact modTier_keeps h

theorem discardLines_keeps {t es} (h : Keeps s₀ s) : Keeps s₀ (discardLines t es s) := by
  unfold discardLines
  dsimp only
  refine Keeps.foldl (fun _ _ h' => ?_) h
  split
  · exact h'
  · split
    · exact wrBytes_keeps (modTier_keeps h')
    · exact modTier_keeps h'

theorem wcbWrite_keeps {t e lo hi} (h : Keeps s₀ s) : Keeps s₀ (wcbWrite t e lo hi s) := modTier_keeps h
theorem controllerTouch_keeps {t off len hint write} (h : Keeps s₀ s) : Keeps s₀ (controllerTouch t off len hint write s) :=
  Keeps.foldl (fun _ _ h' => .ite (.ite (wcbWrite_keeps h') h') (hintTouch_keeps h')) h
theorem tierRead_keeps {t off len hint} (h : Keeps s₀ s) : Keeps s₀ (tierRead t off len hint s).2 :=
  controllerTouch_keeps (onlyIf_keeps (fun _ h' => modStr_keeps h') (Keeps.foldl (fun _ _ h' => countError_keeps h') (modTier_keeps h)))
theorem cachedRead_keeps {p t off len hint} (h : Keeps s₀ s) : Keeps s₀ (cachedRead p t off len hint s).2 := by
  unfold cachedRead
  dsimp only
  split
  · exact tierRead_keeps h
  · refine Keeps.foldl_snd (fun _ _ h' => ?_) h
    split
    · exact cacheLookup_keeps h'
    · exact tierRead_keeps (cacheLookup_keeps h')

theorem execCacheFill_keeps {region line} : KeepsTo s (execCacheFill region line s) := by
  refine ⟨_, rfl, ?_⟩
  dsimp only
  split
  · exact .refl s
  · split
    · exact .ite (countDown_keeps (modSp_keeps (.refl s))) (touchWay_keeps (setTag_keeps (storeRow_keeps (modSp_keeps (.refl s)))))
    · exact modSp_keeps (.refl s)

theorem tierCorrected_keeps {bs} (h : Keeps s₀ s) : Keeps s₀ (tierCorrected bs s) := Keeps.foldl (fun _ _ h' => countError_keeps (modTier_keeps h')) h
theorem readFinds_keeps {rows xs found} (h : Keeps s₀ s) : Keeps s₀ (readFinds rows xs found s) := eccIn_keeps (tierCorrected_keeps h)
theorem tierWrite_keeps {t off bs poison hint} (h : Keeps s₀ s) : Keeps s₀ (tierWrite t off bs poison hint s) := by
  unfold tierWrite
  dsimp only
  split
  · exact h
  · refine bumpRegions_keeps (modTier_keeps ((controllerTouch_keeps (modTier_keeps h)).trans ⟨⟨?_, rfl, rfl, List.prefix_rfl⟩, rfl⟩))
    exact foldl_set_wf (f := fun i => tierBase t + i) _

theorem flushTier_keeps {t} (h : Keeps s₀ s) : Keeps s₀ (flushTier t s) := modTier_keeps h
theorem tierUncorrectable_keeps {t b} (h : Keeps s₀ s) : Keeps s₀ (tierUncorrectable t b s) := raiseError_keeps (modTier_keeps h)
theorem execTierPatrol_keeps {t block corrected} : KeepsTo s (execTierPatrol t block corrected s) :=
  ⟨_, rfl, .ite (.refl s) (.ite (countError_keeps (modTier_keeps (modTier_keeps (.refl s)))) (modTier_keeps (.refl s)))⟩
theorem execWcbLineWrite_keeps {t line} : KeepsTo s (execWcbLineWrite t line s) := ⟨_, rfl, modTier_keeps (.refl s)⟩
theorem writeWindow_keeps {w a bs poison} (h : Keeps s₀ s) : Keeps s₀ (writeWindow w a bs poison s) := by
  unfold writeWindow
  split
  · exact emit_keeps (noteAts_keeps h)
  · split
    · exact modPart_keeps h
    · exact h

theorem noteRead_keeps {p x} (h : Keeps s₀ s) : Keeps s₀ (noteRead p x s) := by
  unfold noteRead
  split
  · exact noteAts_keeps h
  · exact h

theorem retireGranule_keeps {t g} (h : Keeps s₀ s) : Keeps s₀ (retireGranule t g s) := raiseTo_keeps (modTier_keeps h)
theorem memRetire_keeps {c} (h : Keeps s₀ s) : Keeps s₀ (memRetire c s).1 := by
  unfold memRetire
  dsimp only
  split
  · exact refuse_keeps h
  · split
    · exact refuse_keeps h
    · split
      · exact done_keeps h
      · split
        · exact refuse_keeps (raiseTo_keeps h)
        · exact done_keeps (retireGranule_keeps h)

theorem memRetireSpec_keeps : memRetireSpec.Keeping := fun _ _ _ h => memRetire_keeps h
theorem execMemRetire_keeps {m} : KeepsTo s (execMemRetire m s) := ⟨_, rfl, runCmd_keeps memRetireSpec_keeps (.refl s)⟩
theorem memRetireRead_keeps {c} (h : Keeps s₀ s) : Keeps s₀ (memRetireRead c s).1 := by
  unfold memRetireRead
  dsimp only
  split
  · exact refuse_keeps h
  · exact intoHost_keeps h

theorem memRetireReadSpec_keeps : memRetireReadSpec.Keeping := fun _ _ _ h => memRetireRead_keeps h
theorem execMemRetireRead_keeps {m} : KeepsTo s (execMemRetireRead m s) := ⟨_, rfl, runCmd_keeps memRetireReadSpec_keeps (.refl s)⟩
theorem memT3Map_keeps {c} (h : Keeps s₀ s) : Keeps s₀ (memT3Map c s).1 := by
  unfold memT3Map
  dsimp only
  split
  · exact refuse_keeps h
  · split
    · exact refuse_keeps h
    · split
      · exact refuse_keeps h
      · split
        · exact refuse_keeps h
        · split
          · exact refuse_keeps h
          · exact done_keeps (modStr_keeps h)

theorem memT3MapSpec_keeps : memT3MapSpec.Keeping := fun _ _ _ h => memT3Map_keeps h
theorem execMemT3Map_keeps {m} : KeepsTo s (execMemT3Map m s) := ⟨_, rfl, runCmd_keeps memT3MapSpec_keeps (.refl s)⟩
theorem setTierMode_keeps {t mode} (h : Keeps s₀ s) : Keeps s₀ (setTierMode t mode s) := modTier_keeps (flushTier_keeps h)
theorem serviceTiers_keeps (h : Keeps s₀ s) : Keeps s₀ (serviceTiers s) := Keeps.foldl (fun _ _ h' => .ite h' (setTierMode_keeps h')) h
theorem memMode_keeps {c} (h : Keeps s₀ s) : Keeps s₀ (memMode c s).1 := by
  unfold memMode
  dsimp only
  split
  · exact refuse_keeps h
  · split
    · exact refuse_keeps h
    · exact done_keeps (onlyIf_keeps (fun _ h' => setTierMode_keeps h') (onlyIf_keeps (fun _ h' => setTierMode_keeps h') h))

theorem memModeSpec_keeps : memModeSpec.Keeping := fun _ _ _ h => memMode_keeps h
theorem execMemMode_keeps {m} : KeepsTo s (execMemMode m s) := ⟨_, rfl, runCmd_keeps memModeSpec_keeps (.refl s)⟩
theorem applyLock_keeps {c} (h : Keeps s₀ s) : Keeps s₀ (applyLock c s).1 := by
  unfold applyLock
  dsimp only
  split
  · exact refuse_keeps h
  · exact done_keeps (Keeps.foldl (fun _ _ h' => .ite (modPort_keeps h') (.ite (modPort_keeps h') h')) (modTier_keeps (modTier_keeps h)))

theorem memLock_keeps {c} (h : Keeps s₀ s) : Keeps s₀ (memLock c s).1 := by
  unfold memLock
  split
  · exact refuse_keeps h
  · split
    · exact later_keeps h
    · exact applyLock_keeps h

theorem memLockSpec_keeps : memLockSpec.Keeping := fun _ _ _ h => memLock_keeps h
theorem execMemLock_keeps {m} : KeepsTo s (execMemLock m s) := ⟨_, rfl, runCmd_keeps memLockSpec_keeps (.refl s)⟩

end
end Sys2Proof.Machine
end
section
/-! PROOFS. What every command keeps, in the model's file Sync: the synchronisation unit. -/
namespace Sys2Proof.Machine
section
variable {s₀ s : State}

theorem hchFault_keeps {kind part status chip object} (h : Keeps s₀ s) : Keeps s₀ (hchFault kind part status chip object s) := modHch_keeps h
theorem setHitch_keeps {n v} (h : Keeps s₀ s) : Keeps s₀ (setHitch n v s) := by
  unfold setHitch
  exact modSeq_keeps (modHch_keeps h)

theorem setTarget_keeps {n v} (h : Keeps s₀ s) : Keeps s₀ (setTarget n v s) := modHch_keeps h
theorem incHitch_keeps {k n} (h : Keeps s₀ s) : Keeps s₀ (incHitch k n s) :=
  .ite (setHitch_keeps h) (raiseError_keeps (hchFault_keeps (modHch_keeps (setHitch_keeps h))))

theorem takeHitch_keeps {n} (h : Keeps s₀ s) : Keeps s₀ (takeHitch n s) := setHitch_keeps h
theorem handSet_keeps {part v value target} (h : Keeps s₀ s) : Keeps s₀ (handSet part v value target s) := by
  unfold handSet
  dsimp only
  refine raiseTo_keeps ?_
  refine modHch_keeps ?_
  split
  · exact setTarget_keeps (setHitch_keeps h)
  · exact setHitch_keeps h

theorem modBar_keeps {b g} (h : Keeps s₀ s) : Keeps s₀ (modBar b g s) := by
  unfold modBar
  split
  · exact modHch_keeps h
  · exact h

theorem releaseLocal_keeps {kinds broken} (h : Keeps s₀ s) : Keeps s₀ (releaseLocal kinds broken s) := modHch_keeps h
theorem sendReleases_keeps {b x broken} (h : Keeps s₀ s) : Keeps s₀ (sendReleases b x broken s) := Keeps.foldl (fun _ _ h' => sendPacket_keeps h') h
theorem tryRelease_keeps {b} (h : Keeps s₀ s) : Keeps s₀ (tryRelease b s) := by
  unfold tryRelease
  dsimp only
  split
  · exact h
  · exact .ite h (sendReleases_keeps (releaseLocal_keeps (modBar_keeps h)))

theorem breakBarrier_keeps {b} (h : Keeps s₀ s) : Keeps s₀ (breakBarrier b s) := by
  unfold breakBarrier
  dsimp only
  split
  · exact h
  · exact .ite (releaseLocal_keeps (modBar_keeps h)) (raiseError_keeps (sendReleases_keeps (releaseLocal_keeps (modBar_keeps h))))

theorem homeEntry_keeps {b i epoch chip} (h : Keeps s₀ s) : Keeps s₀ (homeEntry b i epoch chip s).2 := by
  unfold homeEntry
  dsimp only
  split
  · exact h
  · split
    · dsimp only
      exact modHch_keeps h
    · split
      · exact raiseError_keeps (hchFault_keeps (modHch_keeps h))
      · exact tryRelease_keeps (modBar_keeps h)

theorem badEntry_keeps {part status chip b} (h : Keeps s₀ s) : Keeps s₀ (badEntry part status chip b s) :=
  hchFault_keeps (modHch_keeps (countError_keeps h))
theorem enterBarrier_keeps {part b kind wait} (h : Keeps s₀ s) : Keeps s₀ (enterBarrier part b kind wait s).2 := by
  unfold enterBarrier
  dsimp only
  split
  · exact badEntry_keeps h
  · split
    · exact badEntry_keeps h
    · split
      · split
        · exact h
        · split
          · exact sendPacket_keeps h
          · exact modBar_keeps (sendPacket_keeps h)
      · split
        · exact badEntry_keeps h
        · split
          · exact h
          · exact homeEntry_keeps (.ite (modBar_keeps h) h)

theorem takeRelease_keeps {kind} (h : Keeps s₀ s) : Keeps s₀ (takeRelease kind s) := modHch_keeps h
theorem execBarEntryReceived_keeps {p} : KeepsTo s (execBarEntryReceived p s) :=
  ⟨_, rfl, receive_keeps (fun _ h' => .ite (.ite (sendPacket_keeps h') (homeEntry_keeps h')) (sendPacket_keeps (badEntry_keeps h'))) (.refl s)⟩
theorem execBarReleaseReceived_keeps {p} : KeepsTo s (execBarReleaseReceived p s) := by
  refine ⟨_, rfl, ?_⟩
  dsimp only
  refine receive_keeps (fun _ h' => ?_) (.refl s)
  split
  · exact .ite (releaseLocal_keeps (modBar_keeps h')) (.ite (modHch_keeps h') (releaseLocal_keeps (modBar_keeps h')))
  · exact modHch_keeps h'

theorem departChip_keeps {c} (h : Keeps s₀ s) : Keeps s₀ (departChip c s) := by
  unfold departChip
  exact modHch_keeps (Keeps.foldl (fun _ _ h' => .ite h' (breakBarrier_keeps h')) (raiseError_keeps (modFab_keeps h)))

theorem execHeartbeatTimeout_keeps {chip} : KeepsTo s (execHeartbeatTimeout chip s) := ⟨_, rfl, .ite (departChip_keeps (.refl s)) (.refl s)⟩
theorem execLeaveReceived_keeps {p} : KeepsTo s (execLeaveReceived p s) :=
  ⟨_, rfl, receive_keeps (fun _ h' => .ite h' (departChip_keeps h')) (.refl s)⟩
theorem applyHitchConfig_keeps {c} (h : Keeps s₀ s) : Keeps s₀ (applyHitchConfig c s).1 :=
  done_keeps (Keeps.foldl (fun _ _ h' => setTarget_keeps (setHitch_keeps h')) h)
theorem hitchConfig_keeps {c} (h : Keeps s₀ s) : Keeps s₀ (hitchConfig c s).1 := by
  unfold hitchConfig
  split
  · exact refuse_keeps h
  · split
    · exact later_keeps h
    · exact applyHitchConfig_keeps h

theorem hitchConfigSpec_keeps : hitchConfigSpec.Keeping := fun _ _ _ h => hitchConfig_keeps h
theorem execHitchConfig_keeps {m} : KeepsTo s (execHitchConfig m s) := ⟨_, rfl, runCmd_keeps hitchConfigSpec_keeps (.refl s)⟩
theorem hitchRead_keeps {c} (h : Keeps s₀ s) : Keeps s₀ (hitchRead c s).1 := by
  unfold hitchRead
  dsimp only
  split
  · exact refuse_keeps h
  · exact intoHost_keeps h

theorem hitchReadSpec_keeps : hitchReadSpec.Keeping := fun _ _ _ h => hitchRead_keeps h
theorem execHitchRead_keeps {m} : KeepsTo s (execHitchRead m s) := ⟨_, rfl, runCmd_keeps hitchReadSpec_keeps (.refl s)⟩
theorem hitchSet_keeps {c} (h : Keeps s₀ s) : Keeps s₀ (hitchSet c s).1 := by
  unfold hitchSet
  dsimp only
  split
  · exact refuse_keeps h
  · split
    · exact refuse_keeps h
    · exact done_keeps (handSet_keeps h)

theorem hitchSetSpec_keeps : hitchSetSpec.Keeping := fun _ _ _ h => hitchSet_keeps h
theorem execHitchSet_keeps {m} : KeepsTo s (execHitchSet m s) := ⟨_, rfl, runCmd_keeps hitchSetSpec_keeps (.refl s)⟩
theorem modWin_keeps {w g} (h : Keeps s₀ s) : Keeps s₀ (modWin w g s) := modHch_keeps h
theorem abandonInbound_keeps {i} (h : Keeps s₀ s) : Keeps s₀ (abandonInbound i s) :=
  raiseError_keeps (hchFault_keeps (Keeps.foldl (fun _ _ h' => modSp_keeps h') (modHch_keeps h)))
theorem closeWindow_keeps {w} (h : Keeps s₀ s) : Keeps s₀ (closeWindow w s) :=
  .ite h (Keeps.foldl (fun _ _ h' => abandonInbound_keeps h') (modWin_keeps h))
theorem winOpen_keeps {c} (h : Keeps s₀ s) : Keeps s₀ (winOpen c s).1 := by
  unfold winOpen
  dsimp only
  split
  · exact refuse_keeps h
  · split
    · exact refuse_keeps h
    · split
      · exact refuse_keeps h
      · split
        · exact refuse_keeps h
        · exact doneWith_keeps (modWin_keeps h)

theorem winOpenSpec_keeps : winOpenSpec.Keeping := fun _ _ _ h => winOpen_keeps h
theorem execWinOpen_keeps {m} : KeepsTo s (execWinOpen m s) := ⟨_, rfl, .ite (.refl s) (runCmd_keeps winOpenSpec_keeps (.refl s))⟩
theorem winClose_keeps {c} (h : Keeps s₀ s) : Keeps s₀ (winClose c s).1 := by
  unfold winClose
  dsimp only
  split
  · exact refuse_keeps h
  · exact doneWith_keeps (.ite (modWin_keeps (closeWindow_keeps h)) (closeWindow_keeps h))

theorem winCloseSpec_keeps : winCloseSpec.Keeping := fun _ _ _ h => winClose_keeps h
theorem execWinClose_keeps {m} : KeepsTo s (execWinClose m s) := ⟨_, rfl, runCmd_keeps winCloseSpec_keeps (.refl s)⟩
theorem winBind_keeps {c} (h : Keeps s₀ s) : Keeps s₀ (winBind c s).1 := by
  unfold winBind
  dsimp only
  split
  · exact refuse_keeps h
  · split
    · exact refuse_keeps h
    · split
      · exact refuse_keeps h
      · exact doneWith_keeps (modHch_keeps h)

theorem winBindSpec_keeps : winBindSpec.Keeping := fun _ _ _ h => winBind_keeps h
theorem execWinBind_keeps {m} : KeepsTo s (execWinBind m s) := ⟨_, rfl, runCmd_keeps winBindSpec_keeps (.refl s)⟩
theorem placeBar_keeps {b x} (h : Keeps s₀ s) : Keeps s₀ (placeBar b x s) := modHch_keeps h
theorem barConfig_keeps {c} (h : Keeps s₀ s) : Keeps s₀ (barConfig c s).1 := by
  unfold barConfig
  dsimp only
  split
  · exact refuse_keeps h
  · split
    · exact refuse_keeps h
    · split
      · exact refuse_keeps h
      · split
        · exact refuse_keeps h
        · split
          · split
            · exact refuse_keeps h
            · exact done_keeps (placeBar_keeps h)
          · split
            · exact refuse_keeps h
            · refine withHost_keeps h (fun _ => ?_)
              split
              · exact refuse_keeps h
              · split
                · exact refuse_keeps h
                · exact done_keeps (placeBar_keeps h)

theorem barConfigSpec_keeps : barConfigSpec.Keeping := fun _ _ _ h => barConfig_keeps h
theorem execBarConfig_keeps {m} : KeepsTo s (execBarConfig m s) := ⟨_, rfl, runCmd_keeps barConfigSpec_keeps (.refl s)⟩
theorem barFree_keeps {c} (h : Keeps s₀ s) : Keeps s₀ (barFree c s).1 := by
  unfold barFree
  dsimp only
  split
  · split
    · exact refuse_keeps h
    · exact done_keeps h
  · split
    · exact refuse_keeps h
    · split
      · exact refuse_keeps h
      · exact done_keeps (modHch_keeps h)

theorem barFreeSpec_keeps : barFreeSpec.Keeping := fun _ _ _ h => barFree_keeps h
theorem execBarFree_keeps {m} : KeepsTo s (execBarFree m s) := ⟨_, rfl, runCmd_keeps barFreeSpec_keeps (.refl s)⟩
theorem barForce_keeps {c} (h : Keeps s₀ s) : Keeps s₀ (barForce c s).1 := by
  unfold barForce
  split
  · exact refuse_keeps h
  · split
    · exact refuse_keeps h
    · exact done_keeps (breakBarrier_keeps h)

theorem barForceSpec_keeps : barForceSpec.Keeping := fun _ _ _ h => barForce_keeps h
theorem execBarForce_keeps {m} : KeepsTo s (execBarForce m s) := ⟨_, rfl, runCmd_keeps barForceSpec_keeps (.refl s)⟩
theorem resetSync_keeps {p} (h : Keeps s₀ s) : Keeps s₀ (resetSync p s) :=
  Keeps.foldl (fun _ _ h' => .ite (modHch_keeps h') (modBar_keeps (modHch_keeps (breakBarrier_keeps h')))) (modHch_keeps (Keeps.foldl (fun _ _ h' =>
  .ite (closeWindow_keeps h') h') (modSeq_keeps (modHch_keeps h))))

end
end Sys2Proof.Machine
end
section
/-! PROOFS. What every command keeps, in the model's file Remote: remote transfers. -/
namespace Sys2Proof.Machine
section
variable {s₀ s : State}

theorem modEngine_keeps {e g} (h : Keeps s₀ s) : Keeps s₀ (modEngine e g s) := modStr_keeps h
theorem modRun_keeps {e g} (h : Keeps s₀ s) : Keeps s₀ (modRun e g s) := modEngine_keeps h
theorem modFabEng_keeps {e g} (h : Keeps s₀ s) : Keeps s₀ (modFabEng e g s) := modFab_keeps h
theorem modKnot_keeps {e g} (h : Keeps s₀ s) : Keeps s₀ (modKnot e g s) := modFabEng_keeps h
theorem sendTransfer_keeps {knot engine part b inc hitch pieces} (h : Keeps s₀ s) : Keeps s₀ (sendTransfer knot engine part b inc hitch pieces s).2
  := by
  unfold sendTransfer
  dsimp only
  split
  · exact h
  · exact Keeps.foldl (fun _ _ h' => sendPacket_keeps h') (modFab_keeps h)

theorem endTransfer_keeps {o st} (h : Keeps s₀ s) : Keeps s₀ (endTransfer o st s) :=
  .ite (modKnot_keeps (modFab_keeps h)) (modRun_keeps (modFab_keeps h))
theorem execDoneReceived_keeps {p} : KeepsTo s (execDoneReceived p s) := by
  refine ⟨_, rfl, ?_⟩
  refine receive_keeps (fun _ h' => ?_) (.refl s)
  split
  · exact endTransfer_keeps h'
  · exact h'

theorem execNakReceived_keeps {p} : KeepsTo s (execNakReceived p s) := by
  refine ⟨_, rfl, ?_⟩
  dsimp only
  refine receive_keeps (fun _ h' => ?_) (.refl s)
  split
  · exact h'
  · split
    · split
      · exact modFab_keeps h'
      · exact h'
    · exact endTransfer_keeps (.ite (modHch_keeps h') h')

theorem execBusyResend_keeps {tag} : KeepsTo s (execBusyResend tag s) := by
  refine ⟨_, rfl, ?_⟩
  split
  · exact .refl s
  · split
    · exact .ite (sendPacket_keeps (modFab_keeps (.refl s))) (.refl s)
    · exact .refl s

theorem execSenderTimeout_keeps {tag} : KeepsTo s (execSenderTimeout tag s) := by
  refine ⟨_, rfl, ?_⟩
  split
  · exact .refl s
  · exact .ite (endTransfer_keeps (.refl s)) (.refl s)

theorem modInbound_keeps {chip tag g} (h : Keeps s₀ s) : Keeps s₀ (modInbound chip tag g s) := modHch_keeps h
theorem dropPacket_keeps {w p st} (h : Keeps s₀ s) : Keeps s₀ (dropPacket w p st s) :=
  .ite (sendNak_keeps (badPacket_keeps (countError_keeps (modInbound_keeps h)))) (sendNak_keeps (hchFault_keeps (modWin_keeps (countError_keeps
  (modInbound_keeps h)))))
theorem applyWrite_keeps {x p} (h : Keeps s₀ s) : Keeps s₀ (applyWrite x p s) := by
  unfold applyWrite
  split
  · exact .ite h (.ite (setTag_keeps (storeRow_keeps h)) (.ite h (.ite (countDown_keeps h) (.ite (countSuppressed_keeps h) (setTag_keeps
      (storeRow_keeps h))))))
  · exact tierWrite_keeps h
  · exact h

theorem acceptPacket_keeps {x p} (h : Keeps s₀ s) : Keeps s₀ (acceptPacket x p s) := by
  unfold acceptPacket
  dsimp only
  split
  · exact modInbound_keeps (countBlocked_keeps (modSp_keeps h))
  · exact modInbound_keeps (applyWrite_keeps (onlyIf_keeps (fun _ h' => countError_keeps h') h))

theorem execWritePacketReceived_keeps {n p} : KeepsTo s (execWritePacketReceived n p s) := by
  refine ⟨_, rfl, ?_⟩
  dsimp only
  split
  · exact .refl s
  · refine receive_keeps (fun _ h' => ?_) (gotPacket_keeps (.refl s))
    split
    · exact h'
    · split
      · exact dropPacket_keeps h'
      · split
        · exact acceptPacket_keeps h'
        · exact .ite (sendNak_keeps (modHch_keeps h')) (acceptPacket_keeps (modHch_keeps h'))

theorem execRemoteTransferComplete_keeps {chip tag} : KeepsTo s (execRemoteTransferComplete chip tag s) := by
  refine ⟨_, rfl, ?_⟩
  dsimp only
  split
  · exact .refl s
  · exact .ite (.refl s) (sendPacket_keeps (.ite (modHch_keeps (.refl s)) (.ite (modWin_keeps (modHch_keeps (.refl s))) (incHitch_keeps (modHch_keeps
      (modHch_keeps (.refl s)))))))

theorem execTransferAbandon_keeps {chip tag} : KeepsTo s (execTransferAbandon chip tag s) := by
  refine ⟨_, rfl, ?_⟩
  split
  · exact .refl s
  · exact .ite (abandonInbound_keeps (.refl s)) (.refl s)

end
end Sys2Proof.Machine
end
section
/-! PROOFS. What every command keeps, in the model's file Accum: the accumulator store and the log vector unit. -/
namespace Sys2Proof.Machine
section
variable {s₀ s : State}

theorem setLineTag_keeps {f l t} (h : Keeps s₀ s) : Keeps s₀ (setLineTag f l t s) := modAcc_keeps h
theorem emptyLine_keeps {f l} (h : Keeps s₀ s) : Keeps s₀ (emptyLine f l s) := setLineTag_keeps h
theorem emptyAllLines_keeps (h : Keeps s₀ s) : Keeps s₀ (emptyAllLines s) := modAcc_keeps h
theorem setElem_keeps {f fmt base r t v} (h : Keeps s₀ s) : Keeps s₀ (setElem f fmt base r t v s) := modAcc_keeps h
theorem formatFault_keeps {part f cause fmt line bundle t} (h : Keeps s₀ s) : Keeps s₀ (formatFault part f cause fmt line bundle t s) :=
  faultSegment_keeps (modFld_keeps (countError_keeps h))
theorem openLinesFor_keeps {f fmt eref poison ls} (h : Keeps s₀ s) : Keeps s₀ (openLinesFor f fmt eref poison ls s) :=
  Keeps.foldl (fun _ _ h' => .ite (setLineTag_keeps h') (setLineTag_keeps (modAcc_keeps h'))) h
theorem addInt_keeps {l x} (h : Keeps s₀ s) : Keeps s₀ (addInt l s x) := .ite (modFld_keeps (setElem_keeps h)) (setElem_keeps h)
theorem addCodes_keeps {fresh l x} (h : Keeps s₀ s) : Keeps s₀ (addCodes fresh l s x) := by
  unfold addCodes
  dsimp only
  split
  · exact h
  · exact setElem_keeps h

theorem landAdd_keeps {part l} (h : Keeps s₀ s) : Keeps s₀ (landAdd part l s) := by
  unfold landAdd
  dsimp only
  split
  · exact formatFault_keeps h
  · exact .ite (modFld_keeps (Keeps.foldl (fun _ _ h' => addCodes_keeps h') (Keeps.foldl (fun _ _ h' => addInt_keeps h') (openLinesFor_keeps h))))
      (Keeps.foldl (fun _ _ h' => addCodes_keeps h') (Keeps.foldl (fun _ _ h' => addInt_keeps h') (openLinesFor_keeps h)))

theorem addLvu_keeps {f cycles c} (h : Keeps s₀ s) : Keeps s₀ (addLvu f cycles c s) := modFld_keeps h
theorem badBlockFaults_keeps {part unit field n} (h : Keeps s₀ s) : Keeps s₀ (badBlockFaults part unit field n s) :=
  .ite h (faultSegment_keeps (modErr_keeps h))

end
end Sys2Proof.Machine
end
section
/-! PROOFS. What every command keeps, in the model's file Braid: the ternary braid engine. -/
namespace Sys2Proof.Machine
section
variable {s₀ s : State}

theorem braidFaults_keeps {c f fs} (h : Keeps s₀ s) : Keeps s₀ (braidFaults c f fs s) := by
  unfold braidFaults
  dsimp only
  split
  · exact h
  · exact faultSegment_keeps (modFld_keeps (modErr_keeps h))

theorem readSlice_keeps {c p f t sl consume} (h : Keeps s₀ s) : Keeps s₀ (readSlice c p f t sl consume s).2 := accessRow_keeps h
theorem loadUnit_keeps {c p f u idle} (h : Keeps s₀ s) : Keeps s₀ (loadUnit c p f u idle s) := by
  refine braidFaults_keeps (modFld_keeps (Keeps.foldl_of (fun a : List (List TileRow) × Bool × State => a.2.2) (fun a x ha => ?_) h))
  dsimp only
  split
  · exact ha
  · exact accessRows_keeps ha

theorem tryLoad_keeps {c u loadEnd x} (h : Keeps s₀ s) : Keeps s₀ (tryLoad c u loadEnd x s).2 := by
  unfold tryLoad
  dsimp only
  split
  · exact .ite h (loadUnit_keeps h)
  · exact h

theorem tryAhead_keeps {c x next} (h : Keeps s₀ s) : Keeps s₀ (tryAhead c x next s) := by
  unfold tryAhead
  dsimp only
  split
  · exact h
  · exact .ite (modSeq_keeps (loadUnit_keeps h)) h

theorem braidBegin_keeps {c x} (h : Keeps s₀ s) : Keeps s₀ (braidBegin c x s).2 := by
  unfold braidBegin
  dsimp only
  split
  · exact tryLoad_keeps (modFld_keeps (accessRows_keeps (accessRows_keeps h)))
  · split
    · dsimp only
      exact modSeq_keeps (modFld_keeps (accessRows_keeps (accessRows_keeps h)))
    · dsimp only
      exact modFld_keeps (accessRows_keeps (accessRows_keeps h))

theorem braidBoundary_keeps {c next x} (h : Keeps s₀ s) : Keeps s₀ (braidBoundary c next x s).2 := by
  have hload : Keeps s₀ (if x.loaded then (x, s) else tryLoad c x.unit x.loadEnd x s).2 := Keeps.snd_ite h (tryLoad_keeps h)
  unfold braidBoundary
  dsimp only
  generalize (if x.loaded then (x, s) else tryLoad c x.unit x.loadEnd x s) = a at hload
  have hflip {off : Prop} {_ : Decidable off} {g} : Keeps s₀ (if off then a.2 else modFld x.field g a.2) := .ite hload (modFld_keeps hload)
  exact Keeps.snd_ite (Keeps.snd_ite (tryLoad_keeps hflip) (tryAhead_keeps hflip)) (Keeps.snd_ite (tryLoad_keeps hflip) (tryAhead_keeps hflip))

theorem braidToken_keeps {c next x} (h : Keeps s₀ s) : Keeps s₀ (braidToken c next x s).2 := by
  unfold braidToken
  dsimp only
  refine modSeq_keeps ?_
  refine modNp_keeps ?_
  refine modFld_keeps ?_
  refine accessRows_keeps ?_
  refine braidFaults_keeps ?_
  refine Keeps.foldl_snd (fun _ _ h' => ?_) h
  split
  · exact h'
  · exact readSlice_keeps h'

theorem braidStep_keeps {c next x} (h : Keeps s₀ s) : Keeps s₀ (braidStep c next x s).2 := by
  unfold braidStep
  dsimp only
  split
  · exact braidBegin_keeps h
  · exact braidBoundary_keeps h
  · exact braidToken_keeps h

end
end Sys2Proof.Machine
end
section
/-! PROOFS. What every command keeps, in the model's file Epilogue: the other parts of a bundle. -/
namespace Sys2Proof.Machine
section
variable {s₀ s : State}

theorem drainToken_keeps {c f fmt base n t} (h : Keeps s₀ s) : Keeps s₀ (drainToken c f fmt base n t s) := by
  unfold drainToken
  dsimp only
  split
  · exact formatFault_keeps h
  · exact modFld_keeps (Keeps.foldl (fun _ _ h' => emptyLine_keeps h') h)

theorem preloadStep_keeps {c x} (h : Keeps s₀ s) : Keeps s₀ (preloadStep c x s).2 := by
  unfold preloadStep
  dsimp only
  exact modSeq_keeps (badBlockFaults_keeps (accessRows_keeps h))

theorem clearStep_keeps {x} (h : Keeps s₀ s) : Keeps s₀ (clearStep x s).2 := Keeps.foldl (fun _ _ h' => emptyLine_keeps h') h
theorem monitorBlock_keeps {part layer mag flag} (h : Keeps s₀ s) : Keeps s₀ (monitorBlock part layer mag flag s) := modNp_keeps h
theorem mergeRead_keeps {part f row merge} (h : Keeps s₀ s) : Keeps s₀ (mergeRead part f row merge s).2 := by
  unfold mergeRead
  split
  · exact accessRow_keeps h
  · exact h

theorem epPut_keeps {part f row merge full poison g} (h : Keeps s₀ s) : Keeps s₀ (epPut part f row merge full poison g s) :=
  .ite (mergeRead_keeps h) (.ite (countDown_keeps (mergeRead_keeps h)) (.ite (countSuppressed_keeps (mergeRead_keeps h)) (setTag_keeps (storeRow_keeps
  (mergeRead_keeps h)))))
theorem planeSlice_keeps {c p f t n sl blks poison last} (h : Keeps s₀ s) : Keeps s₀ (planeSlice c p f t n sl blks poison last s) :=
  Keeps.foldl (fun _ _ h' => .ite h' (.ite (countDown_keeps h') (.ite (countSuppressed_keeps h') (setTag_keeps (storeRow_keeps h'))))) (.ite
  (Keeps.foldl_snd (fun _ _ h' => mergeRead_keeps h') h) (faultSegment_keeps (countError_keeps (Keeps.foldl_snd
  (fun _ _ h' => mergeRead_keeps h') h))))
theorem countAudit_keeps {skip outs} (h : Keeps s₀ s) : Keeps s₀ (countAudit skip outs s) := by
  unfold countAudit
  exact modNp_keeps h

theorem epSproutPut_keeps {c x t vals poison} (h : Keeps s₀ s) : Keeps s₀ (epSproutPut c x t vals poison s) :=
  Keeps.foldl (fun _ _ h' => .ite h' (epPut_keeps h')) h
theorem epDrain_keeps {c x t} (h : Keeps s₀ s) : Keeps s₀ (epDrain c x t s).2 :=
  Keeps.foldl (fun _ _ h' => drainToken_keeps h') (.ite (badBlockFaults_keeps (accessRows_keeps h)) (addLvu_keeps (badBlockFaults_keeps
  (accessRows_keeps h))))
theorem epToken_keeps {c x t} (h : Keeps s₀ s) : Keeps s₀ (epToken c x t s) :=
  .ite (Keeps.foldl (fun _ _ h' => planeSlice_keeps h') (.ite (.ite (Keeps.foldl (fun _ _ h' => monitorBlock_keeps h') (modNp_keeps (.ite
  (countAudit_keeps (.ite (epDrain_keeps h) (addLvu_keeps (epDrain_keeps h)))) (.ite (epDrain_keeps h) (addLvu_keeps (epDrain_keeps h)))))) (.ite
  (countAudit_keeps (.ite (epDrain_keeps h) (addLvu_keeps (epDrain_keeps h)))) (.ite (epDrain_keeps h) (addLvu_keeps (epDrain_keeps h)))))
  (epSproutPut_keeps (.ite (Keeps.foldl (fun _ _ h' => monitorBlock_keeps h') (modNp_keeps (.ite (countAudit_keeps (.ite (epDrain_keeps h)
  (addLvu_keeps (epDrain_keeps h)))) (.ite (epDrain_keeps h) (addLvu_keeps (epDrain_keeps h)))))) (.ite (countAudit_keeps (.ite (epDrain_keeps h)
  (addLvu_keeps (epDrain_keeps h)))) (.ite (epDrain_keeps h) (addLvu_keeps (epDrain_keeps h)))))))) (Keeps.foldl (fun _ _ h' => epPut_keeps h') (.ite
  (.ite (Keeps.foldl (fun _ _ h' => monitorBlock_keeps h') (modNp_keeps (.ite (countAudit_keeps (.ite (epDrain_keeps h) (addLvu_keeps
  (epDrain_keeps h)))) (.ite (epDrain_keeps h) (addLvu_keeps (epDrain_keeps h)))))) (.ite (countAudit_keeps (.ite (epDrain_keeps h) (addLvu_keeps
  (epDrain_keeps h)))) (.ite (epDrain_keeps h) (addLvu_keeps (epDrain_keeps h))))) (epSproutPut_keeps (.ite (Keeps.foldl
  (fun _ _ h' => monitorBlock_keeps h') (modNp_keeps (.ite (countAudit_keeps (.ite (epDrain_keeps h) (addLvu_keeps (epDrain_keeps h)))) (.ite
  (epDrain_keeps h) (addLvu_keeps (epDrain_keeps h)))))) (.ite (countAudit_keeps (.ite (epDrain_keeps h) (addLvu_keeps (epDrain_keeps h)))) (.ite
  (epDrain_keeps h) (addLvu_keeps (epDrain_keeps h))))))))
theorem epStep_keeps {c x} (h : Keeps s₀ s) : Keeps s₀ (epStep c x s).2 := by
  unfold epStep
  dsimp only
  split
  · exact accessRows_keeps (accessRows_keeps (Keeps.foldl_of (fun a : List (List (List Byte)) × Bool × State => a.2.2)
      (fun _ _ ha => accessRows_keeps ha) h))
  · exact epToken_keeps h

theorem spliceField_keeps {c p f} (h : Keeps s₀ s) : Keeps s₀ (spliceField c p f s) := by
  unfold spliceField
  exact modFld_keeps (Keeps.foldl (fun _ _ h' => .ite h' (.ite (countDown_keeps h') (.ite (countSuppressed_keeps h') (setTag_keeps
    (storeRow_keeps h'))))) (Keeps.foldl (fun _ _ h' => Keeps.foldl (fun _ _ h'' => .ite h'' (.ite (countDown_keeps h'') (.ite
    (countSuppressed_keeps h'') (setTag_keeps (storeRow_keeps h''))))) h') (addLvu_keeps (Keeps.foldl_snd (fun _ _ h' => Keeps.foldl_snd
    (fun _ _ h'' => accessRow_keeps h'') h') h))))

theorem predStep_keeps {c x} (h : Keeps s₀ s) : Keeps s₀ (predStep c x s).2 :=
  .ite (modSeq_keeps (.ite (addLvu_keeps (drainToken_keeps h)) (.ite (countDown_keeps (addLvu_keeps (drainToken_keeps h))) (.ite
  (countSuppressed_keeps (addLvu_keeps (drainToken_keeps h))) (setTag_keeps (storeRow_keeps (addLvu_keeps (drainToken_keeps h)))))))) (addLvu_keeps
  (drainToken_keeps h))
theorem partStep_keeps {c next x} (h : Keeps s₀ s) : Keeps s₀ (partStep c next x s).2 := by
  unfold partStep
  split
  · exact braidStep_keeps h
  · exact preloadStep_keeps h
  · exact clearStep_keeps h
  · exact epStep_keeps h
  · exact spliceField_keeps h
  · exact predStep_keeps h
  · exact h

end
end Sys2Proof.Machine
end
section
/-! PROOFS. What every command keeps, in the model's file Stream: the stream engines. -/
namespace Sys2Proof.Machine
section
variable {s₀ s : State}

theorem setAwait_keeps {code ks} (h : Keeps s₀ s) : Keeps s₀ (setAwait code ks s) := Keeps.foldl (fun _ _ h' => setTag_keeps h') h
theorem acceptDesc_keeps {e} (h : Keeps s₀ s) : Keeps s₀ (acceptDesc e s) := by
  unfold acceptDesc
  dsimp only
  split
  · exact h
  · split
    · exact modRun_keeps h
    · split
      · exact modRun_keeps h
      · exact .ite h (setAwait_keeps h)

theorem takeChain_keeps {e} (h : Keeps s₀ s) : Keeps s₀ (takeChain e s) := by
  unfold takeChain
  dsimp only
  split
  · exact h
  · split
    · exact acceptDesc_keeps (modEngine_keeps h)
    · exact acceptDesc_keeps (modEngine_keeps h)
    · exact h

theorem execStreamChainStart_keeps {e} : KeepsTo s (execStreamChainStart e s) := ⟨_, rfl, .ite (takeChain_keeps (.refl s)) (.refl s)⟩
theorem kickChain_keeps {e c} (h : Keeps s₀ s) : Keeps s₀ (kickChain e c s) := modEngine_keeps h
theorem readExtent_keeps {c d host o x} (h : Keeps s₀ s) : Keeps s₀ (readExtent c d host o x s).2 := by
  unfold readExtent
  dsimp only
  split
  · exact Keeps.foldl_snd (fun _ _ h' => accessRow_keeps h') h
  · exact cachedRead_keeps h
  · exact noteRead_keeps h

theorem readRows_keeps {c d host} (h : Keeps s₀ s) : Keeps s₀ (readRows c d host s).2 := by
  unfold readRows
  dsimp only
  split
  · exact h
  · exact Keeps.foldl_snd (fun _ _ h' => readExtent_keeps h') h

theorem writePiece_keeps {c d x} (h : Keeps s₀ s) : Keeps s₀ (writePiece c d x s) := by
  unfold writePiece
  split
  · exact .ite h (.ite (countDown_keeps h) (.ite (countSuppressed_keeps h) (setTag_keeps (storeRow_keeps h))))
  · exact tierWrite_keeps h
  · split
    · exact writeWindow_keeps h
    · exact h
  · exact h

theorem land_keeps {e r d ps} (h : Keeps s₀ s) : Keeps s₀ (land e r d ps s) :=
  .ite (modRun_keeps (sendTransfer_keeps (Keeps.foldl (fun _ _ h' => writePiece_keeps h') h))) (modRun_keeps (Keeps.foldl
  (fun _ _ h' => writePiece_keeps h') (Keeps.foldl (fun _ _ h' => writePiece_keeps h') h)))
theorem failRun_keeps {e st} (h : Keeps s₀ s) : Keeps s₀ (failRun e st s) := modRun_keeps h
theorem moveDesc_keeps {op xf e found} (h : Keeps s₀ s) : Keeps s₀ (moveDesc op xf e found s) := by
  unfold moveDesc
  dsimp only
  split
  · exact h
  · split
    · exact h
    · split
      · exact failRun_keeps (countRead_keeps h)
      · split
        · exact Keeps.foldl (fun _ _ h' => countBlocked_keeps h') h
        · split
          · exact h
          · split
            · exact land_keeps (accessRows_keeps (readRows_keeps (readFinds_keeps h)))
            · exact failRun_keeps (readRows_keeps (readFinds_keeps h))

theorem execStreamCopy_keeps {e found} : KeepsTo s (execStreamCopy e found s) := ⟨_, rfl, moveDesc_keeps (.refl s)⟩
theorem execExpandTile_keeps {e found} : KeepsTo s (execExpandTile e found s) := ⟨_, rfl, moveDesc_keeps (.refl s)⟩
theorem execPackT5p_keeps {e found} : KeepsTo s (execPackT5p e found s) := ⟨_, rfl, moveDesc_keeps (.refl s)⟩
theorem execQuant_keeps {e found} : KeepsTo s (execQuant e found s) := ⟨_, rfl, moveDesc_keeps (.refl s)⟩
theorem execNarrow_keeps {e found} : KeepsTo s (execNarrow e found s) := ⟨_, rfl, moveDesc_keeps (.refl s)⟩
theorem execWiden_keeps {e found} : KeepsTo s (execWiden e found s) := ⟨_, rfl, moveDesc_keeps (.refl s)⟩
theorem execMxIn_keeps {e found} : KeepsTo s (execMxIn e found s) := ⟨_, rfl, moveDesc_keeps (.refl s)⟩
theorem execFrcEnc_keeps {e found} : KeepsTo s (execFrcEnc e found s) := ⟨_, rfl, moveDesc_keeps (.refl s)⟩
theorem execFrcDec_keeps {e found} : KeepsTo s (execFrcDec e found s) := ⟨_, rfl, moveDesc_keeps (.refl s)⟩
theorem execPlane_keeps {e found} : KeepsTo s (execPlane e found s) := ⟨_, rfl, moveDesc_keeps (.refl s)⟩
theorem execFill_keeps {e found} : KeepsTo s (execFill e found s) := ⟨_, rfl, moveDesc_keeps (.refl s)⟩
theorem finishUnmaps_keeps (h : Keeps s₀ s) : Keeps s₀ (finishUnmaps s) := by
  unfold finishUnmaps
  refine Keeps.foldl (fun _ _ h' => ?_) h
  split
  · exact modStr_keeps h'
  · exact .ite h' (completeOk_keeps (modStr_keeps h'))

theorem endChain_keeps {e st} (h : Keeps s₀ s) : Keeps s₀ (endChain e st s) := by
  unfold endChain
  dsimp only
  split
  · exact h
  · refine finishUnmaps_keeps ?_
    split
    · exact complete_keeps (modEngine_keeps h)
    · exact modEngine_keeps h

theorem nextDesc_keeps {e} (h : Keeps s₀ s) : Keeps s₀ (nextDesc e s) := by
  unfold nextDesc
  dsimp only
  split
  · exact h
  · exact finishUnmaps_keeps (.ite (modEngine_keeps h) (acceptDesc_keeps (modRun_keeps h)))

theorem descIncrement_keeps {c d} (h : Keeps s₀ s) : Keeps s₀ (descIncrement c d s) := .ite (incHitch_keeps h) h
theorem dropHints_keeps {c d} (h : Keeps s₀ s) : Keeps s₀ (dropHints c d s) := by
  unfold dropHints
  split
  · exact h
  · refine Keeps.foldl (fun _ _ h' => ?_) h
    split
    · exact discardLines_keeps h'
    · exact h'

theorem execDescriptorComplete_keeps {e} : KeepsTo s (execDescriptorComplete e s) := by
  refine ⟨_, rfl, ?_⟩
  dsimp only
  split
  · exact .refl s
  · exact .ite (.refl s) (.ite (endChain_keeps (modStr_keeps (dropHints_keeps (.ite (.refl s) (descIncrement_keeps (.refl s)))))) (nextDesc_keeps
      (modStr_keeps (dropHints_keeps (.ite (.refl s) (descIncrement_keeps (.refl s)))))))

theorem failRemote_keeps {c d st} (h : Keeps s₀ s) : Keeps s₀ (failRemote c d st s) := by
  refine .ite h (.ite h (.ite ?_ (sendTransfer_keeps h)))
  split
  · exact h
  · exact sendPacket_keeps (modFab_keeps h)

theorem failDesc_keeps {c st d} (h : Keeps s₀ s) : Keeps s₀ (failDesc c st d s) :=
  .ite (.ite (failRemote_keeps (Keeps.foldl (fun _ _ h' => modStr_keeps (.ite h' (.ite (countDown_keeps h') (.ite (countSuppressed_keeps h')
  (setTag_keeps (storeRow_keeps h')))))) h)) (Keeps.foldl (fun _ _ h' => modStr_keeps (.ite h' (.ite (countDown_keeps h') (.ite
  (countSuppressed_keeps h') (setTag_keeps (storeRow_keeps h')))))) h)) (descIncrement_keeps (Keeps.foldl (fun _ _ h' => modStr_keeps (.ite h' (.ite
  (countDown_keeps h') (.ite (countSuppressed_keeps h') (setTag_keeps (storeRow_keeps h')))))) h))
theorem execDescriptorFail_keeps {e status} : KeepsTo s (execDescriptorFail e status s) := by
  refine ⟨_, rfl, ?_⟩
  dsimp only
  split
  · exact .refl s
  · split
    · exact .refl s
    · exact .ite (.refl s) (endChain_keeps (raiseError_keeps (modStr_keeps (Keeps.foldl (fun _ _ h' => failDesc_keeps h') (.ite (.refl s)
        (countRead_keeps (.refl s)))))))

theorem clearAwait_keeps {c ds} (h : Keeps s₀ s) : Keeps s₀ (clearAwait c ds s) := Keeps.foldl (fun _ _ h' => .ite h' (setTag_keeps h')) h
theorem dropChains_keeps {p} (h : Keeps s₀ s) : Keeps s₀ (dropChains p s) := by
  unfold dropChains
  dsimp only
  refine finishUnmaps_keeps ?_
  refine Keeps.foldl (fun _ _ h' => ?_) h
  refine modEngine_keeps ?_
  refine Keeps.foldl (fun _ _ h'' => clearAwait_keeps h'') ?_
  split
  · exact .ite (clearAwait_keeps (modEngine_keeps h')) h'
  · exact h'

theorem memCopy_keeps {c} (h : Keeps s₀ s) : Keeps s₀ (memCopy c s).1 := by
  unfold memCopy
  dsimp only
  split
  · exact refuse_keeps h
  · refine withHost_keeps h (fun _ => ?_)
    split
    · exact refuse_keeps h
    · exact later_keeps (modEngine_keeps h)

theorem memCopySpec_keeps : memCopySpec.Keeping := fun _ _ _ h => memCopy_keeps h
theorem execMemCopy_keeps {m} : KeepsTo s (execMemCopy m s) := ⟨_, rfl, runCmd_keeps memCopySpec_keeps (.refl s)⟩
theorem memT3Unmap_keeps {c} (h : Keeps s₀ s) : Keeps s₀ (memT3Unmap c s).1 := by
  unfold memT3Unmap
  dsimp only
  split
  · exact refuse_keeps h
  · split
    · exact done_keeps h
    · split
      · exact refuse_keeps h
      · split
        · exact later_keeps (modStr_keeps h)
        · exact done_keeps (modStr_keeps h)

theorem memT3UnmapSpec_keeps : memT3UnmapSpec.Keeping := fun _ _ _ h => memT3Unmap_keeps h
theorem execMemT3Unmap_keeps {m} : KeepsTo s (execMemT3Unmap m s) := ⟨_, rfl, runCmd_keeps memT3UnmapSpec_keeps (.refl s)⟩

end
end Sys2Proof.Machine
end
section
/-! PROOFS. What every command keeps, in the model's file Kv: the page manager. -/
namespace Sys2Proof.Machine
section
variable {s₀ s : State}

theorem modPool_keeps {b g} (h : Keeps s₀ s) : Keeps s₀ (modPool b g s) := by
  unfold modPool
  split
  · exact modKv_keeps h
  · exact h

theorem modSeqp_keeps {k g} (h : Keeps s₀ s) : Keeps s₀ (modSeqp k g s) := by
  unfold modSeqp
  split
  · exact modKv_keeps h
  · exact h

theorem wrLocal_keeps {a bs} (h : Keeps s₀ s) : Keeps s₀ (wrLocal a bs s) := by
  unfold wrLocal
  split
  · exact tierWrite_keeps h
  · exact h

theorem allocPage_keeps {b x} (h : Keeps s₀ s) (hx : allocPage b s = some x) : Keeps s₀ x.2 := by
  obtain ⟨p, -, hx⟩ := Option.bind_eq_some_iff.mp hx
  obtain ⟨n, -, rfl⟩ := Option.map_eq_some_iff.mp hx
  exact modPool_keeps h

theorem allocTables_keeps {b n x} (h : Keeps s₀ s) (hx : allocTables b n s = some x) : Keeps s₀ x.2 := by
  obtain ⟨p, -, hx⟩ := Option.bind_eq_some_iff.mp hx
  obtain ⟨i, -, rfl⟩ := Option.map_eq_some_iff.mp hx
  exact wrLocal_keeps (modPool_keeps h)

theorem freeTable_keeps {b i} (h : Keeps s₀ s) : Keeps s₀ (freeTable b i s) := modPool_keeps h
theorem openPath_keeps {k l pg u} (h : Keeps s₀ s) (hu : openPath k l pg s = some u) : Keeps s₀ u := by
  obtain ⟨q, -, hu⟩ := Option.bind_eq_some_iff.mp hu
  obtain ⟨p, -, hu⟩ := Option.bind_eq_some_iff.mp hu
  extract_lets _ withTop withDir at hu
  have hwithTop : ∀ top, Keeps s₀ top.2 → withTop top = some u → Keeps s₀ u := by
    intro top htop hu
    dsimp only [withTop] at hu
    split at hu
    · cases hu
      exact htop
    · obtain ⟨x, hx, rfl⟩ := Option.map_eq_some_iff.mp hu
      exact wrLocal_keeps (modSeqp_keeps (allocTables_keeps htop hx))
  have hwithDir : ∀ dir, Keeps s₀ dir.2 → withDir dir = some u → Keeps s₀ u := by
    intro dir hdir hu
    dsimp only [withDir] at hu
    clear_value withTop
    split at hu
    next top _ => exact hwithTop (top, dir.2) hdir hu
    · obtain ⟨z, hz, hu⟩ := Option.bind_eq_some_iff.mp hu
      obtain ⟨x, hx, rfl⟩ := Option.map_eq_some_iff.mp hz
      exact hwithTop (_, _) (wrLocal_keeps (modSeqp_keeps (allocTables_keeps hdir hx))) hu
  clear_value withDir
  split at hu
  · exact hwithDir (_, _) h hu
  · obtain ⟨z, hz, hu⟩ := Option.bind_eq_some_iff.mp hu
    obtain ⟨x, hx, rfl⟩ := Option.map_eq_some_iff.mp hz
    exact hwithDir (_, _) (modSeqp_keeps (allocTables_keeps h hx)) hu

theorem closePath_keeps {k l j} (h : Keeps s₀ s) : Keeps s₀ (closePath k l j s) := by
  unfold closePath
  dsimp only
  split
  · exact h
  · split
    · exact h
    · split
      · refine wrLocal_keeps ?_
        refine freeTable_keeps ?_
        refine modSeqp_keeps ?_
        split
        · exact wrLocal_keeps (freeTable_keeps (modSeqp_keeps h))
        · exact h
      · split
        · exact wrLocal_keeps (freeTable_keeps (modSeqp_keeps h))
        · exact h

theorem setEntry_keeps {k key e} (h : Keeps s₀ s) : Keeps s₀ (setEntry k key e s) := by
  unfold setEntry
  dsimp only
  split
  · exact h
  · split
    · refine closePath_keeps ?_
      refine modSeqp_keeps ?_
      split
      · exact wrLocal_keeps h
      · exact h
    · refine modSeqp_keeps ?_
      split
      · exact wrLocal_keeps h
      · exact h

theorem refreshShared_keeps {b page} (h : Keeps s₀ s) : Keeps s₀ (refreshShared b page s) := by
  unfold refreshShared
  dsimp only
  refine Keeps.foldl (fun _ _ h' => ?_) h
  split
  · split
    · exact h'
    · refine Keeps.foldl (fun _ _ h'' => ?_) h'
      split
      · exact .ite (setEntry_keeps h'') h''
      · exact h''
  · exact h'

theorem addCount_keeps {b page up} (h : Keeps s₀ s) : Keeps s₀ (addCount b page up s) := refreshShared_keeps (modPool_keeps h)
theorem allocPark_keeps {b t3 blocks x} (h : Keeps s₀ s) (hx : allocPark b t3 blocks s = some x) : Keeps s₀ x.2 := by
  obtain ⟨p, -, hx⟩ := Option.bind_eq_some_iff.mp hx
  dsimp only at hx
  split at hx
  · obtain ⟨i, -, rfl⟩ := Option.map_eq_some_iff.mp hx
    exact modPool_keeps h
  · split at hx
    · cases hx
      exact modPool_keeps h
    · obtain ⟨y, hy, rfl⟩ := Option.map_eq_some_iff.mp hx
      exact modPool_keeps (allocPage_keeps h hy)

theorem freePark_keeps {b t3 i} (h : Keeps s₀ s) : Keeps s₀ (freePark b t3 i s) := by
  unfold freePark
  dsimp only
  split
  · exact h
  · exact .ite (modPool_keeps h) (.ite (modPool_keeps h) (addCount_keeps (modPool_keeps h)))

theorem newSeq_keeps {k b} (h : Keeps s₀ s) : Keeps s₀ (newSeq k b s) := by
  unfold newSeq
  exact modKv_keeps h

theorem freeEntry_keeps {b t3 e} (h : Keeps s₀ s) : Keeps s₀ (freeEntry b t3 e s) := .ite (addCount_keeps h) (.ite (freePark_keeps h) h)
theorem dropFresh_keeps {k} (h : Keeps s₀ s) : Keeps s₀ (dropFresh k s) := by
  unfold dropFresh
  split
  · exact h
  · exact modSeqp_keeps (Keeps.foldl (fun _ _ h' => addCount_keeps h') h)

theorem dropPages_keeps {k t3} (h : Keeps s₀ s) : Keeps s₀ (dropPages k t3 s) := by
  unfold dropPages
  dsimp only
  split
  · exact dropFresh_keeps h
  · refine modSeqp_keeps ?_
    refine Keeps.foldl (fun _ _ h' => ?_) (dropFresh_keeps h)
    split
    · exact setEntry_keeps (freeEntry_keeps h')
    · exact h'

theorem freeSeq_keeps {k t3} (h : Keeps s₀ s) : Keeps s₀ (freeSeq k t3 s) := by
  unfold freeSeq
  dsimp only
  split
  · exact dropFresh_keeps h
  · split
    · refine Keeps.foldl (fun _ _ h' => ?_) (dropFresh_keeps h)
      split
      · exact setEntry_keeps (freeEntry_keeps h')
      · exact h'
    · refine modKv_keeps ?_
      refine Keeps.foldl (fun _ _ h' => freeTable_keeps h') ?_
      refine Keeps.foldl (fun _ _ h' => ?_) (dropFresh_keeps h)
      split
      · exact setEntry_keeps (freeEntry_keeps h')
      · exact h'

theorem reserveAppend_keeps {k first n} (h : Keeps s₀ s) : Keeps s₀ (reserveAppend k first n s) := by
  unfold reserveAppend
  split
  · exact h
  · refine modSeqp_keeps (Keeps.foldl (fun _ _ h' => ?_) h)
    split
    next hx =>
      obtain ⟨u, hu, hx⟩ := Option.bind_eq_some_iff.mp hx
      exact modSeqp_keeps (allocPage_keeps (openPath_keeps h' hu) hx)
    · exact h'

theorem startCopies_keeps {k keys} (h : Keeps s₀ s) : Keeps s₀ (startCopies k keys s) := by
  refine Keeps.foldl (fun _ _ h' => ?_) h
  split
  · exact h'
  · split
    · exact h'
    · split
      next hx => exact modSeqp_keeps (allocPage_keeps h' hx)
      · exact h'

theorem copyShared_keeps {slot q c} (h : Keeps s₀ s) : Keeps s₀ (copyShared slot q c s) := by
  unfold copyShared
  dsimp only
  split
  · exact addCount_keeps (modSeqp_keeps (setEntry_keeps (wrLocal_keeps h)))
  · exact h

theorem execCowCopyComplete_keeps {slot} : KeepsTo s (execCowCopyComplete slot s) := by
  refine ⟨_, rfl, ?_⟩
  split
  · exact .refl s
  · exact Keeps.foldl (fun _ _ h' => copyShared_keeps h') (.refl s)

theorem settleSeq_keeps {k w} (h : Keeps s₀ s) : Keeps s₀ (settleSeq k w s) := by
  unfold settleSeq
  dsimp only
  split
  · exact h
  · refine Keeps.foldl (fun _ _ h' => ?_) ?_
    · split
      · exact .ite h' (.ite (setEntry_keeps (addCount_keeps h')) (.ite (setEntry_keeps h') h'))
      · exact h'
    · refine Keeps.foldl (fun _ _ h' => ?_) (modSeqp_keeps h)
      split
      · exact setEntry_keeps h'
      · exact h'

theorem slideWindows_keeps {k} (h : Keeps s₀ s) : Keeps s₀ (slideWindows k s) := by
  unfold slideWindows
  dsimp only
  split
  · exact h
  · refine Keeps.foldl (fun _ _ h' => ?_) h
    split
    · exact .ite h' (setEntry_keeps (addCount_keeps h'))
    · exact h'

theorem writeLists_keeps {b seg i counts us} (h : Keeps s₀ s) : Keeps s₀ (writeLists b seg i counts us s) := by
  unfold writeLists
  dsimp only
  split
  · exact h
  · exact .ite (modPool_keeps h) (wrLocal_keeps (modPool_keeps h))

theorem writeMasks_keeps {b us} (h : Keeps s₀ s) : Keeps s₀ (writeMasks b us s) := by
  unfold writeMasks
  dsimp only
  split
  · exact h
  · exact Keeps.foldl (fun _ _ h' => wrLocal_keeps h') h

theorem releasePool_keeps {b part} (h : Keeps s₀ s) : Keeps s₀ (releasePool b part s) := by
  unfold releasePool
  split
  · exact h
  · exact modKv_keeps (Keeps.foldl (fun _ _ h' => releaseArea_keeps h') h)

theorem kvPoolConfig_keeps {c} (h : Keeps s₀ s) : Keeps s₀ (kvPoolConfig c s).1 := by
  unfold kvPoolConfig
  dsimp only
  split
  · exact refuse_keeps h
  · split
    · exact refuse_keeps h
    · split
      · exact done_keeps (releasePool_keeps h)
      · refine withHost_keeps h fun bs => ?_
        split
        · exact refuse_keeps h
        · split
          · exact refuse_keeps h
          · split
            · exact refuse_keeps h
            · split
              · exact refuse_keeps h
              next hu => exact done_keeps (wrLocal_keeps (modKv_keeps (claimAreas_keeps (releasePool_keeps h) hu)))

theorem kvPoolConfigSpec_keeps : kvPoolConfigSpec.Keeping := fun _ _ _ h => kvPoolConfig_keeps h
theorem execKvPoolConfig_keeps {m} : KeepsTo s (execKvPoolConfig m s) := ⟨_, rfl, runCmd_keeps kvPoolConfigSpec_keeps (.refl s)⟩
theorem kvSeqQuery_keeps {c} (h : Keeps s₀ s) : Keeps s₀ (kvSeqQuery c s).1 := by
  unfold kvSeqQuery
  dsimp only
  split
  · split
    · exact refuse_keeps h
    · split
      · exact refuse_keeps h
      · exact intoHost_keeps h
  · exact refuse_keeps h

theorem kvSeqQuerySpec_keeps : kvSeqQuerySpec.Keeping := fun _ _ _ h => kvSeqQuery_keeps h
theorem execKvSeqQuery_keeps {m} : KeepsTo s (execKvSeqQuery m s) := ⟨_, rfl, runCmd_keeps kvSeqQuerySpec_keeps (.refl s)⟩
theorem kvPoolStatus_keeps {c} (h : Keeps s₀ s) : Keeps s₀ (kvPoolStatus c s).1 := by
  unfold kvPoolStatus
  dsimp only
  split
  · exact intoHost_keeps h
  · exact refuse_keeps h

theorem kvPoolStatusSpec_keeps : kvPoolStatusSpec.Keeping := fun _ _ _ h => kvPoolStatus_keeps h
theorem execKvPoolStatus_keeps {m} : KeepsTo s (execKvPoolStatus m s) := ⟨_, rfl, runCmd_keeps kvPoolStatusSpec_keeps (.refl s)⟩

end
end Sys2Proof.Machine
end
section
/-! PROOFS. What every command keeps, in the model's file Poison: poison that a read delivers. -/
namespace Sys2Proof.Machine
section
variable {s₀ s : State}

theorem weightPoisoned_keeps {rows im l place} (h : Keeps s₀ s) : Keeps s₀ (weightPoisoned rows im l place s) :=
  Keeps.foldl (fun _ _ h' => .ite h' (raiseError_keeps (modMdl_keeps h'))) h
theorem poisonEntry_keeps {k} (h : Keeps s₀ s) : Keeps s₀ (poisonEntry s k) := by
  unfold poisonEntry
  split
  · exact setEntry_keeps h
  · exact h

theorem poisonPrefixes_keeps {a} (h : Keeps s₀ s) : Keeps s₀ (poisonPrefixes a s) := modSrv_keeps h
theorem noticePoison_keeps (h : Keeps s₀ s) : Keeps s₀ (noticePoison s) := by
  unfold noticePoison
  exact modSp_keeps (modStr_keeps (Keeps.foldl (fun _ _ h' => Keeps.foldl (fun _ _ h'' => weightPoisoned_keeps h'') h') (Keeps.foldl
    (fun _ _ h' => poisonPrefixes_keeps (Keeps.foldl (fun _ _ h'' => poisonEntry_keeps h'') (Keeps.foldl
    (fun _ _ h'' => weightPoisoned_keeps h'') h'))) h)))

theorem execTierReadRetry_keeps {t block clean} : KeepsTo s (execTierReadRetry t block clean s) :=
  ⟨_, rfl, .ite (.refl s) (.ite (countError_keeps (modTier_keeps (setAwait_keeps (.refl s)))) (noticePoison_keeps (modStr_keeps
  (tierUncorrectable_keeps (setAwait_keeps (.refl s))))))⟩

end
end Sys2Proof.Machine
end
section
/-! PROOFS. What every command keeps, in the model's file Image: weight images. -/
namespace Sys2Proof.Machine
section
variable {s₀ s : State}

theorem putTensor_keeps {t off bs a} (h : Keeps s₀ a.2) : Keeps s₀ (putTensor t off bs a).2 := by
  unfold putTensor
  dsimp only
  split
  · split
    · exact tierWrite_keeps h
    · exact h
  · exact h

theorem writeResident_keeps {which r bs} (h : Keeps s₀ s) : Keeps s₀ (writeResident which r bs s) :=
  Keeps.foldl (fun _ _ h' => Keeps.foldl (fun _ _ h'' => setTag_keeps (storeRow_keeps h'')) h') h
theorem placeTier_keeps {p t r x} (h : Keeps s₀ s) (hx : placeTier p t r s = some x) : Keeps s₀ x.2 := by
  obtain ⟨y, -, hx⟩ := Option.bind_eq_some_iff.mp hx
  obtain ⟨g, hg, rfl⟩ := Option.map_eq_some_iff.mp hx
  exact allocRun_keeps h hg

theorem placeRows_keeps {p t shared r x} (h : Keeps s₀ s) (hx : placeRows p t shared r s = some x) : Keeps s₀ x.2 := by
  unfold placeRows at hx
  dsimp only at hx
  split at hx
  · cases hx
  · cases hx
    exact Keeps.foldl (fun _ _ h' => powerGroups_keeps (modFld_keeps h')) h

theorem placeTensors_keeps {p m shared staging ts a x} (h : Keeps s₀ a.2) (hx : placeTensors p m shared staging ts a = some x) : Keeps s₀ x.2 := by
  induction ts generalizing a with
  | nil =>
    cases hx
    exact h
  | cons t ts ih =>
    obtain ⟨y, hy, hx⟩ := Option.bind_eq_some_iff.mp hx
    refine ih (a := (_, y.2)) ?_ hx
    split at hy
    · exact placeTier_keeps h hy
    · split at hy
      · cases hy
        exact h
      · exact placeRows_keeps h hy

theorem placeLayer_keeps {p m shared staging rowsOnly l x} (h : Keeps s₀ s) (hx : placeLayer p m shared staging rowsOnly l s = some x) : Keeps s₀ x.2
  :=
  placeTensors_keeps h hx

theorem freeTierHome_keeps {p n} (h : Keeps s₀ s) : Keeps s₀ (freeTierHome p n s) :=
  uncharge_keeps (modTier_keeps (Keeps.foldl (fun _ _ h' => freeRun_keeps h') h))
theorem freeRowHome_keeps {n} (h : Keeps s₀ s) : Keeps s₀ (freeRowHome n s) := Keeps.foldl (fun _ _ h' => modFld_keeps (scrubWhere_keeps h')) h
theorem freeLayer_keeps {p rows ly} (h : Keeps s₀ s) : Keeps s₀ (freeLayer p rows ly s) :=
  Keeps.foldl (fun _ _ h' => .ite (freeTierHome_keeps h') (.ite (freeRowHome_keeps h') h')) h

end
end Sys2Proof.Machine
end
section
/-! PROOFS. What every command keeps, in the model's file SrvCfg: the serving configuration of a binding and the request classes. -/
namespace Sys2Proof.Machine
section
variable {s₀ s : State}

theorem releaseSrv_keeps {b part} (h : Keeps s₀ s) : Keeps s₀ (releaseSrv b part s) := by
  unfold releaseSrv
  split
  · exact h
  · exact modSrv_keeps (Keeps.foldl (fun _ _ h' => releaseArea_keeps h') h)

theorem srvConfig_keeps {c} (h : Keeps s₀ s) : Keeps s₀ (srvConfig c s).1 := by
  unfold srvConfig
  dsimp only
  split
  · exact refuse_keeps h
  · split
    · exact refuse_keeps h
    · split
      · exact done_keeps (releaseSrv_keeps h)
      · refine withHost_keeps h fun bs => ?_
        split
        · exact refuse_keeps h
        · split
          · exact refuse_keeps h
          · split
            · exact refuse_keeps h
            next hu => exact done_keeps (modSrv_keeps (claimAreas_keeps (releaseSrv_keeps h) hu))

theorem srvConfigSpec_keeps : srvConfigSpec.Keeping := fun _ _ _ h => srvConfig_keeps h
theorem execSrvConfig_keeps {m} : KeepsTo s (execSrvConfig m s) := ⟨_, rfl, runCmd_keeps srvConfigSpec_keeps (.refl s)⟩
theorem applyClass_keeps {c} (h : Keeps s₀ s) : Keeps s₀ (applyClass c s).1 := done_keeps (modSrv_keeps h)
theorem srvClass_keeps {c} (h : Keeps s₀ s) : Keeps s₀ (srvClass c s).1 := by
  unfold srvClass
  split
  · exact refuse_keeps h
  · split
    · exact later_keeps h
    · exact applyClass_keeps h

theorem srvClassSpec_keeps : srvClassSpec.Keeping := fun _ _ _ h => srvClass_keeps h
theorem execSrvClass_keeps {m} : KeepsTo s (execSrvClass m s) := ⟨_, rfl, runCmd_keeps srvClassSpec_keeps (.refl s)⟩

end
end Sys2Proof.Machine
end
section
/-! PROOFS. What every command keeps, in the model's file Requests: A request from its admission to its end. -/
namespace Sys2Proof.Machine
section
variable {s₀ s : State}

theorem modReq_keeps {k g} (h : Keeps s₀ s) : Keeps s₀ (modReq k g s) := modSrv_keeps h
theorem modClassStat_keeps {k g} (h : Keeps s₀ s) : Keeps s₀ (modClassStat k g s) := by
  unfold modClassStat
  exact modSrv_keeps h

theorem countDeferred_keeps (h : Keeps s₀ s) : Keeps s₀ (countDeferred s) := modSrv_keeps h
theorem countDropped_keeps {n} (h : Keeps s₀ s) : Keeps s₀ (countDropped n s) := modSrv_keeps h
theorem extendRecord_keeps {k bs u} (h : Keeps s₀ s) (hu : extendRecord k bs s = some u) : Keeps s₀ u := by
  unfold extendRecord at hu
  dsimp only at hu
  split at hu
  · cases hu
  · cases hu
    exact Keeps.foldl (fun _ _ h' => .ite h' (wrLocal_keeps h')) (modReq_keeps h)

theorem dropMoves_keeps {k} (h : Keeps s₀ s) : Keeps s₀ (dropMoves k s) := by
  unfold dropMoves
  exact modReq_keeps (Keeps.foldl (fun _ _ h' => .ite (freePark_keeps h') (addCount_keeps h')) h)

theorem dropReq_keeps {k} (h : Keeps s₀ s) : Keeps s₀ (dropReq k s) :=
  raiseTo_keeps (modReq_keeps (Keeps.foldl (fun _ _ h' => dropPages_keeps h') (dropMoves_keeps h)))
theorem freeReqPages_keeps {k} (h : Keeps s₀ s) : Keeps s₀ (freeReqPages k s) := by
  unfold freeReqPages
  exact modReq_keeps (Keeps.foldl (fun _ _ h' => freeSeq_keeps h') (dropMoves_keeps h))

theorem postDone_keeps {k} (h : Keeps s₀ s) : Keeps s₀ (postDone k s) := raiseTo_keeps h
theorem checkFree_keeps {k} (h : Keeps s₀ s) : Keeps s₀ (checkFree k s) := .ite h (modReq_keeps (postDone_keeps h))
theorem endReq_keeps {k status} (h : Keeps s₀ s) : Keeps s₀ (endReq k status s) := .ite h (checkFree_keeps (modReq_keeps (freeReqPages_keeps h)))
theorem endTurn_keeps {k status} (h : Keeps s₀ s) : Keeps s₀ (endTurn k status s) :=
  .ite (postDone_keeps (modReq_keeps (modClassStat_keeps h))) (endReq_keeps (modClassStat_keeps h))
theorem dropDeliveries_keeps {k} (h : Keeps s₀ s) : Keeps s₀ (dropDeliveries k s) := countDropped_keeps (modReq_keeps h)
theorem abortReq_keeps {k status} (h : Keeps s₀ s) : Keeps s₀ (abortReq k status s) :=
  .ite (checkFree_keeps (dropDeliveries_keeps h)) (endReq_keeps (dropDeliveries_keeps h))
theorem freePrefix_keeps {i flushed} (h : Keeps s₀ s) : Keeps s₀ (freePrefix i flushed s) := by
  unfold freePrefix
  dsimp only
  split
  · exact h
  · exact .ite h (modSrv_keeps (Keeps.foldl (fun _ _ h' => addCount_keeps h') h))

theorem flushBinding_keeps {b} (h : Keeps s₀ s) : Keeps s₀ (flushBinding b s) :=
  Keeps.foldl (fun _ _ h' => freePrefix_keeps h') (Keeps.foldl (fun _ _ h' => .ite (dropReq_keeps h') h') h)

end
end Sys2Proof.Machine
end
section
/-! PROOFS. What every command keeps, in the model's file Knot: knots. -/
namespace Sys2Proof.Machine
section
variable {s₀ s : State}

theorem takeKnot_keeps {e} (h : Keeps s₀ s) : Keeps s₀ (takeKnot e s) := by
  unfold takeKnot
  dsimp only
  split
  · exact modFabEng_keeps h
  · exact h

theorem launchKnot_keeps {part e k} (h : Keeps s₀ s) : Keeps s₀ (launchKnot part e k s) :=
  .ite (faultSegment_keeps (modFab_keeps (countError_keeps h))) (.ite (faultSegment_keeps (modFab_keeps (countError_keeps h))) (takeKnot_keeps
  (modFabEng_keeps h)))
theorem applyDone_keeps {r} (h : Keeps s₀ s) : Keeps s₀ (applyDone r s) := by
  unfold applyDone
  dsimp only
  exact .ite (incHitch_keeps h) h

theorem endKnot_keeps {e r} (h : Keeps s₀ s) : Keeps s₀ (endKnot e r s) := takeKnot_keeps (applyDone_keeps (modFabEng_keeps h))
theorem failKnot_keeps {e st r} (h : Keeps s₀ s) : Keeps s₀ (failKnot e st r s) :=
  takeKnot_keeps (raiseError_keeps (faultSegment_keeps (applyDone_keeps (modFabEng_keeps h))))
theorem gotoOp_keeps {e i} (h : Keeps s₀ s) : Keeps s₀ (gotoOp e i s) := modFabEng_keeps (modKnot_keeps h)
theorem onKnot_keeps {op e k} (hk : ∀ r o s, Keeps s₀ s → Keeps s₀ (k r o s)) (h : Keeps s₀ s) : Keeps s₀ (onKnot op e k s) := by
  unfold onKnot
  split
  · exact h
  · split
    · exact h
    · split
      · exact failKnot_keeps h
      · exact .ite (hk _ _ _ h) h

theorem dropKnots_keeps {p} (h : Keeps s₀ s) : Keeps s₀ (dropKnots p s) :=
  Keeps.foldl (fun _ _ h' => takeKnot_keeps (modFabEng_keeps (modFabEng_keeps h'))) h
theorem knotWaits_keeps {ks} (h : Keeps s₀ s) : Keeps s₀ (knotWaits ks s) := Keeps.foldl (fun _ _ h' => countBlocked_keeps h') h
theorem knotRead_keeps {p x host} (h : Keeps s₀ s) : Keeps s₀ (knotRead p x host s).2 := by
  unfold knotRead
  dsimp only
  split
  · exact Keeps.foldl_snd (fun _ _ h' => accessRow_keeps h') h
  · exact tierRead_keeps h
  · split
    · exact noteRead_keeps h
    · exact h

theorem knotWrite_keeps {p a bs poison} (h : Keeps s₀ s) : Keeps s₀ (knotWrite p a bs poison s) := by
  unfold knotWrite
  split
  · exact Keeps.foldl (fun _ _ h' => .ite h' (.ite (countDown_keeps h') (.ite (countSuppressed_keeps h') (setTag_keeps (storeRow_keeps h'))))) h
  · exact tierWrite_keeps h
  · split
    · exact writeWindow_keeps h
    · exact h

theorem execKnotSend_keeps {e src} : KeepsTo s (execKnotSend e src s) := by
  refine ⟨_, rfl, ?_⟩
  dsimp only
  refine onKnot_keeps (fun _ _ _ h' => ?_) (.refl s)
  split
  · exact failKnot_keeps (countRead_keeps h')
  · exact .ite (knotWaits_keeps h') (.ite h' (gotoOp_keeps (modKnot_keeps (sendTransfer_keeps (knotRead_keeps (readFinds_keeps h'))))))

theorem localDone_keeps {e r o} (h : Keeps s₀ s) : Keeps s₀ (localDone e r o s) := gotoOp_keeps (.ite (incHitch_keeps h) h)
theorem execKnotCombine_keeps {e src dst} : KeepsTo s (execKnotCombine e src dst s) := by
  refine ⟨_, rfl, ?_⟩
  dsimp only
  refine onKnot_keeps (fun _ _ _ h' => ?_) (.refl s)
  split
  · exact failKnot_keeps (countRead_keeps h')
  · exact .ite (knotWaits_keeps h') (localDone_keeps (knotWrite_keeps (knotRead_keeps (knotRead_keeps (readFinds_keeps (readFinds_keeps h'))))))

theorem execKnotCopy_keeps {e src} : KeepsTo s (execKnotCopy e src s) := by
  refine ⟨_, rfl, ?_⟩
  dsimp only
  refine onKnot_keeps (fun _ _ _ h' => ?_) (.refl s)
  split
  · exact failKnot_keeps (countRead_keeps h')
  · exact .ite (knotWaits_keeps h') (localDone_keeps (Keeps.foldl (fun _ _ h'' => knotWrite_keeps h'') (knotRead_keeps (readFinds_keeps h'))))

theorem execKnotWait_keeps {e} : KeepsTo s (execKnotWait e s) :=
  ⟨_, rfl, onKnot_keeps (fun _ _ _ h' => .ite (gotoOp_keeps (takeHitch_keeps h')) h') (.refl s)⟩
theorem execKnotInc_keeps {e} : KeepsTo s (execKnotInc e s) := ⟨_, rfl, onKnot_keeps (fun _ _ _ h' => gotoOp_keeps (incHitch_keeps h')) (.refl s)⟩
theorem execKnotBarrier_keeps {e} : KeepsTo s (execKnotBarrier e s) := by
  refine ⟨_, rfl, ?_⟩
  dsimp only
  refine onKnot_keeps (fun _ _ _ h' => ?_) (.refl s)
  split
  · split
    · exact h'
    · exact .ite (failKnot_keeps (takeRelease_keeps h')) (gotoOp_keeps (takeRelease_keeps h'))
  · split
    · exact .ite (gotoOp_keeps (enterBarrier_keeps h')) (failKnot_keeps (enterBarrier_keeps h'))
    · exact .ite (modKnot_keeps (enterBarrier_keeps h')) (gotoOp_keeps (enterBarrier_keeps h'))

theorem execKnotSetreg_keeps {e} : KeepsTo s (execKnotSetreg e s) :=
  ⟨_, rfl, onKnot_keeps (fun _ _ _ h' => gotoOp_keeps (modKnot_keeps h')) (.refl s)⟩
theorem execKnotAdvreg_keeps {e} : KeepsTo s (execKnotAdvreg e s) := by
  refine ⟨_, rfl, ?_⟩
  dsimp only
  refine onKnot_keeps (fun _ _ _ h' => ?_) (.refl s)
  refine gotoOp_keeps ?_
  refine modKnot_keeps ?_
  split
  · exact freshFree_keeps h'
  · exact h'

theorem execKnotLoop_keeps {e} : KeepsTo s (execKnotLoop e s) := ⟨_, rfl, onKnot_keeps (fun _ _ _ h' => gotoOp_keeps (modKnot_keeps h')) (.refl s)⟩
theorem execKnotEnd_keeps {e} : KeepsTo s (execKnotEnd e s) := ⟨_, rfl, onKnot_keeps (fun _ _ _ h' => endKnot_keeps h') (.refl s)⟩
theorem knotLoad_keeps {c} (h : Keeps s₀ s) : Keeps s₀ (knotLoad c s).1 := by
  unfold knotLoad
  dsimp only
  split
  · exact refuse_keeps h
  · split
    · exact refuse_keeps h
    · split
      · exact refuse_keeps h
      · split
        · exact refuse_keeps h
        · refine withHost_keeps h (fun _ => ?_)
          split
          · exact refuse_keeps h
          · split
            · exact refuse_keeps h
            · exact done_keeps (modFab_keeps h)

theorem knotLoadSpec_keeps : knotLoadSpec.Keeping := fun _ _ _ h => knotLoad_keeps h
theorem execKnotLoad_keeps {m} : KeepsTo s (execKnotLoad m s) := ⟨_, rfl, runCmd_keeps knotLoadSpec_keeps (.refl s)⟩
theorem knotUnload_keeps {c} (h : Keeps s₀ s) : Keeps s₀ (knotUnload c s).1 := by
  unfold knotUnload
  dsimp only
  split
  · exact refuse_keeps h
  · split
    · exact refuse_keeps h
    · split
      · exact refuse_keeps h
      · exact done_keeps (modFab_keeps h)

theorem knotUnloadSpec_keeps : knotUnloadSpec.Keeping := fun _ _ _ h => knotUnload_keeps h
theorem execKnotUnload_keeps {m} : KeepsTo s (execKnotUnload m s) := ⟨_, rfl, runCmd_keeps knotUnloadSpec_keeps (.refl s)⟩
theorem knotAbort_keeps {c} (h : Keeps s₀ s) : Keeps s₀ (knotAbort c s).1 := by
  unfold knotAbort
  dsimp only
  split
  · exact refuse_keeps h
  · split
    · exact done_keeps h
    · split
      · exact refuse_keeps h
      · exact done_keeps (failKnot_keeps h)

theorem knotAbortSpec_keeps : knotAbortSpec.Keeping := fun _ _ _ h => knotAbort_keeps h
theorem execKnotAbort_keeps {m} : KeepsTo s (execKnotAbort m s) := ⟨_, rfl, runCmd_keeps knotAbortSpec_keeps (.refl s)⟩

end
end Sys2Proof.Machine
end
section
/-! PROOFS. What every command keeps, in the model's file Seq: the sequencer. -/
namespace Sys2Proof.Machine
section
variable {s₀ s : State}

theorem modCur_keeps {g} (h : Keeps s₀ s) : Keeps s₀ (modCur g s) := modSeq_keeps h
theorem syncSeq_keeps (h : Keeps s₀ s) : Keeps s₀ (syncSeq s) := modSeq_keeps h
theorem chargeSlack_keeps {cause cycles} (h : Keeps s₀ s) : Keeps s₀ (chargeSlack cause cycles s) := by
  unfold chargeSlack
  dsimp only
  split
  · exact h
  · exact .ite h (modStep_keeps (modSeq_keeps h))

theorem chargeElapsed_keeps {cause} (h : Keeps s₀ s) : Keeps s₀ (chargeElapsed cause s) := modSeq_keeps (chargeSlack_keeps h)
theorem noteStall_keeps {cause} (h : Keeps s₀ s) : Keeps s₀ (noteStall cause s) := modSeq_keeps h
theorem passTo_keeps {w} (h : Keeps s₀ s) : Keeps s₀ (passTo w s) := by
  unfold passTo
  dsimp only
  split
  · exact h
  · exact modCur_keeps (onlyIf_keeps (fun _ h' => noteStall_keeps h') (chargeSlack_keeps (modIsl_keeps rfl h)))

theorem setStall_keeps {st cause field row} (h : Keeps s₀ s) : Keeps s₀ (setStall st cause field row s) := modSeq_keeps h
theorem markStalled_keeps {fs} (h : Keeps s₀ s) : Keeps s₀ (markStalled fs s) := Keeps.foldl (fun _ _ h' => modFld_keeps h') h
theorem clearStall_keeps (h : Keeps s₀ s) : Keeps s₀ (clearStall s) := modCur_keeps (markStalled_keeps h)
theorem stallBlocked_keeps {bs} (h : Keeps s₀ s) : Keeps s₀ (stallBlocked bs s) := by
  unfold stallBlocked
  dsimp only
  split
  · exact Keeps.foldl (fun _ _ h' => countBlocked_keeps h') h
  · exact markStalled_keeps (setStall_keeps (Keeps.foldl (fun _ _ h' => countBlocked_keeps h') h))

theorem kickNow_keeps {k} (h : Keeps s₀ s) : Keeps s₀ (kickNow k s) := by
  unfold kickNow
  dsimp only
  split
  · exact h
  · exact kickChain_keeps (modCur_keeps h)

theorem giveKicks_keeps {ks n} (h : Keeps s₀ s) : Keeps s₀ (giveKicks ks n s).2 := by
  induction ks generalizing n s with
  | nil => exact h
  | cons k ks ih =>
    unfold giveKicks
    split
    · exact h
    · exact ih (kickNow_keeps h)

theorem phaseAdv_keeps {mask g} (h : Keeps s₀ s) : Keeps s₀ (phaseAdv mask g s) := Keeps.foldl (fun _ _ h' => modFld_keeps h') h
theorem takeMark_keeps (h : Keeps s₀ s) : Keeps s₀ (takeMark s) := by
  unfold takeMark
  dsimp only
  split
  · exact h
  · exact modNp_keeps (.ite h (modCur_keeps h))

theorem flightStep_keeps {k} (h : Keeps s₀ s) : Keeps s₀ (flightStep k s) := by
  unfold flightStep
  dsimp only
  split
  · exact h
  · split
    · exact h
    · exact modCur_keeps (partStep_keeps h)

theorem landDue_keeps {d} (h : Keeps s₀ s) : Keeps s₀ (landDue d s) := by
  unfold landDue
  split
  · exact h
  · exact Keeps.foldl (fun _ _ h' => landAdd_keeps h') (modCur_keeps h)

theorem runParts_keeps {n} (h : Keeps s₀ s) : Keeps s₀ (runParts n s) := by
  induction n generalizing s with
  | zero => exact h
  | succ n ih =>
    have hclear : ∀ c, Keeps s₀ (onlyIf c clearStall s) := fun _ => onlyIf_keeps (fun _ h' => clearStall_keeps h') h
    unfold runParts
    split
    · exact h
    · split
      · exact syncSeq_keeps (noticePoison_keeps (clearStall_keeps h))
      · dsimp only
        split
        · exact ih (landDue_keeps (clearStall_keeps h))
        · split
          · exact ih (flightStep_keeps (hclear _))
          · exact syncSeq_keeps (stallBlocked_keeps (passTo_keeps (hclear _)))

theorem goOn_keeps (h : Keeps s₀ s) : Keeps s₀ (goOn s) := runParts_keeps h
theorem startParts_keeps (h : Keeps s₀ s) : Keeps s₀ (startParts s) := by
  unfold startParts
  dsimp only
  split
  · exact h
  · exact goOn_keeps (modCur_keeps (.ite (phaseAdv_keeps h) h))

theorem startAction_keeps (h : Keeps s₀ s) : Keeps s₀ (startAction s) := by
  unfold startAction
  dsimp only
  split
  · exact h
  next r _ =>
    have henter {b a u} (heq : enterBarrier r.part b 0 true s = (a, u)) : Keeps s₀ u := by
      simpa only [heq] using enterBarrier_keeps (part := r.part) (b := b) (kind := 0) (wait := true) h
    split
    · exact startParts_keeps (takeMark_keeps h)
    · exact startParts_keeps (modCur_keeps h)
    · exact .ite (startParts_keeps (takeHitch_keeps h)) (syncSeq_keeps (modHch_keeps (setStall_keeps h)))
    · exact startParts_keeps (incHitch_keeps h)
    · split
      next heq => exact startParts_keeps (faultSegment_keeps (henter heq))
      next heq => exact syncSeq_keeps (modHch_keeps (setStall_keeps (henter heq)))
    · exact startParts_keeps (launchKnot_keeps h)
    · exact startParts_keeps h

theorem startKicks_keeps {n} (h : Keeps s₀ s) : Keeps s₀ (startKicks n s) := by
  unfold startKicks
  split
  · exact h
  · split
    next heq => exact syncSeq_keeps (setStall_keeps (heq ▸ giveKicks_keeps h :))
    next heq => exact startAction_keeps (clearStall_keeps (heq ▸ giveKicks_keeps h :))

theorem issueNow_keeps {ecc} (h : Keeps s₀ s) : Keeps s₀ (issueNow ecc s) := by
  unfold issueNow
  dsimp only
  split
  · exact h
  · exact .ite (syncSeq_keeps (modCur_keeps h)) (startKicks_keeps (modSeq_keeps (eccHits_keeps (passTo_keeps (modCur_keeps h)))))

theorem execBundleIssue_keeps {ecc} : KeepsTo s (execBundleIssue ecc s) := ⟨_, rfl, .ite (issueNow_keeps (.refl s)) (.refl s)⟩
theorem execBlockedAccessRetry_keeps {ecc} : KeepsTo s (execBlockedAccessRetry ecc s) := by
  refine ⟨_, rfl, ?_⟩
  dsimp only
  split
  · exact .refl s
  · split
    · exact goOn_keeps (eccHits_keeps (onlyIf_keeps (fun _ h' => chargeSlack_keeps h') (.refl s)))
    · exact startKicks_keeps (onlyIf_keeps (fun _ h' => chargeSlack_keeps h') (.refl s))
    · exact .refl s

theorem endWait_keeps (h : Keeps s₀ s) : Keeps s₀ (endWait s) := modHch_keeps (clearStall_keeps h)
theorem execHitchWaitProceed_keeps : KeepsTo s (execHitchWaitProceed s) := by
  refine ⟨_, rfl, ?_⟩
  dsimp only
  split
  · exact .refl s
  · split
    · exact .ite (startParts_keeps (endWait_keeps (takeHitch_keeps (chargeElapsed_keeps (.refl s))))) (.refl s)
    · split
      · exact startParts_keeps (.ite (faultSegment_keeps (endWait_keeps (takeRelease_keeps (chargeElapsed_keeps (.refl s))))) (endWait_keeps
          (takeRelease_keeps (chargeElapsed_keeps (.refl s)))))
      · exact .refl s
    · exact .refl s

theorem restStall_keeps (h : Keeps s₀ s) : Keeps s₀ (restStall s) := modSeq_keeps h
theorem settleHalt_keeps (h : Keeps s₀ s) : Keeps s₀ (settleHalt s) := by
  unfold settleHalt
  split
  · exact restStall_keeps h
  · split
    · exact restStall_keeps h
    · split
      · exact chargeElapsed_keeps h
      · split
        · exact chargeElapsed_keeps h
        · exact chargeElapsed_keeps h
        · exact chargeElapsed_keeps h
        · exact modSeq_keeps h

theorem noteHalt_keeps (h : Keeps s₀ s) : Keeps s₀ (noteHalt s) := onlyIf_keeps (fun _ h' => noteStall_keeps h') h
theorem setHalt_keeps {n} (h : Keeps s₀ s) : Keeps s₀ (setHalt n s) :=
  .ite h (syncSeq_keeps (modSeq_keeps (.ite (settleHalt_keeps h) (noteHalt_keeps (settleHalt_keeps h)))))
theorem slackNow_keeps (h : Keeps s₀ s) : Keeps s₀ (slackNow s) := .ite h (settleHalt_keeps h)
theorem execSeqHalt_keeps {halt} : KeepsTo s (execSeqHalt halt s) := ⟨_, rfl, onlyIf_keeps (fun _ h' => setHalt_keeps h') (.refl s)⟩
theorem execSeqSingleStep_keeps : KeepsTo s (execSeqSingleStep s) :=
  ⟨_, rfl, onlyIf_keeps (fun _ h' => issueNow_keeps (freeFinds_keeps h')) (.refl s)⟩
theorem finishParts_keeps {r} (h : Keeps s₀ s) : Keeps s₀ (finishParts r s) :=
  .ite (goOn_keeps (modCur_keeps h)) (passTo_keeps (goOn_keeps (modCur_keeps h)))
theorem testedBreach_keeps {reason part layer newE} (h : Keeps s₀ s) : Keeps s₀ (testedBreach reason part layer newE s) := modNp_keeps h
theorem breachUnreplayed_keeps {part reason b newE} (h : Keeps s₀ s) : Keeps s₀ (breachUnreplayed part reason b newE s) :=
  raiseTo_keeps (modNp_keeps (testedBreach_keeps h))
theorem reportBreaches_keeps {part i} (h : Keeps s₀ s) : Keeps s₀ (reportBreaches part i s) := by
  unfold reportBreaches
  exact modNp_keeps (Keeps.foldl (fun _ _ h' => breachUnreplayed_keeps h') h)

theorem beginReplay_keeps {r m} (h : Keeps s₀ s) : Keeps s₀ (beginReplay r m s) :=
  syncSeq_keeps (modCur_keeps (noteStall_keeps (chargeSlack_keeps (modNp_keeps (Keeps.foldl (fun _ _ h' => modFld_keeps h') (scrubWhere_keeps
  (emptyAllLines_keeps (Keeps.foldl (fun _ _ h' => testedBreach_keeps (raiseError_keeps (modNp_keeps h'))) h))))))))
theorem passHorizon_keeps (h : Keeps s₀ s) : Keeps s₀ (passHorizon s) := syncSeq_keeps (modNp_keeps (modCur_keeps h))
theorem execHorizon_keeps : KeepsTo s (execHorizon s) := by
  refine ⟨_, rfl, .ite (.refl s) ?_⟩
  split
  · exact .refl s
  next r _ =>
    refine .ite (.refl s) ?_
    have hdone : Keeps s (if r.stall.isSome then s else finishParts r s) := .ite (.refl s) (finishParts_keeps (.refl s))
    dsimp only
    generalize (if r.stall.isSome then s else finishParts r s) = u at hdone
    refine .ite hdone (.ite (passHorizon_keeps (reportBreaches_keeps (modNp_keeps (modCur_keeps (chargeSlack_keeps hdone))))) ?_)
    split
    · exact passHorizon_keeps (reportBreaches_keeps hdone)
    · exact .ite (passHorizon_keeps (reportBreaches_keeps hdone)) (.ite (.ite hdone (syncSeq_keeps (setStall_keeps hdone)))
        (beginReplay_keeps (.ite (chargeElapsed_keeps hdone) hdone)))

theorem modNpPart_keeps {p g} (h : Keeps s₀ s) : Keeps s₀ (modNpPart p g s) := modNp_keeps h
theorem clearOverride_keeps {p l} (h : Keeps s₀ s) : Keeps s₀ (clearOverride p l s) := onlyIf_keeps (fun _ h' => modNp_keeps h') (modNpPart_keeps h)
theorem applyNpConfig_keeps {c} (h : Keeps s₀ s) : Keeps s₀ (applyNpConfig c s).1 := by
  unfold applyNpConfig
  dsimp only
  split
  · exact refuse_keeps h
  · exact done_keeps (modNpPart_keeps h)

theorem npConfig_keeps {c} (h : Keeps s₀ s) : Keeps s₀ (npConfig c s).1 := by
  unfold npConfig
  split
  · exact refuse_keeps h
  · split
    · exact later_keeps h
    · exact applyNpConfig_keeps h

theorem npConfigSpec_keeps : npConfigSpec.Keeping := fun _ _ _ h => npConfig_keeps h
theorem execNpConfig_keeps {m} : KeepsTo s (execNpConfig m s) := ⟨_, rfl, runCmd_keeps npConfigSpec_keeps (.refl s)⟩

end
end Sys2Proof.Machine
end
section
/-! PROOFS. What every command keeps, in the model's file Verify: the load-time verifier and the program commands. -/
namespace Sys2Proof.Machine
section
variable {s₀ s : State}

theorem progLoad_keeps {c} (h : Keeps s₀ s) : Keeps s₀ (progLoad c s).1 := by
  unfold progLoad
  dsimp only
  split
  · exact refuse_keeps h
  · split
    · exact refuse_keeps h
    · refine withHost_keeps h (fun _ => ?_)
      split
      · exact h
      · split
        · exact h
        · split
          · exact later_keeps (modProg_keeps h)
          · exact writeHost_keeps h

theorem progLoadSpec_keeps : progLoadSpec.Keeping := fun _ _ _ h => progLoad_keeps h
theorem execProgLoad_keeps {m} : KeepsTo s (execProgLoad m s) := ⟨_, rfl, runCmd_keeps progLoadSpec_keeps (.refl s)⟩
theorem execVerificationComplete_keeps {n} : KeepsTo s (execVerificationComplete n s) := by
  refine ⟨_, rfl, ?_⟩
  dsimp only
  split
  · exact .refl s
  · split
    · exact .refl s
    · split
      · exact complete_keeps (modProg_keeps (writeHost_keeps (.refl s)))
      · exact complete_keeps (modProg_keeps (writeHost_keeps (.refl s)))
      · exact .ite (powerGroups_keeps (.refl s)) (complete_keeps (modProg_keeps (writeHost_keeps (powerGroups_keeps (.refl s)))))

theorem loadNpTables_keeps {p} (h : Keeps s₀ s) : Keeps s₀ (loadNpTables p s) := by
  unfold loadNpTables
  exact modNpPart_keeps h

theorem applyActivate_keeps {c} (h : Keeps s₀ s) : Keeps s₀ (applyActivate c s).1 := by
  unfold applyActivate
  dsimp only
  split
  · exact refuse_keeps h
  · split
    · exact h
    · split
      · exact refuse_keeps h
      · exact done_keeps (loadNpTables_keeps (modProg_keeps h))

theorem progActivate_keeps {c} (h : Keeps s₀ s) : Keeps s₀ (progActivate c s).1 := by
  unfold progActivate
  split
  · exact refuse_keeps h
  · split
    · exact later_keeps h
    · exact applyActivate_keeps h

theorem progActivateSpec_keeps : progActivateSpec.Keeping := fun _ _ _ h => progActivate_keeps h
theorem execProgActivate_keeps {m} : KeepsTo s (execProgActivate m s) := ⟨_, rfl, runCmd_keeps progActivateSpec_keeps (.refl s)⟩
theorem progUnload_keeps {c} (h : Keeps s₀ s) : Keeps s₀ (progUnload c s).1 := by
  unfold progUnload
  dsimp only
  split
  · exact refuse_keeps h
  · split
    · exact refuse_keeps h
    · exact done_keeps (modProg_keeps h)

theorem progUnloadSpec_keeps : progUnloadSpec.Keeping := fun _ _ _ h => progUnload_keeps h
theorem execProgUnload_keeps {m} : KeepsTo s (execProgUnload m s) := ⟨_, rfl, runCmd_keeps progUnloadSpec_keeps (.refl s)⟩
theorem progGetReport_keeps {c} (h : Keeps s₀ s) : Keeps s₀ (progGetReport c s).1 := by
  unfold progGetReport
  split
  · exact refuse_keeps h
  · exact intoHost_keeps h

theorem progGetReportSpec_keeps : progGetReportSpec.Keeping := fun _ _ _ h => progGetReport_keeps h
theorem execProgGetReport_keeps {m} : KeepsTo s (execProgGetReport m s) := ⟨_, rfl, runCmd_keeps progGetReportSpec_keeps (.refl s)⟩
theorem applyCounts_keeps {c} (h : Keeps s₀ s) : Keeps s₀ (applyCounts c s).1 := by
  unfold applyCounts
  dsimp only
  split
  · exact refuse_keeps h
  · split
    · exact refuse_keeps h
    · split
      · exact refuse_keeps h
      · exact done_keeps (modProg_keeps h)

theorem progSetCounts_keeps {c} (h : Keeps s₀ s) : Keeps s₀ (progSetCounts c s).1 := by
  unfold progSetCounts
  split
  · exact refuse_keeps h
  · split
    · exact refuse_keeps h
    · split
      · exact later_keeps h
      · exact applyCounts_keeps h

theorem progSetCountsSpec_keeps : progSetCountsSpec.Keeping := fun _ _ _ h => progSetCounts_keeps h
theorem execProgSetCounts_keeps {m} : KeepsTo s (execProgSetCounts m s) := ⟨_, rfl, runCmd_keeps progSetCountsSpec_keeps (.refl s)⟩
theorem applyDeactivate_keeps {c} (h : Keeps s₀ s) : Keeps s₀ (applyDeactivate c s).1 := by
  unfold applyDeactivate
  dsimp only
  split
  · exact refuse_keeps h
  · split
    · exact refuse_keeps h
    · exact done_keeps (modProg_keeps h)

theorem progDeactivate_keeps {c} (h : Keeps s₀ s) : Keeps s₀ (progDeactivate c s).1 := by
  unfold progDeactivate
  dsimp only
  split
  · exact refuse_keeps h
  · split
    · exact refuse_keeps h
    · split
      · exact refuse_keeps h
      · split
        · exact later_keeps h
        · exact applyDeactivate_keeps h

theorem progDeactivateSpec_keeps : progDeactivateSpec.Keeping := fun _ _ _ h => progDeactivate_keeps h
theorem execProgDeactivate_keeps {m} : KeepsTo s (execProgDeactivate m s) := ⟨_, rfl, runCmd_keeps progDeactivateSpec_keeps (.refl s)⟩

end
end Sys2Proof.Machine
end
section
/-! PROOFS. What every command keeps, in the model's file Model: loading, sharing, repair, swap, update and checkpoint of weight images. -/
namespace Sys2Proof.Machine
section
variable {s₀ s : State}

theorem setBinding_keeps {n b} (h : Keeps s₀ s) : Keeps s₀ (setBinding n b s) := modMdl_keeps h
theorem modBinding_keeps {n g} (h : Keeps s₀ s) : Keeps s₀ (modBinding n g s) := by
  unfold modBinding
  split
  · exact setBinding_keeps h
  · exact h

theorem modSwap_keeps {n g} (h : Keeps s₀ s) : Keeps s₀ (modSwap n g s) := modBinding_keeps h
theorem setImage_keeps {i x} (h : Keeps s₀ s) : Keeps s₀ (setImage i x s) := modMdl_keeps h
theorem modImage_keeps {i g} (h : Keeps s₀ s) : Keeps s₀ (modImage i g s) := by
  unfold modImage
  split
  · exact setImage_keeps h
  · exact h

theorem setLayer_keeps {i l y} (h : Keeps s₀ s) : Keeps s₀ (setLayer i l y s) := modImage_keeps h
theorem dropImages_keeps (h : Keeps s₀ s) : Keeps s₀ (dropImages s) := by
  unfold dropImages
  refine Keeps.foldl (fun _ _ h' => ?_) h
  split
  · split
    · exact h'
    · refine setImage_keeps ?_
      refine Keeps.foldl (fun _ _ h'' => ?_) h'
      split
      · exact freeLayer_keeps h''
      · exact h''
  · exact h'

theorem detach_keeps {p i} (h : Keeps s₀ s) : Keeps s₀ (detach p i s) := by
  unfold detach
  dsimp only
  split
  · exact h
  · exact .ite h (.ite (Keeps.foldl (fun _ _ h' => .ite (freeRun_keeps h') (Keeps.foldl (fun _ _ h'' => modFld_keeps h'') h')) h) (modImage_keeps
      (Keeps.foldl (fun _ _ h' => charge_keeps (uncharge_keeps h')) (Keeps.foldl (fun _ _ h' => .ite (freeRun_keeps h') (Keeps.foldl
      (fun _ _ h'' => modFld_keeps h'') h')) h))))

theorem attachHomes_keeps {p hs} (h : Keeps s₀ s) : Keeps s₀ (attachHomes p hs s) :=
  Keeps.foldl (fun _ _ h' => .ite (ownRun_keeps h') (Keeps.foldl (fun _ _ h'' => modFld_keeps h'') h')) h
theorem tellBinding_keeps {code n} (h : Keeps s₀ s) : Keeps s₀ (tellBinding code n s) := by
  unfold tellBinding
  split
  · exact raiseTo_keeps h
  · exact h

theorem holdBinding_keeps {n} (h : Keeps s₀ s) : Keeps s₀ (holdBinding n s) := .ite h (tellBinding_keeps (modBinding_keeps h))
theorem releaseBinding_keeps {n} (h : Keeps s₀ s) : Keeps s₀ (releaseBinding n s) := .ite (tellBinding_keeps (modBinding_keeps h)) h
theorem finish_keeps {c st results} (h : Keeps s₀ s) : Keeps s₀ (finish c st results s) := by
  unfold finish
  split
  · exact complete_keeps h
  · exact h

theorem withManifest_keeps {c addr len k} (h : Keeps s₀ s) (hk : ∀ m, Keeps s₀ (k m).1) : Keeps s₀ (withManifest c addr len s k).1 := by
  unfold withManifest
  split
  · exact refuse_keeps h
  · refine withHost_keeps h fun m => ?_
    split
    · exact refuse_keeps h
    · split
      · exact refuse_keeps h
      · exact hk m

theorem placeLayers_keeps {p i m shared ls u} (h : Keeps s₀ s) (hu : placeLayers p i m shared ls s = some u) : Keeps s₀ u := by
  induction ls generalizing s with
  | nil =>
    cases hu
    exact h
  | cons l ls ih =>
    obtain ⟨x, hx, hu⟩ := Option.bind_eq_some_iff.mp hu
    exact ih (setLayer_keeps (placeLayer_keeps h hx)) hu

theorem modelLoad_keeps {c} (h : Keeps s₀ s) : Keeps s₀ (modelLoad c s).1 := by
  unfold modelLoad
  dsimp only
  split
  · exact refuse_keeps h
  · split
    · exact refuse_keeps h
    · refine withManifest_keeps h fun m => ?_
      split
      · exact refuse_keeps h
      · split
        · split
          · exact refuse_keeps h
          · exact doneWith_keeps (tellBinding_keeps (setBinding_keeps (attachHomes_keeps h)))
        · split
          · exact refuse_keeps h
          · split
            · exact refuse_keeps h
            · split
              · exact refuse_keeps h
              next hu => exact later_keeps (setBinding_keeps (placeLayers_keeps (setImage_keeps h) hu))

theorem modelLoadSpec_keeps : modelLoadSpec.Keeping := fun _ _ _ h => modelLoad_keeps h
theorem execModelLoad_keeps {m} : KeepsTo s (execModelLoad m s) := ⟨_, rfl, runCmd_keeps modelLoadSpec_keeps (.refl s)⟩
theorem modelReload_keeps {c} (h : Keeps s₀ s) : Keeps s₀ (modelReload c s).1 := by
  unfold modelReload
  dsimp only
  split
  · exact refuse_keeps h
  · split
    · exact refuse_keeps h
    · split
      · exact refuse_keeps h
      · refine withManifest_keeps h fun m => ?_
        split
        · exact refuse_keeps h
        · split
          · exact later_keeps (modBinding_keeps (modImage_keeps h))
          · split
            · exact refuse_keeps h
            next hu => exact later_keeps (modBinding_keeps (placeLayers_keeps (modImage_keeps h) hu))

theorem modelReloadSpec_keeps : modelReloadSpec.Keeping := fun _ _ _ h => modelReload_keeps h
theorem execModelReloadLayers_keeps {m} : KeepsTo s (execModelReloadLayers m s) := ⟨_, rfl, runCmd_keeps modelReloadSpec_keeps (.refl s)⟩
theorem setFetched_keeps {n i staging l y} (h : Keeps s₀ s) : Keeps s₀ (setFetched n i staging l y s) := .ite (modSwap_keeps h) (setLayer_keeps h)
theorem stageLayer_keeps {h' l} (h : Keeps s₀ s) : Keeps s₀ (stageLayer h' l s) := by
  unfold stageLayer
  dsimp only
  split
  · exact h
  · split
    · exact h
    · split
      · exact h
      · split
        next hx => exact modSwap_keeps (placeLayer_keeps h hx)
        · exact h

theorem freeStaged_keeps {n} (h : Keeps s₀ s) : Keeps s₀ (freeStaged n s) := by
  unfold freeStaged
  dsimp only
  split
  · exact h
  · split
    · exact h
    · refine modSwap_keeps ?_
      refine Keeps.foldl (fun _ _ h' => ?_) h
      split
      · exact freeLayer_keeps h'
      · exact h'

theorem tellMixed_keeps {n} (h : Keeps s₀ s) : Keeps s₀ (tellMixed n s) := by
  unfold tellMixed
  dsimp only
  split
  · exact h
  · split
    · exact h
    · exact raiseTo_keeps h

theorem failSwap_keeps {n st} (h : Keeps s₀ s) : Keeps s₀ (failSwap n st s) := by
  unfold failSwap
  dsimp only
  split
  · exact h
  · split
    · exact h
    · exact .ite (Keeps.foldl (fun _ _ h' => modBinding_keeps h') (finish_keeps (modBinding_keeps (freeStaged_keeps h)))) (.ite (finish_keeps
        (dropImages_keeps (releaseBinding_keeps (modBinding_keeps (Keeps.foldl (fun _ _ h' => releaseBinding_keeps h') (freeStaged_keeps h))))))
        (finish_keeps (tellMixed_keeps (releaseBinding_keeps (dropImages_keeps (modBinding_keeps (Keeps.foldl (fun _ _ h' => releaseBinding_keeps h')
        (freeStaged_keeps h))))))))

theorem finishLoad_keeps {n} (h : Keeps s₀ s) : Keeps s₀ (finishLoad n s) := by
  unfold finishLoad
  dsimp only
  split
  · exact h
  · exact .ite h (finish_keeps (.ite (tellBinding_keeps (modBinding_keeps h)) (modBinding_keeps h)))

theorem failLayer_keeps {n l} (h : Keeps s₀ s) : Keeps s₀ (failLayer n l s) := by
  unfold failLayer
  dsimp only
  split
  · exact h
  · split
    · exact h
    · exact finishLoad_keeps (raiseError_keeps (setLayer_keeps (freeLayer_keeps h)))

theorem stopLoad_keeps {n st ls} (h : Keeps s₀ s) : Keeps s₀ (stopLoad n st ls s) := by
  unfold stopLoad
  dsimp only
  split
  · exact h
  · refine finish_keeps ?_
    refine modBinding_keeps ?_
    refine Keeps.foldl (fun _ _ h' => ?_) h
    split
    · exact .ite (setLayer_keeps (freeLayer_keeps h')) h'
    · exact h'

theorem failMetadata_keeps {n} (h : Keeps s₀ s) : Keeps s₀ (failMetadata n s) := by
  unfold failMetadata
  split
  · exact h
  · exact .ite (failSwap_keeps h) (.ite (dropImages_keeps (setBinding_keeps (finish_keeps h))) (stopLoad_keeps h))

theorem writeRows_keeps {which m ly l} (h : Keeps s₀ s) : Keeps s₀ (writeRows which m ly l s) :=
  Keeps.foldl (fun _ _ h' => .ite (writeResident_keeps h') h') h
theorem layerArrived_keeps {n i l} (h : Keeps s₀ s) : Keeps s₀ (layerArrived n i l s) := by
  unfold layerArrived
  dsimp only
  split
  · exact h
  · exact .ite (failMetadata_keeps h) (finishLoad_keeps (setLayer_keeps (writeRows_keeps h)))

theorem shardIn_keeps {n k data} (h : Keeps s₀ s) : Keeps s₀ (shardIn n k data s) := by
  unfold shardIn
  split
  · exact h
  next i staging ls _ =>
    refine .ite (finishLoad_keeps h) (.ite h ?_)
    have hstage : ∀ l, Keeps s₀ (if staging && (fetched s n i true l).isNone then stageLayer n l s else s) := fun _ => .ite (stageLayer_keeps h) h
    dsimp only
    split
    · exact hstage _
    next ly _ =>
      refine .ite (hstage _) ?_
      split
      · exact failMetadata_keeps (hstage _)
      next ps first m _ =>
        have hputs : ∀ l, Keeps s₀ (ps.foldl (fun a x => putTensor x.1 x.2.1 x.2.2 a)
            (ly, if staging && (fetched s n i true l).isNone then stageLayer n l s else s)).2 :=
          fun l => Keeps.foldl_snd (fun _ _ ha => putTensor_keeps ha) (hstage l)
        refine .ite (layerArrived_keeps (setFetched_keeps ?_)) (setFetched_keeps ?_)
        · exact Keeps.snd_ite (hputs _) (Keeps.foldl_snd (fun _ _ ha => putTensor_keeps ha) (hputs _))
        · exact Keeps.snd_ite (hputs _) (Keeps.foldl_snd (fun _ _ ha => putTensor_keeps ha) (hputs _))

theorem renewShardWindow_keeps (h : Keeps s₀ s) : Keeps s₀ (renewShardWindow s) := modWin_keeps (closeWindow_keeps h)
theorem shardLost_keeps {n l staging} (h : Keeps s₀ s) : Keeps s₀ (shardLost n l staging s) := .ite (failSwap_keeps h) (failLayer_keeps h)
theorem execShardTransferFail_keeps {handle shard status} : KeepsTo s (execShardTransferFail handle shard status s) := by
  refine ⟨_, rfl, ?_⟩
  dsimp only
  split
  · exact .ite (.refl s) (.ite (shardLost_keeps (.ite (renewShardWindow_keeps (.refl s)) (.refl s))) (.ite (modSwap_keeps (.ite
      (renewShardWindow_keeps (.refl s)) (.refl s))) (modBinding_keeps (.ite (renewShardWindow_keeps (.refl s)) (.refl s)))))
  · exact .refl s

theorem execModelDeadlineExpiry_keeps {handle} : KeepsTo s (execModelDeadlineExpiry handle s) := by
  refine ⟨_, rfl, ?_⟩
  dsimp only
  split
  · exact .refl s
  · split
    · exact .ite (.ite (.refl s) (failSwap_keeps (.refl s))) (.refl s)
    · exact .ite (.refl s) (.ite (finishLoad_keeps (.refl s)) (Keeps.foldl (fun _ _ h' => failLayer_keeps h') (.refl s)))

theorem commitLayer_keeps {h' l} (h : Keeps s₀ s) : Keeps s₀ (commitLayer h' l s) := by
  unfold commitLayer
  dsimp only
  split
  · exact h
  · split
    · split
      · exact h
      · exact .ite (failSwap_keeps (Keeps.foldl_of (fun a : (LayerSt × State) × Nat × Nat => a.1.2) (fun _ _ ha => putTensor_keeps ha) h))
          (modSwap_keeps (Keeps.foldl_of (fun a : (LayerSt × State) × Nat × Nat => a.1.2) (fun _ _ ha => putTensor_keeps ha) h))
    · exact h

theorem rebind_keeps {p old new} (h : Keeps s₀ s) : Keeps s₀ (rebind p old new s) := modProg_keeps h
theorem rewriteRows_keeps {n l} (h : Keeps s₀ s) : Keeps s₀ (rewriteRows n l s) := by
  unfold rewriteRows
  dsimp only
  split
  · exact h
  · split
    · exact h
    · exact modSwap_keeps (Keeps.foldl (fun _ _ h' => modBinding_keeps h') (writeRows_keeps (Keeps.foldl (fun _ _ h' => holdBinding_keeps h') h)))

theorem flipLayer_keeps {n l} (h : Keeps s₀ s) : Keeps s₀ (flipLayer n l s) := by
  unfold flipLayer
  dsimp only
  split
  · exact h
  · split
    · exact h
    · split
      · refine modSwap_keeps ?_
        refine Keeps.foldl (fun _ _ h' => modBinding_keeps h') ?_
        split
        · refine setLayer_keeps ?_
          refine freeLayer_keeps ?_
          refine writeRows_keeps ?_
          refine Keeps.foldl (fun _ _ h' => ?_) (Keeps.foldl (fun _ _ h' => holdBinding_keeps h') h)
          split
          · exact h'
          · refine clearOverride_keeps ?_
            refine Keeps.foldl (fun _ _ h'' => ?_) h'
            split
            · exact .ite (rebind_keeps (ownRun_keeps h'')) h''
            · exact h''
        · split
          · refine setLayer_keeps ?_
            refine freeLayer_keeps ?_
            refine modBinding_keeps ?_
            refine setLayer_keeps ?_
            refine writeRows_keeps ?_
            refine Keeps.foldl (fun _ _ h' => ?_) (Keeps.foldl (fun _ _ h' => holdBinding_keeps h') h)
            split
            · exact h'
            · refine clearOverride_keeps ?_
              refine Keeps.foldl (fun _ _ h'' => ?_) h'
              split
              · exact .ite (rebind_keeps (ownRun_keeps h'')) h''
              · exact h''
          · refine modBinding_keeps ?_
            refine setLayer_keeps ?_
            refine writeRows_keeps ?_
            refine Keeps.foldl (fun _ _ h' => ?_) (Keeps.foldl (fun _ _ h' => holdBinding_keeps h') h)
            split
            · exact h'
            · refine clearOverride_keeps ?_
              refine Keeps.foldl (fun _ _ h'' => ?_) h'
              split
              · exact .ite (rebind_keeps (ownRun_keeps h'')) h''
              · exact h''
      · exact h

theorem endSwap_keeps {n} (h : Keeps s₀ s) : Keeps s₀ (endSwap n s) := by
  unfold endSwap
  dsimp only
  split
  · exact h
  · split
    · exact h
    · exact .ite (Keeps.foldl (fun _ _ h' => .ite (finish_keeps (releaseBinding_keeps (modBinding_keeps h'))) h') (modBinding_keeps h)) (finish_keeps
        (tellBinding_keeps (Keeps.foldl (fun _ _ h' => releaseBinding_keeps h') (.ite (flushBinding_keeps (.ite (modBinding_keeps h) (detach_keeps
        (dropImages_keeps (modBinding_keeps h))))) (.ite (modBinding_keeps h) (detach_keeps (dropImages_keeps (modBinding_keeps h))))))))

theorem flipDue_keeps {n h'} (h : Keeps s₀ s) : Keeps s₀ (flipDue n h' s).2 := by
  induction n generalizing s with
  | zero => exact h
  | succ n ih =>
    unfold flipDue
    dsimp only
    split
    · exact h
    · split
      · exact endSwap_keeps h
      · split
        · exact h
        · exact ih (.ite (rewriteRows_keeps h) (flipLayer_keeps h))

theorem flipReserve_keeps (h : Keeps s₀ s) : Keeps s₀ (flipReserve s) :=
  Keeps.foldl (fun _ _ h' => .ite (endSwap_keeps h') h') (Keeps.foldl_snd (fun _ _ h' => flipDue_keeps h') h)
theorem startRepairs_keeps (h : Keeps s₀ s) : Keeps s₀ (startRepairs s) := by
  unfold startRepairs
  dsimp only
  refine Keeps.foldl (fun _ _ h' => ?_) h
  split
  · exact h'
  · split
    · exact h'
    · exact .ite h' (.ite (.ite (raiseTo_keeps (holdBinding_keeps (modBinding_keeps h'))) (holdBinding_keeps (modBinding_keeps h'))) (.ite
        (holdBinding_keeps (modBinding_keeps h')) (modBinding_keeps (holdBinding_keeps (modBinding_keeps h')))))

theorem idleModels_keeps (h : Keeps s₀ s) : Keeps s₀ (idleModels s) := .ite h (flipReserve_keeps (startRepairs_keeps h))
theorem execShardArrived_keeps {handle shard data} : KeepsTo s (execShardArrived handle shard data s) :=
  ⟨_, rfl, .ite (shardIn_keeps (idleModels_keeps (.refl s))) (.refl s)⟩
theorem layerStaged_keeps {handle layer} (h : Keeps s₀ s) : Keeps s₀ (layerStaged handle layer s) := by
  unfold layerStaged
  dsimp only
  split
  · exact h
  · split
    · exact h
    · split
      · exact h
      · split
        · exact .ite (commitLayer_keeps (.ite (stageLayer_keeps h) h)) (.ite (stageLayer_keeps h) h)
        · split
          · exact h
          · exact .ite h (.ite (failSwap_keeps h) (modSwap_keeps h))

theorem execLayerStaged_keeps {handle layer} : KeepsTo s (execLayerStaged handle layer s) :=
  ⟨_, rfl, idleModels_keeps (layerStaged_keeps (idleModels_keeps (.refl s)))⟩
theorem abortSwaps_keeps {p st} (h : Keeps s₀ s) : Keeps s₀ (abortSwaps p st s) := by
  unfold abortSwaps
  refine Keeps.foldl (fun _ _ h' => ?_) h
  split
  · exact .ite (failSwap_keeps h') h'
  · exact h'

theorem modelSwap_keeps {c} (h : Keeps s₀ s) : Keeps s₀ (modelSwap c s).1 := by
  unfold modelSwap
  dsimp only
  split
  · exact refuse_keeps h
  · split
    · exact refuse_keeps h
    · split
      · exact refuse_keeps h
      · split
        · exact refuse_keeps h
        · refine withManifest_keeps h (fun _ => ?_)
          split
          · exact refuse_keeps h
          · split
            · exact refuse_keeps h
            · split
              · exact refuse_keeps h
              · split
                · exact refuse_keeps h
                · exact later_keeps (modBinding_keeps (setImage_keeps h))

theorem modelSwapSpec_keeps : modelSwapSpec.Keeping := fun _ _ _ h => modelSwap_keeps h
theorem execModelSwap_keeps {m} : KeepsTo s (execModelSwap m s) := ⟨_, rfl, runCmd_keeps modelSwapSpec_keeps (.refl s)⟩
theorem continueSwap_keeps {back c} (h : Keeps s₀ s) : Keeps s₀ (continueSwap back c s).1 := by
  refine Keeps.fst_ite (refuse_keeps h) ?_
  split
  · exact refuse_keeps h
  · split
    · exact Keeps.fst_ite (refuse_keeps h) (refuse_keeps h)
    · refine Keeps.fst_ite (refuse_keeps h) (withManifest_keeps h fun m => ?_)
      exact Keeps.fst_ite (refuse_keeps h) (Keeps.fst_ite (refuse_keeps h) (Keeps.fst_ite (refuse_keeps h) (later_keeps (modBinding_keeps h))))

theorem modelSwapResumeSpec_keeps : modelSwapResumeSpec.Keeping := fun _ _ _ h => continueSwap_keeps h
theorem execModelSwapResume_keeps {m} : KeepsTo s (execModelSwapResume m s) := ⟨_, rfl, runCmd_keeps modelSwapResumeSpec_keeps (.refl s)⟩
theorem modelSwapRevertSpec_keeps : modelSwapRevertSpec.Keeping := fun _ _ _ h => continueSwap_keeps h
theorem execModelSwapRevert_keeps {m} : KeepsTo s (execModelSwapRevert m s) := ⟨_, rfl, runCmd_keeps modelSwapRevertSpec_keeps (.refl s)⟩
theorem modelUpdate_keeps {c} (h : Keeps s₀ s) : Keeps s₀ (modelUpdate c s).1 := by
  unfold modelUpdate
  extract_lets b
  split
  · exact refuse_keeps h
  · refine Keeps.fst_ite (refuse_keeps h) (Keeps.fst_ite (refuse_keeps h) (Keeps.fst_ite (refuse_keeps h) ?_))
    split
    · exact refuse_keeps h
    · exact Keeps.fst_ite (refuse_keeps h) (Keeps.fst_ite (refuse_keeps h) (later_keeps (modBinding_keeps h)))

theorem modelUpdateSpec_keeps : modelUpdateSpec.Keeping := fun _ _ _ h => modelUpdate_keeps h
theorem execModelUpdate_keeps {m} : KeepsTo s (execModelUpdate m s) := ⟨_, rfl, runCmd_keeps modelUpdateSpec_keeps (.refl s)⟩
theorem unbind_keeps {n} (h : Keeps s₀ s) : Keeps s₀ (unbind n s) := by
  unfold unbind
  dsimp only
  split
  · exact h
  · exact Keeps.foldl (fun _ _ h' => detach_keeps h') (dropImages_keeps (setBinding_keeps (Keeps.foldl (fun _ _ h' => Keeps.foldl
      (fun _ _ h'' => clearOverride_keeps h'') h') (modSrv_keeps (releaseSrv_keeps (releasePool_keeps (Keeps.foldl
      (fun _ _ h' => freePrefix_keeps h') h)))))))

theorem modelUnload_keeps {c} (h : Keeps s₀ s) : Keeps s₀ (modelUnload c s).1 := by
  unfold modelUnload
  dsimp only
  split
  · exact refuse_keeps h
  · split
    · exact refuse_keeps h
    · exact done_keeps (unbind_keeps h)

theorem modelUnloadSpec_keeps : modelUnloadSpec.Keeping := fun _ _ _ h => modelUnload_keeps h
theorem execModelUnload_keeps {m} : KeepsTo s (execModelUnload m s) := ⟨_, rfl, runCmd_keeps modelUnloadSpec_keeps (.refl s)⟩
theorem applyCheckpoint_keeps {c} (h : Keeps s₀ s) : Keeps s₀ (applyCheckpoint c s).1 := by
  unfold applyCheckpoint
  extract_lets b
  split
  · exact refuse_keeps h
  · refine Keeps.fst_ite (refuse_keeps h) ?_
    split
    · exact refuse_keeps h
    · refine Keeps.fst_ite (refuse_keeps h) (done_keeps (releaseBinding_keeps (writeHost_keeps ?_)))
      dsimp only
      split
      · exact tierWrite_keeps (holdBinding_keeps h)
      · exact writeHost_keeps (holdBinding_keeps h)

theorem modelCheckpoint_keeps {c} (h : Keeps s₀ s) : Keeps s₀ (modelCheckpoint c s).1 := by
  unfold modelCheckpoint
  split
  · exact refuse_keeps h
  · split
    · exact refuse_keeps h
    · split
      · exact later_keeps h
      · exact applyCheckpoint_keeps h

theorem modelCheckpointSpec_keeps : modelCheckpointSpec.Keeping := fun _ _ _ h => modelCheckpoint_keeps h
theorem execModelCheckpoint_keeps {m} : KeepsTo s (execModelCheckpoint m s) := ⟨_, rfl, runCmd_keeps modelCheckpointSpec_keeps (.refl s)⟩
theorem modelQuery_keeps {c} (h : Keeps s₀ s) : Keeps s₀ (modelQuery c s).1 := by
  unfold modelQuery
  dsimp only
  split
  · exact refuse_keeps h
  · exact intoHost_keeps h

theorem modelQuerySpec_keeps : modelQuerySpec.Keeping := fun _ _ _ h => modelQuery_keeps h
theorem execModelQuery_keeps {m} : KeepsTo s (execModelQuery m s) := ⟨_, rfl, runCmd_keeps modelQuerySpec_keeps (.refl s)⟩

end
end Sys2Proof.Machine
end
section
/-! PROOFS. What every command keeps, in the model's file Serve: requests as the host sees them. -/
namespace Sys2Proof.Machine
section
variable {s₀ s : State}

theorem mapPage_keeps {k key page} (h : Keeps s₀ s) : Keeps s₀ (mapPage k key page s).2 := by
  unfold mapPage
  dsimp only
  split
  · exact h
  · split
    · exact h
    next hu =>
      have hopen := openPath_keeps h hu
      split
      · exact hopen
      · split
        · split
          next hx => exact setEntry_keeps (wrLocal_keeps (allocPage_keeps hopen hx))
          · exact hopen
        · exact addCount_keeps (setEntry_keeps hopen)

theorem mapPrefix_keeps {k x} (h : Keeps s₀ s) : Keeps s₀ (mapPrefix k x s) :=
  .ite (modReq_keeps (modSeqp_keeps (Keeps.foldl_snd (fun _ _ h' => mapPage_keeps h') h))) (dropPages_keeps (Keeps.foldl_snd
  (fun _ _ h' => mapPage_keeps h') h))
/-- A repetition that may fail and carries something in front of the state. -/
theorem Keeps.foldlM_snd {α β} {f : β × State → α → Option (β × State)} {xs : List α} {a x : β × State}
    (hf : ∀ a y z, Keeps s₀ a.2 → f a y = some z → Keeps s₀ z.2) (h : Keeps s₀ a.2) (hx : xs.foldlM f a = some x) : Keeps s₀ x.2 := by
  induction xs generalizing a with
  | nil =>
    cases hx
    exact h
  | cons y ys ih =>
    rw [List.foldlM_cons] at hx
    obtain ⟨z, hz, hx⟩ := Option.bind_eq_some_iff.mp hx
    exact ih (hf a y z h hz) hx

theorem startUnpark_keeps {k u} (h : Keeps s₀ s) (hu : startUnpark k s = some u) : Keeps s₀ u := by
  obtain ⟨q, -, hu⟩ := Option.bind_eq_some_iff.mp hu
  obtain ⟨a, ha, rfl⟩ := Option.map_eq_some_iff.mp hu
  refine modReq_keeps (Keeps.foldlM_snd (fun b y z hb hz => ?_) h ha)
  obtain ⟨x, hx, rfl⟩ := Option.map_eq_some_iff.mp hz
  exact allocPage_keeps hb hx

theorem beginTurn_keeps {k c n bags} (h : Keeps s₀ s) : Keeps s₀ (beginTurn k c n bags s) := by
  unfold beginTurn
  exact modReq_keeps (modSrv_keeps h)

/-- What may fail, with a state for its failure. -/
theorem Keeps.getD {o : Option State} (ho : ∀ u, o = some u → Keeps s₀ u) (h : Keeps s₀ s) : Keeps s₀ (o.getD s) := by
  cases o with
  | none => exact h
  | some u => exact ho u rfl

theorem newReq_keeps {k h' c pre} (h : Keeps s₀ s) : Keeps s₀ (newReq k h' c pre s) := by
  have hreq {g} : Keeps s₀ (modReq k g s) := modReq_keeps h
  have hdraft {g m d} : Keeps s₀ (match m, d with
      | 2, some d => newSeq (draftKey k) d (newSeq k h' (modReq k g s))
      | _, _ => newSeq k h' (modReq k g s)) := by
    split
    · exact newSeq_keeps (newSeq_keeps hreq)
    · exact newSeq_keeps hreq
  refine .ite hreq ?_
  split
  · exact hdraft
  · exact mapPrefix_keeps (Keeps.getD (fun u hu => extendRecord_keeps (modReq_keeps hdraft) hu) (modReq_keeps hdraft))

theorem rejectSubmit_keeps {st} (h : Keeps s₀ s) : Keeps s₀ (rejectSubmit st s).1 := refuse_keeps (modSrv_keeps h)
theorem admitSubmit_keeps {c h' b cfg bags} (h : Keeps s₀ s) : Keeps s₀ (admitSubmit c h' b cfg bags s).1 := by
  have hreject {st} : Keeps s₀ (rejectSubmit st s).1 := rejectSubmit_keeps h
  unfold admitSubmit
  dsimp only
  generalize (if pNum c 4 4 = 0xFFFFFFFF then _ else _ : Nat ⊕ Option Nat) = slot
  generalize (if pNum c 8 4 = 0xFFFFFFFF then _ else _ : Nat ⊕ Option Prefix) = pre
  split
  · exact hreject
  · exact hreject
  · refine Keeps.fst_ite hreject (Keeps.fst_ite hreject (Keeps.fst_ite hreject (Keeps.fst_ite hreject (Keeps.fst_ite hreject
      (Keeps.fst_ite hreject ?_)))))
    split
    · refine doneWith_keeps (.ite ?_ (modReq_keeps (beginTurn_keeps h)))
      exact Keeps.getD (fun u hu => startUnpark_keeps (beginTurn_keeps h) hu) (countDeferred_keeps (modReq_keeps (beginTurn_keeps h)))
    · exact Keeps.fst_ite hreject (doneWith_keeps (beginTurn_keeps (newReq_keeps h)))

theorem srvSubmit_keeps {c} (h : Keeps s₀ s) : Keeps s₀ (srvSubmit c s).1 := by
  unfold srvSubmit
  dsimp only
  split
  · split
    · exact rejectSubmit_keeps h
    · split
      · exact rejectSubmit_keeps h
      · split
        · exact admitSubmit_keeps h
        · split
          · split
            · exact admitSubmit_keeps h
            · exact rejectSubmit_keeps h
          · exact rejectSubmit_keeps (countRead_keeps h)
  · exact rejectSubmit_keeps h

theorem srvSubmitSpec_keeps : srvSubmitSpec.Keeping := fun _ _ _ h => srvSubmit_keeps h
theorem countReserved_keeps {m} (h : Keeps s₀ s) : Keeps s₀ (countReserved m s) := onlyIf_keeps (fun _ h' => modSrv_keeps h') h
theorem execSrvSubmit_keeps {m} : KeepsTo s (execSrvSubmit m s) := ⟨_, rfl, runCmd_keeps srvSubmitSpec_keeps (countReserved_keeps (.refl s))⟩
theorem inputCopied_keeps {k data} (h : Keeps s₀ s) : Keeps s₀ (inputCopied k data s) := by
  unfold inputCopied
  dsimp only
  split
  · exact h
  · split
    · exact .ite (endTurn_keeps (countRead_keeps h)) (endReq_keeps (countRead_keeps h))
    · split
      next hu => exact modReq_keeps (extendRecord_keeps h hu)
      · exact countDeferred_keeps h
    · exact h

theorem execInputCopyComplete_keeps {slot data} : KeepsTo s (execInputCopyComplete slot data s) := ⟨_, rfl, inputCopied_keeps (.refl s)⟩
theorem applyCancel_keeps {c} (h : Keeps s₀ s) : Keeps s₀ (applyCancel c s).1 := by
  unfold applyCancel
  dsimp only
  split
  · exact refuse_keeps h
  · split
    · exact done_keeps h
    · exact done_keeps (endReq_keeps (.ite (modClassStat_keeps (modSrv_keeps h)) (modSrv_keeps h)))

theorem srvCancel_keeps {c} (h : Keeps s₀ s) : Keeps s₀ (srvCancel c s).1 := by
  unfold srvCancel
  split
  · exact refuse_keeps h
  · split
    · exact done_keeps h
    · split
      · exact later_keeps h
      · exact applyCancel_keeps h

theorem srvCancelSpec_keeps : srvCancelSpec.Keeping := fun _ _ _ h => srvCancel_keeps h
theorem execSrvCancel_keeps {m} : KeepsTo s (execSrvCancel m s) := ⟨_, rfl, runCmd_keeps srvCancelSpec_keeps (.refl s)⟩
theorem takeParks_keeps {b t3 blocks keys x} (h : Keeps s₀ s) (hx : takeParks b t3 blocks keys s = some x) : Keeps s₀ x.2 := by
  refine Keeps.foldlM_snd (fun a y z ha hz => ?_) h hx
  obtain ⟨w, hw, rfl⟩ := Option.map_eq_some_iff.mp hz
  exact allocPark_keeps ha hw

theorem applyPark_keeps {c} (h : Keeps s₀ s) : Keeps s₀ (applyPark c s).1 := by
  unfold applyPark
  split
  · exact refuse_keeps h
  · split
    · exact refuse_keeps h
    · split
      · exact refuse_keeps h
      next hx => exact done_keeps (modReq_keeps (takeParks_keeps h hx))

theorem srvPark_keeps {c} (h : Keeps s₀ s) : Keeps s₀ (srvPark c s).1 := by
  unfold srvPark
  split
  · exact refuse_keeps h
  · split
    · exact refuse_keeps h
    · split
      · exact refuse_keeps h
      · split
        · exact later_keeps h
        · exact applyPark_keeps h

theorem srvParkSpec_keeps : srvParkSpec.Keeping := fun _ _ _ h => srvPark_keeps h
theorem execSrvPark_keeps {m} : KeepsTo s (execSrvPark m s) := ⟨_, rfl, runCmd_keeps srvParkSpec_keeps (.refl s)⟩
theorem finishMoves_keeps {k} (h : Keeps s₀ s) : Keeps s₀ (finishMoves k s) := by
  unfold finishMoves
  dsimp only
  split
  · exact h
  · refine modReq_keeps ?_
    refine Keeps.foldl (fun _ _ h' => ?_) h
    split
    · exact h'
    · exact .ite (addCount_keeps (setEntry_keeps h')) (freePark_keeps (setEntry_keeps h'))

theorem movesDone_keeps {k} (h : Keeps s₀ s) : Keeps s₀ (movesDone k s) := .ite (modReq_keeps h) (finishMoves_keeps (modReq_keeps h))
theorem parkOne_keeps {slot q p m} (h : Keeps s₀ s) : Keeps s₀ (parkOne slot q p m s) := by
  unfold parkOne
  dsimp only
  split
  · exact h
  · split
    · exact wrLocal_keeps h
    · split
      · exact writeWindow_keeps h
      · exact h

theorem execParkMoveComplete_keeps {slot} : KeepsTo s (execParkMoveComplete slot s) := by
  refine ⟨_, rfl, ?_⟩
  split
  · exact .ite (.refl s) (movesDone_keeps (Keeps.foldl (fun _ _ h' => parkOne_keeps h') (.refl s)))
  · exact .refl s

theorem unparkOne_keeps {slot q p host x} (h : Keeps s₀ s) : Keeps s₀ (unparkOne slot q p host x s) := by
  unfold unparkOne
  dsimp only
  split
  · exact h
  · exact wrLocal_keeps h

theorem execUnparkComplete_keeps {slot data} : KeepsTo s (execUnparkComplete slot data s) := by
  refine ⟨_, rfl, ?_⟩
  dsimp only
  split
  · split
    · exact .refl s
    · split
      · exact movesDone_keeps (Keeps.foldl (fun _ _ h' => unparkOne_keeps h') (.refl s))
      · split
        · exact movesDone_keeps (Keeps.foldl (fun _ _ h' => unparkOne_keeps h') (.refl s))
        · exact dropReq_keeps (countRead_keeps (.refl s))
  · exact .refl s

theorem expireReq_keeps {t k} (h : Keeps s₀ s) : Keeps s₀ (expireReq t k s) := .ite h (endReq_keeps (modReq_keeps (modSrv_keeps h)))
theorem execParkExpiry_keeps {slot} : KeepsTo s (execParkExpiry slot s) := ⟨_, rfl, .ite (expireReq_keeps (.refl s)) (.refl s)⟩
theorem applyPrefixCreate_keeps {c} (h : Keeps s₀ s) : Keeps s₀ (applyPrefixCreate c s).1 := by
  unfold applyPrefixCreate
  dsimp only
  split
  · exact refuse_keeps h
  · split
    · split
      · exact refuse_keeps h
      · split
        · exact doneWith_keeps (modSrv_keeps (Keeps.foldl (fun _ _ h' => addCount_keeps h') h))
        · exact refuse_keeps h
    · exact refuse_keeps h

theorem srvPrefixCreate_keeps {c} (h : Keeps s₀ s) : Keeps s₀ (srvPrefixCreate c s).1 := by
  unfold srvPrefixCreate
  dsimp only
  split
  · exact refuse_keeps h
  · split
    · exact refuse_keeps h
    · split
      · exact later_keeps h
      · exact applyPrefixCreate_keeps h

theorem srvPrefixCreateSpec_keeps : srvPrefixCreateSpec.Keeping := fun _ _ _ h => srvPrefixCreate_keeps h
theorem execSrvPrefixCreate_keeps {m} : KeepsTo s (execSrvPrefixCreate m s) := ⟨_, rfl, runCmd_keeps srvPrefixCreateSpec_keeps (.refl s)⟩
theorem applyPrefixRelease_keeps {c} (h : Keeps s₀ s) : Keeps s₀ (applyPrefixRelease c s).1 := by
  unfold applyPrefixRelease
  split
  · exact refuse_keeps h
  · exact done_keeps (freePrefix_keeps h)

theorem srvPrefixRelease_keeps {c} (h : Keeps s₀ s) : Keeps s₀ (srvPrefixRelease c s).1 := by
  unfold srvPrefixRelease
  split
  · exact refuse_keeps h
  · split
    · exact later_keeps h
    · exact applyPrefixRelease_keeps h

theorem srvPrefixReleaseSpec_keeps : srvPrefixReleaseSpec.Keeping := fun _ _ _ h => srvPrefixRelease_keeps h
theorem execSrvPrefixRelease_keeps {m} : KeepsTo s (execSrvPrefixRelease m s) := ⟨_, rfl, runCmd_keeps srvPrefixReleaseSpec_keeps (.refl s)⟩
theorem execOutputDelivery_keeps {slot} : KeepsTo s (execOutputDelivery slot s) := by
  refine ⟨_, rfl, ?_⟩
  dsimp only
  split
  · exact .refl s
  · exact checkFree_keeps (.ite (raiseTo_keeps (modReq_keeps (.ite (writeHost_keeps (.refl s)) (countDropped_keeps (writeHost_keeps (.refl s))))))
      (modReq_keeps (.ite (writeHost_keeps (.refl s)) (countDropped_keeps (writeHost_keeps (.refl s))))))

theorem srvQuery_keeps {c} (h : Keeps s₀ s) : Keeps s₀ (srvQuery c s).1 := by
  unfold srvQuery
  dsimp only
  split
  · exact refuse_keeps h
  · exact intoHost_keeps h

theorem srvQuerySpec_keeps : srvQuerySpec.Keeping := fun _ _ _ h => srvQuery_keeps h
theorem execSrvQuery_keeps {m} : KeepsTo s (execSrvQuery m s) := ⟨_, rfl, runCmd_keeps srvQuerySpec_keeps (.refl s)⟩
theorem kvDrop_keeps {c} (h : Keeps s₀ s) : Keeps s₀ (kvDrop c s).1 := by
  unfold kvDrop
  dsimp only
  split
  · split
    · exact refuse_keeps h
    · exact done_keeps (dropReq_keeps h)
  · exact refuse_keeps h

theorem kvDropSpec_keeps : kvDropSpec.Keeping := fun _ _ _ h => kvDrop_keeps h
theorem execKvDrop_keeps {m} : KeepsTo s (execKvDrop m s) := ⟨_, rfl, runCmd_keeps kvDropSpec_keeps (.refl s)⟩

end
end Sys2Proof.Machine
end
section
/-! PROOFS. What every command keeps, in the model's file Batch: from cut-off to commit. -/
namespace Sys2Proof.Machine
section
variable {s₀ s : State}

theorem dropFor_keeps {b need vs} (h : Keeps s₀ s) : Keeps s₀ (dropFor b need vs s).2 := by
  induction vs generalizing s with
  | nil =>
    unfold dropFor
    split
    · exact h
    · split <;> exact h
  | cons v vs ih =>
    unfold dropFor
    split
    · exact h
    · split
      · exact h
      · exact ih (dropReq_keeps h)

theorem noteRisk_keeps {t P k} (h : Keeps s₀ s) : Keeps s₀ (noteRisk t P k s) :=
  .ite (.ite h (.ite (modClassStat_keeps h) (.ite (raiseTo_keeps (modReq_keeps (modClassStat_keeps h))) (modReq_keeps (modClassStat_keeps h))))) (.ite
  (modClassStat_keeps (.ite h (.ite (modClassStat_keeps h) (.ite (raiseTo_keeps (modReq_keeps (modClassStat_keeps h))) (modReq_keeps
  (modClassStat_keeps h)))))) (.ite (raiseTo_keeps (modReq_keeps (modClassStat_keeps (.ite h (.ite (modClassStat_keeps h) (.ite (raiseTo_keeps
  (modReq_keeps (modClassStat_keeps h))) (modReq_keeps (modClassStat_keeps h)))))))) (modReq_keeps (modClassStat_keeps (.ite h (.ite
  (modClassStat_keeps h) (.ite (raiseTo_keeps (modReq_keeps (modClassStat_keeps h))) (modReq_keeps (modClassStat_keeps h)))))))))
theorem tellShort_keeps {p short} (h : Keeps s₀ s) : Keeps s₀ (tellShort p short s) := .ite (raiseTo_keeps h) h
theorem buildAll_keeps {p t P xs ks short} (h : Keeps s₀ s) : Keeps s₀ (buildAll p t P xs ks short s) := by
  induction xs generalizing ks short s with
  | nil => exact tellShort_keeps h
  | cons x xs ih =>
    unfold buildAll
    split
    · exact tellShort_keeps h
    · exact ih (modSrv_keeps h)

theorem beginCopies_keeps {ks} (h : Keeps s₀ s) : Keeps s₀ (beginCopies ks s) := by
  unfold beginCopies
  refine Keeps.foldl (fun _ _ h' => ?_) h
  refine Keeps.foldl (fun _ _ h'' => ?_) h'
  split
  · exact h''
  · exact .ite h'' (startCopies_keeps (dropFor_keeps h''))

theorem cutoff_keeps {p} (h : Keeps s₀ s) : Keeps s₀ (cutoff p s) := by
  have hclasses : ∀ mine : List Cmd, Keeps s₀ (mine.foldl (fun s c => answer c (applyClass c s)) s) :=
    fun _ => Keeps.foldl (fun _ _ h' => answer_keeps (applyClass_keeps h')) h
  exact .ite (hclasses _) (buildAll_keeps (Keeps.foldl (fun _ _ h' => countDeferred_keeps h')
    (beginCopies_keeps (Keeps.foldl (fun _ _ h' => noteRisk_keeps h') (hclasses _)))))

theorem execBatchCutoff_keeps {p} : KeepsTo s (execBatchCutoff p s) := ⟨_, rfl, .ite (cutoff_keeps (.refl s)) (.refl s)⟩
theorem timeOutput_keeps {t k} (h : Keeps s₀ s) : Keeps s₀ (timeOutput t k s) := by
  unfold timeOutput
  dsimp only
  split <;> exact modReq_keeps (modClassStat_keeps h)

theorem noteSpec_keeps {u a} (h : Keeps s₀ s) : Keeps s₀ (noteSpec u a s) :=
  .ite (.ite (modClassStat_keeps (modSrv_keeps (modReq_keeps h))) (modReq_keeps h)) (.ite (.ite (modReq_keeps h) (modReq_keeps h)) h)
theorem settleReq_keeps {k w} (h : Keeps s₀ s) : Keeps s₀ (settleReq k w s) :=
  modReq_keeps (Keeps.foldl (fun _ _ h' => .ite (settleSeq_keeps h') h') h)
theorem takeResult_keeps {t b i u} (h : Keeps s₀ s) : Keeps s₀ (takeResult t b i u s) := by
  have hsettle {w} : Keeps s₀ (if u.kind = 2 then s else settleReq u.req w s) := .ite h (settleReq_keeps h)
  have hextend {f : State → Option State} {g v} (hv : Keeps s₀ v) (hf : ∀ w, f v = some w → Keeps s₀ w) : Keeps s₀ (match f v with
      | some s => modReq u.req g s
      | none => countDeferred v) := by
    split
    next hw => exact modReq_keeps (hf _ hw)
    · exact countDeferred_keeps hv
  refine .ite h (.ite (countDropped_keeps h) (.ite (settleReq_keeps h) ?_))
  split
  · exact endTurn_keeps hsettle
  · dsimp only
    generalize hv : (if (_ : Nat) = 0 ∧ (_ : Nat) = 0 then _ else _ : State) = v
    have hput : Keeps s₀ v :=
      hv ▸ .ite (noteSpec_keeps hsettle) (.ite (countDropped_keeps (noteSpec_keeps hsettle)) (timeOutput_keeps (modReq_keeps
      (noteSpec_keeps hsettle))))
    have hgrow {c : Prop} {_ : Decidable c} {bs g} : Keeps s₀ (if c then v else match extendRecord u.req bs v with
        | some s => modReq u.req g s
        | none => countDeferred v) := .ite hput (hextend (f := extendRecord u.req bs) hput fun w hw => extendRecord_keeps hput hw)
    split
    · exact endTurn_keeps hgrow
    · exact hgrow

theorem pastFirst_keeps {b u} (h : Keeps s₀ s) : Keeps s₀ (pastFirst b u s) := .ite (modReq_keeps h) h
theorem takeResults_keeps {t p} (h : Keeps s₀ s) : Keeps s₀ (takeResults t p s) :=
  Keeps.foldl (fun _ _ h' => Keeps.foldl (fun _ _ h'' => takeResult_keeps (pastFirst_keeps h'')) h') (modSrv_keeps h)
theorem readResults_keeps {p seg status} (h : Keeps s₀ s) : Keeps s₀ (readResults p seg status s) := by
  unfold readResults
  extract_lets bs rd
  have hread : ∀ a n v, Keeps s₀ v → Keeps s₀ (rd a n v).2 := by
    intro a n v hv
    dsimp only [rd]
    split
    · exact Keeps.snd_ite hv (tierRead_keeps hv)
    · exact hv
  clear_value rd
  split
  · exact h
  · refine modSrv_keeps (Keeps.foldl_snd (fun a i ha => ?_) h)
    exact Keeps.snd_ite (hread _ _ _ ha) (hread _ _ _ (hread _ _ _ ha))

theorem execBatchFinalise_keeps {p} : KeepsTo s (execBatchFinalise p s) := ⟨_, rfl, .ite (modSrv_keeps (.refl s)) (.refl s)⟩
theorem writeBatch_keeps {p b} (h : Keeps s₀ s) : Keeps s₀ (writeBatch p b s) := by
  unfold writeBatch
  dsimp only
  split
  · exact Keeps.foldl (fun _ _ h' => writeMasks_keeps (writeLists_keeps h')) (wrLocal_keeps h)
  · exact h

theorem enterSlot_keeps {u} (h : Keeps s₀ s) : Keeps s₀ (enterSlot u s) :=
  .ite h (modReq_keeps (.ite h (Keeps.foldl (fun _ _ h' => .ite (reserveAppend_keeps h') h') h)))
theorem commitBatch_keeps {p b} (h : Keeps s₀ s) : Keeps s₀ (commitBatch p b s) := by
  unfold commitBatch
  exact modSrv_keeps (modProg_keeps (writeBatch_keeps (Keeps.foldl (fun _ _ h' => enterSlot_keeps h') (.ite (Keeps.foldl_snd
    (fun _ _ h' => dropFor_keeps h') h) (countDeferred_keeps (Keeps.foldl_snd (fun _ _ h' => dropFor_keeps h') h))))))

theorem clearCounts_keeps {p} (h : Keeps s₀ s) : Keeps s₀ (clearCounts p s) := modProg_keeps h
theorem commitPart_keeps {p} (h : Keeps s₀ s) : Keeps s₀ (commitPart p s) := by
  unfold commitPart
  exact .ite (clearCounts_keeps h) (.ite (raiseError_keeps (modSrv_keeps (modStep_keeps (clearCounts_keeps h)))) (Keeps.foldl
    (fun _ _ h' => commitBatch_keeps h') (modSrv_keeps (clearCounts_keeps h))))

theorem dropPoisoned_keeps (h : Keeps s₀ s) : Keeps s₀ (dropPoisoned s) :=
  Keeps.foldl (fun _ _ h' => .ite (dropReq_keeps (Keeps.foldl (fun _ _ h'' => modSeqp_keeps h'') h')) h') h
theorem retryUnparks_keeps (h : Keeps s₀ s) : Keeps s₀ (retryUnparks s) := by
  refine Keeps.foldl (fun s _ h' => .ite h' ?_) h
  split
  · exact h'
  · have hroom {b : Bool × State} (hb : Keeps s₀ b.2) : Keeps s₀ (if b.1 then b.2 else s) := .ite hb h'
    dsimp only
    split
    next hu => exact startUnpark_keeps (hroom (dropFor_keeps h')) hu
    · exact countDeferred_keeps h'

theorem endMixed_keeps (h : Keeps s₀ s) : Keeps s₀ (endMixed s) := Keeps.foldl (fun _ _ h' => .ite (.ite (endTurn_keeps h') h') h') h
theorem serveReserve_keeps {t} (h : Keeps s₀ s) : Keeps s₀ (serveReserve t s) :=
  Keeps.foldl (fun _ _ h' => commitPart_keeps h') (retryUnparks_keeps (dropPoisoned_keeps (Keeps.foldl (fun _ _ h' => slideWindows_keeps h')
  (Keeps.foldl (fun _ _ h' => finishMoves_keeps h') (applyWaiting_keeps (fun _ _ h' => applyPark_keeps h') (endMixed_keeps (Keeps.foldl
  (fun _ _ h' => takeResults_keeps h') (applyWaiting_keeps (fun _ _ h' => applyPrefixRelease_keeps h') (applyWaiting_keeps
  (fun _ _ h' => applyPrefixCreate_keeps h') (Keeps.foldl (fun _ _ h' => expireReq_keeps h') (applyWaiting_keeps
  (fun _ _ h' => applyCancel_keeps h') h)))))))))))

end
end Sys2Proof.Machine
end
section
/-! PROOFS. What every command keeps, in the model's file Gather: the gather engine. -/
namespace Sys2Proof.Machine
section
variable {s₀ s : State}

theorem startGather_keeps {p b} (h : Keeps s₀ s) : Keeps s₀ (startGather p b s) :=
  .ite h (Keeps.foldl (fun _ _ h' => Keeps.foldl (fun _ _ h'' => setTag_keeps h'') h') (modGth_keeps h))
theorem fetchRow_keeps {p cfg t id} (h : Keeps s₀ s) : Keeps s₀ (fetchRow p cfg t id s).2 := by
  unfold fetchRow
  dsimp only
  split
  · split
    · exact tierRead_keeps h
    · exact cachedRead_keeps h
  · exact h

theorem fetchId_keeps {p cfg t id slot} (h : Keeps s₀ s) : Keeps s₀ (fetchId p cfg t id slot s) :=
  .ite (modGth_keeps h) (modGth_keeps (fetchRow_keeps h))
theorem clearDedupRow_keeps {f r} (h : Keeps s₀ s) : Keeps s₀ (clearDedupRow f r s) := .ite (setTag_keeps (storeRow_keeps h)) (countDown_keeps h)
theorem clearDedup_keeps {cfg} (h : Keeps s₀ s) : Keeps s₀ (clearDedup cfg s) := Keeps.foldl (fun _ _ h' => clearDedupRow_keeps h') h
theorem dedupIds_keeps {p cfg t ids acc} (h : Keeps s₀ s) : Keeps s₀ (dedupIds p cfg t ids acc s).2 := by
  induction ids generalizing acc s with
  | nil => exact h
  | cons id ids ih =>
    rw [dedupIds]
    refine Keeps.snd_ite ?_ (ih (.ite (fetchId_keeps (ccWrite_keeps (modFld_keeps h))) (modFld_keeps h)))
    dsimp only
    exact modFld_keeps h

theorem fetchAll_keeps {p cfg t first ids} (h : Keeps s₀ s) : Keeps s₀ (fetchAll p cfg t first ids s).2 := by
  unfold fetchAll
  refine Keeps.foldl_snd (fun a x ha => ?_) h
  dsimp only
  exact fetchId_keeps ha

theorem bagTaken_keeps {b ids slots nodedup} (h : Keeps s₀ s) : Keeps s₀ (bagTaken b ids slots nodedup s) := modGth_keeps h
theorem dedupBags_keeps {p cfg gs b first} (h : Keeps s₀ s) : Keeps s₀ (dedupBags p cfg gs b first s) := by
  induction gs generalizing b first s with
  | nil => exact h
  | cons g gs ih =>
    unfold dedupBags
    split
    next heq => exact ih (bagTaken_keeps (heq ▸ dedupIds_keeps h :))
    next heq =>
      have hids : Keeps s₀ _ := (heq ▸ dedupIds_keeps h :)
      exact .ite hids (bagTaken_keeps (fetchAll_keeps hids))

theorem plainBags_keeps {p cfg slots gs b used} (h : Keeps s₀ s) : Keeps s₀ (plainBags p cfg slots gs b used s) := by
  induction gs generalizing b used s with
  | nil => exact h
  | cons g gs ih => exact .ite h (ih (bagTaken_keeps (fetchAll_keeps h)))

theorem execGatherWave_keeps : KeepsTo s (execGatherWave s) := by
  refine ⟨_, rfl, ?_⟩
  dsimp only
  split
  · exact .refl s
  · exact .ite (.refl s) (.ite (Keeps.foldl (fun _ _ h' => countBlocked_keeps h') (.refl s)) (.ite (plainBags_keeps (modGth_keeps (tierCorrected_keeps
      (eccIn_keeps (freeFinds_keeps (.refl s)))))) (dedupBags_keeps (clearDedup_keeps (modGth_keeps (tierCorrected_keeps (eccIn_keeps (freeFinds_keeps
      (.refl s)))))))))

theorem poisonBag_keeps {j b} (h : Keeps s₀ s) : Keeps s₀ (poisonBag j b s) := by
  unfold poisonBag
  split
  · exact h
  · exact modSrv_keeps h

theorem poolOne_keeps {j b slots} (h : Keeps s₀ s) : Keeps s₀ (poolOne j b slots s) := by
  unfold poolOne
  exact modGth_keeps (.ite (poisonBag_keeps (Keeps.foldl (fun _ _ h' => .ite h' (.ite (countDown_keeps h') (.ite (countSuppressed_keeps h')
    (setTag_keeps (storeRow_keeps h'))))) (badBlockFaults_keeps (addLvu_keeps h)))) (Keeps.foldl (fun _ _ h' => .ite h' (.ite (countDown_keeps h')
    (.ite (countSuppressed_keeps h') (setTag_keeps (storeRow_keeps h'))))) (badBlockFaults_keeps (addLvu_keeps h))))

theorem execBagPool_keeps {bag} : KeepsTo s (execBagPool bag s) := by
  refine ⟨_, rfl, ?_⟩
  split
  · exact .refl s
  · split
    · exact .refl s
    · exact poolOne_keeps (.refl s)

end
end Sys2Proof.Machine
end
section
/-! PROOFS. What every command keeps, in the model's file Part: partitions. -/
namespace Sys2Proof.Machine
section
variable {s₀ s : State}

theorem unmapBar2_keeps {f} (h : Keeps s₀ s) : Keeps s₀ (unmapBar2 f s) := modFunc_keeps h
theorem abortCommands_keeps {p st} (h : Keeps s₀ s) : Keeps s₀ (abortCommands p st s) := by
  unfold abortCommands
  dsimp only
  refine completeAll_keeps ?_
  refine dropChains_keeps ?_
  refine modProg_keeps ?_
  refine Keeps.foldl (fun _ _ h' => ?_) h
  split
  · exact h'
  · exact .ite (failSwap_keeps h') (.ite (stopLoad_keeps h') h')

theorem tellPart_keeps {code p payload} (h : Keeps s₀ s) : Keeps s₀ (tellPart code p payload s) := raiseTo_keeps h
theorem abortReqs_keeps {q st} (h : Keeps s₀ s) : Keeps s₀ (abortReqs q st s) := Keeps.foldl (fun _ _ h' => abortReq_keeps h') h
theorem dropBatches_keeps {p} (h : Keeps s₀ s) : Keeps s₀ (dropBatches p s) := modGth_keeps (clearCounts_keeps (modSrv_keeps h))
theorem resetPartition_keeps {p cause} (h : Keeps s₀ s) : Keeps s₀ (resetPartition p cause s) :=
  Keeps.foldl (fun _ _ h' => complete_keeps h') (tellPart_keeps (modPart_keeps (modPartn_keeps (dropBatches_keeps (modNpPart_keeps (modStep_keeps
  (abortCommands_keeps (resetSync_keeps (abortSwaps_keeps (dropKnots_keeps (dropChains_keeps (Keeps.foldl (fun _ _ h' => freePrefix_keeps h')
  (abortReqs_keeps h)))))))))))))
theorem drainPart_keeps {p} (h : Keeps s₀ s) : Keeps s₀ (drainPart p s) := by
  unfold drainPart
  dsimp only
  split
  · exact h
  · exact .ite h (.ite (tellPart_keeps (modPartn_keeps (completeAll_keeps (dropKnots_keeps (dropChains_keeps (abortCommands_keeps
      (abortReqs_keeps h))))))) (modPartn_keeps (abortReqs_keeps (completeAll_keeps (dropKnots_keeps (dropChains_keeps (abortCommands_keeps
      (abortReqs_keeps h))))))))

theorem destroyPart_keeps {p} (h : Keeps s₀ s) : Keeps s₀ (destroyPart p s) :=
  .ite h (finishDestroys_keeps (modPart_keeps (modPartn_keeps (modPart_keeps (Keeps.foldl (fun _ _ h' => unmapBar2_keeps h') (modSrv_keeps
  (modNp_keeps (Keeps.foldl (fun _ _ h' => modTier_keeps h') (modHch_keeps (modFab_keeps (Keeps.foldl (fun _ _ h' => unbind_keeps (failSwap_keeps h'))
  (modProg_keeps h))))))))))))
theorem execGranuleZeroComplete_keeps {t granule} : KeepsTo s (execGranuleZeroComplete t granule s) :=
  ⟨_, rfl, .ite (.refl s) (zeroGranule_keeps (.refl s))⟩
theorem suspendPart_keeps {p} (h : Keeps s₀ s) : Keeps s₀ (suspendPart p s) := .ite h (tellPart_keeps (modStep_keeps h))
theorem settlePart_keeps {p} (h : Keeps s₀ s) : Keeps s₀ (settlePart p s) := by
  unfold settlePart
  dsimp only
  refine suspendPart_keeps ?_
  split
  · exact destroyPart_keeps (resetPartition_keeps (Keeps.foldl (fun _ _ h' => abortReqs_keeps h') (drainPart_keeps h)))
  · exact Keeps.foldl (fun _ _ h' => abortReqs_keeps h') (drainPart_keeps h)

theorem settleParts_keeps (h : Keeps s₀ s) : Keeps s₀ (settleParts s) := modPart_keeps (Keeps.foldl (fun _ _ h' => settlePart_keeps h') h)
theorem settleIdle_keeps (h : Keeps s₀ s) : Keeps s₀ (settleIdle s) := .ite h (settleParts_keeps h)
theorem pendReset_keeps {p cause} (h : Keeps s₀ s) : Keeps s₀ (pendReset p cause s) := modPartn_keeps h
theorem partCreate_keeps {c} (h : Keeps s₀ s) : Keeps s₀ (partCreate c s).1 := by
  unfold partCreate
  dsimp only
  split
  · exact refuse_keeps h
  · split
    · exact refuse_keeps h
    · split
      · exact refuse_keeps h
      · split
        · exact refuse_keeps h
        · exact doneWith_keeps (modPart_keeps h)
  · exact refuse_keeps h

theorem partCreateSpec_keeps : partCreateSpec.Keeping := fun _ _ _ h => partCreate_keeps h
theorem execPartCreate_keeps {m} : KeepsTo s (execPartCreate m s) := ⟨_, rfl, runCmd_keeps partCreateSpec_keeps (.refl s)⟩
theorem resetFor_keeps {cause c} (h : Keeps s₀ s) : Keeps s₀ (resetFor cause c s).1 := by
  unfold resetFor
  split
  · exact refuse_keeps h
  · exact later_keeps (settleIdle_keeps (pendReset_keeps h))

theorem partDestroySpec_keeps : partDestroySpec.Keeping := fun _ _ _ h => resetFor_keeps h
theorem execPartDestroy_keeps {m} : KeepsTo s (execPartDestroy m s) := ⟨_, rfl, runCmd_keeps partDestroySpec_keeps (.refl s)⟩
theorem setPrim_keeps {p f on} (h : Keeps s₀ s) : Keeps s₀ (setPrim p f on s) := modPartn_keeps h
theorem releaseFunc_keeps {f} (h : Keeps s₀ s) : Keeps s₀ (releaseFunc f s) := by
  unfold releaseFunc
  dsimp only
  split
  · exact h
  · exact modPart_keeps (onlyIf_keeps (fun _ h' => setPrim_keeps h') (unmapBar2_keeps h))

theorem partFunc_keeps {c} (h : Keeps s₀ s) : Keeps s₀ (partFunc c s).1 := by
  unfold partFunc
  dsimp only
  split
  · exact refuse_keeps h
  · split
    · exact refuse_keeps h
    · split
      · exact refuse_keeps h
      · split
        · exact done_keeps (releaseFunc_keeps h)
        · exact done_keeps (onlyIf_keeps (fun _ h' => setPrim_keeps h') (modPart_keeps (.ite (onlyIf_keeps (fun _ h' => setPrim_keeps h') h)
            (releaseFunc_keeps h))))

theorem partFuncSpec_keeps : partFuncSpec.Keeping := fun _ _ _ h => partFunc_keeps h
theorem execPartFunc_keeps {m} : KeepsTo s (execPartFunc m s) := ⟨_, rfl, runCmd_keeps partFuncSpec_keeps (.refl s)⟩
theorem applyQos_keeps {c} (h : Keeps s₀ s) : Keeps s₀ (applyQos c s).1 := by
  unfold applyQos
  dsimp only
  split
  · exact refuse_keeps h
  · split
    · exact refuse_keeps h
    · split
      · exact refuse_keeps h
      · exact done_keeps (onlyIf_keeps (fun _ h' => modPartn_keeps h') (onlyIf_keeps (fun _ h' => modFab_keeps (modTier_keeps (modTier_keeps h'))) h))

theorem partQos_keeps {c} (h : Keeps s₀ s) : Keeps s₀ (partQos c s).1 := by
  unfold partQos
  split
  · exact refuse_keeps h
  · split
    · exact later_keeps h
    · exact applyQos_keeps h

theorem partQosSpec_keeps : partQosSpec.Keeping := fun _ _ _ h => partQos_keeps h
theorem execPartQos_keeps {m} : KeepsTo s (execPartQos m s) := ⟨_, rfl, runCmd_keeps partQosSpec_keeps (.refl s)⟩
theorem partResetSpec_keeps : partResetSpec.Keeping := fun _ _ _ h => resetFor_keeps h
theorem execPartReset_keeps {m} : KeepsTo s (execPartReset m s) := ⟨_, rfl, runCmd_keeps partResetSpec_keeps (.refl s)⟩
theorem applyResume_keeps {c} (h : Keeps s₀ s) : Keeps s₀ (applyResume c s).1 := by
  unfold applyResume
  dsimp only
  split
  · exact done_keeps h
  · exact done_keeps (tellPart_keeps (modStep_keeps h))

theorem partResume_keeps {c} (h : Keeps s₀ s) : Keeps s₀ (partResume c s).1 := by
  unfold partResume
  split
  · exact refuse_keeps h
  · split
    · exact later_keeps h
    · exact applyResume_keeps h

theorem partResumeSpec_keeps : partResumeSpec.Keeping := fun _ _ _ h => partResume_keeps h
theorem execPartResume_keeps {m} : KeepsTo s (execPartResume m s) := ⟨_, rfl, runCmd_keeps partResumeSpec_keeps (.refl s)⟩
theorem partQuery_keeps {c} (h : Keeps s₀ s) : Keeps s₀ (partQuery c s).1 := by
  unfold partQuery
  dsimp only
  split
  · exact refuse_keeps h
  · exact intoHost_keeps h

theorem partQuerySpec_keeps : partQuerySpec.Keeping := fun _ _ _ h => partQuery_keeps h
theorem execPartQuery_keeps {m} : KeepsTo s (execPartQuery m s) := ⟨_, rfl, runCmd_keeps partQuerySpec_keeps (.refl s)⟩

end
end Sys2Proof.Machine
end
section
/-! PROOFS. What every command keeps, in the model's file Host: host ports and functions, command queues and event rings, interrupts, BAR2, the primary role, and the device commands that need no step. -/
namespace Sys2Proof.Machine
section
variable {s₀ s : State}

theorem enableRing_keeps {f k ctrl} (h : Keeps s₀ s) : Keeps s₀ (enableRing f k ctrl s) :=
  .ite (onlyIf_keeps (fun _ h' => checkReport_keeps h') (modRing_keeps h)) (.ite (queueError_keeps (modRing_keeps h)) (onlyIf_keeps
  (fun _ h' => modFunc_keeps h') (modRing_keeps h)))
theorem disableRing_keeps {f k} (h : Keeps s₀ s) : Keeps s₀ (disableRing f k s) := .ite h (modFunc_keeps (modRing_keeps h))
theorem execQueueEnable_keeps {f q ctrl} : KeepsTo s (execQueueEnable f q ctrl s) := ⟨_, rfl, .ite (enableRing_keeps (.refl s)) (.refl s)⟩
theorem execQueueDisable_keeps {f q} : KeepsTo s (execQueueDisable f q s) := ⟨_, rfl, .ite (disableRing_keeps (.refl s)) (.refl s)⟩
theorem execEventRingEnable_keeps {f ctrl} : KeepsTo s (execEventRingEnable f ctrl s) := ⟨_, rfl, .ite (enableRing_keeps (.refl s)) (.refl s)⟩
theorem doorbell_keeps {f k v act} (hact : ∀ s, Keeps s₀ s → Keeps s₀ (act s)) (h : Keeps s₀ s) : Keeps s₀ (doorbell f k v act s) :=
  .ite h (.ite (modFunc_keeps h) (.ite h (.ite (queueError_keeps h) (hact _ h))))

theorem ringSq_keeps {f q v} (h : Keeps s₀ s) : Keeps s₀ (ringSq f q v s) := doorbell_keeps (fun _ h' => modRing_keeps h') h
theorem ringCq_keeps {f q v} (h : Keeps s₀ s) : Keeps s₀ (ringCq f q v s) := doorbell_keeps (fun _ h' => flushCompletions_keeps (modRing_keeps h')) h
theorem ringEq_keeps {f v} (h : Keeps s₀ s) : Keeps s₀ (ringEq f v s) := doorbell_keeps (fun _ h' => modRing_keeps h') h
theorem execSqDoorbell_keeps {f q tail} : KeepsTo s (execSqDoorbell f q tail s) := ⟨_, rfl, .ite (ringSq_keeps (.refl s)) (.refl s)⟩
theorem execCqDoorbell_keeps {f q head} : KeepsTo s (execCqDoorbell f q head s) := ⟨_, rfl, .ite (ringCq_keeps (.refl s)) (.refl s)⟩
theorem execEqDoorbell_keeps {f head} : KeepsTo s (execEqDoorbell f head s) := ⟨_, rfl, ringEq_keeps (.refl s)⟩
theorem execInterruptCoalesceTimer_keeps {f k} : KeepsTo s (execInterruptCoalesceTimer f k s) := ⟨_, rfl, .ite (reportRing_keeps (.refl s)) (.refl s)⟩
theorem setMsix_keeps {f v e} (h : Keeps s₀ s) : Keeps s₀ (setMsix f v e s) := .ite (emit_keeps (modFunc_keeps (modFunc_keeps h))) (modFunc_keeps h)
theorem execMsixVectorUnmask_keeps {f v} : KeepsTo s (execMsixVectorUnmask f v s) := ⟨_, rfl, .ite (setMsix_keeps (.refl s)) (.refl s)⟩
theorem noteDisabled_keeps {f} (h : Keeps s₀ s) : Keeps s₀ (noteDisabled f s) := by
  unfold noteDisabled
  split
  · exact h
  · exact tellPart_keeps (modPartn_keeps h)

theorem disabling_keeps {fs change} (hchange : ∀ s, Keeps s₀ s → Keeps s₀ (change s)) (h : Keeps s₀ s) : Keeps s₀ (disabling fs change s) :=
  settleIdle_keeps (Keeps.foldl (fun _ _ h' => noteDisabled_keeps h') (Keeps.foldl (fun _ _ h' => modFunc_keeps h') (hchange _ h)))

theorem moveRole_keeps {p} (h : Keeps s₀ s) : Keeps s₀ (moveRole p s) := raiseTo_keeps (modHost_keeps h)
theorem linkDown_keeps {p} (h : Keeps s₀ s) : Keeps s₀ (linkDown p s) :=
  .ite h (.ite (raiseTo_keeps (disabling_keeps (fun _ h' => modHostPort_keeps h') h)) (modHost_keeps (raiseTo_keeps (disabling_keeps
  (fun _ h' => modHostPort_keeps h') h))))
theorem execPcieLinkDown_keeps {p} : KeepsTo s (execPcieLinkDown p s) := ⟨_, rfl, .ite (linkDown_keeps (.refl s)) (.refl s)⟩
theorem execPcieLinkUp_keeps {p} : KeepsTo s (execPcieLinkUp p s) := by
  refine ⟨_, rfl, ?_⟩
  dsimp only
  split
  · exact .refl s
  · split
    · exact .ite (modHost_keeps (raiseTo_keeps (Keeps.foldl (fun _ _ h' => modFunc_keeps h') (modHostPort_keeps (.refl s))))) (moveRole_keeps
        (raiseTo_keeps (Keeps.foldl (fun _ _ h' => modFunc_keeps h') (modHostPort_keeps (.refl s)))))
    · exact .ite (modHost_keeps (raiseTo_keeps (Keeps.foldl (fun _ _ h' => modFunc_keeps h') (modHostPort_keeps (.refl s))))) (raiseTo_keeps
        (Keeps.foldl (fun _ _ h' => modFunc_keeps h') (modHostPort_keeps (.refl s))))

theorem execPrimaryRoleTimeout_keeps : KeepsTo s (execPrimaryRoleTimeout s) := by
  refine ⟨_, rfl, ?_⟩
  split
  · exact .ite (moveRole_keeps (.refl s)) (.refl s)
  · exact .refl s

theorem execFunctionDisable_keeps {f cause} : KeepsTo s (execFunctionDisable f cause s) := by
  refine ⟨_, rfl, ?_⟩
  split
  · exact .refl s
  · split
    · exact disabling_keeps (fun _ h' => modFunc_keeps h') (.refl s)
    · exact disabling_keeps (fun _ h' => modFunc_keeps h') (.refl s)
    · exact disabling_keeps (fun _ h' => modFunc_keeps h') (.refl s)
    · exact linkDown_keeps (.refl s)

theorem resetFuncRegs_keeps {f} (h : Keeps s₀ s) : Keeps s₀ (resetFuncRegs f s) := by
  unfold resetFuncRegs
  exact modFunc_keeps (abandonCmds_keeps h)

theorem execFunctionLevelReset_keeps {f} : KeepsTo s (execFunctionLevelReset f s) := by
  refine ⟨_, rfl, ?_⟩
  dsimp only
  split
  · exact .refl s
  · split
    · exact resetFuncRegs_keeps (.refl s)
    · exact settleIdle_keeps (.ite (pendReset_keeps (resetFuncRegs_keeps (.refl s))) (modPart_keeps (resetFuncRegs_keeps (.refl s))))

theorem execPerstAssert_keeps {p} : KeepsTo s (execPerstAssert p s) :=
  ⟨_, rfl, .ite (.refl s) (Keeps.foldl (fun _ _ h' => modFunc_keeps (resetFuncRegs_keeps h')) (disabling_keeps (fun _ h' => modHostPort_keeps h')
  (linkDown_keeps (.refl s))))⟩
theorem startPort_keeps {p} (h : Keeps s₀ s) : Keeps s₀ (startPort p s) := modHostPort_keeps h
theorem execPerstDeassert_keeps {p} : KeepsTo s (execPerstDeassert p s) :=
  ⟨_, rfl, .ite (.refl s) (onlyIf_keeps (fun _ h' => startPort_keeps h') (modHostPort_keeps (.refl s)))⟩
theorem configWrite_keeps {f r} (h : Keeps s₀ s) : Keeps s₀ (configWrite f r s) := by
  unfold configWrite
  split
  · exact emit_keeps h
  · exact emit_keeps h
  · exact disabling_keeps (fun _ h' => modFunc_keeps h') h
  · exact disabling_keeps (fun _ h' => modFunc_keeps h') h
  · exact .ite h (disabling_keeps (fun _ h' => modFunc_keeps h') h)
  · exact modHostPort_keeps (modFunc_keeps h)

theorem execConfigRequest_keeps {f r} : KeepsTo s (execConfigRequest f r s) :=
  ⟨_, rfl, .ite (.refl s) (.ite (emit_keeps (.refl s)) (.ite (emit_keeps (.refl s)) (configWrite_keeps (.refl s))))⟩
theorem execAtsInvalidation_keeps {p base len} : KeepsTo s (execAtsInvalidation p base len s) :=
  ⟨_, rfl, .ite (.refl s) (modHostPort_keeps (.refl s))⟩
theorem execBar2Read_keeps {f off read} : KeepsTo s (execBar2Read f off read s) := by
  refine ⟨_, rfl, ?_⟩
  dsimp only
  split
  · exact .refl s
  · split
    · exact emit_keeps (tierRead_keeps (readFinds_keeps (.refl s)))
    · exact emit_keeps (emit_keeps (countError_keeps (.refl s)))

theorem execBar2Write_keeps {f off data} : KeepsTo s (execBar2Write f off data s) := by
  refine ⟨_, rfl, ?_⟩
  split
  · exact .refl s
  · split
    · exact .ite (emit_keeps (countError_keeps (.refl s))) (tierWrite_keeps (.refl s))
    · exact emit_keeps (countError_keeps (.refl s))

theorem devIdentify_keeps {c} (h : Keeps s₀ s) : Keeps s₀ (devIdentify c s).1 := doneWith_keeps h
theorem devIdentifySpec_keeps : devIdentifySpec.Keeping := fun _ _ _ h => devIdentify_keeps h
theorem execDevIdentify_keeps {m} : KeepsTo s (execDevIdentify m s) := ⟨_, rfl, runCmd_keeps devIdentifySpec_keeps (.refl s)⟩
theorem devPrimary_keeps {c} (h : Keeps s₀ s) : Keeps s₀ (devPrimary c s).1 := by
  unfold devPrimary
  dsimp only
  split
  · exact doneWith_keeps h
  · split
    · exact refuse_keeps h
    · split
      · exact refuse_keeps h
      · exact doneWith_keeps (moveRole_keeps h)
  · split
    · exact doneWith_keeps (moveRole_keeps h)
    · split
      · exact doneWith_keeps h
      · split
        · exact doneWith_keeps (moveRole_keeps h)
        · exact refuse_keeps h
  · exact refuse_keeps h

theorem devPrimarySpec_keeps : devPrimarySpec.Keeping := fun _ _ _ h => devPrimary_keeps h
theorem execDevPrimary_keeps {m} : KeepsTo s (execDevPrimary m s) := ⟨_, rfl, runCmd_keeps devPrimarySpec_keeps (.refl s)⟩
theorem devEventMask_keeps {c} (h : Keeps s₀ s) : Keeps s₀ (devEventMask c s).1 := by
  unfold devEventMask
  dsimp only
  split
  · exact refuse_keeps h
  · exact done_keeps (modFunc_keeps h)

theorem devEventMaskSpec_keeps : devEventMaskSpec.Keeping := fun _ _ _ h => devEventMask_keeps h
theorem execDevEventMask_keeps {m} : KeepsTo s (execDevEventMask m s) := ⟨_, rfl, runCmd_keeps devEventMaskSpec_keeps (.refl s)⟩
theorem devNopSpec_keeps : devNopSpec.Keeping := fun _ _ _ h => done_keeps h
theorem execDevNop_keeps {m} : KeepsTo s (execDevNop m s) := ⟨_, rfl, runCmd_keeps devNopSpec_keeps (.refl s)⟩
theorem devBar2Map_keeps {c} (h : Keeps s₀ s) : Keeps s₀ (devBar2Map c s).1 := by
  unfold devBar2Map
  dsimp only
  split
  · exact refuse_keeps h
  · split
    · exact done_keeps (modFunc_keeps h)
    · split
      · exact refuse_keeps h
      · split
        · exact refuse_keeps h
        · split
          · exact done_keeps (modFunc_keeps h)
          · exact refuse_keeps h
        · exact refuse_keeps h

theorem devBar2MapSpec_keeps : devBar2MapSpec.Keeping := fun _ _ _ h => devBar2Map_keeps h
theorem execDevBar2Map_keeps {m} : KeepsTo s (execDevBar2Map m s) := ⟨_, rfl, runCmd_keeps devBar2MapSpec_keeps (.refl s)⟩

end
end Sys2Proof.Machine
end
section
/-! PROOFS. What every command keeps, in the model's file RegVal: what every register of chip control space and of BAR0 reads as, and the counter mirror. -/
namespace Sys2Proof.Machine
section
variable {s₀ s : State}

theorem keepFields_keeps {off n k} (h : Keeps s₀ s) : Keeps s₀ (keepFields off n k s) := h.update rfl rfl rfl rfl rfl

end
end Sys2Proof.Machine
end
section
/-! PROOFS. What every command keeps, in the model's file Error: errors. -/
namespace Sys2Proof.Machine
section
variable {s₀ s : State}

theorem setAlert_keeps {b} (h : Keeps s₀ s) : Keeps s₀ (setAlert b s) := onlyIf_keeps (fun _ h' => emit_keeps h') (modIsl_keeps rfl h)
theorem captureHang_keeps {cause} (h : Keeps s₀ s) : Keeps s₀ (captureHang cause s) := raiseError_keeps (modErr_keeps (setAlert_keeps h))
theorem execHangStallTimeout_keeps : KeepsTo s (execHangStallTimeout s) := ⟨_, rfl, .ite (captureHang_keeps (modSeq_keeps (.refl s))) (.refl s)⟩
theorem execWatchdogRefresh_keeps {core pc} : KeepsTo s (execWatchdogRefresh core pc s) := ⟨_, rfl, .ite (.refl s) (modIsl_keeps rfl (.refl s))⟩
theorem execWatchdogExpiry_keeps {core} : KeepsTo s (execWatchdogExpiry core s) :=
  ⟨_, rfl, .ite (.refl s) (raiseTo_keeps (logError_keeps (captureHang_keeps (modIsl_keeps rfl (.refl s)))))⟩
theorem modFields_keeps {g} (h : Keeps s₀ s) : Keeps s₀ (modFields g s) := h.update rfl rfl rfl rfl rfl
theorem modTiers_keeps {t g} (h : Keeps s₀ s) : Keeps s₀ (modTiers t g s) := modTier_keeps h
theorem modFuncs_keeps {g} (h : Keeps s₀ s) : Keeps s₀ (modFuncs g s) := modHost_keeps h
theorem clearBlock_keeps {blk} (h : Keeps s₀ s) : Keeps s₀ (clearBlock blk s) := by
  unfold clearBlock
  split
  · exact modStep_keeps h
  · exact modSeq_keeps (slackNow_keeps h)
  · exact modFields_keeps h
  · exact modFields_keeps h
  · exact modNp_keeps h
  · exact modFields_keeps h
  · exact modStr_keeps h
  · exact modTiers_keeps h
  · exact modTiers_keeps h
  · exact modGth_keeps h
  · exact modSrv_keeps h
  · exact modHch_keeps h
  · exact modFab_keeps h
  · exact modFuncs_keeps h
  · exact modPart_keeps h
  · exact modPwr_keeps (modIsl_keeps rfl h)
  · exact modErr_keeps h

theorem clearRecords_keeps {blk} (h : Keeps s₀ s) : Keeps s₀ (clearRecords blk s) := by
  unfold clearRecords
  split
  · exact modFields_keeps h
  · exact modFields_keeps h
  · exact modNp_keeps h
  · exact modFields_keeps h
  · exact modStr_keeps h
  · exact modTiers_keeps h
  · exact modTiers_keeps h
  · exact modHch_keeps h
  · exact h

theorem clearPart_keeps {blk p} (h : Keeps s₀ s) : Keeps s₀ (clearPart blk p s) := by
  unfold clearPart
  dsimp only
  split
  · exact modStep_keeps h
  · exact modSeq_keeps (slackNow_keeps h)
  · exact modNp_keeps h
  · exact modSrv_keeps h
  · exact modHch_keeps h
  · exact modPart_keeps h
  · exact modErr_keeps h
  · exact h

theorem errCounterClear_keeps {c} (h : Keeps s₀ s) : Keeps s₀ (errCounterClear c s).1 := by
  unfold errCounterClear
  dsimp only
  split
  · exact refuse_keeps h
  · split
    · split
      · exact refuse_keeps h
      · exact done_keeps (onlyIf_keeps (fun _ h' => clearRecords_keeps h') (onlyIf_keeps (fun _ h' => clearBlock_keeps h') h))
    · split
      · exact refuse_keeps h
      · exact done_keeps (onlyIf_keeps (fun _ h' => clearPart_keeps h') h)

theorem errCounterClearSpec_keeps : errCounterClearSpec.Keeping := fun _ _ _ h => errCounterClear_keeps h
theorem execErrCounterClear_keeps {m} : KeepsTo s (execErrCounterClear m s) := ⟨_, rfl, runCmd_keeps errCounterClearSpec_keeps (.refl s)⟩
theorem errLogRead_keeps {c} (h : Keeps s₀ s) : Keeps s₀ (errLogRead c s).1 := by
  unfold errLogRead
  dsimp only
  split
  · exact refuse_keeps h
  · exact intoHost_keeps h

theorem errLogReadSpec_keeps : errLogReadSpec.Keeping := fun _ _ _ h => errLogRead_keeps h
theorem execErrLogRead_keeps {m} : KeepsTo s (execErrLogRead m s) := ⟨_, rfl, runCmd_keeps errLogReadSpec_keeps (.refl s)⟩
theorem errHangRead_keeps {c} (h : Keeps s₀ s) : Keeps s₀ (errHangRead c s).1 := by
  unfold errHangRead
  split
  · exact refuse_keeps h
  · exact intoHost_keeps h

theorem errHangReadSpec_keeps : errHangReadSpec.Keeping := fun _ _ _ h => errHangRead_keeps h
theorem execErrHangRead_keeps {m} : KeepsTo s (execErrHangRead m s) := ⟨_, rfl, runCmd_keeps errHangReadSpec_keeps (.refl s)⟩
theorem errHangCaptureSpec_keeps : errHangCaptureSpec.Keeping := fun _ _ _ h => done_keeps (captureHang_keeps h)
theorem execErrHangCapture_keeps {m} : KeepsTo s (execErrHangCapture m s) := ⟨_, rfl, runCmd_keeps errHangCaptureSpec_keeps (.refl s)⟩
theorem errCfgSet_keeps {c} (h : Keeps s₀ s) : Keeps s₀ (errCfgSet c s).1 := by
  unfold errCfgSet
  dsimp only
  split
  · exact refuse_keeps h
  · exact done_keeps (modErr_keeps h)

theorem errCfgSetSpec_keeps : errCfgSetSpec.Keeping := fun _ _ _ h => errCfgSet_keeps h
theorem execErrCfgSet_keeps {m} : KeepsTo s (execErrCfgSet m s) := ⟨_, rfl, runCmd_keeps errCfgSetSpec_keeps (.refl s)⟩

end
end Sys2Proof.Machine
end
section
/-! PROOFS. What every command keeps, in the model's file Power: the 40 V input, the die rails, bring-up, cold reset and power-down. -/
namespace Sys2Proof.Machine
section
variable {s₀ s : State}

theorem setMeas_keeps {m v} (h : Keeps s₀ s) : Keeps s₀ (setMeas m v s) := modIsl_keeps rfl h
theorem measureKeys_keeps (h : Keeps s₀ s) : Keeps s₀ (measureKeys s) := setMeas_keeps h
theorem bootIsland_keeps {okA okB} (h : Keeps s₀ s) : Keeps s₀ (bootIsland okA okB s) := by
  unfold bootIsland
  dsimp only
  split
  · exact setMeas_keeps (modIsl_keeps rfl (measureKeys_keeps (setMeas_keeps (setMeas_keeps (modIsl_keeps rfl h)))))
  · exact setDeviceState_keeps (setMeas_keeps (measureKeys_keeps (setMeas_keeps (setMeas_keeps (modIsl_keeps rfl h)))))

theorem dieLost_keeps (h : Keeps s₀ s) : Keeps s₀ (dieLost s) := h.trans ⟨⟨fun _ => rfl, rfl, rfl, List.prefix_rfl⟩, rfl⟩
theorem coldReset_keeps (h : Keeps s₀ s) : Keeps s₀ (coldReset s) := bootIsland_keeps (modIsl_keeps rfl (dieLost_keeps h))
theorem startDie_keeps (h : Keeps s₀ s) : Keeps s₀ (startDie s) := modPwr_keeps (coldReset_keeps h)
theorem tryStart_keeps (h : Keeps s₀ s) : Keeps s₀ (tryStart s) := .ite (modPwr_keeps h) (startDie_keeps h)
theorem releaseHold_keeps (h : Keeps s₀ s) : Keeps s₀ (releaseHold s) := onlyIf_keeps (fun _ h' => startDie_keeps h') h
theorem fallGraceful_keeps {cause} (h : Keeps s₀ s) : Keeps s₀ (fallGraceful cause s) :=
  modPwr_keeps (dieLost_keeps (onlyIf_keeps (fun _ h' => sendLeave_keeps h') h))
theorem fallFast_keeps {cause} (h : Keeps s₀ s) : Keeps s₀ (fallFast cause s) := .ite h (modPwr_keeps (dieLost_keeps h))
theorem lifelineReset_keeps (h : Keeps s₀ s) : Keeps s₀ (lifelineReset s) := by
  unfold lifelineReset
  exact modPwr_keeps (coldReset_keeps (sendLeave_keeps (captureHang_keeps h)))

theorem faultSupply_keeps {kind} (h : Keeps s₀ s) : Keeps s₀ (faultSupply kind s) := fallFast_keeps (modPwr_keeps h)
theorem execVinRise_keeps : KeepsTo s (execVinRise s) := ⟨_, rfl, .ite (.refl s) (modPwr_keeps (.refl s))⟩
theorem execIslandSupplyGood_keeps {slotAOk slotBOk} : KeepsTo s (execIslandSupplyGood slotAOk slotBOk s) :=
  ⟨_, rfl, .ite (.refl s) (bootIsland_keeps (modIsl_keeps rfl (modPwr_keeps (.refl s))))⟩
theorem execIslandReady_keeps {mgtAddr} : KeepsTo s (execIslandReady mgtAddr s) :=
  ⟨_, rfl, .ite (.refl s) (onlyIf_keeps (fun _ h' => tryStart_keeps h') (modPwr_keeps (.refl s)))⟩
theorem execIslandSupplyLoss_keeps : KeepsTo s (execIslandSupplyLoss s) := ⟨_, rfl, (dieLost_keeps (.refl s)).update rfl rfl rfl rfl rfl⟩
theorem execLowMarginChange_keeps {vin} : KeepsTo s (execLowMarginChange vin s) := ⟨_, rfl, .ite (.refl s) (modPwr_keeps (.refl s))⟩
theorem execSupplyFault_keeps {kind} : KeepsTo s (execSupplyFault kind s) := ⟨_, rfl, .ite (.refl s) (faultSupply_keeps (.refl s))⟩
theorem execSupplyStable_keeps : KeepsTo s (execSupplyStable s) := ⟨_, rfl, .ite (.refl s) (releaseHold_keeps (modPwr_keeps (.refl s)))⟩
theorem execPwrEnRise_keeps : KeepsTo s (execPwrEnRise s) :=
  ⟨_, rfl, .ite (.refl s) (onlyIf_keeps (fun _ h' => tryStart_keeps h') (modPwr_keeps (.refl s)))⟩
theorem execPwrEnFall_keeps : KeepsTo s (execPwrEnFall s) :=
  ⟨_, rfl, .ite (.refl s) (onlyIf_keeps (fun _ h' => fallGraceful_keeps h') (modPwr_keeps (.refl s)))⟩
theorem execRailPowerGood_keeps : KeepsTo s (execRailPowerGood s) := ⟨_, rfl, .ite (.refl s) (modPwr_keeps (.refl s))⟩
theorem execRailGoodTimeout_keeps : KeepsTo s (execRailGoodTimeout s) := ⟨_, rfl, .ite (.refl s) (faultSupply_keeps (.refl s))⟩
theorem execDieResetRelease_keeps : KeepsTo s (execDieResetRelease s) :=
  ⟨_, rfl, .ite (.refl s) (.ite (lifelineReset_keeps (modPwr_keeps (.refl s))) (Keeps.foldl (fun _ _ h' => startPort_keeps h') (modPwr_keeps
  (.refl s))))⟩
theorem badRow_keeps {fr} (h : Keeps s₀ s) : Keeps s₀ (badRow fr s) := by
  unfold badRow
  exact eccHit_keeps (freshFree_keeps h)

theorem trainPorts_keeps (h : Keeps s₀ s) : Keeps s₀ (trainPorts s) := modFab_keeps h
theorem startCores_keeps (h : Keeps s₀ s) : Keeps s₀ (startCores s) := by
  unfold startCores
  dsimp only
  split
  · exact raiseTo_keeps (modIsl_keeps rfl (setDeviceState_keeps (modIsl_keeps rfl (modPwr_keeps (modHost_keeps (setMeas_keeps
      (trainPorts_keeps h)))))))
  · exact setDeviceState_keeps (modIsl_keeps rfl (modPwr_keeps (modHost_keeps (setMeas_keeps (trainPorts_keeps h)))))

theorem execSelfTestComplete_keeps {failedRows ok avporOk} : KeepsTo s (execSelfTestComplete failedRows ok avporOk s) :=
  ⟨_, rfl, .ite (.refl s) (.ite (setDeviceState_keeps (.refl s)) (.ite (setDeviceState_keeps (.refl s)) (startCores_keeps (Keeps.foldl
  (fun _ _ h' => badRow_keeps h') (.refl s)))))⟩
theorem execMemoryTrainingComplete_keeps {t1Ok t2Ok} : KeepsTo s (execMemoryTrainingComplete t1Ok t2Ok s) :=
  ⟨_, rfl, .ite (.refl s) (.ite (setDeviceState_keeps (modTier_keeps (modTier_keeps (.refl s)))) (.ite (setDeviceState_keeps (modTier_keeps
  (modTier_keeps (.refl s)))) (onlyIf_keeps (fun _ h' => setDeviceState_keeps h') (modPwr_keeps (modTier_keeps (modTier_keeps (.refl s)))))))⟩
theorem execPowerDownComplete_keeps : KeepsTo s (execPowerDownComplete s) :=
  ⟨_, rfl, .ite (.refl s) (onlyIf_keeps (fun _ h' => tryStart_keeps h') (modPwr_keeps (.refl s)))⟩
theorem execPowerUpRestart_keeps : KeepsTo s (execPowerUpRestart s) := ⟨_, rfl, .ite (.refl s) (tryStart_keeps (modPwr_keeps (.refl s)))⟩
theorem llAnswer_keeps {code seq status bs} (h : Keeps s₀ s) : Keeps s₀ (llAnswer code seq status bs s) := emit_keeps h
theorem execLlPowerOff_keeps {seq x1} : KeepsTo s (execLlPowerOff seq x1 s) :=
  ⟨_, rfl, .ite (.refl s) (onlyIf_keeps (fun _ h' => fallGraceful_keeps h') (captureHang_keeps (llAnswer_keeps (.refl s))))⟩
theorem execLlColdReset_keeps {seq x1} : KeepsTo s (execLlColdReset seq x1 s) := by
  refine ⟨_, rfl, ?_⟩
  dsimp only
  split
  · exact .refl s
  · split
    · exact llAnswer_keeps (.refl s)
    · split
      · exact modPwr_keeps (llAnswer_keeps (.refl s))
      · split
        · exact startDie_keeps (captureHang_keeps (llAnswer_keeps (.refl s)))
        · exact modPwr_keeps (llAnswer_keeps (.refl s))
        · exact modPwr_keeps (llAnswer_keeps (.refl s))
        · exact modPwr_keeps (llAnswer_keeps (.refl s))
        · exact lifelineReset_keeps (llAnswer_keeps (.refl s))

end
end Sys2Proof.Machine
end
section
/-! PROOFS. What every command keeps, in the model's file Island: the management island. -/
namespace Sys2Proof.Machine
section
variable {s₀ s : State}

theorem useChallenge_keeps (h : Keeps s₀ s) : Keeps s₀ (useChallenge s) := modIsl_keeps rfl h
theorem endToken_keeps {cause} (h : Keeps s₀ s) : Keeps s₀ (endToken cause s) :=
  .ite h (raiseTo_keeps (setMeas_keeps (setAlert_keeps (modFab_keeps (setHalt_keeps (modIsl_keeps rfl h))))))
theorem execTokenExpiry_keeps : KeepsTo s (execTokenExpiry s) := ⟨_, rfl, .ite (endToken_keeps (.refl s)) (.refl s)⟩
theorem setToken_keeps {a} (h : Keeps s₀ s) : Keeps s₀ (setToken a s) := raiseTo_keeps (setMeas_keeps (modIsl_keeps rfl (endToken_keeps h)))
theorem secOk_keeps (h : Keeps s₀ s) : Keeps s₀ (secOk s).1 := h
theorem secRefuse_keeps {st} (h : Keeps s₀ s) : Keeps s₀ (secRefuse st s).1 := h
theorem secOut_keeps {out} (h : Keeps s₀ s) : Keeps s₀ (secOut out s).1 := h
theorem secResults_keeps {r} (h : Keeps s₀ s) : Keeps s₀ (secResults r s).1 := h
theorem secIdentityOp_keeps (h : Keeps s₀ s) : Keeps s₀ (secIdentityOp s).1 := secOut_keeps h
theorem secChallengeOp_keeps (h : Keeps s₀ s) : Keeps s₀ (secChallengeOp s).1 := secResults_keeps (modIsl_keeps rfl (h.update rfl rfl rfl rfl rfl))
theorem secAttestOp_keeps {who scope part nonce} (h : Keeps s₀ s) : Keeps s₀ (secAttestOp who scope part nonce s).1 :=
  Keeps.fst_ite (secRefuse_keeps h) (Keeps.fst_ite (secOut_keeps h) (secRefuse_keeps h))

theorem execReturnEraseComplete_keeps : KeepsTo s (execReturnEraseComplete s) := by
  have herased {fab sp acc prog seq} (h : Keeps s s) :
      Keeps s (modFab fab { measureKeys (modIsl (fun i => { i with erasing := false, erasePending := false, ownerKeys := [] }) s) with
        mem := [], sp := sp, acc := acc, prog := prog, seq := seq }) :=
    modFab_keeps ((measureKeys_keeps (modIsl_keeps rfl h)).trans ⟨⟨fun _ => rfl, rfl, rfl, List.prefix_rfl⟩, rfl⟩)
  exact ⟨_, rfl, .ite (.refl s) (.ite (lifelineReset_keeps (herased (.refl s))) (setDeviceState_keeps (herased (.refl s))))⟩

theorem secOwnerKeysOp_keeps {a} (h : Keeps s₀ s) : Keeps s₀ (secOwnerKeysOp a s).1 := by
  unfold secOwnerKeysOp
  dsimp only
  split
  · exact secRefuse_keeps h
  · split
    · exact secRefuse_keeps h
    · split
      · exact secRefuse_keeps (useChallenge_keeps h)
      · split
        · exact secRefuse_keeps (useChallenge_keeps h)
        · exact secOk_keeps (measureKeys_keeps (modIsl_keeps rfl (useChallenge_keeps h)))

theorem secRevokeOp_keeps (h : Keeps s₀ s) : Keeps s₀ (secRevokeOp s).1 := by
  unfold secRevokeOp
  split
  · exact secRefuse_keeps h
  · exact secOk_keeps (endToken_keeps h)

theorem secTokenOp_keeps {a} (h : Keeps s₀ s) : Keeps s₀ (secTokenOp a s).1 := by
  unfold secTokenOp
  dsimp only
  split
  · exact secRefuse_keeps h
  · split
    · exact secRefuse_keeps h
    · split
      · exact secRefuse_keeps (useChallenge_keeps h)
      · exact secOk_keeps (setToken_keeps (useChallenge_keeps h))

theorem secFwUpdateOp_keeps {i} (h : Keeps s₀ s) : Keeps s₀ (secFwUpdateOp i s).1 := by
  unfold secFwUpdateOp
  dsimp only
  split
  · exact secRefuse_keeps h
  · exact secOk_keeps (raiseTo_keeps (modIsl_keeps rfl h))

theorem secFwActivateOp_keeps (h : Keeps s₀ s) : Keeps s₀ (secFwActivateOp s).1 := by
  unfold secFwActivateOp
  split
  · exact secRefuse_keeps h
  · exact secOk_keeps (modIsl_keeps rfl h)

theorem setThreshold_keeps {i v} (h : Keeps s₀ s) : Keeps s₀ (setThreshold i v s) := modIsl_keeps rfl h
theorem secPowerCfgOp_keeps {cap th} (h : Keeps s₀ s) : Keeps s₀ (secPowerCfgOp cap th s).1 := by
  unfold secPowerCfgOp
  dsimp only
  split
  · exact secRefuse_keeps h
  · refine secOk_keeps ?_
    split
    · exact setThreshold_keeps (modIsl_keeps rfl h)
    · exact modIsl_keeps rfl h

theorem transitionReset_keeps (h : Keeps s₀ s) : Keeps s₀ (transitionReset s) := modPwr_keeps (coldReset_keeps (sendLeave_keeps h))
theorem secAnswer_keeps {c a} (h : Keeps s₀ a.1) : Keeps s₀ (secAnswer c a).1 := by
  obtain ⟨s, ans⟩ := a
  exact Keeps.fst_ite (later_keeps (transitionReset_keeps (complete_keeps h))) h

theorem secIdentitySpec_keeps : secIdentitySpec.Keeping := fun _ _ _ h => intoHost_keeps h
theorem execSecIdentity_keeps {m} : KeepsTo s (execSecIdentity m s) := ⟨_, rfl, runCmd_keeps secIdentitySpec_keeps (.refl s)⟩
theorem secAttest_keeps {c} (h : Keeps s₀ s) : Keeps s₀ (secAttest c s).1 := by
  unfold secAttest
  dsimp only
  split
  · exact intoHost_keeps (secAttestOp_keeps h)
  · exact refuse_keeps (secAttestOp_keeps h)

theorem secAttestSpec_keeps : secAttestSpec.Keeping := fun _ _ _ h => secAttest_keeps h
theorem execSecAttest_keeps {m} : KeepsTo s (execSecAttest m s) := ⟨_, rfl, runCmd_keeps secAttestSpec_keeps (.refl s)⟩
theorem secChallengeSpec_keeps : secChallengeSpec.Keeping := fun _ _ _ h => secAnswer_keeps (secChallengeOp_keeps h)
theorem execSecChallenge_keeps {m} : KeepsTo s (execSecChallenge m s) := ⟨_, rfl, runCmd_keeps secChallengeSpec_keeps (.refl s)⟩
theorem secLcStatusSpec_keeps : secLcStatusSpec.Keeping := fun _ _ _ h => doneWith_keeps h
theorem execSecLcStatus_keeps {m} : KeepsTo s (execSecLcStatus m s) := ⟨_, rfl, runCmd_keeps secLcStatusSpec_keeps (.refl s)⟩
theorem secOwnerKeys_keeps {c} (h : Keeps s₀ s) : Keeps s₀ (secOwnerKeys c s).1 :=
  withHost_keeps h (fun _ => secAnswer_keeps (secOwnerKeysOp_keeps h))
theorem secOwnerKeysSpec_keeps : secOwnerKeysSpec.Keeping := fun _ _ _ h => secOwnerKeys_keeps h
theorem execSecOwnerKeys_keeps {m} : KeepsTo s (execSecOwnerKeys m s) := ⟨_, rfl, runCmd_keeps secOwnerKeysSpec_keeps (.refl s)⟩
theorem secToken_keeps {c} (h : Keeps s₀ s) : Keeps s₀ (secToken c s).1 := by
  unfold secToken
  split
  · exact refuse_keeps h
  · split
    · exact secAnswer_keeps (secRevokeOp_keeps h)
    · exact withHost_keeps h (fun _ => secAnswer_keeps (secTokenOp_keeps h))

theorem secTokenSpec_keeps : secTokenSpec.Keeping := fun _ _ _ h => secToken_keeps h
theorem execSecToken_keeps {m} : KeepsTo s (execSecToken m s) := ⟨_, rfl, runCmd_keeps secTokenSpec_keeps (.refl s)⟩
theorem secFwUpdate_keeps {c} (h : Keeps s₀ s) : Keeps s₀ (secFwUpdate c s).1 := by
  unfold secFwUpdate
  dsimp only
  split
  · exact refuse_keeps h
  · exact withHost_keeps h (fun _ => secAnswer_keeps (secFwUpdateOp_keeps h))

theorem secFwUpdateSpec_keeps : secFwUpdateSpec.Keeping := fun _ _ _ h => secFwUpdate_keeps h
theorem execSecFwUpdate_keeps {m} : KeepsTo s (execSecFwUpdate m s) := ⟨_, rfl, runCmd_keeps secFwUpdateSpec_keeps (.refl s)⟩
theorem secFwActivateSpec_keeps : secFwActivateSpec.Keeping := fun _ _ _ h => secAnswer_keeps (secFwActivateOp_keeps h)
theorem execSecFwActivate_keeps {m} : KeepsTo s (execSecFwActivate m s) := ⟨_, rfl, runCmd_keeps secFwActivateSpec_keeps (.refl s)⟩
theorem secPowerCfgSpec_keeps : secPowerCfgSpec.Keeping := fun _ _ _ h => secAnswer_keeps (secPowerCfgOp_keeps h)
theorem execSecPowerCfg_keeps {m} : KeepsTo s (execSecPowerCfg m s) := ⟨_, rfl, runCmd_keeps secPowerCfgSpec_keeps (.refl s)⟩
theorem execSecRead_keeps {seq chunk} : KeepsTo s (execSecRead seq chunk s) := ⟨_, rfl, .ite (.refl s) (llAnswer_keeps (.refl s))⟩
theorem execLlTelemetry_keeps {code seq req} : KeepsTo s (execLlTelemetry code seq req s) :=
  ⟨_, rfl, .ite (.refl s) (.ite (llAnswer_keeps (.refl s)) (.ite (.refl s) (.ite (llAnswer_keeps (.refl s)) (llAnswer_keeps (.refl s)))))⟩
theorem execLlHangRecord_keeps {seq req} : KeepsTo s (execLlHangRecord seq req s) := by
  refine ⟨_, rfl, .ite (.refl s) (.ite (llAnswer_keeps (.refl s)) (.ite (llAnswer_keeps (.refl s)) ?_))⟩
  split <;> exact llAnswer_keeps (.refl s)

theorem execLlLcStatus_keeps {seq x1} : KeepsTo s (execLlLcStatus seq x1 s) := ⟨_, rfl, .ite (.refl s) (llAnswer_keeps (.refl s))⟩
theorem execLlHitchSet_keeps {seq req} : KeepsTo s (execLlHitchSet seq req s) :=
  ⟨_, rfl, .ite (.refl s) (.ite (llAnswer_keeps (.refl s)) (.ite (llAnswer_keeps (.refl s)) (llAnswer_keeps (handSet_keeps (.refl s)))))⟩
theorem pldmAnswer_keeps {req vals} (h : Keeps s₀ s) : Keeps s₀ (pldmAnswer req vals s) := emit_keeps h
theorem pldm_keeps {r} (h : Keeps s₀ s) : Keeps s₀ (pldm r s) := by
  cases r with
  | discovery r => exact pldmAnswer_keeps h
  | readSensor i => exact pldmAnswer_keeps h
  | setCap w => exact pldmAnswer_keeps (secPowerCfgOp_keeps h)
  | setThreshold i v => exact .ite (pldmAnswer_keeps (setThreshold_keeps h)) (pldmAnswer_keeps h)
  | fwUpdate i => exact pldmAnswer_keeps (Keeps.fst_ite (secRefuse_keeps h) (secFwUpdateOp_keeps h))
  | fwActivate => exact pldmAnswer_keeps (secFwActivateOp_keeps h)

theorem execPldmRequest_keeps {req} : KeepsTo s (execPldmRequest req s) := ⟨_, rfl, .ite (pldm_keeps (.refl s)) (.refl s)⟩
theorem thermalTrip_keeps {i} (h : Keeps s₀ s) : Keeps s₀ (thermalTrip i s) :=
  fallFast_keeps (modPwr_keeps (setAlert_keeps (modIsl_keeps rfl (captureHang_keeps h))))
theorem execSensorSample_keeps {i v} : KeepsTo s (execSensorSample i v s) :=
  ⟨_, rfl, .ite (.refl s) (.ite (modIsl_keeps rfl (.refl s)) (.ite (modIsl_keeps rfl (.refl s)) (.ite (.refl s) (.ite (thermalTrip_keeps
  (modIsl_keeps rfl (.refl s))) (.ite (releaseHold_keeps (modPwr_keeps (modIsl_keeps rfl (.refl s)))) (modIsl_keeps rfl (.refl s)))))))⟩
theorem execGateRecompute_keeps {watts} : KeepsTo s (execGateRecompute watts s) :=
  ⟨_, rfl, .ite (.refl s) (.ite (.ite (raiseTo_keeps (modIsl_keeps rfl (onlyIf_keeps (fun _ h' => setAlert_keeps h') (.refl s)))) (raiseTo_keeps
  (modIsl_keeps rfl (onlyIf_keeps (fun _ h' => setAlert_keeps h') (.refl s))))) (modIsl_keeps rfl (onlyIf_keeps (fun _ h' => setAlert_keeps h')
  (.refl s))))⟩

end
end Sys2Proof.Machine
end
section
/-! PROOFS. What every command keeps, in the model's file SpCmd: cache mode, retirement and power of the scratchpad as firmware manages them. -/
namespace Sys2Proof.Machine
section
variable {s₀ s : State}

theorem powerDownIdle_keeps (h : Keeps s₀ s) : Keeps s₀ (powerDownIdle s) :=
  Keeps.foldl (fun _ _ h' => .ite h' (Keeps.foldl (fun _ _ h'' => .ite h'' (modFld_keeps (scrubWhere_keeps h''))) h')) h
theorem applyCache_keeps {c} (h : Keeps s₀ s) : Keeps s₀ (applyCache c s).1 := by
  unfold applyCache
  dsimp only
  split
  · exact refuse_keeps h
  · split
    · exact refuse_keeps h
    · exact done_keeps (.ite (applyCacheBanks_keeps (.ite (modSp_keeps (.ite (invalidateRegion_keeps (modSp_keeps h)) h)) (.ite
        (invalidateRegion_keeps (modSp_keeps h)) h))) (.ite (modSp_keeps (.ite (invalidateRegion_keeps (modSp_keeps h)) h)) (.ite
        (invalidateRegion_keeps (modSp_keeps h)) h)))

theorem spCacheConfig_keeps {c} (h : Keeps s₀ s) : Keeps s₀ (spCacheConfig c s).1 := by
  unfold spCacheConfig
  split
  · exact refuse_keeps h
  · split
    · exact refuse_keeps h
    · split
      · exact later_keeps h
      · exact applyCache_keeps h

theorem spCacheConfigSpec_keeps : spCacheConfigSpec.Keeping := fun _ _ _ h => spCacheConfig_keeps h
theorem execSpCacheConfig_keeps {m} : KeepsTo s (execSpCacheConfig m s) := ⟨_, rfl, runCmd_keeps spCacheConfigSpec_keeps (.refl s)⟩
theorem retireRow_keeps {f r} (h : Keeps s₀ s) : Keeps s₀ (retireRow f r s) := Keeps.foldl (fun _ _ h' => raiseTo_keeps h') (modFld_keeps h)
theorem spRetireRow_keeps {c} (h : Keeps s₀ s) : Keeps s₀ (spRetireRow c s).1 := by
  unfold spRetireRow
  dsimp only
  split
  · exact refuse_keeps h
  · split
    · exact done_keeps h
    · split
      · exact refuse_keeps h
      · exact done_keeps (retireRow_keeps h)

theorem spRetireRowSpec_keeps : spRetireRowSpec.Keeping := fun _ _ _ h => spRetireRow_keeps h
theorem execSpRetireRow_keeps {m} : KeepsTo s (execSpRetireRow m s) := ⟨_, rfl, runCmd_keeps spRetireRowSpec_keeps (.refl s)⟩

end
end Sys2Proof.Machine
end
section
/-! PROOFS. What every command keeps, in the model's file StepTime: rack time, ticks, boundary reserves, segments, and the device commands that set them. -/
namespace Sys2Proof.Machine
section
variable {s₀ s : State}

theorem setSpread_keeps {v} (h : Keeps s₀ s) : Keeps s₀ (setSpread v s) := .ite (modStep_keeps h) (modStep_keeps h)
theorem rearm_keeps (h : Keeps s₀ s) : Keeps s₀ (rearm s) := modStep_keeps h
theorem stageConfig_keeps {c} (h : Keeps s₀ s) : Keeps s₀ (stageConfig c s) := onlyIf_keeps (fun _ h' => rearm_keeps h') (modStep_keeps h)
theorem commitRegs_keeps (h : Keeps s₀ s) : Keeps s₀ (commitRegs s) := stageConfig_keeps h
theorem applyConfig_keeps {t} (h : Keeps s₀ s) : Keeps s₀ (applyConfig t s) := by
  unfold applyConfig
  dsimp only
  split
  · exact h
  · exact Keeps.foldl (fun _ _ h' => complete_keeps h') (modStep_keeps h)

theorem reserveApply_keeps {op f c} (hf : reserveApply op = some f) (h : Keeps s₀ s) : Keeps s₀ (f c s).1 := by
  unfold reserveApply at hf
  split at hf <;> cases hf
  · exact done_keeps h
  · exact applyQos_keeps h
  · exact applyResume_keeps h
  · exact applyCheckpoint_keeps h
  · exact applyActivate_keeps h
  · exact applyCounts_keeps h
  · exact applyDeactivate_keeps h
  · exact applyLock_keeps h
  · exact applyCache_keeps h
  · exact applyHitchConfig_keeps h

theorem applyReserved_keeps (h : Keeps s₀ s) : Keeps s₀ (applyReserved s) := by
  refine Keeps.foldl (fun _ _ h' => ?_) h
  split
  next hf => exact .ite (answer_keeps (reserveApply_keeps hf h')) h'
  · exact h'

theorem applyNpIdle_keeps (h : Keeps s₀ s) : Keeps s₀ (applyNpIdle s) :=
  Keeps.foldl (fun _ _ h' => .ite h' (.ite (answer_keeps (applyNpConfig_keeps h')) h')) h
theorem reserveActions_keeps {t} (h : Keeps s₀ s) : Keeps s₀ (reserveActions t s) :=
  applyNpIdle_keeps (serveReserve_keeps (modStep_keeps (powerDownIdle_keeps (onlyIf_keeps (fun _ h' => modSp_keeps (applyCacheBanks_keeps h'))
  (applyReserved_keeps (settleParts_keeps (flipReserve_keeps (startRepairs_keeps (onlyIf_keeps (fun _ h' => applyRoutes_keeps h') (modStep_keeps
  (onlyIf_keeps (fun _ h' => applyConfig_keeps h') h)))))))))))
theorem stopStepping_keeps (h : Keeps s₀ s) : Keeps s₀ (stopStepping s) :=
  Keeps.foldl (fun _ _ h' => completeOk_keeps h') (reserveActions_keeps (Keeps.foldl (fun _ _ h' => answer_keeps (applyClass_keeps h'))
  (modSrv_keeps h)))
theorem chargeOverrun_keeps {r p} (h : Keeps s₀ s) : Keeps s₀ (chargeOverrun r p s) :=
  .ite (modStep_keeps h) (raiseError_keeps (modStep_keeps (modStep_keeps h)))
theorem endStep_keeps (h : Keeps s₀ s) : Keeps s₀ (endStep s) := by
  unfold endStep
  dsimp only
  split
  · exact h
  · exact .ite h (.ite (modStep_keeps (Keeps.foldl (fun _ _ h' => chargeOverrun_keeps h') h)) (stopStepping_keeps (modStep_keeps (Keeps.foldl
      (fun _ _ h' => chargeOverrun_keeps h') h))))

theorem missTick_keeps (h : Keeps s₀ s) : Keeps s₀ (missTick s) := modStep_keeps h
theorem startStep_keeps {t} (h : Keeps s₀ s) : Keeps s₀ (startStep t s) := by
  unfold startStep
  exact endStep_keeps (reserveActions_keeps (Keeps.foldl (fun _ _ h' => completeOk_keeps h') (modNp_keeps (modSeq_keeps (modStep_keeps h)))))

theorem execStepTick_keeps : KeepsTo s (execStepTick s) := by
  refine ⟨_, rfl, ?_⟩
  dsimp only
  split
  · exact .refl s
  · exact .ite (.refl s) (.ite (missTick_keeps (modStep_keeps (modStep_keeps (.refl s)))) (startStep_keeps (modStep_keeps (modStep_keeps (.refl s)))))

theorem passSegment_keeps {e cycle} (h : Keeps s₀ s) : Keeps s₀ (passSegment e cycle s) := modStep_keeps h
theorem reseed_keeps (h : Keeps s₀ s) : Keeps s₀ (reseed s) := Keeps.foldl (fun _ _ h' => modFld_keeps h') h
theorem enterNp_keeps {p} (h : Keeps s₀ s) : Keeps s₀ (enterNp p s) := by
  unfold enterNp
  exact modNp_keeps h

theorem enterSegment_keeps {p seg a g} (h : Keeps s₀ s) : Keeps s₀ (enterSegment p seg a g s) := by
  unfold enterSegment
  dsimp only
  refine syncSeq_keeps ?_
  split
  · exact startGather_keeps (writeBatch_keeps (modSeq_keeps (modStep_keeps (reseed_keeps (enterNp_keeps (emptyAllLines_keeps (scrubWhere_keeps
      (Keeps.foldl (fun _ _ h' => answer_keeps (applyNpConfig_keeps h')) h))))))))
  · exact modSeq_keeps (modStep_keeps (reseed_keeps (enterNp_keeps (emptyAllLines_keeps (scrubWhere_keeps (Keeps.foldl (fun _ _ h' => answer_keeps
      (applyNpConfig_keeps h')) h))))))

theorem execSegmentStart_keeps : KeepsTo s (execSegmentStart s) := by
  refine ⟨_, rfl, ?_⟩
  dsimp only
  split
  · exact .refl s
  · split
    · exact .refl s
    · split
      · exact .refl s
      · split
        · exact enterSegment_keeps (modStep_keeps (modStep_keeps (.refl s)))
        · exact endStep_keeps (passSegment_keeps (modStep_keeps (.refl s)))

theorem noteLate_keeps {e r work} (h : Keeps s₀ s) : Keeps s₀ (noteLate e r work s) :=
  .ite h (.ite (raiseError_keeps (modStep_keeps h)) (countError_keeps (modStep_keeps h)))
theorem noteImbalance_keeps {r} (h : Keeps s₀ s) : Keeps s₀ (noteImbalance r s) := by
  unfold noteImbalance
  dsimp only
  split
  · exact h
  · exact raiseError_keeps (modHch_keeps h)

theorem noteFault_keeps {r} (h : Keeps s₀ s) : Keeps s₀ (noteFault r s) := by
  unfold noteFault
  dsimp only
  split
  · exact h
  · exact raiseTo_keeps (logError_keeps (modErr_keeps h))

theorem endBreaches_keeps {r} (h : Keeps s₀ s) : Keeps s₀ (endBreaches r s) := Keeps.foldl (fun _ _ h' => breachUnreplayed_keeps h') h
theorem execProgramEnd_keeps : KeepsTo s (execProgramEnd s) := by
  refine ⟨_, rfl, ?_⟩
  dsimp only
  split
  · split
    · exact .refl s
    · split
      · exact finishParts_keeps (.refl s)
      · split
        · exact endStep_keeps (passSegment_keeps (syncSeq_keeps (modSeq_keeps (readResults_keeps (modNpPart_keeps (noteFault_keeps (endBreaches_keeps
            (noteImbalance_keeps (noteLate_keeps (finishParts_keeps (.refl s)))))))))))
        · exact finishParts_keeps (.refl s)
  · exact .refl s

theorem setRun_keeps {on} (h : Keeps s₀ s) : Keeps s₀ (setRun on s) :=
  .ite h (.ite (rearm_keeps (modStep_keeps (serviceTiers_keeps h))) (onlyIf_keeps (fun _ h' => stopStepping_keeps h') (modStep_keeps h)))
theorem execStepRunControl_keeps {run} : KeepsTo s (execStepRunControl run s) := ⟨_, rfl, onlyIf_keeps (fun _ h' => setRun_keeps h') (.refl s)⟩
theorem execStepCommit_keeps : KeepsTo s (execStepCommit s) := ⟨_, rfl, onlyIf_keeps (fun _ h' => commitRegs_keeps h') (.refl s)⟩
theorem execStepConfigTakesEffect_keeps : KeepsTo s (execStepConfigTakesEffect s) := by
  refine ⟨_, rfl, ?_⟩
  split
  · exact .ite (applyConfig_keeps (.refl s)) (.refl s)
  · exact .refl s

theorem devStepConfig_keeps {c} (h : Keeps s₀ s) : Keeps s₀ (devStepConfig c s).1 := by
  unfold devStepConfig
  dsimp only
  refine withHost_keeps h (fun _ => ?_)
  split
  · exact refuse_keeps h
  · split
    · exact refuse_keeps h
    · split
      · exact refuse_keeps h
      · exact later_keeps (stageConfig_keeps (modStep_keeps h))

theorem devStepConfigSpec_keeps : devStepConfigSpec.Keeping := fun _ _ _ h => devStepConfig_keeps h
theorem execDevStepConfig_keeps {m} : KeepsTo s (execDevStepConfig m s) := ⟨_, rfl, runCmd_keeps devStepConfigSpec_keeps (.refl s)⟩
theorem devStepRun_keeps {c} (h : Keeps s₀ s) : Keeps s₀ (devStepRun c s).1 := by
  unfold devStepRun
  split
  · exact refuse_keeps h
  · split
    · split
      · exact later_keeps h
      · exact done_keeps h
    · exact later_keeps (setRun_keeps h)

theorem devStepRunSpec_keeps : devStepRunSpec.Keeping := fun _ _ _ h => devStepRun_keeps h
theorem execDevStepRun_keeps {m} : KeepsTo s (execDevStepRun m s) := ⟨_, rfl, runCmd_keeps devStepRunSpec_keeps (.refl s)⟩
theorem devTimeSet_keeps {c} (h : Keeps s₀ s) : Keeps s₀ (devTimeSet c s).1 := by
  unfold devTimeSet
  split
  · exact refuse_keeps h
  · exact done_keeps (setRack_keeps (modFab_keeps h))

theorem devTimeSetSpec_keeps : devTimeSetSpec.Keeping := fun _ _ _ h => devTimeSet_keeps h
theorem execDevTimeSet_keeps {m} : KeepsTo s (execDevTimeSet m s) := ⟨_, rfl, runCmd_keeps devTimeSetSpec_keeps (.refl s)⟩
theorem devClock_keeps {c} (h : Keeps s₀ s) : Keeps s₀ (devClock c s).1 := by
  unfold devClock
  split
  · exact refuse_keeps h
  · split
    · exact later_keeps (setSpread_keeps h)
    · exact done_keeps (setSpread_keeps h)

theorem devClockSpec_keeps : devClockSpec.Keeping := fun _ _ _ h => devClock_keeps h
theorem execDevClock_keeps {m} : KeepsTo s (execDevClock m s) := ⟨_, rfl, runCmd_keeps devClockSpec_keeps (.refl s)⟩
theorem execRacksyncEdge_keeps : KeepsTo s (execRacksyncEdge s) :=
  ⟨_, rfl, .ite (.refl s) (.ite (onlyIf_keeps (fun _ h' => raiseTo_keeps h') (modFab_keeps (setRack_keeps (modStep_keeps (.refl s))))) (.ite
  (raiseTo_keeps (modStep_keeps (onlyIf_keeps (fun _ h' => raiseTo_keeps h') (modFab_keeps (setRack_keeps (modStep_keeps (.refl s)))))))
  (modStep_keeps (onlyIf_keeps (fun _ h' => raiseTo_keeps h') (modFab_keeps (setRack_keeps (modStep_keeps (.refl s))))))))⟩
theorem execRackrefLoss_keeps : KeepsTo s (execRackrefLoss s) := ⟨_, rfl, onlyIf_keeps (fun _ h' => raiseTo_keeps h') (modStep_keeps (.refl s))⟩
theorem execRackrefArrival_keeps : KeepsTo s (execRackrefArrival s) := ⟨_, rfl, modStep_keeps (.refl s)⟩

end
end Sys2Proof.Machine
end
section
/-! PROOFS. What every command keeps, in the model's file RegWrite: register writes. -/
namespace Sys2Proof.Machine
section
variable {s₀ s : State}

theorem putOne_keeps {org rows puts off width v} (hputs : KeepingPuts puts) (h : Keeps s₀ s) : Keeps s₀ (putOne org rows puts off width v s).2 := by
  unfold putOne
  dsimp only
  split
  · exact h
  · split
    next hp =>
      have hput := fun i n w => hputs _ (List.mem_of_find?_eq_some hp) i n w s₀ s h
      split
      · exact keepFields_keeps (hput ..)
      · exact hput ..
    · exact h

theorem stepPuts_keeps : KeepingPuts stepPuts :=
    .cons (fun _ _ _ _ _ h => setRun_keeps (onlyIf_keeps (fun _ h' => commitRegs_keeps h') (modStep_keeps h))) <|
    .cons (fun _ _ _ _ _ h => modStep_keeps h) <|
    .cons (fun _ _ _ _ _ h => modStep_keeps h) <|
    .cons (fun _ _ _ _ _ h => modStep_keeps h) <|
    .cons (fun _ _ _ _ _ h => setSpread_keeps h) <|
    .cons (fun _ _ _ _ _ h => modStep_keeps h) .nil

theorem seqPuts_keeps : KeepingPuts seqPuts :=
    .cons (fun _ _ _ _ _ h => onlyIf_keeps (fun _ h' => issueNow_keeps h') (setHalt_keeps h)) .nil

theorem brdPuts_keeps {f} : KeepingPuts (brdPuts f) :=
    .cons (fun _ _ _ _ _ h => onlyIf_keeps (fun _ h' => modFld_keeps h') h) .nil

theorem accPuts_keeps {f} : KeepingPuts (accPuts f) :=
    .cons (fun _ _ _ _ _ h => onlyIf_keeps (fun _ h' => modFld_keeps h') h) <|
    .cons (fun _ _ _ _ _ h => modFld_keeps h) .nil

theorem putCacheBanks_keeps {n} (h : Keeps s₀ s) : Keeps s₀ (putCacheBanks n s) :=
  .ite (modSp_keeps (modSp_keeps h)) (applyCacheBanks_keeps (modSp_keeps h))
theorem spPuts_keeps {f} : KeepingPuts (spPuts f) :=
    .cons (fun _ _ _ _ _ h => modFld_keeps h) <|
    .cons (fun _ _ _ _ _ h => onlyIf_keeps (fun _ h' => modFld_keeps h') h) <|
    .cons (fun _ _ _ _ _ h => modFld_keeps h) <|
    .cons (fun _ _ _ _ _ h => modFld_keeps h) <|
    .cons (fun _ _ _ _ _ h => dbgRowAccess_keeps h) <|
    .cons (fun _ _ _ _ _ h => modFld_keeps h) <|
    .cons (fun _ _ _ _ _ h => putCacheBanks_keeps h) <|
    .cons (fun _ _ _ _ _ h => modSp_keeps h) .nil

theorem npPuts_keeps : KeepingPuts npPuts :=
    .cons (fun _ _ _ _ _ h => onlyIf_keeps (fun _ h' => modNp_keeps h') h) <|
    .cons (fun _ _ _ _ _ h => modNp_keeps h) <|
    .cons (fun _ _ _ _ _ h => modNp_keeps h) <|
    .cons (fun _ _ _ _ _ h => modNp_keeps h) <|
    .cons (fun _ _ _ _ _ h => modNp_keeps h) .nil

theorem tierPuts_keeps {t} : KeepingPuts (tierPuts t) :=
    .cons (fun _ _ _ _ _ h => modTier_keeps h) <|
    .cons (fun _ _ _ _ _ h => onlyIf_keeps (fun _ h' => modTier_keeps h') h) <|
    .cons (fun _ _ _ _ _ h => modTier_keeps h) <|
    .cons (fun _ _ _ _ _ h => modTier_keeps h) <|
    .cons (fun _ _ _ _ _ h => modTier_keeps h) .nil

theorem strPuts_keeps : KeepingPuts strPuts :=
    .cons (fun _ _ _ _ _ h => onlyIf_keeps (fun _ h' => modStr_keeps h') h) .nil

theorem writePslot_keeps {i n} (h : Keeps s₀ s) : Keeps s₀ (writePslot i n s) := by
  unfold writePslot
  exact modHch_keeps (h.update rfl rfl rfl rfl rfl)

theorem hchPuts_keeps : KeepingPuts hchPuts :=
    .cons (fun _ _ _ _ _ h => onlyIf_keeps (fun _ h' => modHch_keeps h') h) <|
    .cons (fun _ _ _ _ _ h => modHch_keeps h) <|
    .cons (fun _ _ _ _ _ h => modHch_keeps h) <|
    .cons (fun _ _ _ _ _ h => modHch_keeps h) <|
    .cons (fun _ _ _ _ _ h => writePslot_keeps h) <|
    .cons (fun _ _ _ _ _ h => setTarget_keeps (setHitch_keeps h)) .nil

theorem fabPuts_keeps : KeepingPuts fabPuts :=
    .cons (fun _ _ _ _ _ h => checkBonds_keeps (modFab_keeps h)) <|
    .cons (fun _ _ _ _ _ h => modFab_keeps h) <|
    .cons (fun _ _ _ _ _ h => modFab_keeps h) <|
    .cons (fun _ _ _ _ _ h => modFab_keeps h) .nil

theorem putPart_keeps {p n} (h : Keeps s₀ s) : Keeps s₀ (putPart p n s) := by
  unfold putPart
  exact modPart_keeps h

theorem prtPuts_keeps : KeepingPuts prtPuts :=
    .cons (fun _ _ _ _ _ h => putPart_keeps h) <|
    .cons (fun _ _ _ _ _ h => modPart_keeps h) <|
    .cons (fun _ _ _ _ _ h => .ite (modPartn_keeps h) (h.update rfl rfl rfl rfl rfl)) .nil

theorem mgtPuts_keeps : KeepingPuts mgtPuts :=
    .cons (fun _ _ _ _ _ h => modIsl_keeps rfl h) <|
    .cons (fun _ _ _ _ _ h => modIsl_keeps rfl h) .nil

theorem errPuts_keeps : KeepingPuts errPuts :=
    .cons (fun _ _ _ _ _ h => modErr_keeps h) .nil

theorem setBase_keeps {f k g} (h : Keeps s₀ s) : Keeps s₀ (setBase f k g s) := .ite h (modRing_keeps h)
theorem setRingCtrl_keeps {f k n} (h : Keeps s₀ s) : Keeps s₀ (setRingCtrl f k n s) := .ite (enableRing_keeps h) (modRing_keeps (disableRing_keeps h))
theorem bar0Puts_keeps {f} : KeepingPuts (bar0Puts f) :=
    .cons (fun _ _ _ _ _ h => modFunc_keeps h) <|
    .cons (fun _ _ _ _ _ h => onlyIf_keeps (fun _ h' => modFunc_keeps h') h) <|
    .cons (fun _ _ _ _ _ h => setBase_keeps h) <|
    .cons (fun _ _ _ _ _ h => setBase_keeps h) <|
    .cons (fun _ _ _ _ _ h => setRingCtrl_keeps h) <|
    .cons (fun _ _ _ _ _ h => setMsix_keeps h) <|
    .cons (fun _ _ _ _ _ h => setBase_keeps h) <|
    .cons (fun _ _ _ _ _ h => setRingCtrl_keeps h) <|
    .cons (fun _ _ _ _ _ h => ringSq_keeps h) <|
    .cons (fun _ _ _ _ _ h => ringCq_keeps h) <|
    .cons (fun _ _ _ _ _ h => ringEq_keeps h) .nil

theorem ctlPuts_keeps {off} : KeepingPuts (ctlPuts off) := by
  unfold ctlPuts
  split
  · exact stepPuts_keeps
  · exact seqPuts_keeps
  · exact brdPuts_keeps
  · exact accPuts_keeps
  · exact npPuts_keeps
  · exact spPuts_keeps
  · exact strPuts_keeps
  · exact tierPuts_keeps
  · exact tierPuts_keeps
  · exact hchPuts_keeps
  · exact fabPuts_keeps
  · split
    · exact bar0Puts_keeps
    · exact .nil
  · exact prtPuts_keeps
  · exact mgtPuts_keeps
  · exact errPuts_keeps
  · exact .nil

theorem ctlWrite_keeps {off width v} (h : Keeps s₀ s) : Keeps s₀ (ctlWrite off width v s) :=
  .ite h (.ite (putOne_keeps ctlPuts_keeps h) (putOne_keeps ctlPuts_keeps (putOne_keeps ctlPuts_keeps h)))

theorem bar0Write_keeps {f off width v} (h : Keeps s₀ s) : Keeps s₀ (bar0Write f off width v s) :=
  .ite h (.ite (.ite (putOne_keeps bar0Puts_keeps h) (putOne_keeps bar0Puts_keeps (putOne_keeps bar0Puts_keeps h))) (.ite (ctlWrite_keeps h) h))

theorem execRegisterWrite_keeps {t off width value} : KeepsTo s (execRegisterWrite t off width value s) := by
  refine ⟨_, rfl, ?_⟩
  split
  · exact bar0Write_keeps (.refl s)
  · exact onlyIf_keeps (fun _ h' => ctlWrite_keeps h') (.refl s)

theorem execPfDebugWindowAccess_keeps {f off width write} : KeepsTo s (execPfDebugWindowAccess f off width write s) := by
  refine ⟨_, rfl, ?_⟩
  split
  · exact .refl s
  · split
    · exact onlyIf_keeps (fun _ h' => ctlWrite_keeps h') (.refl s)
    · exact emit_keeps (.refl s)

end
end Sys2Proof.Machine
end
section
/-! PROOFS. What every command keeps, in the model's file Mailbox: FAB_QUERY, and how firmware reads a command from its queue. -/
namespace Sys2Proof.Machine
section
variable {s₀ s : State}

theorem fabQuery_keeps {c} (h : Keeps s₀ s) : Keeps s₀ (fabQuery c s).1 := intoHost_keeps h
theorem fabQuerySpec_keeps : fabQuerySpec.Keeping := fun _ _ _ h => fabQuery_keeps h
theorem execFabQuery_keeps {m} : KeepsTo s (execFabQuery m s) := ⟨_, rfl, runCmd_keeps fabQuerySpec_keeps (.refl s)⟩
theorem failCmd_keeps {m detail} (h : Keeps s₀ s) : Keeps s₀ (failCmd m detail s) := complete_keeps (takeCmd_keeps h)

end
end Sys2Proof.Machine
end
section
/-! PROOFS. Every command keeps memory canonical, clock and queue, what was sent, and takes no fuse back. -/
namespace Sys2Proof.Machine

/-! ### What every command keeps -/

/-- Sound, the life cycle stays or makes one transition of R635's table, the floor of security versions does not fall, and identity, secret and vendor keys stand. -/
structure Lasts (s t : State) : Prop extends Sound s t where
  lc : t.isl.lc = s.isl.lc ∨ lcStep s.isl.lc t.isl.lc = true
  fwSvn : s.isl.fwSvn ≤ t.isl.fwSvn
  fused : (t.isl.deviceId, t.isl.secret, t.isl.vendorRevoked) = (s.isl.deviceId, s.isl.secret, s.isl.vendorRevoked)

section
variable {s t u : State}

theorem held_eq_iff {i j : IslSt} :
    i.held = j.held ↔ i.lc = j.lc ∧ i.fwSvn = j.fwSvn ∧ (i.deviceId, i.secret, i.vendorRevoked) = (j.deviceId, j.secret, j.vendorRevoked) := by
  simp [IslSt.held]

theorem Lasts.trans_keeps (h : Lasts s t) (h' : Keeps t u) : Lasts s u := by
  obtain ⟨hlc, hsvn, hfused⟩ := held_eq_iff.mp h'.held
  exact ⟨h.toSound.trans h'.toSound, hlc ▸ h.lc, hsvn ▸ h.fwSvn, hfused.trans h.fused⟩

theorem Keeps.trans_lasts (h : Keeps s t) (h' : Lasts t u) : Lasts s u := by
  obtain ⟨hlc, hsvn, hfused⟩ := held_eq_iff.mp h.held
  exact ⟨h.toSound.trans h'.toSound, hlc ▸ h'.lc, hsvn ▸ h'.fwSvn, h'.fused.trans hfused⟩

theorem Lasts.refl (s : State) : Lasts s s := ⟨.refl s, .inl rfl, le_rfl, rfl⟩

theorem Keeps.lasts (h : Keeps s t) : Lasts s t := h.trans_lasts (.refl t)

theorem Lasts.ite {c : Prop} {_ : Decidable c} (ht : Lasts s t) (hu : Lasts s u) : Lasts s (if c then t else u) := by
  split
  · exact ht
  · exact hu

theorem Lasts.fst_ite {α} {c : Prop} {_ : Decidable c} {a b : State × α} (ha : Lasts s a.1) (hb : Lasts s b.1) : Lasts s (if c then a else b).1 := by
  split
  · exact ha
  · exact hb

/-- The meaning of a command answers a next state for good or one transition on. -/
def LastsTo (s : State) (o : Host.Outcome State Fault Refusal) : Prop := ∃ t, o = .next t ∧ Lasts s t

theorem KeepsTo.lastsTo {o} (h : KeepsTo s o) : LastsTo s o := by
  obtain ⟨t, ht, hk⟩ := h
  exact ⟨t, ht, hk.lasts⟩

/-! ### The life cycle's transition and the floor of security versions -/

/-- Entering a state that the table of R635 allows. -/
theorem enterLc_lasts {new} (h : lcStep s.isl.lc new = true) : Lasts s (enterLc new s) := by
  have hset : Lasts s (modIsl (fun i => { i with lc := new, erasePending := i.erasePending || new == 3, lcEvent := some (i.lc, new) }) s) :=
    ⟨⟨id, rfl, rfl, List.prefix_rfl⟩, .inr h, le_rfl, rfl⟩
  exact hset.trans_keeps (measureKeys_keeps (.refl _))

theorem secTransitionOp_lasts {as_} : Lasts s (secTransitionOp as_ s).1 := by
  have hused : Keeps s (useChallenge s) := useChallenge_keeps (.refl s)
  refine .fst_ite (Lasts.refl s) ?_
  by_cases hstep : lcStep s.isl.lc (Auth.target (as_.headD [])) = true
  · simp only [hstep, Bool.not_true, Bool.false_eq_true, if_false]
    exact .fst_ite hused.lasts (hused.trans_lasts (enterLc_lasts hstep))
  · simp only [hstep, Bool.not_false, if_true]
    exact hused.lasts

theorem secSvnCommitOp_lasts : Lasts s (secSvnCommitOp s).1 :=
  .fst_ite (Lasts.refl s) ⟨⟨id, rfl, rfl, List.prefix_rfl⟩, .inl rfl, Nat.le_max_left .., rfl⟩

theorem withHost_lasts {c addr len k} (hk : ∀ bs, Lasts s (k bs).1) : Lasts s (withHost c addr len s k).1 := by
  unfold withHost
  split
  · exact (refuse_keeps (.refl s)).lasts
  · split
    · exact (refuse_keeps (.refl s)).lasts
    · split
      · exact (hk _).trans_keeps (noteAts_keeps (.refl _))
      · exact (refuse_keeps (countRead_keeps (.refl s))).lasts

/-! ### Mailbox commands -/

/-- A mailbox command whose own meaning takes nothing back. -/
def CmdSpec.Lasting (sp : CmdSpec) : Prop := ∀ c s, Lasts s (sp.body c s).1

theorem CmdSpec.Keeping.lasting {sp : CmdSpec} (h : sp.Keeping) : sp.Lasting := fun c s => (h c s s (.refl s)).lasts

theorem secLcTransitionSpec_lasts : secLcTransitionSpec.Lasting := by
  intro c s
  refine .fst_ite (Lasts.refl s) (withHost_lasts fun bs => ?_)
  exact secTransitionOp_lasts.trans_keeps (secAnswer_keeps (.refl _))

theorem secSvnCommitSpec_lasts : secSvnCommitSpec.Lasting :=
  fun _ _ => secSvnCommitOp_lasts.trans_keeps (secAnswer_keeps (.refl _))

theorem runCmd_lasts {sp m} (hsp : sp.Lasting) : Lasts s (runCmd sp m s) := by
  have htake : ∀ c, Keeps s (takeCmd c s) := fun _ => takeCmd_keeps (.refl s)
  unfold runCmd
  dsimp only
  split
  · exact .refl s
  · split
    · exact (complete_keeps (htake _)).lasts
    · exact (htake _).trans_lasts ((hsp _ _).trans_keeps (answer_keeps (.refl _)))

theorem execSecLcTransition_lasts {m} : LastsTo s (execSecLcTransition m s) := ⟨_, rfl, runCmd_lasts secLcTransitionSpec_lasts⟩
theorem execSecSvnCommit_lasts {m} : LastsTo s (execSecSvnCommit m s) := ⟨_, rfl, runCmd_lasts secSvnCommitSpec_lasts⟩

/-! ### Security requests on the management bus -/

theorem busOp_lasts {op ps data} : Lasts s (busOp op ps data s).1 := by
  have hrefuse : Keeps s (secRefuse stBadCommand s).1 := secRefuse_keeps (.refl s)
  unfold busOp
  dsimp only
  split
  · exact (Keeps.fst_ite hrefuse (secIdentityOp_keeps (.refl s))).lasts
  · exact (Keeps.fst_ite hrefuse (secAttestOp_keeps (.refl s))).lasts
  · exact (Keeps.fst_ite hrefuse (secChallengeOp_keeps (.refl s))).lasts
  · exact (Keeps.fst_ite hrefuse (secResults_keeps (.refl s))).lasts
  · exact .fst_ite hrefuse.lasts secTransitionOp_lasts
  · exact (Keeps.fst_ite hrefuse (secOwnerKeysOp_keeps (.refl s))).lasts
  · exact (Keeps.fst_ite hrefuse (.fst_ite (secRevokeOp_keeps (.refl s)) (.fst_ite hrefuse (secTokenOp_keeps (.refl s))))).lasts
  · exact .fst_ite hrefuse.lasts secSvnCommitOp_lasts
  · exact (Keeps.fst_ite hrefuse (secPowerCfgOp_keeps (.refl s))).lasts
  · exact hrefuse.lasts

theorem execSecRequest_lasts {seq req} : LastsTo s (execSecRequest seq req s) := by
  refine ⟨_, rfl, .ite (.refl s) ?_⟩
  have hop : Lasts s (if req.length < 50 ∨ 1074 < req.length then secRefuse stBadCommand s
      else busOp (leAt req 0 2) (sliceBytes req 2 48) (req.drop 50) s).1 := .fst_ite (Lasts.refl s) busOp_lasts
  refine hop.trans_keeps (.ite (transitionReset_keeps ?_) ?_) <;> exact llAnswer_keeps (modIsl_keeps rfl (.refl _))

/-! ### COMMAND_READ, which runs whichever mailbox command it finds -/

theorem mailboxSpecs_lasting : ∀ sp ∈ mailboxSpecs, sp.Lasting := by
  simp only [mailboxSpecs, List.forall_mem_cons, List.not_mem_nil, IsEmpty.forall_iff, implies_true, and_true]
  exact ⟨devIdentifySpec_keeps.lasting,
    devStepConfigSpec_keeps.lasting,
    devStepRunSpec_keeps.lasting,
    devTimeSetSpec_keeps.lasting,
    devClockSpec_keeps.lasting,
    devPrimarySpec_keeps.lasting,
    devEventMaskSpec_keeps.lasting,
    devNopSpec_keeps.lasting,
    devBar2MapSpec_keeps.lasting,
    partCreateSpec_keeps.lasting,
    partDestroySpec_keeps.lasting,
    partFuncSpec_keeps.lasting,
    partQosSpec_keeps.lasting,
    partResetSpec_keeps.lasting,
    partResumeSpec_keeps.lasting,
    partQuerySpec_keeps.lasting,
    modelLoadSpec_keeps.lasting,
    modelUnloadSpec_keeps.lasting,
    modelReloadSpec_keeps.lasting,
    modelSwapSpec_keeps.lasting,
    modelSwapResumeSpec_keeps.lasting,
    modelSwapRevertSpec_keeps.lasting,
    modelUpdateSpec_keeps.lasting,
    modelCheckpointSpec_keeps.lasting,
    modelQuerySpec_keeps.lasting,
    npConfigSpec_keeps.lasting,
    progLoadSpec_keeps.lasting,
    progActivateSpec_keeps.lasting,
    progUnloadSpec_keeps.lasting,
    progGetReportSpec_keeps.lasting,
    progSetCountsSpec_keeps.lasting,
    progDeactivateSpec_keeps.lasting,
    srvConfigSpec_keeps.lasting,
    srvClassSpec_keeps.lasting,
    srvSubmitSpec_keeps.lasting,
    srvCancelSpec_keeps.lasting,
    srvParkSpec_keeps.lasting,
    srvPrefixCreateSpec_keeps.lasting,
    srvPrefixReleaseSpec_keeps.lasting,
    srvQuerySpec_keeps.lasting,
    memCopySpec_keeps.lasting,
    memRetireSpec_keeps.lasting,
    memRetireReadSpec_keeps.lasting,
    memT3MapSpec_keeps.lasting,
    memT3UnmapSpec_keeps.lasting,
    memModeSpec_keeps.lasting,
    memLockSpec_keeps.lasting,
    spCacheConfigSpec_keeps.lasting,
    spRetireRowSpec_keeps.lasting,
    kvPoolConfigSpec_keeps.lasting,
    kvSeqQuerySpec_keeps.lasting,
    kvPoolStatusSpec_keeps.lasting,
    kvDropSpec_keeps.lasting,
    fabRouteLoadSpec_keeps.lasting,
    fabBondSpec_keeps.lasting,
    fabPortCtrlSpec_keeps.lasting,
    fabTimeCfgSpec_keeps.lasting,
    knotLoadSpec_keeps.lasting,
    knotUnloadSpec_keeps.lasting,
    knotAbortSpec_keeps.lasting,
    fabInjectSpec_keeps.lasting,
    fabQuerySpec_keeps.lasting,
    hitchConfigSpec_keeps.lasting,
    hitchReadSpec_keeps.lasting,
    hitchSetSpec_keeps.lasting,
    winOpenSpec_keeps.lasting,
    winCloseSpec_keeps.lasting,
    winBindSpec_keeps.lasting,
    barConfigSpec_keeps.lasting,
    barFreeSpec_keeps.lasting,
    barForceSpec_keeps.lasting,
    secIdentitySpec_keeps.lasting,
    secAttestSpec_keeps.lasting,
    secChallengeSpec_keeps.lasting,
    secLcStatusSpec_keeps.lasting,
    secLcTransitionSpec_lasts,
    secOwnerKeysSpec_keeps.lasting,
    secTokenSpec_keeps.lasting,
    secFwUpdateSpec_keeps.lasting,
    secFwActivateSpec_keeps.lasting,
    secSvnCommitSpec_lasts,
    secPowerCfgSpec_keeps.lasting,
    errCounterClearSpec_keeps.lasting,
    errLogReadSpec_keeps.lasting,
    errHangReadSpec_keeps.lasting,
    errHangCaptureSpec_keeps.lasting,
    errCfgSetSpec_keeps.lasting⟩

theorem specOf_lasting {op sp} (h : specOf op = some sp) : sp.Lasting := mailboxSpecs_lasting sp (List.mem_of_find?_eq_some h)

theorem startDesc_lasts {f q d host} : Lasts s (startDesc f q d host s) := by
  unfold startDesc
  dsimp only
  split
  · exact (failCmd_keeps (.refl s)).lasts
  · exact (failCmd_keeps (.refl s)).lasts
  next hsp _ => exact runCmd_lasts (specOf_lasting hsp)

theorem execCommandRead_lasts {f q desc host} : LastsTo s (execCommandRead f q desc host s) := by
  refine ⟨_, rfl, .ite (.refl s) ?_⟩
  split
  · exact .ite (.refl s) ((modRing_keeps (.refl s)).trans_lasts startDesc_lasts)
  · exact (queueError_keeps (.refl s)).lasts

/-! ### Every command -/

/-- Every command answers a next state and takes nothing back. -/
theorem exec_lasts (i : Instr) (s : State) : LastsTo s (exec i s) := by
  unfold exec
  cases i with
  | stepTick => exact execStepTick_keeps.lastsTo
  | routeApplyUnstepped => exact execRouteApplyUnstepped_keeps.lastsTo
  | segmentStart => exact execSegmentStart_keeps.lastsTo
  | programEnd => exact execProgramEnd_keeps.lastsTo
  | racksyncEdge => exact execRacksyncEdge_keeps.lastsTo
  | rackrefLoss => exact execRackrefLoss_keeps.lastsTo
  | stepCommit => exact execStepCommit_keeps.lastsTo
  | stepRunControl run => exact execStepRunControl_keeps.lastsTo
  | bundleIssue ecc => exact execBundleIssue_keeps.lastsTo
  | horizon => exact execHorizon_keeps.lastsTo
  | blockedAccessRetry ecc => exact execBlockedAccessRetry_keeps.lastsTo
  | hitchWaitProceed => exact execHitchWaitProceed_keeps.lastsTo
  | seqHalt halt => exact execSeqHalt_keeps.lastsTo
  | seqSingleStep => exact execSeqSingleStep_keeps.lastsTo
  | spDebugAccess field access => exact execSpDebugAccess_keeps.lastsTo
  | scratchpadPatrol ecc => exact execScratchpadPatrol_keeps.lastsTo
  | ccInsWrite field row => exact execCcInsWrite_keeps.lastsTo
  | cacheFill region line => exact execCacheFill_keeps.lastsTo
  | streamChainStart engine => exact execStreamChainStart_keeps.lastsTo
  | streamCopy engine found => exact execStreamCopy_keeps.lastsTo
  | expandTile engine found => exact execExpandTile_keeps.lastsTo
  | packT5p engine found => exact execPackT5p_keeps.lastsTo
  | quant engine found => exact execQuant_keeps.lastsTo
  | narrow engine found => exact execNarrow_keeps.lastsTo
  | widen engine found => exact execWiden_keeps.lastsTo
  | mxIn engine found => exact execMxIn_keeps.lastsTo
  | frcEnc engine found => exact execFrcEnc_keeps.lastsTo
  | frcDec engine found => exact execFrcDec_keeps.lastsTo
  | plane engine found => exact execPlane_keeps.lastsTo
  | fill engine found => exact execFill_keeps.lastsTo
  | descriptorComplete engine => exact execDescriptorComplete_keeps.lastsTo
  | descriptorFail engine status => exact execDescriptorFail_keeps.lastsTo
  | tierReadRetry tier block clean => exact execTierReadRetry_keeps.lastsTo
  | wcbLineWrite tier line => exact execWcbLineWrite_keeps.lastsTo
  | tierPatrol tier block corrected => exact execTierPatrol_keeps.lastsTo
  | bar2Read func off read => exact execBar2Read_keeps.lastsTo
  | bar2Write func off data => exact execBar2Write_keeps.lastsTo
  | shardArrived handle shard data => exact execShardArrived_keeps.lastsTo
  | shardTransferFail handle shard status => exact execShardTransferFail_keeps.lastsTo
  | modelDeadlineExpiry handle => exact execModelDeadlineExpiry_keeps.lastsTo
  | layerStaged handle layer => exact execLayerStaged_keeps.lastsTo
  | cowCopyComplete slot => exact execCowCopyComplete_keeps.lastsTo
  | granuleZeroComplete tier granule => exact execGranuleZeroComplete_keeps.lastsTo
  | inputCopyComplete slot data => exact execInputCopyComplete_keeps.lastsTo
  | batchCutoff part => exact execBatchCutoff_keeps.lastsTo
  | batchFinalise part => exact execBatchFinalise_keeps.lastsTo
  | outputDelivery slot => exact execOutputDelivery_keeps.lastsTo
  | parkMoveComplete slot => exact execParkMoveComplete_keeps.lastsTo
  | unparkComplete slot data => exact execUnparkComplete_keeps.lastsTo
  | parkExpiry slot => exact execParkExpiry_keeps.lastsTo
  | gatherWave => exact execGatherWave_keeps.lastsTo
  | bagPool bag => exact execBagPool_keeps.lastsTo
  | writePacketReceived port p => exact execWritePacketReceived_keeps.lastsTo
  | remoteTransferComplete chip tag => exact execRemoteTransferComplete_keeps.lastsTo
  | transferAbandon chip tag => exact execTransferAbandon_keeps.lastsTo
  | doneReceived p => exact execDoneReceived_keeps.lastsTo
  | nakReceived p => exact execNakReceived_keeps.lastsTo
  | busyResend tag => exact execBusyResend_keeps.lastsTo
  | senderTimeout tag => exact execSenderTimeout_keeps.lastsTo
  | routerForward port p => exact execRouterForward_keeps.lastsTo
  | barEntryReceived p => exact execBarEntryReceived_keeps.lastsTo
  | barReleaseReceived p => exact execBarReleaseReceived_keeps.lastsTo
  | flitCrcError port => exact execFlitCrcError_keeps.lastsTo
  | portRetrain port => exact execPortRetrain_keeps.lastsTo
  | laneTrainingDone port ok lanes => exact execLaneTrainingDone_keeps.lastsTo
  | linkIdSend port => exact execLinkIdSend_keeps.lastsTo
  | linkIdReceived port p => exact execLinkIdReceived_keeps.lastsTo
  | heartbeatSend => exact execHeartbeatSend_keeps.lastsTo
  | heartbeatReceived p => exact execHeartbeatReceived_keeps.lastsTo
  | heartbeatTimeout chip => exact execHeartbeatTimeout_keeps.lastsTo
  | leaveReceived p => exact execLeaveReceived_keeps.lastsTo
  | timeExchangeSend port => exact execTimeExchangeSend_keeps.lastsTo
  | timeReceived port p => exact execTimeReceived_keeps.lastsTo
  | fabricIdentityAssign rack sled slot chip systemId => exact execFabricIdentityAssign_keeps.lastsTo
  | knotSend engine src => exact execKnotSend_keeps.lastsTo
  | knotCombine engine src dst => exact execKnotCombine_keeps.lastsTo
  | knotCopy engine src => exact execKnotCopy_keeps.lastsTo
  | knotWait engine => exact execKnotWait_keeps.lastsTo
  | knotInc engine => exact execKnotInc_keeps.lastsTo
  | knotBarrier engine => exact execKnotBarrier_keeps.lastsTo
  | knotSetreg engine => exact execKnotSetreg_keeps.lastsTo
  | knotAdvreg engine => exact execKnotAdvreg_keeps.lastsTo
  | knotLoop engine => exact execKnotLoop_keeps.lastsTo
  | knotEnd engine => exact execKnotEnd_keeps.lastsTo
  | sqDoorbell func queue tail => exact execSqDoorbell_keeps.lastsTo
  | cqDoorbell func queue head => exact execCqDoorbell_keeps.lastsTo
  | eqDoorbell func head => exact execEqDoorbell_keeps.lastsTo
  | queueEnable func queue ctrl => exact execQueueEnable_keeps.lastsTo
  | queueDisable func queue => exact execQueueDisable_keeps.lastsTo
  | eventRingEnable func ctrl => exact execEventRingEnable_keeps.lastsTo
  | commandRead func queue desc host => exact execCommandRead_lasts
  | interruptCoalesceTimer func ring => exact execInterruptCoalesceTimer_keeps.lastsTo
  | msixVectorUnmask func vector => exact execMsixVectorUnmask_keeps.lastsTo
  | pfDebugWindowAccess func off width write => exact execPfDebugWindowAccess_keeps.lastsTo
  | configRequest func req => exact execConfigRequest_keeps.lastsTo
  | atsInvalidation port base len => exact execAtsInvalidation_keeps.lastsTo
  | functionDisable func cause => exact execFunctionDisable_keeps.lastsTo
  | functionLevelReset func => exact execFunctionLevelReset_keeps.lastsTo
  | pcieLinkUp port => exact execPcieLinkUp_keeps.lastsTo
  | pcieLinkDown port => exact execPcieLinkDown_keeps.lastsTo
  | perstAssert port => exact execPerstAssert_keeps.lastsTo
  | perstDeassert port => exact execPerstDeassert_keeps.lastsTo
  | primaryRoleTimeout => exact execPrimaryRoleTimeout_keeps.lastsTo
  | devIdentify m => exact execDevIdentify_keeps.lastsTo
  | devStepConfig m => exact execDevStepConfig_keeps.lastsTo
  | devStepRun m => exact execDevStepRun_keeps.lastsTo
  | devTimeSet m => exact execDevTimeSet_keeps.lastsTo
  | devClock m => exact execDevClock_keeps.lastsTo
  | devPrimary m => exact execDevPrimary_keeps.lastsTo
  | devEventMask m => exact execDevEventMask_keeps.lastsTo
  | devNop m => exact execDevNop_keeps.lastsTo
  | devBar2Map m => exact execDevBar2Map_keeps.lastsTo
  | partCreate m => exact execPartCreate_keeps.lastsTo
  | partDestroy m => exact execPartDestroy_keeps.lastsTo
  | partFunc m => exact execPartFunc_keeps.lastsTo
  | partQos m => exact execPartQos_keeps.lastsTo
  | partReset m => exact execPartReset_keeps.lastsTo
  | partResume m => exact execPartResume_keeps.lastsTo
  | partQuery m => exact execPartQuery_keeps.lastsTo
  | modelLoad m => exact execModelLoad_keeps.lastsTo
  | modelUnload m => exact execModelUnload_keeps.lastsTo
  | modelReloadLayers m => exact execModelReloadLayers_keeps.lastsTo
  | modelSwap m => exact execModelSwap_keeps.lastsTo
  | modelSwapResume m => exact execModelSwapResume_keeps.lastsTo
  | modelSwapRevert m => exact execModelSwapRevert_keeps.lastsTo
  | modelUpdate m => exact execModelUpdate_keeps.lastsTo
  | modelCheckpoint m => exact execModelCheckpoint_keeps.lastsTo
  | modelQuery m => exact execModelQuery_keeps.lastsTo
  | npConfig m => exact execNpConfig_keeps.lastsTo
  | progLoad m => exact execProgLoad_keeps.lastsTo
  | progActivate m => exact execProgActivate_keeps.lastsTo
  | progUnload m => exact execProgUnload_keeps.lastsTo
  | progGetReport m => exact execProgGetReport_keeps.lastsTo
  | progSetCounts m => exact execProgSetCounts_keeps.lastsTo
  | progDeactivate m => exact execProgDeactivate_keeps.lastsTo
  | srvConfig m => exact execSrvConfig_keeps.lastsTo
  | srvClass m => exact execSrvClass_keeps.lastsTo
  | srvSubmit m => exact execSrvSubmit_keeps.lastsTo
  | srvCancel m => exact execSrvCancel_keeps.lastsTo
  | srvPark m => exact execSrvPark_keeps.lastsTo
  | srvPrefixCreate m => exact execSrvPrefixCreate_keeps.lastsTo
  | srvPrefixRelease m => exact execSrvPrefixRelease_keeps.lastsTo
  | srvQuery m => exact execSrvQuery_keeps.lastsTo
  | memCopy m => exact execMemCopy_keeps.lastsTo
  | memRetire m => exact execMemRetire_keeps.lastsTo
  | memRetireRead m => exact execMemRetireRead_keeps.lastsTo
  | memT3Map m => exact execMemT3Map_keeps.lastsTo
  | memT3Unmap m => exact execMemT3Unmap_keeps.lastsTo
  | memMode m => exact execMemMode_keeps.lastsTo
  | memLock m => exact execMemLock_keeps.lastsTo
  | spCacheConfig m => exact execSpCacheConfig_keeps.lastsTo
  | spRetireRow m => exact execSpRetireRow_keeps.lastsTo
  | kvPoolConfig m => exact execKvPoolConfig_keeps.lastsTo
  | kvSeqQuery m => exact execKvSeqQuery_keeps.lastsTo
  | kvPoolStatus m => exact execKvPoolStatus_keeps.lastsTo
  | kvDrop m => exact execKvDrop_keeps.lastsTo
  | fabRouteLoad m => exact execFabRouteLoad_keeps.lastsTo
  | fabBond m => exact execFabBond_keeps.lastsTo
  | fabPortCtrl m => exact execFabPortCtrl_keeps.lastsTo
  | fabTimeCfg m => exact execFabTimeCfg_keeps.lastsTo
  | knotLoad m => exact execKnotLoad_keeps.lastsTo
  | knotUnload m => exact execKnotUnload_keeps.lastsTo
  | knotAbort m => exact execKnotAbort_keeps.lastsTo
  | fabInject m => exact execFabInject_keeps.lastsTo
  | fabQuery m => exact execFabQuery_keeps.lastsTo
  | hitchConfig m => exact execHitchConfig_keeps.lastsTo
  | hitchRead m => exact execHitchRead_keeps.lastsTo
  | hitchSet m => exact execHitchSet_keeps.lastsTo
  | winOpen m => exact execWinOpen_keeps.lastsTo
  | winClose m => exact execWinClose_keeps.lastsTo
  | winBind m => exact execWinBind_keeps.lastsTo
  | barConfig m => exact execBarConfig_keeps.lastsTo
  | barFree m => exact execBarFree_keeps.lastsTo
  | barForce m => exact execBarForce_keeps.lastsTo
  | secIdentity m => exact execSecIdentity_keeps.lastsTo
  | secAttest m => exact execSecAttest_keeps.lastsTo
  | secChallenge m => exact execSecChallenge_keeps.lastsTo
  | secLcStatus m => exact execSecLcStatus_keeps.lastsTo
  | secLcTransition m => exact execSecLcTransition_lasts
  | secOwnerKeys m => exact execSecOwnerKeys_keeps.lastsTo
  | secToken m => exact execSecToken_keeps.lastsTo
  | secFwUpdate m => exact execSecFwUpdate_keeps.lastsTo
  | secFwActivate m => exact execSecFwActivate_keeps.lastsTo
  | secSvnCommit m => exact execSecSvnCommit_lasts
  | secPowerCfg m => exact execSecPowerCfg_keeps.lastsTo
  | errCounterClear m => exact execErrCounterClear_keeps.lastsTo
  | errLogRead m => exact execErrLogRead_keeps.lastsTo
  | errHangRead m => exact execErrHangRead_keeps.lastsTo
  | errHangCapture m => exact execErrHangCapture_keeps.lastsTo
  | errCfgSet m => exact execErrCfgSet_keeps.lastsTo
  | llTelemetry code seq req => exact execLlTelemetry_keeps.lastsTo
  | llPowerOff seq req => exact execLlPowerOff_keeps.lastsTo
  | llColdReset seq req => exact execLlColdReset_keeps.lastsTo
  | llHangRecord seq req => exact execLlHangRecord_keeps.lastsTo
  | llLcStatus seq req => exact execLlLcStatus_keeps.lastsTo
  | llHitchSet seq req => exact execLlHitchSet_keeps.lastsTo
  | secRequest seq req => exact execSecRequest_lasts
  | secRead seq chunk => exact execSecRead_keeps.lastsTo
  | pldmRequest req => exact execPldmRequest_keeps.lastsTo
  | sensorSample sensor value => exact execSensorSample_keeps.lastsTo
  | gateRecompute watts => exact execGateRecompute_keeps.lastsTo
  | watchdogRefresh core pc => exact execWatchdogRefresh_keeps.lastsTo
  | watchdogExpiry core => exact execWatchdogExpiry_keeps.lastsTo
  | hangStallTimeout => exact execHangStallTimeout_keeps.lastsTo
  | tokenExpiry => exact execTokenExpiry_keeps.lastsTo
  | returnEraseComplete => exact execReturnEraseComplete_keeps.lastsTo
  | vinRise => exact execVinRise_keeps.lastsTo
  | islandSupplyGood slotAOk slotBOk => exact execIslandSupplyGood_keeps.lastsTo
  | islandReady mgtAddr => exact execIslandReady_keeps.lastsTo
  | pwrEnRise => exact execPwrEnRise_keeps.lastsTo
  | railPowerGood => exact execRailPowerGood_keeps.lastsTo
  | railGoodTimeout => exact execRailGoodTimeout_keeps.lastsTo
  | dieResetRelease => exact execDieResetRelease_keeps.lastsTo
  | selfTestComplete failedRows ok avporOk => exact execSelfTestComplete_keeps.lastsTo
  | memoryTrainingComplete t1Ok t2Ok => exact execMemoryTrainingComplete_keeps.lastsTo
  | pwrEnFall => exact execPwrEnFall_keeps.lastsTo
  | powerDownComplete => exact execPowerDownComplete_keeps.lastsTo
  | powerUpRestart => exact execPowerUpRestart_keeps.lastsTo
  | supplyFault kind => exact execSupplyFault_keeps.lastsTo
  | islandSupplyLoss => exact execIslandSupplyLoss_keeps.lastsTo
  | registerWrite target off width value => exact execRegisterWrite_keeps.lastsTo
  | rackrefArrival => exact execRackrefArrival_keeps.lastsTo
  | stepConfigTakesEffect => exact execStepConfigTakesEffect_keeps.lastsTo
  | verificationComplete handle => exact execVerificationComplete_keeps.lastsTo
  | supplyStable => exact execSupplyStable_keeps.lastsTo
  | lowMarginChange vin => exact execLowMarginChange_keeps.lastsTo

end

/-! ### The obligations -/

/-- One nanosecond that passes. -/
theorem step_of_idle {s : State} (h : s.pending = []) : step s = .next (passTime 1 s) := by
  unfold step
  rw [h]

theorem step_of_waiting {s : State} {i rest} (h : s.pending = i :: rest) : step s = exec i { s with pending := rest } := by
  unfold step
  rw [h]

/-- What a nanosecond leaves: the memory, the queue, what was sent and the island. -/
theorem passTime_frame (ns : Nat) (s : State) :
    (passTime ns s).mem = s.mem ∧ (passTime ns s).pending = s.pending ∧ (passTime ns s).out = s.out ∧ (passTime ns s).isl = s.isl ∧
    (passTime ns s).now = s.now + ns := by
  unfold passTime onlyIf
  split <;> exact ⟨rfl, rfl, rfl, rfl, rfl⟩

/-- A step lets a nanosecond pass, or runs the front command on the queue's rest. -/
theorem step_cases {s t : State} (h : step s = .next t) :
    s.pending = [] ∧ t = passTime 1 s ∨ ∃ i rest, s.pending = i :: rest ∧ Lasts { s with pending := rest } t := by
  cases hp : s.pending with
  | nil =>
    rw [step_of_idle hp] at h
    injection h with h
    exact .inl ⟨rfl, h.symm⟩
  | cons i rest =>
    rw [step_of_waiting hp] at h
    obtain ⟨u, hu, hlasts⟩ := exec_lasts i { s with pending := rest }
    rw [hu] at h
    injection h with h
    exact .inr ⟨i, rest, rfl, h ▸ hlasts⟩

/-- Settles O56: every command keeps the canonical form, and a nanosecond leaves the memory. -/
theorem everyStepKeepsMemoryCanonical : Obligations.EveryStepKeepsMemoryCanonical := by
  unfold Obligations.EveryStepKeepsMemoryCanonical
  intro s t hwf hstep
  obtain ⟨-, rfl⟩ | ⟨i, rest, -, hlasts⟩ := step_cases hstep
  · rw [(passTime_frame 1 s).1]
    exact hwf
  · exact hlasts.mem hwf

/-- Settles O58: only SEC_LC_TRANSITION and SEC_SVN_COMMIT touch what lasts, from the mailbox, a queue or the bus. -/
theorem fusesAndLifeCycleNeverGoBack : Obligations.FusesAndLifeCycleNeverGoBack := by
  unfold Obligations.FusesAndLifeCycleNeverGoBack
  intro s t hstep
  obtain ⟨-, rfl⟩ | ⟨i, rest, -, hlasts⟩ := step_cases hstep
  · obtain ⟨-, -, -, hisl, -⟩ := passTime_frame 1 s
    rw [hisl]
    exact ⟨.inl rfl, le_rfl, rfl, rfl, rfl⟩
  · obtain ⟨hid, hsecret, hvendor⟩ : _ ∧ _ ∧ _ := by simpa only [Prod.mk.injEq] using hlasts.fused
    exact ⟨hlasts.lc, hlasts.fwSvn, hid, hsecret, hvendor⟩

/-- What a command does to clock, queue and what was sent. -/
theorem Sound.frame {s t : State} (h : Sound s t) : t.now = s.now ∧ t.pending = s.pending ∧ ∃ o, t.out = s.out ++ o := by
  obtain ⟨o, ho⟩ := h.out
  exact ⟨h.now, h.pending, o, ho.symm⟩

/-- Settles O59: every command is sound, and only a nanosecond moves the clock. -/
theorem commandsLeaveTimeAndQueueAndTakeNothingBack : Obligations.CommandsLeaveTimeAndQueueAndTakeNothingBack := by
  unfold Obligations.CommandsLeaveTimeAndQueueAndTakeNothingBack
  refine ⟨fun i s t hexec => ?_, fun s t hstep => ⟨fun hidle => ?_, fun i rest hwait => ?_⟩⟩
  · obtain ⟨u, hu, hlasts⟩ := exec_lasts i s
    rw [hu] at hexec
    injection hexec with htu
    exact htu ▸ hlasts.frame
  · obtain ⟨-, rfl⟩ | ⟨i, rest, hwait, -⟩ := step_cases hstep
    · obtain ⟨-, hpending, hout, -, hnow⟩ := passTime_frame 1 s
      exact ⟨hnow, hpending.trans hidle, hout⟩
    · simp [hidle] at hwait
  · obtain ⟨hidle, -⟩ | ⟨j, rest', hwait', hlasts⟩ := step_cases hstep
    · simp [hwait] at hidle
    · obtain ⟨-, rfl⟩ := List.cons.inj (hwait.symm.trans hwait')
      exact hlasts.frame

/-- The fabric's correction of one nanosecond is at most the 10 µs boundaries it passes. -/
theorem slewStep_bounds (a b : Nat) (r : Int) : -(((b / 10000 - a / 10000 : Nat) : Int)) ≤ slewStep a b r ∧ slewStep a b r ≤ ((b / 10000 - a / 10000 : Nat) : Int) := by
  unfold slewStep
  dsimp only
  omega

/-- Settles O53: a step is the front command's meaning, and no command faults or refuses. -/
theorem stepRunsTheFrontCommand : Obligations.StepRunsTheFrontCommand := by
  unfold Obligations.StepRunsTheFrontCommand
  refine ⟨fun i s => rfl, fun i rest s hwait => step_of_waiting hwait, fun i s => ?_, fun s hidle => ⟨fun hoff => ?_, fun hon => ⟨?_, ?_⟩⟩⟩
  · obtain ⟨t, ht, -⟩ := exec_lasts i s
    exact ⟨t, ht⟩
  · rw [step_of_idle hidle, passTime, onlyIf, hoff]
    rfl
  · rw [step_of_idle hidle, passTime, onlyIf, hon]
    rfl
  · exact slewStep_bounds ..

end Sys2Proof.Machine
end
section
/-! PROOFS. What the registers and the invariants are at reset. -/
namespace Sys2Proof.Machine

/-- Settles O55: reset lists no byte, its cap is 750 W and its queue is empty. -/
theorem resetMeetsTheInvariants : Obligations.ResetMeetsTheInvariants := by
  unfold Obligations.ResetMeetsTheInvariants
  exact ⟨rfl, fun _ => rfl, by unfold Safety.CapInRange; decide, rfl, rfl⟩

/-! ### Registers at a fixed place -/

theorem ctlWord_reset_single :
    ctlWord State.reset 0x0000000 = 0x0800 ∧ ctlWord State.reset 0x0000028 = 0x200000 ∧ ctlWord State.reset 0x0000030 = 0 ∧
    ctlWord State.reset 0x0100000 = 0 ∧ ctlWord State.reset 0x0C00000 = 0 ∧ ctlWord State.reset 0x0E00000 = 0 ∧
    ctlWord State.reset 0x0F00000 = 0 ∧ ctlWord State.reset 0x0F00010 = 0 ∧ ctlWord State.reset 0x0F00014 = 0 ∧
    ctlWord State.reset 0x0F0001C = 0x2EE ∧ ctlWord State.reset 0x1000000 = 0 ∧ ctlWord State.reset 0x1000008 = 0x3E8 := by
  decide

theorem ctlWord_reset_predCfg : ∀ i, i < 16 → ctlWord State.reset (0x0400180 + 4 * i) = 0x61C0 := by decide

theorem ctlWord_reset_spStatus : ∀ i, i < 16 → ctlWord State.reset (0x0500000 + 0x10000 * i) = 0xFF000000 := by decide

theorem ctlWord_reset_spConfig : ∀ i, i < 16 → ctlWord State.reset (0x0500008 + 0x10000 * i) = 3 := by decide

theorem ctlWord_reset_credits : ∀ i, i < 16 →
    ctlWord State.reset (0x0700080 + 4 * i) = 0x40 ∧ ctlWord State.reset (0x0800080 + 4 * i) = 0x40 ∧
    ctlWord State.reset (0x0C00800 + 4 * i) = 0x40 := by decide

/-! ### The hitches, the last array of their block -/

/-- Keeping the fields that software set moves no row. -/
theorem keptRow_entry (s : State) (org : Nat) (r : RegRow) (off : Nat) : (keptRow s org r).entry off = r.entry off := by
  unfold keptRow
  split <;> rfl

/-- A word that only the last row holds. -/
theorem regWordOf_append_singleton {rows : List RegRow} {r : RegRow} {off i : Nat} (hrows : ∀ x ∈ rows, x.entry off = none)
    (hr : r.entry off = some i) : regWordOf (rows ++ [r]) off = bits (r.val i) (8 * ((off - r.base) % r.stride)) 32 := by
  have hnone : (rows.findSome? fun r => (r.entry off).map fun i => bits (r.val i) (8 * ((off - r.base) % r.stride)) 32) = none := by
    rw [List.findSome?_eq_none_iff]
    intro x hx
    rw [hrows x hx]
    rfl
  simp [regWordOf, List.findSome?_append, hnone, hr]

/-- A row whose registers end below an offset does not hold it. -/
theorem entry_of_past {r : RegRow} {off : Nat} (h : r.base + r.stride * r.count ≤ off) : r.entry off = none := if_pos (.inr h)

/-- The rows of the block but for the hitches end at 0x80000. -/
theorem hchRows_reset_past {w : Nat} (hw : 0x80000 ≤ w) : ∀ x ∈ (hchRows State.reset).dropLast, x.entry w = none := by
  have hpast : ∀ x ∈ (hchRows State.reset).dropLast, x.base + x.stride * x.count ≤ 0x80000 := by decide
  intro x hx
  exact entry_of_past ((hpast x hx).trans hw)

/-- The array of the hitches, as reset leaves it (R493). -/
def hitchRow : RegRow := regArr 0x80000 8 65536 8 .hidden fun h => 0x100000000 * hitchTgt State.reset h + hitchVal State.reset h

theorem hchRows_reset_eq : hchRows State.reset = (hchRows State.reset).dropLast ++ [hitchRow] := by
  simp [hchRows, hitchRow, at_, Nat.mul_comm]

theorem ctlTable_hch {s : State} {w : Nat} (hw : w < 0x100000) : ctlTable s (0x0B00000 + w) = (hchRows s, w) := by
  have hblk : (0x0B00000 + w) / 0x100000 = 0x0B := by omega
  have hoff : (0x0B00000 + w) % 0x100000 = w := by omega
  unfold ctlTable
  rw [hblk, hoff]
  rfl

/-- No valid bit stands beside the hitches. -/
theorem keptRow_hitchRow {s : State} {org : Nat} (horg : org / 0x100000 = 0x0B) : keptRow s org hitchRow = hitchRow := by
  have hnone : keptOf (org / 0x100000) hitchRow.base = none := by
    rw [horg]
    decide
  unfold keptRow
  rw [hnone]

/-- The entry of a hitch's register. -/
theorem hitchRow_entry {h d : Nat} (hh : h < 65536) (hd : d < 8) :
    hitchRow.entry (0x80000 + 8 * h + d) = some h ∧ (0x80000 + 8 * h + d - hitchRow.base) % hitchRow.stride = d := by
  have hplace : (0x80000 + 8 * h + d - 0x80000) % 8 = d := by omega
  have hindex : (0x80000 + 8 * h + d - 0x80000) / 8 = h := by omega
  have hin : ¬(0x80000 + 8 * h + d < 0x80000 ∨ 0x80000 + 8 * 65536 ≤ 0x80000 + 8 * h + d) := by omega
  refine ⟨?_, hplace⟩
  simp only [RegRow.entry, hitchRow, regArr, hin, hplace, hindex, hd, if_true, if_false]

/-- Half `d` of the register of hitch `h`. -/
theorem ctlWord_reset_hitch_half {h d : Nat} (hh : h < 65536) (hd : d < 8) : ctlWord State.reset (0x0B80000 + 8 * h + d) = bits 0x100000000 (8 * d) 32 := by
  have hoff : 0x0B80000 + 8 * h + d = 0x0B00000 + (0x80000 + 8 * h + d) := by omega
  obtain ⟨hentry, hplace⟩ := hitchRow_entry hh hd
  have hrow : ∀ org, org / 0x100000 = 0x0B →
      regWordOf ((hchRows State.reset).map (keptRow State.reset org)) (0x80000 + 8 * h + d) = bits 0x100000000 (8 * d) 32 := by
    intro org horg
    rw [hchRows_reset_eq, List.map_append, List.map_singleton, keptRow_hitchRow horg, regWordOf_append_singleton ?_ hentry, hplace]
    · rfl
    · intro x hx
      obtain ⟨y, hy, rfl⟩ := List.mem_map.mp hx
      rw [keptRow_entry]
      exact hchRows_reset_past (by omega) y hy
  rw [ctlWord, ctlRows, hoff, ctlTable_hch (by omega)]
  exact hrow _ (by dsimp only; omega)

/-- Every hitch has value 0 and target 1. -/
theorem ctlWord_reset_hitch {h : Nat} (hh : h < 65536) :
    ctlWord State.reset (0x0B80000 + 8 * h) = 0 ∧ ctlWord State.reset (0x0B80004 + 8 * h) = 1 := by
  have hlow := ctlWord_reset_hitch_half (d := 0) hh (by decide)
  have hhigh := ctlWord_reset_hitch_half (d := 4) hh (by decide)
  rw [show 0x0B80004 + 8 * h = 0x0B80000 + 8 * h + 4 by omega]
  exact ⟨hlow, hhigh⟩

/-! ### Functions and their rings -/

theorem ring_reset_enable (f k : Nat) : (ring State.reset f k).enable = false := by
  unfold ring
  split <;> rfl

/-- Settles O54: the fixed registers and the arrays of 16 by evaluation, the hitches by their place in the block. -/
theorem resetHoldsTheRegisterTablesValues : Obligations.ResetHoldsTheRegisterTablesValues := by
  unfold Obligations.ResetHoldsTheRegisterTablesValues
  obtain ⟨hctrl, hstatus, hcount, hseq, hfab, hprt, hmgt, htoken, hpower, hcap, herr, hhang⟩ := ctlWord_reset_single
  refine ⟨hctrl, hstatus, hcount, hseq, hfab, hprt, hmgt, htoken, hpower, hcap, herr, hhang, fun i hi => ?_, fun h hh => ctlWord_reset_hitch hh,
    fun f _ => ⟨rfl, rfl, rfl, fun q _ => ring_reset_enable f q⟩, rfl, rfl, rfl⟩
  obtain ⟨ht1, ht2, hcredit⟩ := ctlWord_reset_credits i hi
  exact ⟨ctlWord_reset_predCfg i hi, ctlWord_reset_spStatus i hi, ctlWord_reset_spConfig i hi, ht1, ht2, hcredit, rfl⟩

end Sys2Proof.Machine
end
section
/-! PROOFS. Completions and events: what leaves at a ring's tail, what waits, what is dropped and counted. -/
namespace Sys2Proof.Machine

/-! ### Counters and bytes -/

/-- A saturating counter of an array reads one more. -/
theorem get_inc_same (w : Nat) (hw : 0 < w) (t : Tbl Nat) (k : Nat) : Tbl.get 0 (Tbl.inc w t k) k = min (Tbl.get 0 t k + 1) (2 ^ w - 1) := by
  have hone : 1 < 2 ^ w := Nat.one_lt_two_pow (by omega)
  have hne : min (Tbl.get 0 t k + 1) (2 ^ w - 1) ≠ 0 := by omega
  exact Tbl.get_set_same_ne 0 t k _ hne

theorem leBytes_one (x : Nat) : leBytes 1 x = [BitVec.ofNat 8 x] := rfl

theorem b2n_lt_two (b : Bool) : b2n b < 2 := by cases b <;> decide

/-! ### What a message of a ring leaves -/

@[simp] theorem sendVector_cmds (f v : Nat) (s : State) : (sendVector f v s).host.cmds = s.host.cmds := by
  unfold sendVector
  split <;> rfl

@[simp] theorem checkReport_cmds (f k : Nat) (s : State) : (checkReport f k s).host.cmds = s.host.cmds := by
  unfold checkReport onlyIf
  dsimp only
  split
  · exact sendVector_cmds ..
  · rfl

theorem flushCompletions_cmds (f q : Nat) (es : List (List Byte)) (s : State) : (flushCompletions f q es s).host.cmds = s.host.cmds := by
  induction es generalizing s with
  | nil => rfl
  | cons e es ih =>
    unfold flushCompletions
    dsimp only
    split
    · rfl
    · rw [ih, checkReport_cmds]
      rfl

/-! ### Completions -/

/-- The bytes of a completion as they are written (R568). -/
theorem completionBytes_set_phase (m : Mbx) (st det : Nat) (res : List Byte) (ph : Bool) :
    (completionBytes m st det res).set 3 (BitVec.ofNat 8 (b2n ph)) =
      leBytes 2 m.tag ++ leBytes 1 st ++ leBytes 1 (b2n ph) ++ leBytes 2 det ++ leBytes 2 0 ++ leBytes 8 m.cookie ++ padTo 16 res := rfl

/-- Where R568 puts what a completion says. -/
theorem completion_layout {tag st det cookie : Nat} {res : List Byte} (ph : Bool) (htag : tag < 2 ^ 16) (hst : st < 2 ^ 8) (hdet : det < 2 ^ 16)
    (hcookie : cookie < 2 ^ 64) :
    let b := leBytes 2 tag ++ leBytes 1 st ++ leBytes 1 (b2n ph) ++ leBytes 2 det ++ leBytes 2 0 ++ leBytes 8 cookie ++ padTo 16 res
    b.length = 32 ∧ leAt b 0 2 = tag ∧ leAt b 2 1 = st ∧ leAt b 3 1 = b2n ph ∧ leAt b 4 2 = det ∧ leAt b 6 2 = 0 ∧ leAt b 8 8 = cookie ∧
      sliceBytes b 16 16 = padTo 16 res := by
  intro b
  have hph := b2n_lt_two ph
  refine ⟨?_, ?_, ?_, ?_, ?_, ?_, ?_, ?_⟩
  · simp [b, leBytes_length, padTo_length]
  · exact leAt_middle [] tag _ 0 2 (by simp [b]; rfl) rfl htag
  · exact leAt_middle (leBytes 2 tag) st _ 2 1 (by simp [b]; rfl) rfl hst
  · exact leAt_middle (leBytes 2 tag ++ leBytes 1 st) (b2n ph) _ 3 1 (by simp [b]; rfl) rfl (by omega)
  · exact leAt_middle (leBytes 2 tag ++ leBytes 1 st ++ leBytes 1 (b2n ph)) det _ 4 2 (by simp [b]; rfl) rfl hdet
  · exact leAt_middle (leBytes 2 tag ++ leBytes 1 st ++ leBytes 1 (b2n ph) ++ leBytes 2 det) 0 _ 6 2 (by simp [b]; rfl) rfl (by decide)
  · exact leAt_middle (leBytes 2 tag ++ leBytes 1 st ++ leBytes 1 (b2n ph) ++ leBytes 2 det ++ leBytes 2 0) cookie _ 8 8 (by simp [b]; rfl) rfl hcookie
  · exact sliceBytes_middle (leBytes 2 tag ++ leBytes 1 st ++ leBytes 1 (b2n ph) ++ leBytes 2 det ++ leBytes 2 0 ++ leBytes 8 cookie) _ [] 16 16
      (by simp [b]) rfl (padTo_length 16 res)

section
variable {c : Cmd} {s : State} (hlive : cmdLive s c = true) (hepoch : (ring s c.m.func c.m.queue).epoch = c.epoch)
include hlive hepoch

/-- A command that completed is held no longer. -/
theorem cmdLive_complete (st det : Nat) (res : List Byte) : cmdLive (complete c st det res s) c = false := by
  have hcmds : (complete c st det res s).host.cmds = s.host.cmds.filter fun x => x.id != c.id := by
    by_cases hgoes : enabled s c.m.func = true ∧ (ring s c.m.func c.m.queue).live = true
    · rw [complete_written c st det res s hlive hepoch hgoes.1 hgoes.2, flushCompletions_cmds, uncommand_cmds]
    · rw [complete_dropped c st det res s hlive hepoch (by simpa only [not_and_or, Bool.not_eq_true] using hgoes)]
      exact uncommand_cmds c s
  simp [cmdLive, hcmds]

/-- With room, nothing before it and no interrupt, one completion leaves and the ring's tail advances. -/
theorem complete_into_room {st det : Nat} {res : List Byte} (hon : enabled s c.m.func = true) (hring : (ring s c.m.func c.m.queue).live = true)
    (hwait : (ring s c.m.func c.m.queue).waiting = []) (hroom : (ring s c.m.func c.m.queue).unreturned < (ring s c.m.func c.m.queue).size)
    (hirq : (ring s c.m.func c.m.queue).irqEn = false) :
    complete c st det res s = modRing c.m.func c.m.queue (fun r => { r with waiting := [] }) (modRing c.m.func c.m.queue (fun r => r.wrote s.now)
      (emit (.completion c.m.func c.m.queue (ring s c.m.func c.m.queue).tail
        ((completionBytes c.m st det res).set 3 (BitVec.ofNat 8 (b2n (ring s c.m.func c.m.queue).phase)))) (uncommand c s))) := by
  have hring' := uncommand_ring c s
  rw [complete_written c st det res s hlive hepoch hon hring, hwait, List.nil_append, flushCompletions_room _ _ _ _ _ (by rw [hring']; exact hroom),
    flushCompletions, hring', checkReport_off]
  · rfl
  · rw [ring_modRing_same, ring_emit, hring']
    exact hirq

theorem ring_complete_into_room {st det : Nat} {res : List Byte} (hon : enabled s c.m.func = true) (hring : (ring s c.m.func c.m.queue).live = true)
    (hwait : (ring s c.m.func c.m.queue).waiting = []) (hroom : (ring s c.m.func c.m.queue).unreturned < (ring s c.m.func c.m.queue).size)
    (hirq : (ring s c.m.func c.m.queue).irqEn = false) :
    let r := ring s c.m.func c.m.queue
    let r' := ring (complete c st det res s) c.m.func c.m.queue
    r'.tail = (r.tail + 1) % r.size ∧ r'.phase = (if (r.tail + 1) % r.size = 0 then !r.phase else r.phase) ∧ r'.unreturned = r.unreturned + 1 := by
  rw [complete_into_room hlive hepoch hon hring hwait hroom hirq, ring_modRing_same, ring_modRing_same, ring_emit, uncommand_ring]
  exact ⟨rfl, rfl, rfl⟩

/-- With no room it waits behind the others. -/
theorem complete_into_full {st det : Nat} {res : List Byte} (hon : enabled s c.m.func = true) (hring : (ring s c.m.func c.m.queue).live = true)
    (hfull : (ring s c.m.func c.m.queue).size ≤ (ring s c.m.func c.m.queue).unreturned) :
    complete c st det res s = modRing c.m.func c.m.queue
      (fun r => { r with waiting := (ring s c.m.func c.m.queue).waiting ++ [completionBytes c.m st det res] }) (uncommand c s) := by
  rw [complete_written c st det res s hlive hepoch hon hring]
  cases hes : (ring s c.m.func c.m.queue).waiting ++ [completionBytes c.m st det res] with
  | nil => simp at hes
  | cons e es => exact flushCompletions_full _ _ _ _ _ (by rw [uncommand_ring]; exact hfull)

end

/-- Settles O7: by the three ways a completion goes. -/
theorem completionsReachTheirRing : Obligations.CompletionsReachTheirRing := by
  unfold Obligations.CompletionsReachTheirRing
  intro c st det res s hlive _ hepoch
  dsimp only
  refine ⟨cmdLive_complete hlive hepoch st det res, fun hon hring hwait hroom hirq htag hst hdet hcookie => ⟨?_, ring_complete_into_room hlive hepoch hon hring hwait hroom hirq⟩,
    fun hon hring hfull => ?_, fun hoff => ?_⟩
  · refine ⟨_, congrArg State.out (complete_into_room hlive hepoch hon hring hwait hroom hirq), ?_⟩
    rw [completionBytes_set_phase]
    exact completion_layout _ htag hst hdet hcookie
  · rw [complete_into_full hlive hepoch hon hring hfull, ring_modRing_same]
    exact ⟨rfl, rfl⟩
  · rw [complete_dropped c st det res s hlive hepoch (.inl hoff), func_modFunc_same]
    have hdropped : (func (countError 8 (uncommand c s)) c.m.func).cplDropped = (func s c.m.func).cplDropped := uncommand_func_cplDropped c s
    refine ⟨uncommand_out c s, ?_, get_inc_same 32 (by decide) s.err.classCount 8⟩
    rw [hdropped]
    rfl

/-! ### Events -/

/-- Where R572 puts what an event says. -/
theorem event_layout {code part sq now : Nat} {pay : List Byte} (ph lost : Bool) (hcode : code < 2 ^ 16) (hpart : part < 2 ^ 8) (hsq : sq < 2 ^ 32)
    (hnow : now < 2 ^ 64) :
    let b := leBytes 2 code ++ [BitVec.ofNat 8 (b2n ph + 2 * b2n lost), BitVec.ofNat 8 part] ++ leBytes 4 sq ++ leBytes 8 now ++ padTo 112 pay
    b.length = 128 ∧ leAt b 0 2 = code ∧ leAt b 2 1 = b2n ph + 2 * b2n lost ∧ leAt b 3 1 = part ∧ leAt b 4 4 = sq ∧ leAt b 8 8 = now ∧
      sliceBytes b 16 112 = padTo 112 pay := by
  intro b
  have hflags : b2n ph + 2 * b2n lost < 256 := by
    have hph := b2n_lt_two ph
    have hlost := b2n_lt_two lost
    omega
  have hb : b = leBytes 2 code ++ leBytes 1 (b2n ph + 2 * b2n lost) ++ leBytes 1 part ++ leBytes 4 sq ++ leBytes 8 now ++ padTo 112 pay := rfl
  refine ⟨?_, ?_, ?_, ?_, ?_, ?_, ?_⟩
  · simp [hb, leBytes_length, padTo_length]
  · exact leAt_middle [] code _ 0 2 (by simp [hb]; rfl) rfl hcode
  · exact leAt_middle (leBytes 2 code) _ _ 2 1 (by simp [hb]; rfl) rfl hflags
  · exact leAt_middle (leBytes 2 code ++ leBytes 1 (b2n ph + 2 * b2n lost)) part _ 3 1 (by simp [hb]; rfl) rfl hpart
  · exact leAt_middle (leBytes 2 code ++ leBytes 1 (b2n ph + 2 * b2n lost) ++ leBytes 1 part) sq _ 4 4 (by simp [hb]; rfl) rfl hsq
  · exact leAt_middle (leBytes 2 code ++ leBytes 1 (b2n ph + 2 * b2n lost) ++ leBytes 1 part ++ leBytes 4 sq) now _ 8 8 (by simp [hb]; rfl) rfl hnow
  · exact sliceBytes_middle (leBytes 2 code ++ leBytes 1 (b2n ph + 2 * b2n lost) ++ leBytes 1 part ++ leBytes 4 sq ++ leBytes 8 now) _ [] 16 112
      (by simp [hb]) rfl (padTo_length 112 pay)

/-- An event that a function cannot take is lost and counted. -/
theorem writeEvent_lost {code part f : Nat} {pay : List Byte} {s : State} (hsuppressed : (func s f).suppressed.contains code = false)
    (hlost : enabled s f = false ∨ (func s f).eq.live = false ∨ (func s f).eq.size ≤ (func s f).eq.unreturned) :
    writeEvent code part pay f s = modFunc f (fun x => { x with eventLost := satAdd 32 x.eventLost 1, lost := true }) (countError 8 s) := by
  have hc : (!enabled s f || !(func s f).eq.live || decide ((func s f).eq.size ≤ (func s f).eq.unreturned)) = true := by
    obtain h | h | h := hlost <;> simp [h]
  simp only [writeEvent, hsuppressed, Bool.false_eq_true, if_false]
  exact if_pos hc

/-- The state after an event is written at the ring's tail. -/
theorem writeEvent_into_room {code part f : Nat} {pay : List Byte} {s : State} (hsuppressed : (func s f).suppressed.contains code = false)
    (hon : enabled s f = true) (hring : (func s f).eq.live = true) (hroom : (func s f).eq.unreturned < (func s f).eq.size)
    (hirq : (func s f).eq.irqEn = false) :
    writeEvent code part pay f s = modFunc f (fun x => { x with eq := x.eq.wrote s.now, eventSeq := ((func s f).eventSeq + 1) % 2 ^ 32, lost := false })
      (emit (.event f (func s f).eq.tail (leBytes 2 code ++
        [BitVec.ofNat 8 (b2n (func s f).eq.phase + 2 * b2n (func s f).lost), BitVec.ofNat 8 part] ++
        leBytes 4 (((func s f).eventSeq + 1) % 2 ^ 32) ++ leBytes 8 (rack s) ++ padTo 112 pay)) s) := by
  have hc : (!enabled s f || !(func s f).eq.live || decide ((func s f).eq.size ≤ (func s f).eq.unreturned)) = false := by
    simp [hon, hring, hroom]
  simp only [writeEvent, hsuppressed, Bool.false_eq_true, if_false]
  rw [if_neg (by simp [hc]), checkReport_off]
  simpa [ring, func_emit, Ring.wrote] using hirq

/-- Settles O8: by the three ways an event goes. -/
theorem eventsReachTheirRing : Obligations.EventsReachTheirRing := by
  unfold Obligations.EventsReachTheirRing
  intro code part pay f s
  dsimp only
  refine ⟨fun hsuppressed => if_pos hsuppressed, fun hheard hlost => ?_, fun hheard hon hring hroom hirq hcode hpart => ?_⟩
  · rw [writeEvent_lost hheard hlost, func_modFunc_same]
    exact ⟨rfl, rfl, rfl⟩
  · rw [writeEvent_into_room hheard hon hring hroom hirq, func_modFunc_same, func_emit]
    exact ⟨⟨_, rfl, event_layout _ _ hcode hpart (Nat.mod_lt _ (by decide)) s.step.rackTime.isLt⟩, rfl, rfl, rfl⟩

end Sys2Proof.Machine
end
section
/-! PROOFS. Steps, segments, step configurations, run control, rack time. -/
namespace Sys2Proof.Machine

/-! ### Segments -/

/-- The next segment of a step is due. -/
theorem exec_segmentStart_of_due {s : State} {r : StepRun} {e : SegEntry} (hrun : s.step.running = some r) (hseg : r.segs[r.next]? = some e)
    (hon : dieOn s = true) (hout : r.inSeg = false) :
    let u : State := { s with step := { s.step with segment := r.next, inReserve := false } }
    let start := max r.cycle r.scheduled
    exec .segmentStart s = .next (match runsIn u r e.partition, Tbl.get none s.prog.active e.partition, activeProg u e.partition with
      | true, some a, some g =>
        enterSegment e.partition r.next a g (modStep (fun x => { x with running := some { r with inSeg := true, actual := start, segSlack := [] } }) u)
      | _, _, _ => endStep (passSegment e (start + 1152 + e.budget) u)) := by
  show execSegmentStart s = _
  unfold execSegmentStart
  simp only [hrun, hseg, hon, hout, Bool.not_true, Bool.or_self, Bool.false_eq_true, if_false, modStep] <;> rfl

/-- A program that is over, with nothing holding a part up, ends its segment. -/
theorem exec_programEnd_of_over {s : State} {r0 r : SeqRun} {sr0 sr : StepRun} (hcur : s.seq.cur = some r0) (hrun : s.step.running = some sr0)
    (hon : dieOn s = true) (hover : programOver r0 = true) (hfree : heldUp (finishParts r0 s) = false)
    (hcur' : (finishParts r0 s).seq.cur = some r) (hrun' : (finishParts r0 s).step.running = some sr) :
    let e := sr.segs.getD sr.next { valid := true, partition := r.part, budget := 0 }
    let u := noteImbalance r (noteLate e sr r.work (finishParts r0 s))
    let v := readResults r.part sr.next r.fault (modNpPart r.part (fun x => { x with exps := u.np.layerExp }) (noteFault r (endBreaches r u)))
    exec .programEnd s = .next (endStep (passSegment e (sr.actual + 1152 + r.work + slackSum sr.segSlack)
      (syncSeq (modSeq (fun q => { q with cur := none, ended := true }) v)))) := by
  show execProgramEnd s = _
  unfold execProgramEnd
  simp only [hcur, hrun, hon, hover, hfree, hcur', hrun', Bool.not_true, Bool.or_self, Bool.false_eq_true, if_false]

/-- Settles O3: by what SEGMENT_START finds to run, and by the model's order at the end of a program. -/
theorem segmentsStartAndEndInTurn : Obligations.SegmentsStartAndEndInTurn := by
  unfold Obligations.SegmentsStartAndEndInTurn
  refine ⟨fun s r e hrun hseg hon hout => ⟨fun a g hruns hactive hprog => ?_, fun hidle => ?_⟩,
    fun s r0 r sr0 sr hcur hrun hon hover hfree hcur' hrun' => exec_programEnd_of_over hcur hrun hon hover hfree hcur' hrun'⟩
  · rw [exec_segmentStart_of_due hrun hseg hon hout]
    simp only [hruns, hactive, hprog]
    rfl
  · rw [exec_segmentStart_of_due hrun hseg hon hout]
    simp only [hidle]
    simp only [passSegment, modStep, hrun, Option.map_some]

/-! ### Step configurations -/

/-- The body of DEV_STEP_CONFIG on the registers that host memory gives, all of them clean. -/
theorem devStepConfig_of_clean {c : Cmd} {u : State} {bs : List Byte} (hgives : Safety.HostGives c u (pNum c 16 8) 128 bs)
    (hclean : (((List.range 16).map fun i => leAt (padTo 128 bs) (8 * i) 8).all fun x => bits x 36 27 == 0) = true) :
    let xs := (List.range 16).map fun i => leAt (padTo 128 bs) (8 * i) 8
    let cfg : StepCfg := { period := pNum c 0 4, origin := pNum c 8 8, segs := segTable xs, overrunLimit := pByte c 4, lateEvents := pBit c 5 0 }
    let a := if u.step.staged.isSome then refuse stBusy u else if !configFits u cfg then refuse stRefusedSchedule u
      else later (stageConfig cfg (modStep (fun t =>
        { t with periodNs := cfg.period, origin := cfg.origin, segRegs := (xs.mapIdx fun i x => (i, x)).foldl (fun a y => Tbl.set 0 a y.1 y.2) [] }) u))
    devStepConfig c u = (noteAts c.m.func (((busAddr u c.m.func (pNum c 16 8) 128).map fun b => b.2.2).getD 0) 128 a.1, a.2) := by
  have hnone : (((List.range 16).map fun i => leAt (padTo 128 bs) (8 * i) 8).any fun x => bits x 36 27 != 0) = false := by
    rw [List.any_eq_not_all_not]
    simpa only [bne, Bool.not_not, Bool.not_eq_false'] using hclean
  rw [devStepConfig, withHost_of_gives hgives]
  simp only [hnone, Bool.false_eq_true, if_false]

/-- Settles O4: by the form of the configuration that DEV_STEP_CONFIG finds. -/
theorem stepConfigurationsAreStagedAndTakeEffect : Obligations.StepConfigurationsAreStagedAndTakeEffect := by
  unfold Obligations.StepConfigurationsAreStagedAndTakeEffect
  refine ⟨fun s hon => ?_, fun s c hstaged hon hidle hdue => ?_, fun m s bs hstarts => ?_⟩
  · show execStepCommit s = _
    rw [execStepCommit, hon]
    rfl
  · show execStepConfigTakesEffect s = _
    simp only [execStepConfigTakesEffect, applyConfig, hstaged, hon, hidle, hdue, decide_true, Bool.not_false, Bool.and_self, if_true]
    rfl
  · intro c u addr xs cfg host hgives hclean
    have hexec : exec (.devStepConfig m) s = .next (answer c (devStepConfig c u)) := congrArg _ (runCmd_of_starts hstarts)
    have hbody := devStepConfig_of_clean hgives hclean
    refine ⟨fun hstaged => ?_, fun hnone hunfit => ?_, fun hnone hfits => ?_⟩
    · have hsome : u.step.staged.isSome = true := Option.isSome_iff_ne_none.mpr hstaged
      rw [hexec, hbody]
      simp only [hsome, if_true]
      rfl
    · have hunstaged : u.step.staged = none := hnone
      rw [hexec, hbody]
      simp only [hunstaged, Option.isSome_none, Bool.false_eq_true, if_false]
      rw [if_pos (by simpa using hunfit)]
      rfl
    · have hunstaged : u.step.staged = none := hnone
      rw [hexec, hbody]
      simp only [hunstaged, Option.isSome_none, Bool.false_eq_true, if_false]
      rw [if_neg (by simpa using hfits)]
      rfl

/-! ### Run control -/

theorem setRun_same {on : Bool} {s : State} (h : s.step.run = on) : setRun on s = s := if_pos h

theorem setTierMode_step (t mode : Nat) (s : State) : (setTierMode t mode s).step = s.step := by
  unfold setTierMode flushTier modTier
  split <;> rfl

theorem serviceTiers_step (s : State) : (serviceTiers s).step = s.step :=
  List.foldlRecOn (motive := fun u : State => u.step = s.step) [0, 1] _ rfl fun u hu t _ => by
    split
    · exact hu
    · rw [setTierMode_step, hu]

theorem setRun_on {s : State} (h : s.step.run = false) : setRun true s = rearm { serviceTiers s with step := { s.step with run := true } } := by
  rw [setRun, if_neg (by simp [h]), if_pos rfl, modStep, serviceTiers_step]

theorem setRun_off {s : State} (h : s.step.run = true) :
    setRun false s = onlyIf s.step.running.isNone stopStepping { s with step := { s.step with run := false } } := by
  rw [setRun, if_neg (by simp [h]), if_neg (by simp)]
  rfl

/-- Settles O5: by whether stepping is to change, and by whether a step still runs. -/
theorem steppingRunsAndStopsOnCommand : Obligations.SteppingRunsAndStopsOnCommand := by
  unfold Obligations.SteppingRunsAndStopsOnCommand
  refine ⟨fun s hon => ?_, fun m s hstarts => ?_⟩
  · have hexec : ∀ run, exec (.stepRunControl run) s = .next (setRun run s) := by
      intro run
      show execStepRunControl run s = _
      rw [execStepRunControl, hon]
      rfl
    refine ⟨fun hstopped => ?_, fun r hruns hrunning => ?_, fun hruns hnone => ?_, fun on hsame => ?_⟩
    · rw [hexec, setRun_on hstopped]
    · rw [hexec, setRun_off hruns, hrunning]
      rfl
    · rw [hexec, setRun_off hruns, hnone]
      rfl
    · rw [hexec, setRun_same hsame]
  · intro c
    have hexec : exec (.devStepRun m) s = .next (answer c (devStepRun c (takeCmd c s))) := congrArg _ (runCmd_of_starts hstarts)
    have hbody : s.step.active ≠ none → devStepRun c (takeCmd c s) =
        if s.step.run = pBit c 0 0 then (if !s.step.run && s.step.running.isSome then later (takeCmd c s) else done (takeCmd c s))
        else later (setRun (pBit c 0 0) (takeCmd c s)) := by
      intro hactive
      exact if_neg (by simpa [admit_step] using hactive)
    refine ⟨fun hnone => ?_, fun hactive hsame hquiet => ?_, fun hactive hstopped hask => ?_, fun r hactive hruns hask hrunning => ?_⟩
    · rw [hexec, devStepRun, if_pos (by rw [admit_step, hnone]; rfl)]
      rfl
    · rw [hexec, hbody hactive, if_pos hsame, if_neg]
      · rfl
      · obtain hrun | hnone := hquiet
        · simp [hrun]
        · simp [hnone]
    · rw [hexec, hbody hactive, hask, if_neg (by simp [hstopped]), setRun_on (s := takeCmd c s) hstopped]
      rfl
    · rw [hexec, hbody hactive, hask, if_neg (by simp [hruns]), setRun_off (s := takeCmd c s) hruns, admit_step, hrunning]
      rfl

/-! ### Rack time -/

/-- No time noted lies less than `n` ns back. -/
theorem any_recent_of_past {o : Option Nat} {now n : Nat} (h : ∀ l, o = some l → l + n ≤ now) : (o.any fun l => decide (now < l + n)) = false := by
  cases o with
  | none => rfl
  | some l => simpa using h l rfl

/-- A RACKSYNC edge that is due. -/
theorem exec_racksyncEdge_of_due {s : State} (hon : dieOn s = true) (hdue : ∀ l, s.step.lastSync = some l → l + 500000000 ≤ s.now) :
    let u := setRack s.step.syncLoad { s with step := { s.step with lastSync := some s.now } }
    let v : State := { u with fab := { u.fab with slewRest := 0 } }
    let w := if 20 < timeGap (rack s) s.step.syncLoad then raiseTo 0x0108 0xFF [.pfs] (leBytes 8 (rack s) ++ leBytes 8 s.step.syncLoad) v else v
    exec .racksyncEdge s = .next (
      if w.step.rackref = false then w
      else if w.step.holdover then raiseTo 0x0107 0xFF [.pfs] [] { w with step := { w.step with timeLocked := true, holdover := false } }
      else { w with step := { w.step with timeLocked := true } }) := by
  have hnotSoon := any_recent_of_past hdue
  show execRacksyncEdge s = _
  unfold execRacksyncEdge onlyIf
  simp only [hon, hnotSoon, Bool.not_true, Bool.or_self, Bool.false_eq_true, if_false, decide_eq_true_eq, Bool.not_eq_true']
  rfl

/-- RACKREF's loss, told to both PFs where time had locked on a running die. -/
theorem exec_rackrefLoss (s : State) :
    let u : State := { s with step := { s.step with rackref := false, holdover := true, timeLocked := false } }
    exec .rackrefLoss s = .next (if s.step.holdover = false ∧ dieOn s = true then raiseTo 0x0106 0xFF [.pfs] [] u else u) := by
  show execRackrefLoss s = _
  unfold execRackrefLoss onlyIf
  simp only [Bool.and_eq_true, Bool.not_eq_true']
  rfl

/-- Settles O6: each command's own meaning, by what it finds. -/
theorem rackTimeAndClockAreSet : Obligations.RackTimeAndClockAreSet := by
  unfold Obligations.RackTimeAndClockAreSet
  refine ⟨fun m s hstarts => ?_, fun m s hstarts => ?_, fun s => ?_, fun s hon hdue => ?_, fun s => rfl, fun s => ?_⟩
  · intro c u
    have hexec : exec (.devTimeSet m) s = .next (answer c (devTimeSet c u)) := congrArg _ (runCmd_of_starts hstarts)
    refine ⟨fun hkeeps => ?_, fun hkeeps => ?_⟩
    · rw [hexec, devTimeSet, if_neg (by simpa using hkeeps)]
      rfl
    · rw [hexec, devTimeSet, if_pos (by simpa using hkeeps)]
      rfl
  · intro c u
    have hexec : exec (.devClock m) s = .next (answer c (devClock c u)) := congrArg _ (runCmd_of_starts hstarts)
    refine ⟨fun hover => ?_, fun hin hidle => ?_, fun hin hsteps => ?_⟩
    · rw [hexec, devClock, if_pos hover]
      rfl
    · have hidle' : stepping u = false := hidle
      rw [hexec, devClock, if_neg (by omega), if_neg (by simp [hidle']), setSpread, if_neg (by simp [hidle'])]
      rfl
    · have hsteps' : stepping u = true := hsteps
      rw [hexec, devClock, if_neg (by omega), if_pos hsteps', setSpread, if_pos hsteps']
      rfl
  · unfold spreadDepth
    refine ⟨?_, fun hold => ?_, Nat.min_le_left ..⟩
    · split <;> omega
    · rw [hold]
      exact Nat.min_le_right ..
  · exact exec_racksyncEdge_of_due hon hdue
  · refine ⟨fun hhold hon => ?_, fun hquiet => ?_⟩
    · rw [exec_rackrefLoss, if_pos ⟨hhold, hon⟩]
    · rw [exec_rackrefLoss, if_neg]
      rintro ⟨hhold, hon⟩
      simp [hhold, hon] at hquiet

end Sys2Proof.Machine
end
section
/-! PROOFS. Interrupts, queues and doorbells, configuration space and BAR2, device commands. -/
namespace Sys2Proof.Machine

/-! ### Interrupts -/

theorem checkReport_due {f k : Nat} {s : State} (hirq : (ring s f k).irqEn = true) (hdue : max (ring s f k).coalCount 1 ≤ (ring s f k).unreported) :
    checkReport f k s = reportRing f k s := by
  simp [checkReport, onlyIf, hirq, hdue]

theorem checkReport_early {f k : Nat} {s : State} (h : (ring s f k).irqEn = false ∨ (ring s f k).unreported < max (ring s f k).coalCount 1) :
    checkReport f k s = s := by
  obtain hirq | hearly := h
  · exact checkReport_off f k s hirq
  · have hnot : ¬max (ring s f k).coalCount 1 ≤ (ring s f k).unreported := by omega
    simp only [checkReport, onlyIf, hnot, decide_false, Bool.and_false, Bool.false_eq_true, if_false]

/-- A vector that no entry of the table names is masked. -/
theorem masked_eq (s : State) (f v : Nat) : (Tbl.get none (func s f).msix v).elim true Msix.masked = (msixOf s f v).masked := by
  unfold msixOf Tbl.opt
  cases Tbl.get none (func s f).msix v <;> rfl

theorem sendVector_masked {f v : Nat} {s : State} (h : (msixOf s f v).masked = true) :
    sendVector f v s = modFunc f (fun x => { x with pba := x.pba ||| 2 ^ v }) s := by
  rw [sendVector, masked_eq, if_pos h]

theorem sendVector_unmasked {f v : Nat} {s : State} (h : (msixOf s f v).masked = false) : sendVector f v s = emit (.msix f v) s := by
  rw [sendVector, masked_eq, h]
  rfl

/-- A vector's entry written unmasked, with what it held pending. -/
theorem setMsix_unmasked {f v : Nat} {e : Msix} {s : State} (he : e.masked = false) :
    let u := modFunc f (fun x => { x with msix := Tbl.set none x.msix v (some e) }) s
    setMsix f v e s = if (func s f).pba.testBit v then emit (.msix f v) (modFunc f (fun x => { x with pba := x.pba - 2 ^ v }) u) else u := by
  simp [setMsix, he, bit]

/-- Settles O9: by whether the ring's message is due, and by the vector's mask. -/
theorem ringsReportByInterrupt : Obligations.RingsReportByInterrupt := by
  unfold Obligations.RingsReportByInterrupt
  refine ⟨fun f k s => ⟨fun hirq hdue => checkReport_due hirq hdue, fun hearly => checkReport_early hearly, fun hf hk hirq hus hsome hold => ?_⟩,
    fun f v s => ⟨fun hmasked => sendVector_masked hmasked, fun hopen => sendVector_unmasked hopen⟩,
    fun f v s hf hv => ⟨fun hpending => ?_, fun hnone => ?_⟩⟩
  · exact congrArg _ (if_pos ⟨hf, hk, hirq, hus, hsome, hold⟩)
  · show execMsixVectorUnmask f v s = _
    rw [execMsixVectorUnmask, if_pos ⟨hf, hv⟩, setMsix_unmasked rfl, if_pos hpending]
  · show execMsixVectorUnmask f v s = _
    rw [execMsixVectorUnmask, if_pos ⟨hf, hv⟩, setMsix_unmasked rfl, if_neg (by simp [hnone])]

/-! ### Rings put in use and out of use -/

/-- A ring not in use starts, or stops on a bad configuration. -/
theorem enableRing_of_idle {f k ctrl : Nat} {s : State} (hidle : (ring s f k).enable = false) :
    let t := modRing f k (fun r => (ringCtrl ctrl r).start) s
    enableRing f k ctrl s = if ringOk k (ringCtrl ctrl (ring s f k)).start then onlyIf (!disableCond t f) (modFunc f fun x => { x with disabled := false }) t
      else queueError f k 1 t := by
  rw [enableRing, hidle]
  simp only [Bool.false_eq_true, if_false, ring_modRing_same]
  cases ringOk k (ringCtrl ctrl (ring s f k)).start <;> rfl

theorem ringOk_queue {q ctrl : Nat} {r : Ring} (hq : q < 16) : ringOk q (ringCtrl ctrl r).start = true ↔
    r.sqBase % 4096 = 0 ∧ r.cqBase % 4096 = 0 ∧ 4 ≤ bits ctrl 24 4 ∧ bits ctrl 24 4 ≤ 12 := by
  have hnot : ¬16 ≤ q := by omega
  simp only [ringOk, minLog, hq, hnot, if_true, decide_false, Bool.false_or, Bool.and_eq_true, beq_iff_eq, decide_eq_true_eq, and_assoc]
  rfl

theorem ringOk_events {ctrl : Nat} {r : Ring} : ringOk 16 (ringCtrl ctrl r).start = true ↔
    r.sqBase % 4096 = 0 ∧ 6 ≤ bits ctrl 24 4 ∧ bits ctrl 24 4 ≤ 12 := by
  simp only [ringOk, minLog, lt_irrefl, if_false, le_refl, decide_true, Bool.true_or, Bool.and_true, Bool.and_eq_true, beq_iff_eq, decide_eq_true_eq,
    and_assoc]
  rfl

theorem onlyIf_not (c : Bool) (g : State → State) (s : State) : onlyIf (!c) g s = if c then s else g s := by
  cases c <;> rfl

/-! ### Doorbells -/

section
variable {f k v : Nat} {act : State → State} {s : State} (hstate : s.host.state ≠ 0) (hf : f < 64)
include hstate hf

theorem doorbell_in_ring (hon : (ring s f k).enable = true) (hok : (ring s f k).error = false) (hv : v < (ring s f k).size) :
    doorbell f k v act s = act s := by
  have hstart : ¬(s.host.state = 0 ∨ 64 ≤ f) := by omega
  simp [doorbell, hstart, hon, hok, hv]

theorem doorbell_past_ring (hon : (ring s f k).enable = true) (hok : (ring s f k).error = false) (hv : (ring s f k).size ≤ v) :
    doorbell f k v act s = queueError f k 2 s := by
  have hstart : ¬(s.host.state = 0 ∨ 64 ≤ f) := by omega
  simp [doorbell, hstart, hon, hok, hv]

theorem doorbell_off (hoff : (ring s f k).enable = false) :
    doorbell f k v act s = modFunc f (fun x => { x with doorbellIgnored := satAdd 32 x.doorbellIgnored 1 }) s := by
  have hstart : ¬(s.host.state = 0 ∨ 64 ≤ f) := by omega
  simp [doorbell, hstart, hoff]

end

theorem exec_sqDoorbell {f q v : Nat} {s : State} (hq : q < 16) (hv : v < 4096) : exec (.sqDoorbell f q v) s = .next (ringSq f q v s) := by
  show execSqDoorbell f q v s = _
  rw [execSqDoorbell, if_pos hq, Nat.mod_eq_of_lt hv]

theorem exec_cqDoorbell {f q v : Nat} {s : State} (hq : q < 16) (hv : v < 4096) : exec (.cqDoorbell f q v) s = .next (ringCq f q v s) := by
  show execCqDoorbell f q v s = _
  rw [execCqDoorbell, if_pos hq, Nat.mod_eq_of_lt hv]

theorem exec_eqDoorbell {f v : Nat} {s : State} (hv : v < 4096) : exec (.eqDoorbell f v) s = .next (ringEq f v s) := by
  show execEqDoorbell f v s = _
  rw [execEqDoorbell, Nat.mod_eq_of_lt hv]

/-- Settles O10: by the ring's configuration, and by the doorbell's place. -/
theorem queuesStartStopAndTakeDoorbells : Obligations.QueuesStartStopAndTakeDoorbells := by
  unfold Obligations.QueuesStartStopAndTakeDoorbells
  refine ⟨fun f ctrl s hf => ⟨fun q hq hidle => ⟨fun hsq hcq hlow hhigh => ?_, fun hbad => ?_⟩, fun hidle hsq hlow hhigh => ?_⟩,
    fun f q s hf hq hon => ?_, fun f q v s hstate hf hq hv => ⟨fun hon hok hin => ⟨?_, ?_⟩, fun hon hok hout => ⟨?_, ?_⟩, fun hoff => ⟨?_, ?_⟩⟩,
    fun f v s hstate hf hin hv hon hok => ?_⟩
  · show execQueueEnable f q ctrl s = _
    rw [execQueueEnable, if_pos ⟨hf, hq⟩, enableRing_of_idle hidle, if_pos ((ringOk_queue hq).mpr ⟨hsq, hcq, hlow, hhigh⟩), onlyIf_not]
    rfl
  · show execQueueEnable f q ctrl s = _
    rw [execQueueEnable, if_pos ⟨hf, hq⟩, enableRing_of_idle hidle, if_neg (by rw [ringOk_queue hq]; omega)]
    rfl
  · show execEventRingEnable f ctrl s = _
    rw [execEventRingEnable, if_pos hf, enableRing_of_idle hidle, if_pos (ringOk_events.mpr ⟨hsq, hlow, hhigh⟩), onlyIf_not]
    rfl
  · show execQueueDisable f q s = _
    rw [execQueueDisable, if_pos ⟨hf, hq⟩, disableRing, hon]
    rfl
  · rw [exec_sqDoorbell hq hv, ringSq, doorbell_in_ring hstate hf hon hok hin]
  · rw [exec_cqDoorbell hq hv, ringCq, doorbell_in_ring hstate hf hon hok hin]
  · rw [exec_sqDoorbell hq hv, ringSq, doorbell_past_ring hstate hf hon hok hout]
  · rw [exec_cqDoorbell hq hv, ringCq, doorbell_past_ring hstate hf hon hok hout]
  · rw [exec_sqDoorbell hq hv, ringSq, doorbell_off hstate hf hoff]
    rfl
  · rw [exec_cqDoorbell hq hv, ringCq, doorbell_off hstate hf hoff]
    rfl
  · rw [exec_eqDoorbell hv, ringEq, doorbell_in_ring hstate hf (k := 16) hon hok hin]
    rfl

end Sys2Proof.Machine
end
section
/-! PROOFS. Configuration space and BAR2, device commands. -/
namespace Sys2Proof.Machine

/-! ### Configuration space -/

/-- A request to a function that is present, at a port whose configuration space is ready. -/
theorem exec_configRequest_of_ready {f t : Nat} {r : CfgReq} {s : State} (hf : f < 64) (hup : (hostPort s (f / 32)).linkUp = true)
    (hready : (hostPort s (f / 32)).readyAt = some t) (ht : t ≤ s.now) (hthere : funcPresent s f = true) :
    exec (.configRequest f r) s = .next (configWrite f r s) := by
  have hreach : ¬(64 ≤ f ∨ (!(hostPort s (f / 32)).linkUp) = true) := by
    rw [hup]
    simpa using hf
  show execConfigRequest f r s = _
  rw [execConfigRequest, if_neg hreach, if_neg (by simpa [hready] using ht), if_neg (by simp [hthere])]

/-! ### BAR2 -/

section
variable {f off : Nat} {s : State} (hf : f < 64) (hup : (hostPort s (f / 32)).linkUp = true)
include hf hup

/-- A read of a function whose port is up. -/
theorem exec_bar2Read_of_up {r : LenRead} (hlen : r.len ≠ 0) :
    exec (.bar2Read f off r) s = .next (match bar2Place s f off r.len with
      | some (t, o) =>
        let a := tierRead t o r.len 0 (readFinds [] [(tierBase t + o, r.len)] r.found s)
        emit (.bar2Data f a.1.1 a.1.2) a.2
      | none => emit (.advisory f) (emit (.unsupported f) (countError 8 s))) := by
  have hreach : ¬(64 ≤ f ∨ r.len = 0 ∨ (!(hostPort s (f / 32)).linkUp) = true) := by
    rw [hup]
    simp [hf, hlen]
  exact congrArg _ (if_neg hreach)

/-- A write of a function whose port is up. -/
theorem exec_bar2Write_of_up {data : List Byte} (hdata : data ≠ []) :
    exec (.bar2Write f off data) s = .next (match bar2Place s f off data.length with
      | some (t, o) => if sharedHome s t o data.length then emit (.advisory f) (countError 8 s) else tierWrite t o data false 0 s
      | none => emit (.advisory f) (countError 8 s)) := by
  have hreach : ¬(64 ≤ f ∨ data = [] ∨ (!(hostPort s (f / 32)).linkUp) = true) := by
    rw [hup]
    simp [hf, hdata]
  exact congrArg _ (if_neg hreach)

end

/-- A map in range of a function in a partition, onto a tier. -/
theorem devBar2Map_of_tier {c : Cmd} {u : State} {p t off : Nat} (hf : pByte c 0 < 64) (hset : pBit c 1 0 = true) (hbase : pNum c 8 8 % 2097152 = 0)
    (hlen : pNum c 16 8 % 2097152 = 0) (hsome : pNum c 16 8 ≠ 0) (hmax : pNum c 16 8 ≤ 68719476736) (hpart : funcPart u (pByte c 0) = some p)
    (hplace : place (pNum c 8 8) (pNum c 16 8) = .tier t off) :
    devBar2Map c u = if ownsExtent u p t off (pNum c 16 8)
      then done (modFunc (pByte c 0) (fun x => { x with bar2 := some (pNum c 8 8, pNum c 16 8) }) u) else refuse stNotPermitted u := by
  have hrange : ¬(pNum c 8 8 % 2097152 ≠ 0 ∨ pNum c 16 8 % 2097152 ≠ 0 ∨ pNum c 16 8 = 0 ∨ 68719476736 < pNum c 16 8) := by
    simp only [hbase, hlen, hsome, ne_eq, not_true_eq_false, false_or, not_lt]
    exact hmax
  unfold devBar2Map
  dsimp only
  rw [if_neg (by omega), if_neg (by simp [hset]), if_neg hrange, hpart, hplace]

/-- Settles O12: each request by what it meets. -/
theorem configurationAndBar2Answer : Obligations.ConfigurationAndBar2Answer := by
  unfold Obligations.ConfigurationAndBar2Answer
  refine ⟨fun f r s hf hup => ⟨fun hnone => ?_, fun t hready ht hthere => ?_⟩, fun p base len s hp => ?_,
    fun f off len found s hf hlen hup => ⟨fun t o hplace => ?_, fun hplace => ?_⟩,
    fun f off data s hf hdata hup => ⟨fun t o hplace => ?_, fun hplace => ?_⟩, fun m s hstarts => ?_⟩
  · have hreach : ¬(64 ≤ f ∨ (!(hostPort s (f / 32)).linkUp) = true) := by
      rw [hup]
      simpa using hf
    show execConfigRequest f r s = _
    rw [execConfigRequest, if_neg hreach, if_pos (by simp [hnone])]
    rfl
  · have hexec : ∀ r, exec (.configRequest f r) s = .next (configWrite f r s) := fun _ => exec_configRequest_of_ready hf hup hready ht hthere
    exact ⟨hexec _, fun _ => hexec _, fun _ => hexec _, hexec _⟩
  · exact congrArg _ (if_neg (by omega))
  · rw [exec_bar2Read_of_up hf hup hlen]
    dsimp only
    rw [hplace]
  · rw [exec_bar2Read_of_up hf hup hlen]
    dsimp only
    rw [hplace]
    rfl
  · rw [exec_bar2Write_of_up hf hup hdata, hplace]
    rfl
  · rw [exec_bar2Write_of_up hf hup hdata, hplace]
    rfl
  · intro c u f base len
    have hexec : exec (.devBar2Map m) s = .next (answer c (devBar2Map c u)) := congrArg _ (runCmd_of_starts hstarts)
    refine ⟨fun hf hclear => ?_, fun p t off hf hset hbase hlen hsome hmax hpart hplace => ?_⟩
    · rw [hexec, devBar2Map, if_neg (by omega), if_pos (by simp [hclear])]
      rfl
    · rw [hexec, devBar2Map_of_tier hf hset hbase hlen hsome hmax hpart hplace]
      split <;> rfl

/-! ### Device commands -/

/-- The event codes that DEV_EVENT_MASK refuses (R576). -/
theorem devEventMask_eq (c : Cmd) (u : State) : devEventMask c u =
    if pNum c 0 2 ∉ eventCodes ∨ pNum c 0 2 = 0x0101 ∨ pNum c 0 2 = 0x0103 ∨ pNum c 0 2 = 0x0104 then refuse stBadCommand u
    else done (modFunc c.m.func (fun x =>
      { x with suppressed := (x.suppressed.filter (· != pNum c 0 2)) ++ (if pBit c 2 0 then [pNum c 0 2] else []) }) u) := by
  unfold devEventMask
  simp only [Bool.or_eq_true, Bool.not_eq_true', beq_iff_eq, List.contains_eq_mem, decide_eq_false_iff_not, or_assoc]

/-- DEV_PRIMARY 1, from the holder. -/
theorem devPrimary_hand {c : Cmd} {u : State} (hop : pByte c 0 = 1) (hholds : u.host.primary = some (c.m.func / 32)) :
    devPrimary c u = if (hostPort u (1 - c.m.func / 32)).linkUp then doneWith [BitVec.ofNat 8 (rolePort (moveRole (1 - c.m.func / 32) u))]
      (moveRole (1 - c.m.func / 32) u) else refuse stBusy u := by
  unfold devPrimary
  simp only [hop, hholds, ne_eq, not_true_eq_false, if_false]
  cases (hostPort u (1 - c.m.func / 32)).linkUp <;> rfl

/-- DEV_PRIMARY 2 of a role that nobody holds. -/
theorem devPrimary_free {c : Cmd} {u : State} (hop : pByte c 0 = 2) (hfree : u.host.primary = none) :
    devPrimary c u = doneWith [BitVec.ofNat 8 (rolePort (moveRole (c.m.func / 32) u))] (moveRole (c.m.func / 32) u) := by
  unfold devPrimary
  simp only [hop, hfree]

/-- DEV_PRIMARY 2 of a role whose holder is linked. -/
theorem devPrimary_held {c : Cmd} {u : State} {q : Nat} (hop : pByte c 0 = 2) (hheld : u.host.primary = some q) (hother : q ≠ c.m.func / 32)
    (hup : (hostPort u q).linkUp = true) : devPrimary c u = refuse stNotPermitted u := by
  unfold devPrimary
  simp only [hop, hheld, hother, hup, Bool.not_true, Bool.false_and, Bool.false_eq_true, if_false]

/-- Settles O13: each device command by its parameter and the role. -/
theorem deviceCommandsAnswer : Obligations.DeviceCommandsAnswer := by
  unfold Obligations.DeviceCommandsAnswer
  refine ⟨fun m s hstarts => congrArg _ (runCmd_of_starts hstarts), fun m s hstarts => congrArg _ (runCmd_of_starts hstarts), fun m s hstarts => ?_,
    fun m s hstarts => ?_⟩
  · intro c e
    have hexec : exec (.devEventMask m) s = .next (answer c (devEventMask c (takeCmd c s))) := congrArg _ (runCmd_of_starts hstarts)
    refine ⟨fun hbad => ?_, fun hknown hstate hdown hrole => ?_⟩
    · rw [hexec, devEventMask_eq, if_pos hbad]
      rfl
    · rw [hexec, devEventMask_eq, if_neg (by simp only [not_or, not_not]; exact ⟨hknown, hstate, hdown, hrole⟩)]
      rfl
  · intro c u p
    have hexec : exec (.devPrimary m) s = .next (answer c (devPrimary c u)) := congrArg _ (runCmd_of_starts hstarts)
    refine ⟨fun hop => ?_, fun hop hholds hdown => ?_, fun hop hholds hup => ?_, fun hop hfree => ?_, fun q hop hheld hother hup => ?_⟩
    · rw [hexec, devPrimary, hop]
      rfl
    · rw [hexec, devPrimary_hand (u := u) hop hholds, if_neg (by rw [Bool.not_eq_true]; exact hdown)]
      rfl
    · rw [hexec, devPrimary_hand (u := u) hop hholds, if_pos (c := (hostPort u (1 - c.m.func / 32)).linkUp = true) hup]
      rfl
    · rw [hexec, devPrimary_free (u := u) hop hfree]
      rfl
    · rw [hexec, devPrimary_held (u := u) hop hheld hother hup]
      rfl

end Sys2Proof.Machine
end
section
/-! PROOFS. Register writes into control space, by their access codes. -/
namespace Sys2Proof.Machine

/-- A write to control space of a running die. -/
theorem exec_registerWrite_of_on {s : State} {off width v : Nat} (hon : dieOn s = true) :
    exec (.registerWrite .control off width v) s = .next (ctlWrite off width v s) := by
  show execRegisterWrite .control off width v s = _
  simp only [execRegisterWrite, ctlOn, hon, Bool.true_or, onlyIf, if_true]

/-- A write that one register of the table takes whole. -/
theorem ctlWrite_of_putOne {s t : State} {off o width v : Nat} {rows : List RegRow} {puts : List (Nat × Put)} (hok : accessOk off width = true)
    (htable : ctlTable s off = (rows, o)) (hputs : ctlPuts off = puts)
    (hput : putOne (off - o) (rows.map (keptRow s (off - o))) puts o width v s = (width, t)) : ctlWrite off width v s = t := by
  have hput' : putOne (off - (ctlRows s off).2) (ctlRows s off).1 (ctlPuts off) (ctlRows s off).2 width v s = (width, t) := by
    rw [ctlRows, htable, hputs]
    exact hput
  simp only [ctlWrite, hok, hput', Bool.not_true, Bool.false_eq_true, if_false, le_refl, if_true]

/-! ### What a write makes of each register -/

section
variable (s : State) (v : Nat)

theorem ctlWrite_period : ctlWrite 0x008 4 v s = modStep (fun t => { t with periodNs := mergeBytes s.step.periodNs 0 4 v }) s :=
  ctlWrite_of_putOne (rows := stepRows s) (puts := stepPuts) rfl rfl rfl rfl

theorem ctlWrite_origin : ctlWrite 0x010 8 v s = modStep (fun t => { t with origin := mergeBytes s.step.origin 0 8 v }) s :=
  ctlWrite_of_putOne (rows := stepRows s) (puts := stepPuts) rfl rfl rfl rfl

theorem ctlWrite_rackTime : ctlWrite 0x018 8 v s = s := ctlWrite_of_putOne (rows := stepRows s) (puts := stepPuts) rfl rfl rfl rfl

theorem ctlWrite_count : ctlWrite 0x030 8 v s = s := ctlWrite_of_putOne (rows := stepRows s) (puts := stepPuts) rfl rfl rfl rfl

theorem ctlWrite_missed : ctlWrite 0x038 4 v s = s := ctlWrite_of_putOne (rows := stepRows s) (puts := stepPuts) rfl rfl rfl rfl

theorem ctlWrite_alert : ctlWrite 0xF00020 4 v s = modIsl (fun i => { i with alert := i.alert - (i.alert &&& v % 2 ^ (8 * 4) * 2 ^ (8 * 0)) }) s :=
  ctlWrite_of_putOne (rows := mgtRows s) (puts := mgtPuts) rfl rfl rfl rfl

theorem ctlWrite_hangMs : ctlWrite 0x1000008 4 v s = modErr (fun e => { e with hangMs := bits (mergeBytes s.err.hangMs 0 4 v) 0 16 }) s :=
  ctlWrite_of_putOne (rows := errRows s) (puts := errPuts) rfl rfl rfl rfl

theorem ctlWrite_cap : ctlWrite 0xF0001C 4 v s = modIsl (fun i => { i with cap := bits (mergeBytes (mgtPowerCfg s) 0 4 v) 0 10 }) s :=
  ctlWrite_of_putOne (rows := mgtRows s) (puts := mgtPuts) rfl rfl rfl rfl

end

/-! ### Replaced bytes -/

theorem mergeBytes_first (old n v : Nat) : mergeBytes old 0 n v = old - old % 2 ^ (8 * n) + v % 2 ^ (8 * n) := by
  simp [mergeBytes, bits]

/-- A write of all bytes of a register. -/
theorem mergeBytes_whole {old n v : Nat} (hold : old < 2 ^ (8 * n)) (hv : v < 2 ^ (8 * n)) : mergeBytes old 0 n v = v := by
  rw [mergeBytes_first, Nat.mod_eq_of_lt hold, Nat.mod_eq_of_lt hv]
  omega

/-- The low bits of a register whose low bytes were replaced. -/
theorem bits_mergeBytes_first {old n v w : Nat} (hw : w ≤ 8 * n) : bits (mergeBytes old 0 n v) 0 w = v % 2 ^ w := by
  have hdvd : 2 ^ w ∣ 2 ^ (8 * n) := Nat.pow_dvd_pow 2 hw
  have hhigh : 2 ^ w ∣ old - old % 2 ^ (8 * n) := hdvd.trans (Nat.dvd_sub_mod old)
  rw [bits, Nat.shiftRight_zero, mergeBytes_first, Nat.add_mod, Nat.mod_eq_zero_of_dvd hhigh, Nat.zero_add, Nat.mod_mod, Nat.mod_mod_of_dvd v hdvd]

/-- Settles O15: each register by its row, what the write leaves by the bytes replaced. -/
theorem registerWritesFollowTheirAccessCodes : Obligations.RegisterWritesFollowTheirAccessCodes := by
  unfold Obligations.RegisterWritesFollowTheirAccessCodes
  intro s v hon hv
  refine ⟨fun hold => ?_, fun hold w hw => ?_, ?_, ?_, ?_, ?_, ?_, ?_, fun off width hodd => ?_, fun f off width hlow hhigh => ?_⟩
  · rw [exec_registerWrite_of_on hon, ctlWrite_period, mergeBytes_whole hold hv]
    rfl
  · rw [exec_registerWrite_of_on hon, ctlWrite_origin, mergeBytes_whole hold hw]
    rfl
  · rw [exec_registerWrite_of_on hon, ctlWrite_rackTime]
  · rw [exec_registerWrite_of_on hon, ctlWrite_count]
  · rw [exec_registerWrite_of_on hon, ctlWrite_missed]
  · rw [exec_registerWrite_of_on hon, ctlWrite_alert, Nat.mod_eq_of_lt hv, Nat.mul_zero, Nat.pow_zero, Nat.mul_one]
    rfl
  · rw [exec_registerWrite_of_on hon, ctlWrite_hangMs, bits_mergeBytes_first (by decide)]
    rfl
  · rw [exec_registerWrite_of_on hon, ctlWrite_cap, bits_mergeBytes_first (by decide)]
    rfl
  · have hbad : accessOk off width = false := by simp [accessOk, hodd]
    rw [exec_registerWrite_of_on hon, ctlWrite, hbad]
    rfl
  · have hreg : ¬off < 0x10000 := by omega
    have hwindow : ¬(0x20000 ≤ off ∧ off < 0x40000 ∧ windowOpen s f = true) := by omega
    show execRegisterWrite (.bar0 f) off width v s = _
    simp only [execRegisterWrite, bar0Write, hreg, hwindow, if_false, ite_self]

end Sys2Proof.Machine
end
section
/-! PROOFS. Partitions: made, given functions and quotas, reset, resumed, read; granules zeroed. -/
namespace Sys2Proof.Machine

/-! ### PART_CREATE -/

/-- A number, primaries and a request limit that PART_CREATE takes up. -/
theorem partCreate_of_named {c : Cmd} {u : State} {p : Nat} {a b : Option Nat}
    (hp : (if pBit c 1 0 then Tbl.free u.part.parts 16 else some (pByte c 0)) = some p) (ha : primOf (pByte c 2) 0 = some a)
    (hb : primOf (pByte c 3) 1 = some b) (hlt : p < 16) (hsome : a.toList ++ b.toList.map (32 + ·) ≠ []) (hreq : pNum c 12 4 ≤ 262144)
    (hfree : ∀ f ∈ a.toList ++ b.toList.map (32 + ·), funcPart u f = none) :
    partCreate c u =
      if (part? u p).isSome then refuse stBusy u
      else if !quotasFit u p (pNum c 4 4) (pNum c 8 4) (pNum c 16 2) then refuse stRefusedCapacity u
      else doneWith [BitVec.ofNat 8 p] (modPart (fun x => { x with
        parts := Tbl.set none x.parts p (some { draining := false, drainFuncs := [], resetPend := none, primA := a, primB := b,
                                                 t1Limit := pNum c 4 4, t2Limit := pNum c 8 4, t1Used := 0, t2Used := 0,
                                                 reqLimit := pNum c 12 4, resRows := pNum c 16 2 }),
        funcs := (a.toList ++ b.toList.map (32 + ·)).foldl (fun t f => Tbl.set none t f (some (p, true))) x.funcs }) u) := by
  have hnone : ((a.toList ++ b.toList.map (32 + ·)).any fun f => (funcPart u f).isSome) = false := by
    rw [List.any_eq_false]
    intro f hf
    simp [hfree f hf]
  have hgood : ¬(16 ≤ p ∨ a.toList ++ b.toList.map (32 + ·) = [] ∨ 262144 < pNum c 12 4 ∨
      ((a.toList ++ b.toList.map (32 + ·)).any fun f => (funcPart u f).isSome) = true) := by
    simp only [hnone, hsome, Bool.false_eq_true, or_false, false_or, not_or, not_le, not_lt]
    exact ⟨hlt, hreq⟩
  unfold partCreate
  simp only [hp, ha, hb]
  rw [if_neg hgood]

/-! ### PART_FUNC -/

section
variable {c : Cmd} {u : State}

theorem partFunc_busy (hf : pByte c 0 < 64) (hp : part? u (pByte c 1) ≠ none) (hbusy : funcBusy u (pByte c 0) = true) :
    partFunc c u = refuse stBusy u := by
  have hgood : ¬(64 ≤ pByte c 0 ∨ pByte c 1 ≠ 0xFF ∧ (part? u (pByte c 1)).isNone = true) := by
    simp only [Option.isNone_iff_eq_none, hp, and_false, or_false, not_le]
    exact hf
  unfold partFunc
  dsimp only
  rw [if_neg hgood, if_pos hbusy]

/-- An idle function of no partition is given to one. -/
theorem partFunc_assign (hf : pByte c 0 < 64) (hnamed : pByte c 1 ≠ 0xFF) (hp : part? u (pByte c 1) ≠ none) (hidle : funcBusy u (pByte c 0) = false)
    (hfree : Tbl.get none u.part.funcs (pByte c 0) = none) (hsecond : pBit c 2 0 = false) :
    partFunc c u = done (modPart (fun x => { x with funcs := Tbl.set none x.funcs (pByte c 0) (some (pByte c 1, false)) }) u) := by
  have hgood : ¬(64 ≤ pByte c 0 ∨ pByte c 1 ≠ 0xFF ∧ (part? u (pByte c 1)).isNone = true) := by
    simp only [Option.isNone_iff_eq_none, hp, and_false, or_false, not_le]
    exact hf
  unfold partFunc releaseFunc
  simp only [hgood, hidle, hnamed, hfree, hsecond, Option.any_none, Bool.and_false, Bool.false_and, Bool.or_self, Bool.false_eq_true, if_false, onlyIf]

/-- An idle function that is no primary is released, its BAR2 map lost. -/
theorem partFunc_release {q : Nat} (hf : pByte c 0 < 64) (hnone : pByte c 1 = 0xFF) (hidle : funcBusy u (pByte c 0) = false)
    (hheld : Tbl.get none u.part.funcs (pByte c 0) = some (q, false)) :
    partFunc c u = done (modPart (fun x => { x with funcs := Tbl.set none x.funcs (pByte c 0) none })
      (modFunc (pByte c 0) (fun x => { x with bar2 := none }) u)) := by
  have hgood : ¬(64 ≤ pByte c 0 ∨ 0xFF ≠ 0xFF ∧ (part? u 0xFF).isNone = true) := by
    simp only [ne_eq, not_true_eq_false, false_and, or_false, not_le]
    exact hf
  unfold partFunc releaseFunc
  simp only [hgood, hidle, hheld, hnone, Option.any_some, Bool.false_and, bne_self_eq_false, Bool.or_self, Bool.false_eq_true, if_false, if_true, onlyIf]
  rfl

/-! ### PART_QOS -/

theorem partQos_of_range (hp : part? u (pByte c 0) ≠ none) (h1 : pByte c 2 ≤ 64) (h2 : pByte c 3 ≤ 64) (h3 : pByte c 4 ≤ 64) (hreq : pNum c 16 4 ≤ 262144) :
    partQos c u = if stepping u then later u else applyQos c u := by
  have hthere : (part? u (pByte c 0)).isNone = false := Option.isNone_eq_false_iff.mpr (Option.isSome_iff_ne_none.mpr hp)
  unfold partQos
  rw [if_neg]
  simp only [hthere, Nat.not_lt.mpr h1, Nat.not_lt.mpr h2, Nat.not_lt.mpr h3, Nat.not_lt.mpr hreq, decide_false, Bool.or_self, Bool.and_false, Bool.false_eq_true,
    not_false_eq_true]

end

/-- Settles O17: each command by what it names and what is there. -/
theorem partitionsAreMadeAndGiven : Obligations.PartitionsAreMadeAndGiven := by
  unfold Obligations.PartitionsAreMadeAndGiven
  refine ⟨fun m s p a b hstarts => ?_, fun m s hstarts => ?_, fun m s hstarts => ?_⟩
  · intro c u fs hp ha hb hlt hsome hreq hfree
    have hexec : exec (.partCreate m) s = .next (answer c (partCreate c u)) := congrArg _ (runCmd_of_starts hstarts)
    rw [partCreate_of_named (u := u) hp ha hb hlt hsome hreq hfree] at hexec
    refine ⟨fun hthere => ?_, fun hgone hunfit => ?_, fun hgone hfit => ?_⟩
    · have hthere' : (part? u p).isSome = true := Option.isSome_iff_ne_none.mpr hthere
      rw [hexec, if_pos hthere']
      rfl
    · have hgone' : part? u p = none := hgone
      rw [hexec, if_neg (by simp [hgone']), if_pos (by simp [hunfit])]
      rfl
    · have hgone' : part? u p = none := hgone
      rw [hexec, if_neg (by simp [hgone']), if_neg (by simp [hfit])]
      rfl
  · intro c u f p
    have hexec : exec (.partFunc m) s = .next (answer c (partFunc c u)) := congrArg _ (runCmd_of_starts hstarts)
    refine ⟨fun hf hp hbusy => ?_, fun hf hnamed hp hidle hfree hsecond => ?_, fun q hf hnone hidle hheld => ?_⟩
    · rw [hexec, partFunc_busy (u := u) hf hp hbusy]
      rfl
    · rw [hexec, partFunc_assign (u := u) hf hnamed hp hidle hfree hsecond]
      rfl
    · rw [hexec, partFunc_release (u := u) hf hnone hidle hheld]
      rfl
  · intro c u p hp h1 h2 h3 hreq
    have hexec : exec (.partQos m) s = .next (answer c (partQos c u)) := congrArg _ (runCmd_of_starts hstarts)
    have hthere : (part? u p).isNone = false := Option.isNone_eq_false_iff.mpr (Option.isSome_iff_ne_none.mpr hp)
    rw [partQos_of_range (u := u) hp h1 h2 h3 hreq] at hexec
    refine ⟨fun hsteps => ?_, fun hidle hquota hunfit => ?_, fun hidle hcredit hquota hnone => ?_, fun hidle hcredit hquota hfit huse => ?_⟩
    · rw [hexec, if_pos (c := stepping u = true) hsteps]
      rfl
    · rw [hexec, if_neg (c := stepping u = true) (Bool.eq_false_iff.mp hidle), applyQos]
      simp only [p, hthere, hquota, hunfit, Bool.not_false, Bool.true_or, Bool.and_self, Bool.false_eq_true, if_false, if_true]
      rfl
    · have hsafe : creditBreaks u p (pByte c 2) (pByte c 3) = false := by simp [creditBreaks, hnone]
      rw [hexec, if_neg (c := stepping u = true) (Bool.eq_false_iff.mp hidle), applyQos]
      simp only [p, hthere, hquota, hcredit, hsafe, Bool.false_and, Bool.and_false, Bool.false_eq_true, if_false]
      rfl
    · rw [hexec, if_neg (c := stepping u = true) (Bool.eq_false_iff.mp hidle), applyQos]
      simp only [p, hthere, hquota, hcredit, hfit, huse, Bool.not_true, Bool.or_self, Bool.false_and, Bool.and_false, Bool.false_eq_true, if_false]
      rfl

/-! ### Resets, resuming, reading -/

/-- A reset with a cause of a partition that exists. -/
theorem resetFor_of_there {cause : Nat} {c : Cmd} {u : State} {x : Part} (hp : part? u (pByte c 0) = some x) :
    resetFor cause c u = later (settleIdle (modPartn (pByte c 0) (fun y => { y with resetPend := some (y.resetPend.getD cause) }) u)) :=
  if_neg (by simp [hp])

theorem partResume_of_idle {c : Cmd} {u : State} (hp : part? u (pByte c 0) ≠ none) (hidle : stepping u = false) : partResume c u = applyResume c u := by
  rw [partResume, if_neg (by simpa using hp), if_neg (by simp [hidle])]

/-- Settles O18: each command by the partition's state, and the granule by the pool's zeroing list. -/
theorem partitionsAreResetResumedAndRead : Obligations.PartitionsAreResetResumedAndRead := by
  unfold Obligations.PartitionsAreResetResumedAndRead
  refine ⟨fun m s x => ⟨fun hstarts hp => ?_, fun hstarts hp => ?_⟩, fun m s hstarts => ?_, fun m s hstarts => ?_, fun t g s ht hzeroing => ?_⟩
  · have hexec : exec (.partReset m) s = .next (answer (newCmd s 0x0206 m) (resetFor 1 (newCmd s 0x0206 m) (takeCmd (newCmd s 0x0206 m) s))) :=
      congrArg _ (runCmd_of_starts hstarts)
    rw [hexec, resetFor_of_there (u := takeCmd (newCmd s 0x0206 m) s) hp]
    rfl
  · have hexec : exec (.partDestroy m) s = .next (answer (newCmd s 0x0203 m) (resetFor 4 (newCmd s 0x0203 m) (takeCmd (newCmd s 0x0203 m) s))) :=
      congrArg _ (runCmd_of_starts hstarts)
    rw [hexec, resetFor_of_there (u := takeCmd (newCmd s 0x0203 m) s) hp]
    rfl
  · intro c u p hp hidle
    have hexec : exec (.partResume m) s = .next (answer c (partResume c u)) := congrArg _ (runCmd_of_starts hstarts)
    rw [partResume_of_idle (u := u) hp hidle, applyResume] at hexec
    refine ⟨fun hgoes => ?_, fun hsuspended => ?_⟩
    · have hgoes' : bit u.step.suspended p = false := hgoes
      rw [hexec, if_pos (by simpa using hgoes')]
      rfl
    · have hsuspended' : bit u.step.suspended p = true := hsuspended
      rw [hexec, if_neg (by simpa using hsuspended')]
      rfl
  · intro c u p hp hhost
    have hexec : exec (.partQuery m) s = .next (answer c (partQuery c u)) := congrArg _ (runCmd_of_starts hstarts)
    have hp' : part? u p ≠ none := hp
    have hthere : ¬(part? u p).isNone = true := by simpa using hp'
    rw [hexec, partQuery, if_neg hthere, intoHost, if_neg (by simp [hhost])]
    rfl
  · show execGranuleZeroComplete t g s = _
    rw [execGranuleZeroComplete, if_neg]
    · rfl
    · simp only [hzeroing, Bool.not_true, Bool.false_eq_true, or_false, not_lt]
      omega

end Sys2Proof.Machine
end
section
/-! PROOFS. Hitches, windows and barriers: their commands and their packets. -/
namespace Sys2Proof.Machine

/-! ### WIN_OPEN and WIN_CLOSE -/

section
variable {c : Cmd} {u : State} {w : Nat} (hw : (if pBit c 1 0 then freeWindow u else some (pByte c 0)) = some w) (hlt : w < 240)
  (hown : (win u w).inUse = true → (win u w).partition = cmdPart c)
include hw hlt hown

/-- WIN_OPEN of a window below 240 that is, where in use, the partition's own, but is open. -/
theorem winOpen_of_opened (hopen : (win u w).opened = true) : winOpen c u = refuse stBusy u := by
  have hgood : ¬(240 ≤ w ∨ (win u w).inUse = true ∧ (win u w).partition ≠ cmdPart c) := by
    rintro (h | ⟨hin, hne⟩)
    · omega
    · exact hne (hown hin)
  unfold winOpen
  rw [hw]
  dsimp only
  rw [if_neg hgood, if_pos hopen]

/-- WIN_OPEN of such a window that is closed, over bytes that are the partition's. -/
theorem winOpen_of_closed (hclosed : (win u w).opened = false) (hrange : windowRange u (cmdPart c) (pNum c 8 8) (pNum c 16 8) = none) :
    winOpen c u = doneWith ([BitVec.ofNat 8 w, 0] ++ leBytes 2 (win u w).gen) (modWin w (fun x =>
      { x with opened := true, inUse := true, partition := cmdPart c, anySender := pBit c 3 7, sender := pNum c 2 2 % 4096,
               base := pNum c 8 8, length := pNum c 16 8 }) u) := by
  have hgood : ¬(240 ≤ w ∨ (win u w).inUse = true ∧ (win u w).partition ≠ cmdPart c) := by
    rintro (h | ⟨hin, hne⟩)
    · omega
    · exact hne (hown hin)
  unfold winOpen
  rw [hw]
  dsimp only
  rw [if_neg hgood, if_neg (by simp [hclosed]), hrange]
  dsimp only
  rw [win_modWin_same]

end

theorem winSoon_of_named {m : Mbx} {s : State} {w : Nat}
    (hw : (if pBit (newCmd s 0x0810 m) 1 0 then freeWindow s else some (pByte (newCmd s 0x0810 m) 0)) = some w) :
    winSoon m s = (!(win s w).opened && (win s w).closedAt.any fun t => decide (s.now < t + 20000)) := by
  rw [winSoon, hw, Option.any_some]

theorem closeWindow_of_closed {w : Nat} {u : State} (h : (win u w).opened = false) : closeWindow w u = u := if_pos (by simp [h])

/-- Closing an open window at which no transfer arrives. -/
theorem closeWindow_of_quiet {w : Nat} {u : State} (h : (win u w).opened = true) (hquiet : ∀ i ∈ u.hch.inbound, i.window ≠ w) :
    closeWindow w u = modWin w (fun x => { x with opened := false, gen := (x.gen + 1) % 65536, closedAt := some u.now }) u := by
  have hnone : u.hch.inbound.filter (fun i => decide (i.window = w)) = [] := List.filter_eq_nil_iff.mpr fun i hi => by simpa using hquiet i hi
  have hnone' : (modWin w (fun x => { x with opened := false, gen := (x.gen + 1) % 65536, closedAt := some u.now }) u).hch.inbound.filter
      (fun i => decide (i.window = w)) = [] := hnone
  rw [closeWindow, if_neg (by simp [h])]
  dsimp only
  rw [hnone', List.foldl_nil]

/-- WIN_CLOSE of an own window without the release flag. -/
theorem winClose_of_own {c : Cmd} {u : State} (hlt : pByte c 0 < 240) (hin : (win u (pByte c 0)).inUse = true)
    (hown : (win u (pByte c 0)).partition = cmdPart c) (hkeep : pBit c 1 0 = false) :
    winClose c u = doneWith ([0, 0] ++ leBytes 2 (win (closeWindow (pByte c 0) u) (pByte c 0)).gen) (closeWindow (pByte c 0) u) := by
  have hgood : ¬(240 ≤ pByte c 0 ∨ (!(win u (pByte c 0)).inUse) = true ∨ (win u (pByte c 0)).partition ≠ cmdPart c) := by
    simp only [hin, hown, Bool.not_true, Bool.false_eq_true, ne_eq, not_true_eq_false, or_false, not_le]
    exact hlt
  unfold winClose
  dsimp only
  rw [if_neg hgood, hkeep, if_neg Bool.false_ne_true]

/-- Settles O20: each command by what it names and what is there. -/
theorem hitchesAndWindowsAreCommanded : Obligations.HitchesAndWindowsAreCommanded := by
  unfold Obligations.HitchesAndWindowsAreCommanded
  refine ⟨fun s h => ⟨decide_eq_true_iff, rfl⟩, fun m s hstarts => ?_, fun m s hstarts => ?_, fun m s hstarts => ?_, fun m s w hstarts => ?_,
    fun m s hstarts => ?_, fun m s o hstarts => ?_⟩
  · intro c u
    have hexec : exec (.hitchConfig m) s = .next (answer c (hitchConfig c u)) := congrArg _ (runCmd_of_starts hstarts)
    refine ⟨fun hpast => ?_, fun hin hsteps => ?_, fun hin hidle => ?_⟩
    · rw [hexec, hitchConfig, if_pos hpast]
      rfl
    · rw [hexec, hitchConfig, if_neg (Nat.not_lt.mpr hin), if_pos (c := stepping u = true) hsteps]
      rfl
    · rw [hexec, hitchConfig, if_neg (Nat.not_lt.mpr hin), if_neg (c := stepping u = true) (Bool.eq_false_iff.mp hidle)]
      rfl
  · intro c u n hin hhost
    have hexec : exec (.hitchRead m) s = .next (answer c (hitchRead c u)) := congrArg _ (runCmd_of_starts hstarts)
    rw [hexec, hitchRead, if_neg (Nat.not_lt.mpr hin), intoHost, if_neg (by simp [n, hhost])]
    rfl
  · intro c u p h hp hv
    have hexec : exec (.hitchSet m) s = .next (answer c (hitchSet c u)) := congrArg _ (runCmd_of_starts hstarts)
    have hrange : ¬(15 < pByte c 0 ∨ 4095 < pNum c 2 2) := by
      rw [not_or]
      exact ⟨Nat.not_lt.mpr hp, Nat.not_lt.mpr hv⟩
    rw [hexec, hitchSet, if_neg hrange]
    refine ⟨fun hdenied => ?_, fun hmay hpermitted => ?_⟩
    · rw [if_pos (c := (!mayName c (pByte c 0) || !handPermitted u (pByte c 0)) = true) (by simpa [p] using hdenied)]
      rfl
    · rw [if_neg (c := (!mayName c (pByte c 0) || !handPermitted u (pByte c 0)) = true) (by simpa [p] using ⟨hmay, hpermitted⟩)]
      by_cases hflag : pBit c 1 0 = true
      · rw [if_pos hflag, if_pos hflag]
        rfl
      · rw [if_neg hflag, if_neg hflag]
        rfl
  · intro c u hw hlt hown
    have hbody : winOpenSpec.body = winOpen := rfl
    have hrun : runCmd winOpenSpec m s = answer c (winOpen c u) := by
      rw [runCmd_of_starts hstarts, hbody]
      rfl
    have hexec : exec (.winOpen m) s = .next (if winSoon m s then s else runCmd winOpenSpec m s) := rfl
    have hsoon := winSoon_of_named (m := m) (s := s) hw
    refine ⟨fun hopen => ?_, fun hclosed ⟨t, ht, hrecent⟩ => ?_, fun hclosed hpast hrange => ?_⟩
    · have hopen' : (win s w).opened = true := hopen
      rw [hexec, hrun, winOpen_of_opened hw hlt hown hopen, hsoon, hopen']
      rfl
    · have hclosed' : (win s w).opened = false := hclosed
      have ht' : (win s w).closedAt = some t := ht
      rw [hexec, hsoon, hclosed', ht', Option.any_some, decide_eq_true hrecent]
      rfl
    · have hlate : ((win s w).closedAt.any fun t => decide (s.now < t + 20000)) = false := any_recent_of_past hpast
      rw [hexec, hrun, winOpen_of_closed hw hlt hown hclosed hrange, hsoon, hlate, Bool.and_false, if_neg Bool.false_ne_true]
      rfl
  · intro c u w hlt hin hown
    have hexec : exec (.winClose m) s = .next (answer c (winClose c u)) := congrArg _ (runCmd_of_starts hstarts)
    refine ⟨fun hclosed hkeep => ?_, fun hopen hkeep hquiet => ?_⟩
    · rw [hexec, winClose_of_own (u := u) hlt hin hown hkeep, closeWindow_of_closed hclosed]
      rfl
    · rw [hexec, winClose_of_own (u := u) hlt hin hown hkeep, closeWindow_of_quiet hopen hquiet, win_modWin_same]
      rfl
  · intro c u ho hchip
    have hexec : exec (.winBind m) s = .next (answer c (winBind c u)) := congrArg _ (runCmd_of_starts hstarts)
    rw [hexec, winBind, ho]
    dsimp only
    rw [if_neg (Nat.not_lt.mpr hchip)]
    refine ⟨fun x hx hother => ?_, fun hfree => ?_⟩
    · rw [hx, if_pos (by simpa using hother)]
      rfl
    · rw [hfree, if_neg (by simp)]
      rfl

/-! ### Barrier commands -/

/-- BAR_CONFIG of a number that is free. -/
theorem barConfig_of_free {c : Cmd} {u : State} {b : Nat} (hb : (if pBit c 2 0 then Tbl.free u.hch.bars 1024 else some (pNum c 0 2)) = some b)
    (hlt : b ≤ 1023) (hfree : bar? u b = none) :
    barConfig c u =
      if pBit c 2 1 then
        if 4095 < pNum c 6 2 ∨ 1023 < pNum c 8 2 ∨ 1023 < pNum c 10 2 then refuse stBadCommand u
        else done (placeBar b
          { proxy := true, homeChip := pNum c 6 2, homeBar := pNum c 8 2, partIndex := pNum c 10 2, broken := false, partition := cmdPart c,
            slots := [], slotBase := 0, epoch := 0, gen := 0, waiters := [], outstanding := 0 } u)
      else if pNum c 4 2 = 0 ∨ 1024 < pNum c 4 2 then refuse stBadCommand u
      else withHost c (pNum c 16 8) (4 * pNum c 4 2) u fun bs =>
        if !((List.range (pNum c 4 2)).map fun i => leAt bs (4 * i) 4).all pslotOk then refuse stBadCommand u else
        match freeSlots (modHch (fun h => { h with bars := Tbl.set none h.bars b none }) u) (pNum c 4 2) with
        | none => refuse stNoResource u
        | some base => done (placeBar b
          { proxy := false, homeChip := 0, homeBar := 0, partIndex := 0, broken := false, partition := cmdPart c,
            slots := ((List.range (pNum c 4 2)).map fun i => leAt bs (4 * i) 4).map pslotOf, slotBase := base, epoch := 0, gen := 0, waiters := [],
            outstanding := 0 } u) := by
  unfold barConfig
  rw [hb]
  dsimp only
  rw [if_neg (Nat.not_lt.mpr hlt), hfree]
  rfl

/-- A release that reaches the proxy of its home. -/
theorem exec_barReleaseReceived_of_proxy {p : Packet} {s : State} {b : Nat} {x : Barrier} (hacc : Safety.Accepts [5] p s)
    (hfind : (s.hch.bars.find? fun q => q.2.any fun x => x.proxy && x.homeChip == Pk.src p && x.homeBar == Pk.field p.w1 0 10) = some (b, some x)) :
    exec (.barReleaseReceived p) s = .next (
      if decide (Pk.field p.w1 26 1 = 1) && decide (0 < x.outstanding) then
        releaseLocal (x.waiters.map Prod.fst) true (modBar b (fun y => { y with waiters := [], outstanding := 0, broken := true }) s)
      else if Pk.field p.w1 26 1 = 1 ∨ Pk.field p.w1 27 8 ≠ x.epoch ∨ x.outstanding = 0 then
        modHch (fun h => { h with barStale := satAdd 32 h.barStale 1 }) s
      else releaseLocal (firstRound x) false
        (modBar b (fun y => { y with gen := Pk.field p.w1 10 16, outstanding := y.outstanding - 1, waiters := laterRounds x }) s)) := by
  show execBarReleaseReceived p s = _
  rw [execBarReleaseReceived, receive_of_accepts hacc]
  dsimp only
  rw [hfind]

/-- Settles O22: each command and packet by the barrier that it names. -/
theorem barriersAreConfiguredBrokenAndPassedOn : Obligations.BarriersAreConfiguredBrokenAndPassedOn := by
  unfold Obligations.BarriersAreConfiguredBrokenAndPassedOn
  refine ⟨fun m s b hstarts => ?_, fun m s x => ⟨fun hstarts hbar hown => ?_, fun hstarts hbar => ?_⟩, fun p s x q hacc => ?_,
    fun p s b x hacc hfind => ?_, fun chip t s hon hjoined => ?_, fun p s hacc hother => ?_⟩
  · intro c u hb hlt hfree
    have hexec : exec (.barConfig m) s = .next (answer c (barConfig c u)) := congrArg _ (runCmd_of_starts hstarts)
    rw [hexec, barConfig_of_free hb hlt hfree]
    refine ⟨fun hproxy h1 h2 h3 => ?_, fun bs base hhome hn hmax hgives => ?_⟩
    · rw [if_pos hproxy, if_neg (by omega)]
      rfl
    · intro xs hxs hslots
      rw [if_neg (by simp [hhome]), if_neg (by omega), withHost_of_gives hgives]
      have hslots' : freeSlots (modHch (fun h => { h with bars := Tbl.set none h.bars b none }) u) (pNum c 4 2) = some base := hslots
      have hxs' : ((List.range (pNum c 4 2)).map fun i => leAt (padTo (4 * pNum c 4 2) bs) (4 * i) 4).all pslotOk = true := hxs
      simp only [hxs', hslots', Bool.not_true, Bool.false_eq_true, if_false]
      rfl
  · intro u
    have hexec : exec (.barFree m) s = .next (answer (newCmd s 0x0821 m) (barFree (newCmd s 0x0821 m) u)) := congrArg _ (runCmd_of_starts hstarts)
    have hbar' : bar? u (pNum (newCmd s 0x0821 m) 0 2) = some x := hbar
    rw [hexec, barFree]
    dsimp only
    rw [hbar']
    dsimp only
    rw [if_neg (not_not_intro hown)]
    refine ⟨fun hbusy hwhole => ?_, fun hquiet => ?_⟩
    · rw [if_pos (by simp [hbusy, hwhole])]
      rfl
    · rw [if_neg (by rcases hquiet with h | h <;> simp [h])]
      rfl
  · intro c u
    have hexec : exec (.barForce m) s = .next (answer c (barForce c u)) := congrArg _ (runCmd_of_starts hstarts)
    have hbar' : bar? u (pNum c 0 2) = some x := hbar
    rw [hexec, barForce, hbar']
    dsimp only
    refine ⟨fun hdenied => ?_, fun hmay hpermitted => ?_⟩
    · rw [if_pos (by simpa using hdenied)]
      rfl
    · rw [if_neg (by simp [hmay, hpermitted])]
      rfl
  · intro b i e hbar hhome hslot hchip hkind
    have hexec : exec (.barEntryReceived p) s = .next (if (bar? s b).any (fun x => x.broken && x.epoch == e)
        then sendPacket none (releasePacket s (Pk.src p) b 0 true e) s else (homeEntry b i e (Pk.src p) s).2) := by
      show execBarEntryReceived p s = _
      rw [execBarEntryReceived, receive_of_accepts hacc]
      have hslot' : x.slots[Pk.field p.w1 10 10]? = some q := hslot
      have hbar' : bar? s (Pk.field p.w1 0 10) = some x := hbar
      simp only [hbar', hslot', hhome, hchip, hkind, decide_true, Bool.not_false, Bool.and_self, if_true, b, e, i]
    rw [hexec, hbar, Option.any_some]
    refine ⟨fun hwhole => ?_, fun hbroken hepoch => ?_⟩
    · rw [if_neg (by simp [hwhole])]
    · rw [if_pos (by simp [hbroken, hepoch])]
  · rw [exec_barReleaseReceived_of_proxy hacc hfind]
    refine ⟨fun hbroken hout => ?_, fun hwhole hepoch hout => ?_, fun hstale => ?_⟩
    · rw [if_pos (by simp [hbroken]; omega)]
    · rw [if_neg (by simp [hwhole]), if_neg (by simp [hwhole, hepoch, hout])]
    · have hnotAll : ¬((decide (Pk.field p.w1 26 1 = 1) && decide (0 < x.outstanding)) = true) := by
        rcases hstale with h | ⟨h, -⟩ <;> simp [h]
      rw [if_neg hnotAll, if_pos (by tauto)]
      rfl
  · refine ⟨fun hdue => ?_, fun hearly => ?_⟩
    · exact congrArg _ (if_pos (by rw [hon, hjoined, Option.any_some, decide_eq_true hdue]; rfl))
    · exact congrArg _ (if_neg (by rw [hon, hjoined, Option.any_some, decide_eq_false (Nat.not_le.mpr hearly)]; simp))
  · show execLeaveReceived p s = _
    rw [execLeaveReceived, receive_of_accepts hacc, if_neg hother]

end Sys2Proof.Machine
end
section
/-! PROOFS. The fabric: links, peers, rack time, and the fabric commands. -/
namespace Sys2Proof.Machine

/-- Every time noted lies `n` ns back or more. -/
theorem all_past {o : Option Nat} {now n : Nat} (h : ∀ t, o = some t → t + n ≤ now) : (o.all fun t => decide (t + n ≤ now)) = true := by
  cases o with
  | none => rfl
  | some t => exact decide_eq_true (h t rfl)

/-- LINK_ID sent on several ports carries one time: sending moves no clock. -/
theorem foldl_sendLinkId {t : Nat} {v : State} (h : v.now = t) (l : List Nat) : l.foldl (fun s n => sendLinkId n s) v =
    l.foldl (fun s n => transmit n none (linkId s n) (modPort n (fun p => { p with lastLinkId := some t }) s)) v := by
  induction l generalizing v with
  | nil => rfl
  | cons n l ih =>
    subst h
    exact ih (transmit_reportsOnly n none (linkId v n) (modPort n (fun p => { p with lastLinkId := some v.now }) v)).now_eq

/-- Settles O23: each event by the state of its port. -/
theorem linksReplayRetrainAndFail : Obligations.LinksReplayRetrainAndFail := by
  unfold Obligations.LinksReplayRetrainAndFail
  refine ⟨fun n s hon hn hlow hhigh => ⟨?_, fun hstuck => ?_⟩, fun n lanes s hon hn htraining => ⟨?_, fun hfew => ?_, fun hthird => ?_, fun hlanes hpast => ?_⟩,
    fun rack sled slot chip sys s hon => ?_⟩
  · exact congrArg _ (if_neg (by simp [hon, hn, hlow, hhigh]))
  · exact congrArg _ (if_pos (by simp [hon, hn, hlow, hhigh, hstuck]))
  · show execLaneTrainingDone n true lanes s = _
    rw [execLaneTrainingDone, if_neg (by simp [hon, hn, htraining]), if_pos rfl]
  · show execLaneTrainingDone n false lanes s = _
    rw [execLaneTrainingDone, if_neg (by simp [hon, hn, htraining]), if_neg Bool.false_ne_true, if_neg (Nat.not_le.mpr hfew)]
  · show execLaneTrainingDone n false lanes s = _
    rw [execLaneTrainingDone, if_neg (by simp [hon, hn, htraining]), if_neg Bool.false_ne_true, if_pos hthird]
    rfl
  · show execLinkIdSend n s = _
    rw [execLinkIdSend, all_past hpast, if_pos (by simp [hon, hn, htraining, hlanes])]
    rfl
  · intro u
    show execFabricIdentityAssign rack sled slot chip sys s = _
    rw [execFabricIdentityAssign, if_neg (by simp [hon])]
    exact congrArg _ (foldl_sendLinkId rfl _)

/-! ### Peers -/

/-- A packet that comes on one of the twelve ports is counted there, and is progress. -/
theorem gotPacket_of_port {n : Nat} {s : State} (hn : n < 12) : gotPacket n s =
    modFab (fun f => { f with pktsRx := satAdd 64 f.pktsRx 1 }) (modPort n (fun p => { p with sinceProgress := 0 }) s) := if_neg (Nat.not_le.mpr hn)

/-- What a port in training makes of a LINK_ID. -/
theorem exec_linkIdReceived_of_accepts {n : Nat} {p : Packet} {s : State} (hn : n < 12) (hstate : (port s n).state = 1) (hlanes : (port s n).lanesUp ≠ 0)
    (hacc : Safety.Accepts [9] p s) :
    let u := modPort n (fun q => { q with peerChip := Pk.src p, peerPort := bits (Pk.arg p) 1 4, peerAssigned := bit (Pk.arg p) 0 }) (gotPacket n s)
    exec (.linkIdReceived n p) s = .next (
      if !s.fab.assigned || !bit (Pk.arg p) 0 then u
      else if leAt p.payload 0 8 ≠ s.fab.systemId then
        checkBonds (raiseError 6 evPeerForeign 0xFF [.pfs] [] (portLost n (modPort n (fun q => { q with state := 2 }) u)))
      else if Pk.src p = s.fab.chip then
        checkBonds (raiseError 6 evChipConflict 0xFF [.pfs] [] (portLost n (modPort n (fun q => { q with state := 2 }) u)))
      else checkBonds (raiseTo evPeerJoined 0xFF [.pfs] [] (modPort n (fun q => { q with state := 3, wasUp := true }) u))) := by
  have htraining : ¬(!decide (n < 12) || decide ((port s n).state ≠ 1) || decide ((port s n).lanesUp = 0)) = true := by simp [hn, hstate, hlanes]
  show execLinkIdReceived n p s = _
  rw [execLinkIdReceived, if_neg htraining, receive_of_accepts (accepts_gotPacket n hacc), gotPacket_of_port hn]
  rfl

/-- Settles O24: a peer by what its LINK_ID says, a heartbeat by whose it is. -/
theorem peersAreAdmittedByTheirIdentity : Obligations.PeersAreAdmittedByTheirIdentity := by
  unfold Obligations.PeersAreAdmittedByTheirIdentity
  refine ⟨fun n p s hn hstate hlanes hacc => ?_, fun n s => ⟨fun hnew => ?_, fun hold => ?_⟩, fun s hon hassigned hpast => ⟨?_, fun c => ?_⟩, fun p s hacc => ?_⟩
  · rw [exec_linkIdReceived_of_accepts hn hstate hlanes hacc, gotPacket_of_port hn]
    intro u
    refine ⟨fun hunknown => ?_, fun hassigned hpeer hsys hother => ?_, fun hassigned hpeer hforeign => ?_, fun hassigned hpeer hsys hself => ?_⟩
    · rw [if_pos (by simpa using hunknown)]
      rfl
    · rw [if_neg (by simp [hassigned, hpeer]), if_neg (not_not_intro hsys), if_neg hother]
      rfl
    · rw [if_neg (by simp [hassigned, hpeer]), if_pos hforeign]
      rfl
    · rw [if_neg (by simp [hassigned, hpeer]), if_neg (not_not_intro hsys), if_pos hself]
      rfl
  · exact if_neg (by simp [hnew])
  · exact if_pos hold
  · show execHeartbeatSend s = _
    rw [execHeartbeatSend, hon, hassigned, all_past hpast]
    rfl
  · simp only [routedChips, List.mem_filter, Bool.and_eq_true, decide_eq_true_eq]
  · intro u
    have hexec : exec (.heartbeatReceived p) s = .next (
        if Pk.src p = s.fab.chip then
          if Pk.coords p = (s.fab.rack, s.fab.sled, s.fab.slot) then s else raiseError 6 evChipConflict 0xFF [.pfs] [] s
        else if (Tbl.get none s.fab.joined (Pk.src p)).isSome then u else raiseTo evChipJoined 0xFF [.pfs] [] u) :=
      congrArg _ (receive_of_accepts hacc _)
    rw [hexec]
    refine ⟨fun hother hthere => ?_, fun hother hnew => ?_, fun hself hplace => ?_, fun hself hplace => ?_⟩
    · rw [if_neg hother, if_pos hthere]
    · rw [if_neg hother, if_neg (by simp [hnew])]
    · rw [if_pos hself, if_neg hplace]
    · rw [if_pos hself, if_pos hplace]

/-! ### Rack time -/

/-- What a trained port makes of a TIME packet. -/
theorem exec_timeReceived_of_accepts {n : Nat} {p : Packet} {s : State} (hn : n < 12)
    (hlink : (port s n).state = 3 ∨ ((port s n).state = 1 ∧ (port s n).lanesUp ≠ 0)) (hacc : Safety.Accepts [6] p s) :
    let hops := bits (Pk.arg p) 1 8
    let v := modPort n (fun q => { q with timeHops := if hops ≠ 0xFF ∧ bits (Pk.arg p) 9 12 = s.fab.rootChip then some hops else none }) (gotPacket n s)
    exec (.timeReceived n p) s = .next (
      if !bit (Pk.arg p) 0 then
        transmit n none (mkPacket v 6 0 0 0 0 (1 + 2 * rootHops v + s.fab.rootChip % 4096 * 512) 0
          (sliceBytes p.payload 0 8 ++ leBytes 8 (rack s) ++ leBytes 8 (rack s) ++ List.replicate 8 0)) v
      else if s.fab.timeRoot || decide ((timeParent v).map Prod.fst ≠ some n) || decide ((port v n).t1 ≠ some (leAt p.payload 0 8)) then v
      else
        let own := timeOffset (leAt p.payload 0 8) (leAt p.payload 8 8) (leAt p.payload 16 8) (rack s)
        let off := if hops = 0 then own else own + toSigned 32 (freshFree v).1
        correctTime off (modFab (fun f => { f with timeOffset := toSigned 32 (ofSigned 32 off) })
          (modPort n (fun q => { q with t1 := none }) (if hops = 0 then v else (freshFree v).2)))) := by
  have htrained : ¬(!decide (n < 12) || !(decide ((port s n).state = 3) || (decide ((port s n).state = 1) && decide ((port s n).lanesUp ≠ 0)))) = true := by
    rcases hlink with h | ⟨h, hlanes⟩
    · simp [hn, h]
    · simp [hn, h, hlanes]
  show execTimeReceived n p s = _
  rw [execTimeReceived]
  dsimp only
  rw [if_neg htrained, receive_of_accepts (accepts_gotPacket n hacc), gotPacket_of_port hn]
  rfl

section
variable {off : Int} {s : State}

theorem correctTime_of_ref (href : s.step.rackref = true) : correctTime off s = s := if_pos href

theorem correctTime_of_far (href : s.step.rackref = false) (hfar : 100000 < off.natAbs) : correctTime off s =
    modFab (fun f => { f with slewRest := 0 }) (modStep (fun x => { x with rackTime := x.rackTime + BitVec.ofInt 64 off }) s) := by
  rw [correctTime, if_neg (by simp [href]), if_pos hfar]

theorem correctTime_of_near (href : s.step.rackref = false) (hnear : off.natAbs ≤ 100000) : correctTime off s =
    modFab (fun f => { f with slewRest := off }) s := by
  rw [correctTime, if_neg (by simp [href]), if_neg (Nat.not_lt.mpr hnear)]

end

theorem modFab_timeOffset_modPort (n : Nat) (g : Port → Port) (x : Int) (s : State) : modFab (fun f => { f with timeOffset := x }) (modPort n g s) =
    modPort n g { s with fab := { s.fab with timeOffset := x } } := rfl

/-- Settles O26: a request is answered, a reply from the parent at the root corrects rack time by its size. -/
theorem rackTimeIsExchangedAndCorrected : Obligations.RackTimeIsExchangedAndCorrected := by
  unfold Obligations.RackTimeIsExchangedAndCorrected
  refine ⟨fun n s hon hn hlink hpast => ?_, fun n p s hn hlink hacc => ?_, fun m s hstarts => ?_⟩
  · show execTimeExchangeSend n s = _
    rw [execTimeExchangeSend, all_past hpast, if_pos]
    rcases hlink with h | ⟨h, hlanes⟩
    · simp [hon, hn, h]
    · simp [hon, hn, h, hlanes]
  · rw [exec_timeReceived_of_accepts hn hlink hacc, gotPacket_of_port hn]
    intro hops v
    refine ⟨fun hrequest => ?_, fun hreply hroot hparent hfirst ht1 => ?_⟩
    · rw [if_pos (by simp [hrequest])]
    · intro t1 t2 t3 t4 off w
      have hfirst' : bits (Pk.arg p) 1 8 = 0 := hfirst
      have hoff : timeOffset (leAt p.payload 0 8) (leAt p.payload 8 8) (leAt p.payload 16 8) (rack s) = off := rfl
      rw [if_neg (by simp [hreply]), if_neg (by rw [hroot, hparent, ht1]; simp)]
      dsimp only
      rw [if_pos hfirst', if_pos hfirst', hoff, modFab_timeOffset_modPort]
      refine ⟨fun href => ?_, fun href hfar => ?_, fun href hnear => ?_⟩
      · exact congrArg Host.Outcome.next (correctTime_of_ref (s := w) href)
      · exact congrArg Host.Outcome.next (correctTime_of_far (s := w) href hfar)
      · exact congrArg Host.Outcome.next (correctTime_of_near (s := w) href hnear)
  · intro c u hchip
    have hexec : exec (.fabTimeCfg m) s = .next (answer c (fabTimeCfg c u)) := congrArg _ (runCmd_of_starts hstarts)
    rw [hexec, fabTimeCfg]
    dsimp only
    rw [if_neg (Nat.not_lt.mpr hchip)]
    rfl

/-! ### The fabric commands -/

/-- One entry with a reserved bit, or with a wrong `local`, spoils a route table. -/
theorem routesOk_of_bad_entry {own k : Nat} {bs : List Byte} (hk : k < 4096)
    (hbad : bit (leAt bs (8 * k) 8) 62 ≠ decide (k = own) ∨ bits (leAt bs (8 * k) 8) 28 33 ≠ 0 ∨ bits (leAt bs (8 * k) 8) 12 4 ≠ 0) :
    routesOk own bs = false := by
  unfold routesOk
  rw [List.all_eq_false]
  refine ⟨k, List.mem_range.mpr hk, fun hgood => ?_⟩
  simp only [Bool.and_eq_true, beq_iff_eq] at hgood
  obtain ⟨⟨hlow, hhigh⟩, hloc⟩ := hgood
  rcases hbad with h | h | h
  · exact h (hloc.trans (beq_eq_decide k own))
  · exact h hlow
  · exact h hhigh

/-- FAB_BOND of a group and a mask in range. -/
theorem fabBond_of_range {c : Cmd} {u : State} (hg : pByte c 0 ≤ 5) (hm : pNum c 2 2 ≤ 4095) :
    fabBond c u =
      if pNum c 2 2 ≠ 0 ∧ maskCount (pNum c 2 2) ∉ [2, 3, 4, 6] then refuse stBadCommand u
      else if ∃ b ∈ u.fab.bonds, b.1 ≠ pByte c 0 ∧ b.2 &&& pNum c 2 2 ≠ 0 then refuse stBadCommand u
      else done (checkBonds (modFab (fun f => { f with bonds := Tbl.set 0 f.bonds (pByte c 0) (pNum c 2 2) }) u)) := by
  have hrange : ¬(5 < pByte c 0 ∨ 4095 < pNum c 2 2) := by omega
  unfold fabBond
  dsimp only
  rw [if_neg hrange]
  simp only [Bool.not_eq_true', List.contains_eq_mem, decide_eq_false_iff_not, List.any_eq_true, List.mem_filter, decide_eq_true_eq, bne_iff_ne, and_assoc]

/-- Settles O27: each command by what it names and what it finds. -/
theorem fabricCommandsTakeEffect : Obligations.FabricCommandsTakeEffect := by
  unfold Obligations.FabricCommandsTakeEffect
  refine ⟨fun m s bs hstarts => ?_, fun s e hon hidle hstaged hdue => ?_, fun m s hstarts => ?_, fun m s hstarts => ?_, fun m s hstarts => ?_,
    fun m s hstarts => ?_⟩
  · intro c u hgives v
    have hexec : exec (.fabRouteLoad m) s = .next (answer c (fabRouteLoad c u)) := congrArg _ (runCmd_of_starts hstarts)
    rw [hexec, fabRouteLoad, withHost_of_gives hgives]
    refine ⟨fun hsoon hok => ?_, fun ⟨k, hk, hbad⟩ => ?_, fun hlate hok => ?_⟩
    · have hok' : routesOk u.fab.chip (padTo 32768 bs) = true := hok
      have hsoon' : pNum c 8 8 < rack u + 100000 := hsoon
      rw [hok', if_neg (by simp), if_pos hsoon']
      rfl
    · have hok' : routesOk u.fab.chip (padTo 32768 bs) = false := routesOk_of_bad_entry hk hbad
      rw [hok', if_pos (by simp)]
      rfl
    · have hok' : routesOk u.fab.chip (padTo 32768 bs) = true := hok
      have hlate' : ¬pNum c 8 8 < rack u + 100000 := Nat.not_lt.mpr hlate
      rw [hok', if_neg (by simp), if_neg hlate']
      rfl
  · show execRouteApplyUnstepped s = _
    rw [execRouteApplyUnstepped, hstaged, if_pos (by simp [hon, hidle, hdue]), applyRoutes, hstaged]
    rfl
  · intro c u g k hg hk
    have hexec : exec (.fabBond m) s = .next (answer c (fabBond c u)) := congrArg _ (runCmd_of_starts hstarts)
    rw [hexec, fabBond_of_range hg hk]
    refine ⟨fun hbad => ?_, fun hfree hcount => ?_⟩
    · by_cases hcount : k ≠ 0 ∧ maskCount k ∉ [2, 3, 4, 6]
      · rw [if_pos hcount]
        rfl
      · have hmeets : ∃ b ∈ u.fab.bonds, b.1 ≠ pByte c 0 ∧ b.2 &&& pNum c 2 2 ≠ 0 := hbad.resolve_right hcount
        rw [if_neg hcount, if_pos hmeets]
        rfl
    · have hmeets : ¬∃ b ∈ u.fab.bonds, b.1 ≠ pByte c 0 ∧ b.2 &&& pNum c 2 2 ≠ 0 := fun ⟨b, hb, hne, hmeet⟩ => hmeet (hfree b hb hne)
      have hgood : ¬(pNum c 2 2 ≠ 0 ∧ maskCount (pNum c 2 2) ∉ [2, 3, 4, 6]) := fun ⟨hsome, hnot⟩ => hcount.elim hsome hnot
      rw [if_neg hgood, if_neg hmeets]
      rfl
  · intro c u n hn
    have hexec : exec (.fabPortCtrl m) s = .next (answer c (fabPortCtrl c u)) := congrArg _ (runCmd_of_starts hstarts)
    rw [hexec, fabPortCtrl, if_neg (Nat.not_lt.mpr hn)]
    refine ⟨fun hop => ?_, fun hop hheld => ?_, fun hop hheld => ?_, fun hop => ?_⟩
    · rw [hop]
      rfl
    · have hheld' : (port u n).state = 4 := hheld
      rw [hop]
      exact congrArg (fun v => Host.Outcome.next (complete c 0 0 [] v)) (if_pos hheld')
    · have hheld' : (port u n).state ≠ 4 := hheld
      rw [hop]
      exact congrArg (fun v => Host.Outcome.next (complete c 0 0 [] v)) (if_neg hheld')
    · split
      next h => omega
      next h => omega
      next h => omega
      next => rfl
  · intro c u n x j ok hn
    have hexec : exec (.fabInject m) s = .next (answer c (fabInject c u)) := congrArg _ (runCmd_of_starts hstarts)
    rw [hexec, fabInject]
    dsimp only
    rw [if_neg (Nat.not_lt.mpr hn)]
    refine ⟨fun hdenied => ?_, fun hpermitted => ?_⟩
    · refine congrArg (fun a => Host.Outcome.next (answer c a)) (if_pos ?_)
      exact (Bool.not_eq_true' _).mpr hdenied
    · refine congrArg (fun a => Host.Outcome.next (answer c a)) (if_neg ?_)
      exact fun h => Bool.false_ne_true (((Bool.not_eq_true' _).mp h).symm.trans hpermitted)
  · intro c u hhost
    have hexec : exec (.fabQuery m) s = .next (answer c (fabQuery c u)) := congrArg _ (runCmd_of_starts hstarts)
    rw [hexec, fabQuery, intoHost, if_neg (by simp [hhost])]
    rfl

end Sys2Proof.Machine
end
section
/-! PROOFS. Transfers between chips: at the receiver, at the sender. -/
namespace Sys2Proof.Machine

/-! ### A packet that a window takes -/

section
variable {x : Win} {p : Packet} {s : State}

/-- What an accepted packet leaves of its transfer once it is written; `k` is the row it wrote. -/
def afterWrite (k : Option Nat) (x : Win) (p : Packet) (s : State) : State :=
  modInbound (Pk.src p) (Pk.tag p) (fun i =>
    { i with
      accepted := i.accepted + 1, lastAt := s.now, awaiting := i.awaiting.filter fun j => !decide (k = some j),
      total := if Pk.last p then some (Pk.count p) else i.total, increment := if Pk.last p then Pk.increment p else i.increment,
      hitch := if Pk.last p then Pk.hitch p else i.hitch }) (applyWrite x p (if Pk.poison p then countError 2 s else s))

theorem not_contains_singleton (k : Nat) : (fun j => !(List.contains [k] j)) = fun j => !decide (some k = some j) := by
  funext j
  simp [eq_comm]

theorem not_contains_nil : (fun j => !([] : List Nat).contains j) = fun j => !decide (none = some j) := by
  funext j
  simp

/-- A packet for a row that need not be waited for. -/
theorem acceptPacket_of_row {f r : Nat} (hplace : place (Pk.addr p) (max 1 p.payload.length) = .row f r)
    (hfree : rowWaits s (if x.fwOwned then none else some x.partition) f r = false) :
    acceptPacket x p s = afterWrite (some (f * 32768 + r)) x p s := by
  have hkey : waitingKey s x p = none := by
    rw [waitingKey, hplace]
    exact if_neg (by simp [hfree])
  unfold acceptPacket
  simp only [hkey, hplace, not_contains_singleton]
  rfl

/-- A packet for tier bytes. -/
theorem acceptPacket_of_tier {t off : Nat} (hplace : place (Pk.addr p) (max 1 p.payload.length) = .tier t off) :
    acceptPacket x p s = afterWrite none x p s := by
  have hkey : waitingKey s x p = none := by rw [waitingKey, hplace]
  unfold acceptPacket
  simp only [hkey, hplace, not_contains_nil]
  rfl

/-- A packet whose row must wait. -/
theorem acceptPacket_of_waiting {f r : Nat} (hplace : place (Pk.addr p) (max 1 p.payload.length) = .row f r)
    (hwaits : rowWaits s (if x.fwOwned then none else some x.partition) f r = true) :
    acceptPacket x p s = modInbound (Pk.src p) (Pk.tag p)
      (fun i => if i.awaiting.contains (f * 32768 + r) then i else { i with awaiting := i.awaiting ++ [f * 32768 + r], lastAt := s.now })
      (countBlocked ((f * 32768 + r) / 32768)
        (modSp (fun q => { q with tags := Tbl.set 0 q.tags (f * 32768 + r) (Tbl.get 0 q.tags (f * 32768 + r) / 16 * 16 + 4) }) s)) := by
  have hkey : waitingKey s x p = some (f * 32768 + r) := by
    rw [waitingKey, hplace]
    exact if_pos hwaits
  unfold acceptPacket
  rw [hkey]

end

/-! ### The end of a tracked transfer -/

section
variable {chip tag : Nat} {s : State} {i : Inbound} (hi : inboundOf s chip tag = some i)
include hi

theorem exec_remoteTransferComplete_of_tracked : exec (.remoteTransferComplete chip tag) s = .next (
    if i.dropped ∨ i.total ≠ some i.accepted ∨ !i.awaiting.isEmpty then s else
      let u := modHch (fun h => { h with inbound := h.inbound.filter fun y => !(y.chip == chip && y.tag == tag) }) s
      let v := if i.increment = 0 then u
        else if (win s i.window).fwOwned then modWin i.window (fun y => { y with arrivals := satAdd 32 y.arrivals i.increment }) u
        else incHitch (hitchOf (win s i.window).partition i.hitch) i.increment (modHch (fun h => { h with remoteIncs := satAdd 64 h.remoteIncs 1 }) u)
      sendPacket none (doneOf v i) v) := by
  show execRemoteTransferComplete chip tag s = _
  rw [execRemoteTransferComplete, hi]

theorem exec_transferAbandon_of_tracked : exec (.transferAbandon chip tag) s =
    .next (if dieOn s && decide (i.lastAt + 100000000 ≤ s.now) then abandonInbound i s else s) := by
  show execTransferAbandon chip tag s = _
  rw [execTransferAbandon, hi]

end

/-- Settles O30: a packet by the place it writes, a tracked transfer by what is in and by its age. -/
theorem transfersCompleteOrAreAbandoned : Obligations.TransfersCompleteOrAreAbandoned := by
  unfold Obligations.TransfersCompleteOrAreAbandoned
  refine ⟨fun x p s => ?_, fun chip tag s i hi => ⟨fun hrest => ?_, fun hwhole hall hnone => ?_, fun hearly => ?_, fun hon hlate => ?_⟩⟩
  · intro at_ got
    exact ⟨fun f r hplace hfree => acceptPacket_of_row hplace hfree, fun t off hplace => acceptPacket_of_tier hplace,
      fun f r hplace hwaits => acceptPacket_of_waiting hplace hwaits⟩
  · have hopen : i.dropped = true ∨ i.total ≠ some i.accepted ∨ (!i.awaiting.isEmpty) = true := by simpa using hrest
    rw [exec_remoteTransferComplete_of_tracked hi, if_pos hopen]
  · intro u v
    have hdone : ¬(i.dropped = true ∨ i.total ≠ some i.accepted ∨ (!i.awaiting.isEmpty) = true) := by simp [hwhole, hall, hnone]
    rw [exec_remoteTransferComplete_of_tracked hi, if_neg hdone]
    rfl
  · rw [exec_transferAbandon_of_tracked hi, decide_eq_false (Nat.not_le.mpr hearly), Bool.and_false, if_neg Bool.false_ne_true]
  · rw [exec_transferAbandon_of_tracked hi, hon, decide_eq_true hlate]
    rfl

/-! ### The sender's side -/

theorem modRun_of_cur {e : Nat} {g : ChainRun → ChainRun} {s : State} {r : ChainRun} (h : (engine s e).cur = some r) :
    modRun e g s = modEngine e (fun x => { x with cur := some (g r) }) s := by
  simp only [modRun, modEngine, h, Option.map_some]

theorem modKnot_of_cur {e : Nat} {g : KnotRun → KnotRun} {s : State} {r : KnotRun} (h : (fabEng s e).cur = some r) :
    modKnot e g s = modFabEng e (fun x => { x with cur := some (g r) }) s := by
  simp only [modKnot, modFabEng, h, Option.map_some]

section
variable {p : Packet} {s : State} {o : Outbound}

theorem exec_doneReceived_of_tracked (hacc : Safety.Accepts [2] p s) (ho : outboundOf s p = some o) :
    exec (.doneReceived p) s = .next (endTransfer o none s) := by
  show execDoneReceived p s = _
  rw [execDoneReceived, receive_of_accepts hacc, ho]

theorem exec_nakReceived_of_tracked (hacc : Safety.Accepts [3] p s) (ho : outboundOf s p = some o) :
    (∀ q, bits (Pk.arg p) 0 8 = stBusy → (o.packets.find? fun q => Pk.addr q = Pk.addr p) = some q →
      exec (.nakReceived p) s = .next (modFab (fun f => { f with outbound := f.outbound.map fun x =>
        if x.tag = o.tag then { x with resend := x.resend ++ [(q, s.now)] } else x }) s)) ∧
    (bits (Pk.arg p) 0 8 ≠ stBusy → exec (.nakReceived p) s = .next (endTransfer o (some (bits (Pk.arg p) 0 8))
      (if bits (Pk.arg p) 0 8 = stWindowClosed then modHch (fun h =>
        { h with outs := h.outs.map fun b => if b.1 = o.binding then (b.1, b.2.map fun x => { x with stale := true }) else b }) s else s))) := by
  have hexec : exec (.nakReceived p) s = execNakReceived p s := rfl
  rw [hexec, execNakReceived, receive_of_accepts hacc, ho]
  refine ⟨fun q hbusy hq => ?_, fun hother => ?_⟩
  · dsimp only
    rw [if_pos hbusy, hq]
  · dsimp only
    rw [if_neg hother]

end

section
variable {tag : Nat} {s : State} {o : Outbound} (ho : (s.fab.outbound.find? fun x => decide (x.tag = tag)) = some o)
include ho

theorem exec_busyResend_of_tracked {q : Packet} {t : Nat} {rest : List (Packet × Nat)} (hresend : o.resend = (q, t) :: rest) :
    exec (.busyResend tag) s = .next (
      if dieOn s && decide (t + 2000 ≤ s.now) then
        sendPacket o.part (reborn s q) (modFab (fun f => { f with outbound := f.outbound.map fun x =>
          if x.tag = tag then { x with resend := rest, lastAt := s.now } else x }) s)
      else s) := by
  show execBusyResend tag s = _
  rw [execBusyResend, ho]
  dsimp only
  rw [hresend]

theorem exec_senderTimeout_of_tracked : exec (.senderTimeout tag) s = .next (
    if dieOn s && o.resend.isEmpty && decide (o.lastAt + 200000000 ≤ s.now) then endTransfer o (some stTimeout) s else s) := by
  show execSenderTimeout tag s = _
  rw [execSenderTimeout, ho]

end

/-- Settles O31: each answer and each time limit by the transfer that it names. -/
theorem sendersHearOfTheirTransfers : Obligations.SendersHearOfTheirTransfers := by
  unfold Obligations.SendersHearOfTheirTransfers
  refine ⟨fun p s o hdst hfind => ?_, fun tag s o ho hon => ⟨fun q t rest hresend hlate => ?_, fun q t rest hresend hearly => ?_, fun hnone hlate => ?_,
    fun hearly => ?_⟩, fun o st s => ?_⟩
  · have ho : outboundOf s p = some o := (if_pos hdst).trans hfind
    refine ⟨fun hacc => exec_doneReceived_of_tracked hacc ho, fun hacc => ?_⟩
    obtain ⟨hbusy, hother⟩ := exec_nakReceived_of_tracked hacc ho
    refine ⟨fun q hst hq => hbusy q hst hq, fun hst => ?_, fun hnotBusy hnotClosed => ?_⟩
    · rw [hother (by rw [hst]; decide), hst]
      rfl
    · rw [hother hnotBusy, if_neg hnotClosed]
  · rw [exec_busyResend_of_tracked ho hresend, hon, decide_eq_true hlate]
    rfl
  · rw [exec_busyResend_of_tracked ho hresend, decide_eq_false (Nat.not_le.mpr hearly), Bool.and_false, if_neg Bool.false_ne_true]
  · rw [exec_senderTimeout_of_tracked ho, hon, hnone, decide_eq_true hlate]
    rfl
  · rw [exec_senderTimeout_of_tracked ho, decide_eq_false (Nat.not_le.mpr hearly), Bool.and_false, if_neg Bool.false_ne_true]
  · intro u
    refine ⟨fun r hknot hcur hthere => ?_, fun k hknot hcur hthere => ?_⟩
    · have hcur' : (engine u o.engine).cur = some r := hcur
      rw [endTransfer, if_neg (by simp [hknot])]
      exact (modRun_of_cur hcur').trans (by rw [if_pos hthere])
    · have hcur' : (fabEng u o.engine).cur = some k := hcur
      rw [endTransfer, if_pos hknot]
      exact (modKnot_of_cur hcur').trans (by rw [if_pos hthere])

end Sys2Proof.Machine
end
section
/-! PROOFS. Knots: their operations, their commands, their launch. -/
namespace Sys2Proof.Machine

/-! ### An engine at an operation -/

/-- Where nothing stops the knot, the operation it has come to is run. -/
theorem onKnot_of_at {op e : Nat} {r : KnotRun} {s : State} (h : Safety.AtKnotOp op e r s) (k : KnotRun → List Byte → State → State) :
    onKnot op e k s = k r (Kn.opAt (knotImage s r.knot) r.op) s := by
  obtain ⟨hon, he, hcur, hstop, hop⟩ := h
  unfold onKnot
  simp only [hon, Nat.not_le.mpr he, hcur, hstop, hop, decide_false, Bool.not_true, Bool.or_self, Bool.false_eq_true, if_false, if_true]

/-- Where something stops the knot, it fails whatever is asked of it. -/
theorem onKnot_of_stopped {op e st : Nat} {r : KnotRun} {s : State} (hon : dieOn s = true) (he : e < 4) (hcur : (fabEng s e).cur = some r)
    (hstop : knotStop s r = some st) (k : KnotRun → List Byte → State → State) : onKnot op e k s = failKnot e st r s := by
  unfold onKnot
  simp only [hon, Nat.not_le.mpr he, hcur, hstop, decide_false, Bool.not_true, Bool.or_self, Bool.false_eq_true, if_false]

/-! ### SEND, COMBINE, COPY -/

theorem knotAddr_on (r : KnotRun) (k a : Nat) : knotAddr r true k a = (a + (r.regs.getD k (0, 0)).2) % 2 ^ 64 := rfl

theorem knotAddr_off {r : KnotRun} {k a : Nat} (h : a < 2 ^ 64) : knotAddr r false k a = a := Nat.mod_eq_of_lt h

theorem held_of_ne_nil {l : List (Nat × Nat)} (h : l ≠ []) : (!l.isEmpty) = true := by simpa using h

theorem not_held_of_nil {l : List (Nat × Nat)} (h : l = []) : ¬(!l.isEmpty) = true := by simp [h]

/-- Settles O32: each operation by its first fault, by the rows that hold it, and by a free tag. -/
theorem knotsMoveDataBetweenRowsTiersAndChips : Obligations.KnotsMoveDataBetweenRowsTiersAndChips := by
  unfold Obligations.KnotsMoveDataBetweenRowsTiersAndChips
  refine ⟨fun e h s r hat => ?_, fun e h g s r hat => ?_, fun e h s r hat => ?_, fun r o => ⟨fun hen => ?_, fun hen => ?_, fun hoff hlt => ?_, fun hoff hlt => ?_⟩⟩
  · intro o x held chip bad
    have hexec : exec (.knotSend e h) s = _ := congrArg Host.Outcome.next (onKnot_of_at hat _)
    rw [hexec]
    dsimp only
    generalize hb : firstFault _ = b
    refine ⟨fun st hbad => ?_, fun hbad hheld => ?_, fun hbad hfree htag => ?_, fun hbad hfree htag => ?_⟩
    · obtain rfl : b = some st := hb.symm.trans hbad
      rfl
    · obtain rfl : b = none := hb.symm.trans hbad
      exact congrArg _ (if_pos (held_of_ne_nil hheld))
    · obtain rfl : b = none := hb.symm.trans hbad
      dsimp only
      rw [if_neg (not_held_of_nil (l := knotHeld ..) hfree), htag, Bool.not_false, if_pos rfl]
    · obtain rfl : b = none := hb.symm.trans hbad
      dsimp only
      rw [if_neg (not_held_of_nil (l := knotHeld ..) hfree), htag, Bool.not_true, if_neg Bool.false_ne_true]
  · intro o n x y held bad
    have hexec : exec (.knotCombine e h g) s = _ := congrArg Host.Outcome.next (onKnot_of_at hat _)
    rw [hexec]
    dsimp only
    generalize hb : firstFault _ = b
    refine ⟨fun st hbad => ?_, fun hbad hheld => ?_, fun hbad hfree => ?_⟩
    · obtain rfl : b = some st := hb.symm.trans hbad
      rfl
    · obtain rfl : b = none := hb.symm.trans hbad
      exact congrArg _ (if_pos (held_of_ne_nil hheld))
    · obtain rfl : b = none := hb.symm.trans hbad
      dsimp only
      rw [if_neg (not_held_of_nil (l := knotHeld .. ++ knotHeld ..) hfree)]
  · intro o x y held bad
    have hexec : exec (.knotCopy e h) s = _ := congrArg Host.Outcome.next (onKnot_of_at hat _)
    rw [hexec]
    dsimp only
    generalize hb : firstFault _ = b
    refine ⟨fun st hbad => ?_, fun hbad hheld => ?_, fun hbad hfree => ?_⟩
    · obtain rfl : b = some st := hb.symm.trans hbad
      rfl
    · obtain rfl : b = none := hb.symm.trans hbad
      exact congrArg _ (if_pos (held_of_ne_nil hheld))
    · obtain rfl : b = none := hb.symm.trans hbad
      dsimp only
      rw [if_neg (not_held_of_nil (l := knotHeld .. ++ knotHeld ..) hfree)]
  · rw [knotSrc, hen, knotAddr_on]
  · rw [knotDst, hen, knotAddr_on]
  · rw [knotSrc, hoff, knotAddr_off hlt]
  · rw [knotDst, hoff, knotAddr_off hlt]

/-! ### The other operations -/

theorem hitchOf_mod (p v : Nat) : hitchOf p (v % 4096) = 4096 * (p % 16) + v % 4096 := by rw [hitchOf, Nat.mod_mod]

/-- Settles O33: each operation where nothing stops the knot, then the stop. -/
theorem knotsSynchroniseAndLoop : Obligations.KnotsSynchroniseAndLoop := by
  unfold Obligations.KnotsSynchroniseAndLoop
  refine ⟨fun e s r => ?_, fun e st s r hon he hcur hstop => ?_⟩
  · intro o h
    have hhitch : hitchOf r.part (Kn.hitch o % 4096) = h := hitchOf_mod ..
    refine ⟨fun hat => ?_, fun hat => ?_, fun hat => ?_, fun hat => ?_, fun hat span v hreg hspan => ?_, fun hat => ?_, fun hat => ?_⟩
    · have hexec : exec (.knotWait e) s = .next (if hitchReady s (hitchOf r.part (Kn.hitch o % 4096)) then
          gotoOp e (r.op + 1) (takeHitch (hitchOf r.part (Kn.hitch o % 4096)) s) else s) := congrArg Host.Outcome.next (onKnot_of_at hat _)
      rw [hexec, hhitch]
      exact ⟨fun hready => congrArg _ (if_pos (decide_eq_true hready)), fun hearly => congrArg _ (if_neg (by simp [hitchReady, hearly]))⟩
    · have hexec : exec (.knotInc e) s = .next (gotoOp e (r.op + 1) (incHitch (hitchOf r.part (Kn.hitch o % 4096)) (Kn.inc o) s)) :=
        congrArg Host.Outcome.next (onKnot_of_at hat _)
      rw [hexec, hhitch]
    · intro en
      have hexec : exec (.knotBarrier e) s = .next (
          if r.waiting then
            match releasedFor s (e + 1) with
            | none => s
            | some broken => if broken then failKnot e stTimeout r (takeRelease (e + 1) s) else gotoOp e (r.op + 1) (takeRelease (e + 1) s)
          else match en.1 with
            | some st => if st = stTimeout ∧ !Kn.wait o then gotoOp e (r.op + 1) en.2 else failKnot e st r en.2
            | none => if Kn.wait o then modKnot e (fun k => { k with waiting := true }) en.2 else gotoOp e (r.op + 1) en.2) :=
        congrArg Host.Outcome.next (onKnot_of_at hat _)
      rw [hexec]
      refine ⟨fun hw hrel => ?_, fun hw hrel => ?_, fun hw hrel => ?_, fun hw hen hwait => ?_, fun hw hen hwait => ?_, fun hw hen => ?_⟩
      · rw [if_pos hw, hrel]
      · rw [if_pos hw, hrel]
        rfl
      · rw [if_pos hw, hrel]
        rfl
      · rw [if_neg (by simp [hw]), hen]
        exact congrArg _ (if_pos hwait)
      · rw [if_neg (by simp [hw]), hen]
        exact congrArg _ (if_neg (by simp [hwait]))
      · rw [if_neg (by simp [hw]), hen]
        rfl
    · exact congrArg Host.Outcome.next (onKnot_of_at hat _)
    · have hexec : exec (.knotAdvreg e) s = _ := congrArg Host.Outcome.next (onKnot_of_at hat _)
      have hreg' : r.regs.getD (Kn.reg (Kn.opAt (knotImage s r.knot) r.op) % 4) (0, 0) = (span, v) := hreg
      rw [hexec]
      dsimp only
      rw [hreg']
      dsimp only
      rw [if_neg (Nat.pos_iff_ne_zero.mp hspan)]
    · intro j n
      have hexec : exec (.knotLoop e) s = .next (gotoOp e (if n = 0 then r.op + 1 else Kn.target o)
          (modKnot e (fun x => { x with counters := x.counters.set j n }) s)) := congrArg Host.Outcome.next (onKnot_of_at hat _)
      rw [hexec]
      refine ⟨fun hzero => ?_, fun hpos => ?_⟩
      · rw [hzero, if_pos rfl]
      · rw [if_neg (Nat.pos_iff_ne_zero.mp hpos)]
    · exact congrArg Host.Outcome.next (onKnot_of_at hat _)
  · intro t
    have hfails : ∀ op k, Host.Outcome.next (onKnot op e k s) = (.next t : Host.Outcome State Fault Refusal) :=
      fun _ k => congrArg _ (onKnot_of_stopped hon he hcur hstop k)
    exact ⟨hfails _ _, hfails _ _, hfails _ _, hfails _ _, hfails _ _, hfails _ _, hfails _ _,
      fun h => ⟨hfails _ _, hfails _ _, fun g => hfails _ _⟩, rfl⟩

/-! ### Commands and launches -/

section
variable {c : Cmd} {u : State} (hk : pNum c 0 2 ≤ 4095) (hmin : 64 ≤ pNum c 16 4) (hmax : pNum c 16 4 ≤ 8224)
include hk hmin hmax

/-- KNOT_LOAD of a number and a length in range. -/
theorem knotLoad_of_range : knotLoad c u =
    if (knot? u (pNum c 0 2)).any (fun i => i.part != cmdPart c) then refuse stNotPermitted u
    else if (knot? u (pNum c 0 2)).isSome && !pBit c 2 0 then refuse stBadCommand u
    else if knotBusy u (pNum c 0 2) then refuse stBusy u
    else withHost c (pNum c 8 8) (pNum c 16 4) u fun bs =>
      if !Kn.headerOk bs || (List.range (Kn.ops bs)).any (fun i => Kn.dirty (Kn.opAt bs i)) then refuse stBadCommand u
      else if 0x100000 < knotBytes u (pNum c 0 2) + pNum c 16 4 then refuse stNoResource u
      else done (modFab (fun f => { f with knots := Tbl.set none f.knots (pNum c 0 2) (some { part := cmdPart c, image := bs }) }) u) := by
  have hrange : ¬(4095 < pNum c 0 2 ∨ pNum c 16 4 < 64 ∨ 32 + 32 * 256 < pNum c 16 4) := by omega
  unfold knotLoad
  dsimp only
  rw [if_neg hrange]

end

/-- Settles O34: each command by whose the knot is and who runs it, then the launch. -/
theorem knotCommandsLoadUnloadAndAbort : Obligations.KnotCommandsLoadUnloadAndAbort := by
  unfold Obligations.KnotCommandsLoadUnloadAndAbort
  refine ⟨fun m s hstarts => ?_, fun m s i hstarts => ?_, fun m s r hstarts => ?_, fun part e k s => ?_⟩
  · intro c u k n hk hmin hmax
    have hexec : exec (.knotLoad m) s = .next (answer c (knotLoad c u)) := congrArg _ (runCmd_of_starts hstarts)
    rw [hexec, knotLoad_of_range hk hmin hmax]
    refine ⟨fun i hi hother => ?_, fun i hi hown hkeep => ?_, fun bs hown hidle hgives => ?_⟩
    · have hi' : knot? u (pNum c 0 2) = some i := hi
      rw [hi', if_pos (by simpa using hother)]
      rfl
    · have hi' : knot? u (pNum c 0 2) = some i := hi
      rw [hi', if_neg (by simp [hown]), if_pos (by simp [hkeep])]
      rfl
    · intro v
      have hother : ¬((knot? u (pNum c 0 2)).any fun i => i.part != cmdPart c) = true := by
        rw [Option.any_eq_true]
        rintro ⟨i, hi, hne⟩
        simp [(hown i hi).1] at hne
      have hkept : ¬((knot? u (pNum c 0 2)).isSome && !pBit c 2 0) = true := by
        rw [Bool.and_eq_true, Option.isSome_iff_exists]
        rintro ⟨⟨i, hi⟩, hno⟩
        simp [(hown i hi).2] at hno
      have hidle' : ¬knotBusy u (pNum c 0 2) = true := Bool.eq_false_iff.mp hidle
      rw [if_neg hother, if_neg hkept, if_neg hidle', withHost_of_gives hgives]
      refine ⟨fun hbad => ?_, fun hhead hclean => ?_⟩
      · have hbad' : (!Kn.headerOk (padTo n bs) || (List.range (Kn.ops (padTo n bs))).any fun i => Kn.dirty (Kn.opAt (padTo n bs) i)) = true := by
          simpa using hbad
        rw [if_pos hbad']
        rfl
      · have hgood : ¬(!Kn.headerOk (padTo n bs) || (List.range (Kn.ops (padTo n bs))).any fun i => Kn.dirty (Kn.opAt (padTo n bs) i)) = true := by
          simpa [hhead] using hclean
        rw [if_neg hgood]
        refine ⟨fun hfits => ?_, fun hfull => ?_⟩
        · have hfits' : ¬0x100000 < knotBytes u (pNum c 0 2) + pNum c 16 4 := Nat.not_lt.mpr hfits
          rw [if_neg hfits']
          rfl
        · have hfull' : 0x100000 < knotBytes u (pNum c 0 2) + pNum c 16 4 := hfull
          rw [if_pos hfull']
          rfl
  · intro c u k hk hi hown
    have hexec : exec (.knotUnload m) s = .next (answer c (knotUnload c u)) := congrArg _ (runCmd_of_starts hstarts)
    have hi' : knot? u (pNum c 0 2) = some i := hi
    rw [hexec, knotUnload]
    dsimp only
    rw [if_neg (Nat.not_lt.mpr hk), hi', if_neg (by simp [hown])]
    refine ⟨fun hbusy => ?_, fun hidle => ?_⟩
    · have hbusy' : knotBusy u (pNum c 0 2) = true := hbusy
      rw [if_pos hbusy']
      rfl
    · have hidle' : ¬knotBusy u (pNum c 0 2) = true := Bool.eq_false_iff.mp hidle
      rw [if_neg hidle']
      rfl
  · intro c u he hcur
    have hexec : exec (.knotAbort m) s = .next (answer c (knotAbort c u)) := congrArg _ (runCmd_of_starts hstarts)
    have hcur' : (fabEng u (pByte c 0)).cur = some r := hcur
    rw [hexec, knotAbort, if_neg (Nat.not_lt.mpr he), hcur']
    exact ⟨fun hother => congrArg (fun a => Host.Outcome.next (answer c a)) (if_pos hother),
      fun hown => congrArg (fun a => Host.Outcome.next (answer c a)) (if_neg (not_not_intro hown))⟩
  · intro bad
    refine ⟨fun hother => ?_, fun i hi hown => ?_⟩
    · have hnone : (knot? s k).any (fun i => i.part == part) = false := by
        rw [Option.any_eq_false]
        exact fun i hi => by simpa using hother i hi
      rw [launchKnot, hnone, Bool.not_false, if_pos rfl]
      rfl
    · have hmine : (knot? s k).any (fun i => i.part == part) = true := by simp [hi, hown]
      rw [launchKnot, hmine, if_neg (by simp)]
      exact ⟨fun hfull => if_pos hfull, fun hroom => if_neg (Nat.not_le.mpr hroom)⟩

end Sys2Proof.Machine
end
section
/-! PROOFS. The stream engines: what they move, how their chains start, end and fail, MEM_COPY and MEM_T3_UNMAP. -/
namespace Sys2Proof.Machine

/-! ### A descriptor that an engine is on -/

section
variable {op e : Nat} {xf : State → ChainRun → Desc → List (List Byte × Bool) → Option Pieces} {h : ReadIn} {s : State} {r : ChainRun}
  (hat : Safety.AtDesc op e r s)
include hat

/-- A binding or a read of host memory that fails. -/
theorem moveDesc_of_fault {st : Nat} (hfault : moveFault s r.chain (curDesc r) h.host = some st) :
    moveDesc op xf e h s = failRun e st (countRead st s) := by
  obtain ⟨hon, hcur, hop, hmoved, hfailed⟩ := hat
  unfold moveDesc
  simp only [hcur, hon, hop, hmoved, hfailed, hfault, bne_self_eq_false, Bool.not_true, Option.isSome_none, Bool.or_self, Bool.false_eq_true, if_false]

/-- Without such a fault, the rows that block it come first, then the tag, then the transcoder. -/
theorem moveDesc_of_sound (hsound : moveFault s r.chain (curDesc r) h.host = none) :
    let d := curDesc r
    let held := blockedRows s r d
    let xs := srcExtents r.chain d
    let v := readFinds (rowsOf xs ++ (descMapRows r.chain d).map fun x => (0, x)) xs h s
    let a := readRows r.chain d (hostBytes h.host) v
    (held ≠ [] → moveDesc op xf e h s = (held.map Prod.fst).eraseDups.foldl (fun u f => countBlocked f u) s) ∧
    (held = [] → Ds.remote d = true → tagFree s = false → moveDesc op xf e h s = s) ∧
    (held = [] → (Ds.remote d = false ∨ tagFree s = true) →
      (∀ ps, xf v r d a.1 = some ps →
        moveDesc op xf e h s = land e r d ps (accessRows false (chainPart r.chain) 0 false (descMapRows r.chain d) a.2).2) ∧
      (xf v r d a.1 = none → moveDesc op xf e h s = failRun e stMetadataFault a.2)) := by
  obtain ⟨hon, hcur, hop, hmoved, hfailed⟩ := hat
  intro d held xs v a
  have hmove : moveDesc op xf e h s =
      if !held.isEmpty then (held.map Prod.fst).eraseDups.foldl (fun u f => countBlocked f u) s
      else if Ds.remote d && !tagFree s then s
      else match xf v r d a.1 with
        | some ps => land e r d ps (accessRows false (chainPart r.chain) 0 false (descMapRows r.chain d) a.2).2
        | none => failRun e stMetadataFault a.2 := by
    unfold moveDesc
    simp only [hcur, hon, hop, hmoved, hfailed, hsound, bne_self_eq_false, Bool.not_true, Option.isSome_none, Bool.or_self, Bool.false_eq_true, if_false] <;> rfl
  rw [hmove]
  refine ⟨fun hheld => if_pos (held_of_ne_nil hheld), fun hfree hremote htag => ?_, fun hfree htag => ?_⟩
  · rw [if_neg (not_held_of_nil hfree), if_pos (by simp [hremote, htag])]
  · have hgoes : ¬(Ds.remote d && !tagFree s) = true := by
      rcases htag with htag | htag <;> simp [htag]
    rw [if_neg (not_held_of_nil hfree), if_neg hgoes]
    exact ⟨fun ps hps => by rw [hps], fun hnone => by rw [hnone]⟩

end

theorem packTrits_eq_none (bs : List Byte) : packTrits bs = none ↔ ∃ b ∈ bs, b ≠ 0x00 ∧ b ≠ 0x01 ∧ b ≠ 0xFF := by
  have hall : (bs.all fun b => b == 0 || b == 1 || b == 255) = true ↔ ¬∃ b ∈ bs, b ≠ 0x00 ∧ b ≠ 0x01 ∧ b ≠ 0xFF := by
    simp only [List.all_eq_true, Bool.or_eq_true, beq_iff_eq, not_exists, not_and_or, not_not, or_assoc]
    exact ⟨fun h b => by by_cases hb : b ∈ bs <;> simp_all, fun h b hb => (h b).resolve_left (not_not_intro hb)⟩
  by_cases hbad : ∃ b ∈ bs, b ≠ 0x00 ∧ b ≠ 0x01 ∧ b ≠ 0xFF
  · exact iff_of_true (if_neg (fun h => hall.mp h hbad)) hbad
  · refine iff_of_false ?_ hbad
    rw [packTrits, if_pos (hall.mpr hbad)]
    exact Option.some_ne_none _

theorem engine_modRun_same {e : Nat} {g : ChainRun → ChainRun} {s : State} {r : ChainRun} (hcur : (engine s e).cur = some r) :
    (engine (modRun e g s) e).cur = some (g r) := by
  have hne : ({ engine s e with cur := some (g r) } : Engine) ≠ Engine.reset := fun h => Option.some_ne_none (g r) (congrArg Engine.cur h)
  rw [modRun_of_cur hcur, engine, modEngine, modStr_str]
  dsimp only
  rw [Tbl.get_set_same_ne _ _ _ _ hne]

/-- Settles O35: one argument for the eleven operations, then what single transcoders and the landing do. -/
theorem streamEnginesMoveTheirDescriptors : Obligations.StreamEnginesMoveTheirDescriptors := by
  unfold Obligations.StreamEnginesMoveTheirDescriptors
  refine ⟨?_, packTrits_eq_none, fun r d bs hflat => ⟨?_, ?_⟩, fun s r d rows hsp => ?_, fun f s => rfl, fun e r d ps s q hlocal hcur => ?_⟩
  · intro moves
    have hmoves : ∀ op i xf, (∀ e h s, exec (i e h) s = .next (moveDesc op xf e h s)) → moves op i xf := by
      intro op i xf hexec e h s r hat d held xs v a
      rw [hexec]
      refine ⟨fun st hfault => congrArg _ (moveDesc_of_fault hat hfault), fun hsound hheld => ?_, fun hsound hfree hremote htag => ?_,
        fun hsound hfree htag => ?_⟩
      all_goals obtain ⟨hblocked, htagless, hgoes⟩ := moveDesc_of_sound (xf := xf) hat hsound
      · exact congrArg _ (hblocked hheld)
      · exact congrArg _ (htagless hfree hremote htag)
      · obtain ⟨hsome, hnone⟩ := hgoes hfree htag
        exact ⟨fun ps hps => congrArg _ (hsome ps hps), fun hno => congrArg _ (hnone hno)⟩
    exact ⟨hmoves _ _ _ fun _ _ _ => rfl, hmoves _ _ _ fun _ _ _ => rfl, hmoves _ _ _ fun _ _ _ => rfl, hmoves _ _ _ fun _ _ _ => rfl,
      hmoves _ _ _ fun _ _ _ => rfl, hmoves _ _ _ fun _ _ _ => rfl, hmoves _ _ _ fun _ _ _ => rfl, hmoves _ _ _ fun _ _ _ => rfl,
      hmoves _ _ _ fun _ _ _ => rfl, hmoves _ _ _ fun _ _ _ => rfl, hmoves _ _ _ fun _ _ _ => rfl⟩
  · rw [copyRow, hflat, if_neg Bool.false_ne_true]
  · rw [fillRow, hflat, if_neg Bool.false_ne_true]
  · unfold copyPieces
    split
    · rw [if_pos hsp]
    · rfl
  · rw [land]
    dsimp only
    rw [if_neg (by simp [hlocal]), engine_modRun_same hcur]

/-! ### Chains -/

/-- An idle engine of a running die takes what waits, program chains first. -/
theorem exec_streamChainStart_of_idle {e : Nat} {s : State} (hon : dieOn s = true) (he : e < 32) (hidle : (engine s e).cur = none) :
    exec (.streamChainStart e) s = .next (match (engine s e).queue, (engine s e).back with
      | c :: rest, _ => acceptDesc e (modEngine e (fun x => { x with queue := rest, cur := some (runOf c) }) s)
      | [], c :: rest => acceptDesc e (modEngine e (fun x => { x with back := rest, cur := some (runOf c) }) s)
      | [], [] => s) := by
  show execStreamChainStart e s = _
  rw [execStreamChainStart, if_pos (by simp [hon, he]), takeChain]
  simp only [hidle, Option.isSome_none, Bool.false_eq_true, if_false] <;> rfl

/-- A local descriptor's own increment. -/
theorem localIncrement_eq (c : Chain) (d : Desc) (s : State) : (if Ds.remote d then s else descIncrement c d s) =
    if Ds.remote d = false ∧ Ds.hitchEn d = true then incHitch (4096 * (chainPart c % 16) + d.hitch % 4096) d.increment s else s := by
  rw [← hitchOf_mod, descIncrement]
  cases Ds.remote d <;> cases Ds.hitchEn d <;> rfl

/-- DESCRIPTOR_COMPLETE of an engine on a descriptor that has not failed. -/
theorem exec_descriptorComplete_of_sound {e : Nat} {s : State} {r : ChainRun} (hon : dieOn s = true) (hcur : (engine s e).cur = some r)
    (hsound : r.failed = none) :
    let d := curDesc r
    let u := dropHints r.chain d (if Ds.remote d = false ∧ Ds.hitchEn d = true
      then incHitch (4096 * (chainPart r.chain % 16) + d.hitch % 4096) d.increment s else s)
    let v := modStr (fun x => { x with descs := satAdd 64 x.descs 1, bytes := satAdd 64 x.bytes (if d.op = 10 then 0 else d.length * d.rows) }) u
    exec (.descriptorComplete e) s = .next (
      if !r.moved || !r.awaiting.isEmpty then s
      else if Ds.last d then endChain e (if r.poisoned then stPoisoned else stOk) v else nextDesc e v) := by
  show execDescriptorComplete e s = _
  rw [execDescriptorComplete, hcur]
  simp only [hon, hsound, localIncrement_eq, Ds.isFill, beq_iff_eq, Bool.not_true, Option.isSome_none, Bool.false_or, Bool.or_false]

/-- A descriptor of local rows that fails, or comes after one that did. -/
theorem failDesc_of_local {c : Chain} {st : Nat} {d : Desc} (s : State) (hclean : d.reserved = false) (hop : d.op ≤ 10) (hlocal : Ds.remote d = false) :
    failDesc c st d s = descIncrement c d ((descRows c d).foldl (fun s k =>
      modStr (fun x => { x with poisonRows := satAdd 32 x.poisonRows 1 }) (putRow false (chainPart c) k.1 k.2 (List.replicate 640 0) true true s)) s) := by
  unfold failDesc
  simp only [hclean, hop, hlocal, Bool.not_false, decide_true, Bool.and_self, if_true, Bool.false_eq_true, if_false]

/-- DESCRIPTOR_FAIL of a descriptor that was refused. -/
theorem exec_descriptorFail_of_failed {e st x : Nat} {s : State} {r : ChainRun} (hon : dieOn s = true) (hcur : (engine s e).cur = some r)
    (hfailed : r.failed = some st) :
    let c := r.chain
    let d := curDesc r
    let ds := if d.reserved || (!Ds.last d && decide (c.table.length ≤ d.next % 4096)) || decide (4096 < r.seen) then [d] else restOf c r.idx (r.seen - 1)
    let u := ds.foldl (fun s y => failDesc c st y s) s
    exec (.descriptorFail e x) s = .next (
      if ds.any fun y => !y.reserved && decide (y.op ≤ 10) && (descRows c y).any fun k => transientWaits s (some (chainPart c)) k.1 k.2 then s
      else endChain e st (raiseError 6 evStreamFailed (chainPart c) [.prims (chainPart c)] [] (modStr (fun z =>
        { z with
          faultValid := true, failed := satAdd 32 z.failed 1,
          faultPart := if z.faultValid then z.faultPart else chainPart c, faultCause := if z.faultValid then z.faultCause else st,
          faultEngine := if z.faultValid then z.faultEngine else e, faultDesc := if z.faultValid then z.faultDesc else r.idx,
          faultBack := if z.faultValid then z.faultBack else c.background }) u))) := by
  show execDescriptorFail e x s = _
  rw [execDescriptorFail, hcur]
  simp only [hon, hfailed, Option.orElse_eq_orElse, Option.orElse_some, Option.isSome_some, if_true, Bool.not_true, Bool.false_or]

/-- Settles O36: each event by what the engine holds, each command by what it names. -/
theorem streamChainsStartEndAndFail : Obligations.StreamChainsStartEndAndFail := by
  unfold Obligations.StreamChainsStartEndAndFail
  refine ⟨fun e s hon he hidle => ?_, fun e s r hon hcur hsound => ?_, fun e st x s r hon hcur hfailed => ?_,
    fun c st d s hclean hop hlocal => failDesc_of_local s hclean hop hlocal, fun m s bs hstarts => ?_, fun m s w hstarts => ?_⟩
  · rw [exec_streamChainStart_of_idle hon he hidle]
    exact ⟨fun c rest hq => by rw [hq], fun c rest hq hb => by rw [hq, hb], fun hq hb => by rw [hq, hb]⟩
  · intro d u v
    rw [exec_descriptorComplete_of_sound hon hcur hsound]
    refine ⟨fun hearly => ?_, fun hmoved hover hlast => ?_, fun hmoved hover hmore => ?_⟩
    · exact congrArg _ (if_pos (by simpa using hearly))
    · exact congrArg _ ((if_neg (by simp [hmoved, hover])).trans (if_pos hlast))
    · exact congrArg _ ((if_neg (by simp [hmoved, hover])).trans (if_neg (Bool.eq_false_iff.mp hmore)))
  · intro c d ds waits
    rw [exec_descriptorFail_of_failed hon hcur hfailed]
    have hwaits : (ds.any fun y => !y.reserved && decide (y.op ≤ 10) && (descRows c y).any fun k => transientWaits s (some (chainPart c)) k.1 k.2) = true ↔ waits := by
      simp only [waits, List.any_eq_true, Bool.and_eq_true, Bool.not_eq_true', decide_eq_true_eq, and_assoc]
    exact ⟨fun hw => congrArg _ (if_pos (hwaits.mpr hw)), fun hw => congrArg _ (if_neg (fun h => hw (hwaits.mp h)))⟩
  · intro c u n hpos hmax hgives v table
    have hexec : exec (.memCopy m) s = .next (answer c (memCopy c u)) := congrArg _ (runCmd_of_starts hstarts)
    rw [hexec, memCopy]
    dsimp only
    rw [if_neg (by omega), withHost_of_gives hgives]
    have hany : ((descTable (padTo (64 * pNum c 8 2) bs)).any fun d => d.reserved || bits d.flags 2 2 != 0) = true ↔
        ∃ d ∈ table, d.reserved = true ∨ bits d.flags 2 2 ≠ 0 := by
      simp only [List.any_eq_true, Bool.or_eq_true, bne_iff_ne]
      rfl
    refine ⟨fun hbad => ?_, fun hgood => ?_⟩
    · rw [if_pos (hany.mpr hbad)]
      rfl
    · rw [if_neg fun h => ?_]
      · rfl
      · obtain ⟨d, hd, hbad⟩ := hany.mp h
        obtain ⟨hclean, hbits⟩ := hgood d hd
        simp [hclean, hbits] at hbad
  · intro c u k hport hw
    have hexec : exec (.memT3Unmap m) s = .next (answer c (memT3Unmap c u)) := congrArg _ (runCmd_of_starts hstarts)
    have hw' : Tbl.get none u.str.windows (256 * pByte c 0 + pByte c 1) = some w := hw
    rw [hexec, memT3Unmap]
    dsimp only
    rw [if_neg (Nat.not_lt.mpr hport), hw']
    dsimp only
    refine ⟨fun hother => ?_, fun hown hidle => ?_, fun hown hbusy => ?_⟩
    · have hother' : funcPart u w.func ≠ c.part := hother
      rw [if_pos hother']
      rfl
    · have hown' : ¬funcPart u w.func ≠ c.part := not_not_intro hown
      have hidle' : ¬windowBusy u w = true := Bool.eq_false_iff.mp hidle
      rw [if_neg hown', if_neg hidle']
      rfl
    · have hown' : ¬funcPart u w.func ≠ c.part := not_not_intro hown
      have hbusy' : windowBusy u w = true := hbusy
      rw [if_neg hown', if_pos hbusy']
      rfl

end Sys2Proof.Machine
end
section
/-! PROOFS. The tiers: error correction, the write-combining buffer, retirement, windows, modes, lock groups. -/
namespace Sys2Proof.Machine

/-! ### Error correction -/

@[simp] theorem tier_modTier_same (t : Nat) (g : TierSt → TierSt) (s : State) : tier (modTier t g s) t = g (tier s t) := by
  by_cases ht : t = 0 <;> simp [tier, modTier, ht]

/-- What an uncorrectable block does, told to the owners it has in that state. -/
theorem tierUncorrectable_eq (t b : Nat) (s : State) : tierUncorrectable t b s =
    raiseError 2 evTierPoison 0xFF ((maskParts (ownersOf s t (b / 1024))).map Recip.prims ++ [.pfs]) [] (modTier t (fun x =>
      { x with
        eccUncorrected := satAdd 32 x.eccUncorrected 1, recValid := true, recChannel := if x.recValid then x.recChannel else channelOf (64 * b),
        recOffset := if x.recValid then x.recOffset else 64 * b, poison := if x.poison.contains b then x.poison else x.poison ++ [b] }) s) := by
  unfold tierUncorrectable ownersOf
  dsimp only
  rw [tier_modTier_same]

section
variable {t b : Nat} {s : State} (ht : t < 2) (hon : dieOn s = true) (htrained : (tier s t).trained = true) (hb : b < tierBytes t / 64)
include ht hon htrained hb

/-- A patrol of a block of a tier that serves. -/
theorem exec_tierPatrol_of_online (honline : (tier s t).offline = false) (corrected : Bool) :
    let u := modTier t (fun x => { x with patrol := decide (b + 1 < tierBytes t / 64) }) s
    exec (.tierPatrol t b corrected) s = .next (
      if corrected then countError 1 (modTier t (fun x => { x with eccCorrected := satAdd 64 x.eccCorrected 1 }) u) else u) := by
  have hinside : decide (tierBytes t / 64 ≤ b) = false := decide_eq_false (Nat.not_le.mpr hb)
  show execTierPatrol t b corrected s = _
  unfold execTierPatrol
  simp only [Nat.mod_eq_of_lt ht, hon, htrained, honline, hinside, Bool.not_true, Bool.or_self, Bool.false_eq_true, if_false]

/-- Another block is read again, and what waits for it says so. -/
theorem exec_tierReadRetry_of_uncoded (hcoded : (tier s t).coded.contains b = false) (clean : Bool) :
    let u := setAwait slDramEccRetry (waitingRows s t b) s
    exec (.tierReadRetry t b clean) s = .next (
      if clean then countError 1 (modTier t (fun x => { x with eccRetries := satAdd 32 x.eccRetries 1, poison := x.poison.filter (· != b) }) u)
      else noticePoison (modStr (fun x => { x with poisonReads := x.poisonReads ++ [(t, b)] })
        (raiseError 2 evTierPoison 0xFF ((maskParts (ownersOf u t (b / 1024))).map Recip.prims ++ [.pfs]) [] (modTier t (fun x =>
          { x with
            eccUncorrected := satAdd 32 x.eccUncorrected 1, recValid := true, recChannel := if x.recValid then x.recChannel else channelOf (64 * b),
            recOffset := if x.recValid then x.recOffset else 64 * b, poison := if x.poison.contains b then x.poison else x.poison ++ [b] }) u)))) := by
  have hinside : decide (tierBytes t / 64 ≤ b) = false := decide_eq_false (Nat.not_le.mpr hb)
  show execTierReadRetry t b clean s = _
  unfold execTierReadRetry
  simp only [Nat.mod_eq_of_lt ht, hon, htrained, hcoded, hinside, tierUncorrectable_eq, Bool.not_true, Bool.or_self, Bool.false_eq_true, if_false]

end

/-- A read of a block that is stored with the poison code is not retried. -/
theorem exec_tierReadRetry_of_coded {t b : Nat} {s : State} (ht : t < 2) (hcoded : (tier s t).coded.contains b = true) (clean : Bool) : exec (.tierReadRetry t b clean) s = .next s := by
  show execTierReadRetry t b clean s = _
  unfold execTierReadRetry
  simp only [Nat.mod_eq_of_lt ht, hcoded, Bool.or_true, if_true]

/-! ### Commands -/

/-- MEM_RETIRE of a granule of a tier. -/
theorem memRetire_of_range {c : Cmd} {u : State} (ht : pByte c 0 = 1 ∨ pByte c 0 = 2) (hg : pNum c 4 4 < tierGranules (pByte c 0 - 1)) :
    memRetire c u =
      if (tier u (pByte c 0 - 1)).retired.contains (pNum c 4 4) then done u
      else if 4096 ≤ (tier u (pByte c 0 - 1)).retired.length then refuse stNoResource (raiseTo evRetireTableFull 0xFF [.pfs] [] u)
      else done (retireGranule (pByte c 0 - 1) (pNum c 4 4) u) := by
  unfold memRetire
  dsimp only
  rw [if_neg (by omega), if_neg (Nat.not_le.mpr hg)]

/-- MEM_T3_MAP of a well-formed window over host memory, for a function of the own partition. -/
theorem memT3Map_of_fit {c : Cmd} {u : State} (hport : pByte c 0 ≤ 1) (hf : pNum c 2 2 ≤ 63) (hof : pNum c 2 2 / 32 = pByte c 0)
    (hbase : pNum c 8 8 % 0x200000 = 0) (hlen : pNum c 24 8 % 0x200000 = 0) (hsome : pNum c 24 8 ≠ 0) (hhost : pNum c 16 8 % 0x1000 = 0)
    (hplace : place (pNum c 8 8) (pNum c 24 8) = .host (pByte c 0)) (hown : funcPart u (pNum c 2 2) = funcPart u c.m.func) :
    memT3Map c u =
      if (Tbl.get none u.str.windows (256 * pByte c 0 + pByte c 1)).isSome then refuse stBusy u
      else if u.str.windows.any (fun p => decide (p.1 / 256 = pByte c 0) && p.2.any fun w => meets (pNum c 8 8) (pNum c 24 8) w.base w.length) then
        refuse stBadCommand u
      else done (modStr (fun x => { x with windows := Tbl.set none x.windows (256 * pByte c 0 + pByte c 1) (some
        { func := pNum c 2 2, pasid := if bit (pNum c 4 4) 31 then some (pNum c 4 4 % 2 ^ 20) else none, base := pNum c 8 8, host := pNum c 16 8,
          length := pNum c 24 8 }) }) u) := by
  have hnamed : ¬(1 < pByte c 0 ∨ 63 < pNum c 2 2 ∨ pNum c 2 2 / 32 ≠ pByte c 0) := by omega
  have hfit : ¬(pNum c 8 8 % 0x200000 ≠ 0 ∨ pNum c 24 8 % 0x200000 ≠ 0 ∨ pNum c 24 8 = 0 ∨ pNum c 16 8 % 0x1000 ≠ 0 ∨
      place (pNum c 8 8) (pNum c 24 8) ≠ .host (pByte c 0)) := by
    simp only [hbase, hlen, hsome, hhost, hplace, ne_eq, not_true_eq_false, or_self, not_false_eq_true]
  unfold memT3Map
  dsimp only
  rw [if_neg hnamed, if_neg hfit, if_neg (not_not_intro hown)]

/-- A change of mode empties a tier's buffers. -/
theorem setTierMode_eq (t mode : Nat) (s : State) :
    setTierMode t mode s = modTier t (fun x => { x with wcb := [], hints := [], wcbFull := false, mode := mode }) s := by
  unfold setTierMode flushTier modTier
  split <;> rfl

/-- Settles O38: each event by the block's state, each command by what it names and what is there. -/
theorem tiersCorrectRetireMapAndLock : Obligations.TiersCorrectRetireMapAndLock := by
  unfold Obligations.TiersCorrectRetireMapAndLock
  refine ⟨fun t b s ht hon htrained hb => ⟨fun honline => ?_, fun hcoded clean => ?_, fun hcoded => ?_⟩, fun t l s ht => ?_, fun m s hstarts => ?_,
    fun m s hstarts => ?_, fun m s hstarts => ?_, fun m s hstarts => ?_, fun m s hstarts => ?_⟩
  · exact ⟨exec_tierPatrol_of_online ht hon htrained hb honline false, exec_tierPatrol_of_online ht hon htrained hb honline true⟩
  · exact exec_tierReadRetry_of_coded ht hcoded clean
  · exact ⟨exec_tierReadRetry_of_uncoded ht hon htrained hb hcoded true, exec_tierReadRetry_of_uncoded ht hon htrained hb hcoded false⟩
  · show execWcbLineWrite t l s = _
    rw [execWcbLineWrite, Nat.mod_eq_of_lt ht]
  · intro c u t g ht hg
    have hexec : exec (.memRetire m) s = .next (answer c (memRetire c u)) := congrArg _ (runCmd_of_starts hstarts)
    rw [hexec, memRetire_of_range ht hg]
    refine ⟨fun hold => ?_, fun hnew hfull => ?_, fun hnew hroom => ?_⟩
    · have hold' : (tier u (pByte c 0 - 1)).retired.contains (pNum c 4 4) = true := hold
      rw [if_pos hold']
      rfl
    · have hnew' : ¬(tier u (pByte c 0 - 1)).retired.contains (pNum c 4 4) = true := Bool.eq_false_iff.mp hnew
      have hfull' : 4096 ≤ (tier u (pByte c 0 - 1)).retired.length := hfull
      rw [if_neg hnew', if_pos hfull']
      rfl
    · have hnew' : ¬(tier u (pByte c 0 - 1)).retired.contains (pNum c 4 4) = true := Bool.eq_false_iff.mp hnew
      have hroom' : ¬4096 ≤ (tier u (pByte c 0 - 1)).retired.length := Nat.not_le.mpr hroom
      rw [if_neg hnew', if_neg hroom']
      rfl
  · intro c u ht hhost
    have hexec : exec (.memRetireRead m) s = .next (answer c (memRetireRead c u)) := congrArg _ (runCmd_of_starts hstarts)
    rw [hexec, memRetireRead, if_neg (by omega), intoHost, if_neg (by simp [hhost])]
    rfl
  · intro c u p k f hport hf hof hbase hlen hsome hhost hplace hown
    have hexec : exec (.memT3Map m) s = .next (answer c (memT3Map c u)) := congrArg _ (runCmd_of_starts hstarts)
    rw [hexec, memT3Map_of_fit (u := u) hport hf hof hbase hlen hsome hhost hplace hown]
    refine ⟨fun hmapped => ?_, fun hfree hmeets => ?_⟩
    · have hmapped' : (Tbl.get none u.str.windows (256 * pByte c 0 + pByte c 1)).isSome = true := hmapped
      rw [if_pos hmapped']
      rfl
    · have hfree' : Tbl.get none u.str.windows (256 * pByte c 0 + pByte c 1) = none := hfree
      have hmeets' : (u.str.windows.any fun p => decide (p.1 / 256 = pByte c 0) && p.2.any fun w => meets (pNum c 8 8) (pNum c 24 8) w.base w.length) =
        false := hmeets
      rw [hfree', if_neg (by simp), hmeets', if_neg (by simp)]
      rfl
  · intro c u hmask hmode
    have hexec : exec (.memMode m) s = .next (answer c (memMode c u)) := congrArg _ (runCmd_of_starts hstarts)
    have hrange : ¬(pByte c 0 % 4 = 0 ∨ 3 < pByte c 1) := by omega
    rw [hexec, memMode]
    dsimp only
    rw [if_neg hrange]
    refine ⟨fun hother hsteps => ?_, fun hsafe => ?_⟩
    · have hbusy : pByte c 1 ≠ 0 ∧ stepping u = true := ⟨hother, hsteps⟩
      rw [if_pos hbusy]
      rfl
    · have hfree : ¬(pByte c 1 ≠ 0 ∧ stepping u = true) := fun ⟨hother, hsteps⟩ =>
        hsafe.elim hother fun hidle => Bool.false_ne_true ((show stepping u = false from hidle).symm.trans hsteps)
      rw [if_neg hfree]
      simp only [onlyIf, setTierMode_eq]
      rfl
  · intro c u g set
    have hexec : exec (.memLock m) s = .next (answer c (memLock c u)) := congrArg _ (runCmd_of_starts hstarts)
    rw [hexec, memLock]
    refine ⟨fun hbad => ?_, fun hok hsteps => ?_, fun hok hidle => ?_⟩
    · rw [hbad, Bool.not_false, if_pos rfl]
      rfl
    · rw [hok, if_neg (by simp), if_pos (c := stepping u = true) hsteps]
      rfl
    · rw [hok, if_neg (by simp), if_neg (c := stepping u = true) (Bool.eq_false_iff.mp hidle), applyLock, hok, if_neg (by simp)]
      rfl

end Sys2Proof.Machine
end
section
/-! PROOFS. The scratchpad: what rows hold, corrections, debug access and compare-and-count, cache fills, cache configuration, retirement. -/
namespace Sys2Proof.Machine

/-! ### Bytes and tags of rows -/

/-- In canonical memory, bytes written over an extent are read back. -/
theorem rdBytes_wrBytes_same {s : State} (hwf : Memory.wf s.mem = true) (a : Nat) (bs : List Byte) : rdBytes (wrBytes a bs s) a bs.length = bs := by
  refine List.ext_getElem (by simp [rdBytes]) fun i _ hi => ?_
  simp only [rdBytes, List.getElem_map, List.getElem_range, rdByte, wrBytes_mem]
  exact get_putBytes_inside _ _ _ _ hwf hi

/-- Bytes of an extent that a write does not meet. -/
theorem rdBytes_wrBytes_apart {a b n : Nat} {bs : List Byte} (s : State) (h : b + n ≤ a ∨ a + bs.length ≤ b) :
    rdBytes (wrBytes a bs s) b n = rdBytes s b n := by
  refine List.map_congr_left fun i hi => get_putBytes_outside _ _ _ _ ?_
  have := List.mem_range.mp hi
  omega

theorem readRow_storeRow_same {s : State} (hwf : Memory.wf s.mem = true) (f r : Nat) (bs : List Byte) :
    readRow (storeRow f r bs s) f r = padTo 640 bs := by
  have h := rdBytes_wrBytes_same hwf (rowAddr f r) (padTo 640 bs)
  rwa [padTo_length] at h

theorem readRow_storeRow_other {f r f' r' : Nat} (bs : List Byte) (s : State) (hr : r < 32768) (hr' : r' < 32768) (hne : (f', r') ≠ (f, r)) :
    readRow (storeRow f r bs s) f' r' = readRow s f' r' := by
  refine rdBytes_wrBytes_apart s ?_
  have hkey : f' ≠ f ∨ r' ≠ r := by
    by_contra h
    push Not at h
    exact hne (Prod.ext h.1 h.2)
  rw [padTo_length]
  unfold rowAddr
  omega

theorem rowTag_setTag_same {f r v : Nat} (s : State) (hv : v ≠ 0) : rowTag (setTag f r v s) f r = v := Tbl.get_set_same_ne _ _ _ _ hv

theorem rowTag_setTag_other {f r f' r' : Nat} (v : Nat) (s : State) (hr : r < 32768) (hr' : r' < 32768) (hne : (f', r') ≠ (f, r)) :
    rowTag (setTag f r v s) f' r' = rowTag s f' r' := by
  refine Tbl.get_set_other _ _ _ _ _ fun h => hne ?_
  exact Prod.ext (by dsimp only; omega) (by dsimp only; omega)

theorem mkTag_full_ne_zero (poison : Bool) : mkTag poison true 0 ≠ 0 := by cases poison <;> decide

/-! ### A write of a row -/

section
variable {st : Bool} {p f r : Nat} {bs : List Byte} {poison : Bool} {s : State} (hbank : inCacheBank s r = false)
include hbank

theorem putRow_of_owned (hpow : powered s f r = true) (hown : suppressed s p f r true = false) :
    putRow st p f r bs poison true s = setTag f r (mkTag poison true 0) (storeRow f r bs s) := by
  unfold putRow
  simp only [hbank, hpow, hown, Bool.not_true, Bool.false_eq_true, if_false, if_true]

theorem putRow_of_suppressed (hpow : powered s f r = true) (hforeign : suppressed s p f r true = true) :
    putRow st p f r bs poison true s = countSuppressed st p f s := by
  unfold putRow
  simp only [hbank, hpow, hforeign, Bool.not_true, Bool.false_eq_true, if_false, if_true]

theorem putRow_of_unpowered (hpow : powered s f r = false) : putRow st p f r bs poison true s = countDown f s := by
  unfold putRow
  simp only [hbank, hpow, Bool.not_false, Bool.false_eq_true, if_false, if_true]

theorem accessRow_of_unpowered (hpow : powered s f r = false) : (accessRow st p f r false s).1 = (List.replicate 640 0, false) := by
  unfold accessRow
  simp only [hbank, hpow, Bool.not_false, Bool.false_eq_true, if_false, if_true]

end

/-- A suppressed access changes no row and is counted in the field. -/
theorem countSuppressed_counts (st : Bool) (p f : Nat) (s : State) :
    (countSuppressed st p f s).mem = s.mem ∧ (countSuppressed st p f s).sp = s.sp ∧
      (fld (countSuppressed st p f s) f).isoViol = satAdd 32 (fld s f).isoViol 1 := by
  have hcount : (fld (modFld f (fun x => { x with isoViol := satAdd 32 x.isoViol 1 }) (countError 4 s)) f).isoViol = satAdd 32 (fld s f).isoViol 1 := by
    rw [fld_modFld_same]
    rfl
  cases st <;> exact ⟨rfl, rfl, hcount⟩

/-! ### Corrections -/

section
variable {h : EccHit} {s : State} (hf : h.field < 16) (hr : h.row < 32768)
include hf

theorem eccHit_of_corrected (hfix : h.corrected = true) :
    eccHit h s = modFld h.field (fun x => { x with eccCorrected := satAdd 64 x.eccCorrected 1 }) (countError 1 s) := by
  unfold eccHit
  rw [Nat.mod_eq_of_lt hf]
  exact if_pos hfix

include hr

/-- An uncorrectable word poisons its row and leaves its bytes. -/
theorem eccHit_of_uncorrected (hbad : h.corrected = false) :
    rowTag (eccHit h s) h.field h.row = rowTag s h.field h.row ||| 32 ∧ (eccHit h s).mem = s.mem := by
  have hne : rowTag s h.field h.row ||| 32 ≠ 0 := Nat.ne_of_gt (lt_of_lt_of_le (by decide) Nat.right_le_or)
  unfold eccHit
  simp only [Nat.mod_eq_of_lt hf, Nat.mod_eq_of_lt hr, hbad, Bool.false_eq_true, if_false]
  exact ⟨rowTag_setTag_same (countError 2 s) hne, rfl⟩

end

/-! ### Debug access -/

/-- Neither the banks in cache mode, nor what waits for a slot of field `f`, is another. -/
def SameSlots (f : Nat) (u s : State) : Prop :=
  u.sp.cacheBanks = s.sp.cacheBanks ∧ (fld u f).ccPending = (fld s f).ccPending ∧ (fld u f).dbgWaits = (fld s f).dbgWaits

theorem sameSlots_modFld {f k : Nat} {g : FieldSt → FieldSt} (s : State) (hcc : ∀ x, (g x).ccPending = x.ccPending) (hdbg : ∀ x, (g x).dbgWaits = x.dbgWaits) :
    SameSlots f (modFld k g s) s := by
  refine ⟨rfl, ?_⟩
  by_cases hk : f = k
  · subst hk
    rw [fld_modFld_same]
    exact ⟨hcc _, hdbg _⟩
  · rw [fld_modFld_other _ _ _ _ hk]
    exact ⟨rfl, rfl⟩

theorem SameSlots.trans {f : Nat} {a b c : State} (h : SameSlots f a b) (h' : SameSlots f b c) : SameSlots f a c := by
  obtain ⟨hbanks, hcc, hdbg⟩ := h
  obtain ⟨hbanks', hcc', hdbg'⟩ := h'
  exact ⟨hbanks.trans hbanks', hcc.trans hcc', hdbg.trans hdbg'⟩

theorem sameSlots_eccHit (f : Nat) (h : EccHit) (s : State) : SameSlots f (eccHit h s) s := by
  unfold eccHit
  dsimp only
  split
  all_goals
    refine SameSlots.trans (sameSlots_modFld _ ?_ ?_) ⟨rfl, rfl, rfl⟩
    all_goals exact fun _ => rfl

/-- What the codes find leaves who waits for a slot. -/
theorem sameSlots_eccIn (f : Nat) (rows : List (Nat × Nat)) (hs : List EccHit) (s : State) : SameSlots f (eccIn rows hs s) s :=
  List.foldlRecOn (motive := fun u : State => SameSlots f u s) _ _ ⟨rfl, rfl, rfl⟩ fun u hu h _ => (sameSlots_eccHit f h u).trans hu

theorem dbgHeld_of_sameSlots {f r : Nat} {u s : State} (h : SameSlots f u s) : dbgHeld u f r = dbgHeld s f r := by
  obtain ⟨hbanks, hcc, -⟩ := h
  rw [dbgHeld, inCacheBank, insPending, hbanks, hcc, dbgHeld, inCacheBank, insPending]

/-- A debug access through the open window: what its read finds, then the access. -/
theorem exec_spDebugAccess_of_open {f : Nat} {op : SpDbgOp} {ecc : List EccHit} {s : State} (hf : f < 16) (hon : dieOn s = true)
    (hopen : debugOpen s = true) (hidle : (fld s f).dbgWaits = none) :
    exec (.spDebugAccess f { op := op, ecc := ecc }) s = .next (
      let u := if dbgHeld s f (dbgRowNo op) then s else eccIn [(f, dbgRowNo op)] ecc s
      match op with
      | .row ctrl => dbgRowAccess f ctrl u
      | .cc _ _ _ _ => dbgAccess f op u) := by
  show execSpDebugAccess f { op := op, ecc := ecc } s = _
  unfold execSpDebugAccess
  simp only [Nat.mod_eq_of_lt hf, hon, hopen, hidle, Bool.not_true, Bool.or_self, Bool.false_eq_true, Option.isSome_none, Bool.false_or, if_false] <;> rfl

theorem dbgAccess_cc_of_free {f kind size key r : Nat} {s : State} (hidle : (fld s f).dbgWaits = none) (hfree : dbgHeld s f (r % 32768) = false) :
    dbgAccess f (.cc kind size key r) s = dbgCc f kind size key (r % 32768) s := by
  unfold dbgAccess
  simp only [hidle, dbgRowNo, hfree, Option.isSome_none, Bool.false_eq_true, if_false]

theorem dbgAccess_cc_of_held {f kind size key r : Nat} {s : State} (hidle : (fld s f).dbgWaits = none) (hheld : dbgHeld s f (r % 32768) = true) :
    dbgAccess f (.cc kind size key r) s = countBlocked f (modFld f (fun x => { x with dbgWaits := some (.cc kind size key r) }) s) := by
  unfold dbgAccess
  simp only [hidle, dbgRowNo, hheld, Option.isSome_none, Bool.false_eq_true, if_false, if_true]

/-! ### Fills, cache configuration, retirement -/

/-- The line that a fill brings is poisoned: a block of it is, or a granule of it is gone (R198). -/
def fillPoison (s : State) (line : Nat) : Bool := match place (512 * line) 512 with
  | .tier t off => (blocksOf off 512).any (tier s t).poison.contains || (granulesOf off 512).any (deadGranule s t)
  | _ => false

/-- A line that is awaited returns, a way of its set being free to take it. -/
theorem exec_cacheFill_of_awaited {j line w : Nat} {x : Region} {s : State} (hfill : s.sp.fills.contains (j, line) = true)
    (hregion : Tbl.get none s.sp.regions j = some x)
    (hway : (lruOf s ((cacheHome s.sp.cacheBanks line).1 * 65536 + (cacheHome s.sp.cacheBanks line).2.1)).find?
      (fun w => !(fld s (cacheHome s.sp.cacheBanks line).1).retired.contains (cacheRow s.sp.cacheBanks line w)) = some w) :
    let h := cacheHome s.sp.cacheBanks line
    let r := cacheRow s.sp.cacheBanks line w
    let u := modSp (fun p => { p with fills := p.fills.filter (· != (j, line)) }) s
    exec (.cacheFill j line) s = .next (
      if !powered s h.1 r then countDown h.1 u
      else touchWay (h.1 * 65536 + h.2.1) w (setTag h.1 r (mkTag (fillPoison s line) false 0) (storeRow h.1 r
        (rdBytes s (512 * line) 512 ++ leBytes 8 (2 ^ 55 + (j % 16) * 2 ^ 51 + (x.gen % 4096) * 2 ^ 39 + line % 2 ^ 39)) u))) := by
  show execCacheFill j line s = _
  unfold execCacheFill fillPoison
  simp only [hfill, hregion, hway, Bool.not_true, Bool.false_eq_true, if_false] <;> generalize place (512 * line) 512 = x <;> cases x <;> rfl

theorem retireRow_retired (f r : Nat) (s : State) : (fld (retireRow f r s) f).retired = (fld s f).retired ++ [r] := by
  have hreports : ∀ ps : List Nat, ∀ u : State, (ps.foldl (fun s p => raiseTo evRowRetired p [.prims p] [] s) u).fields = u.fields := fun ps u =>
    List.foldlRecOn (motive := fun v : State => v.fields = u.fields) _ _ rfl fun v hv p _ => by
      rw [raiseTo_reportsOnly evRowRetired p [.prims p] [] v]
      exact hv
  rw [retireRow, fld, hreports]
  exact congrArg FieldSt.retired (fld_modFld_same ..)

/-- Settles O39: rows by power, bank and isolation, then each event and command by what it finds. -/
theorem scratchpadRowsHoldAreCorrectedCachedAndRetired : Obligations.ScratchpadRowsHoldAreCorrectedCachedAndRetired := by
  unfold Obligations.ScratchpadRowsHoldAreCorrectedCachedAndRetired
  refine ⟨fun st p f r bs poison s hf hr hwf => ⟨fun hbank => ?_, fun hbank hpow hown => ?_, fun hbank hpow hforeign => ?_, fun hbank hpow => ?_⟩,
    fun h s hon hf hr hpatrol hres => ⟨fun hins => ?_, fun hfree => ?_, fun hfix => ?_, fun hbad => ?_⟩,
    fun f ecc s hf hon hopen hidle => ⟨fun ctrl hfree => ?_, fun kind size key r hfree => ?_, fun kind size key r hheld => ?_⟩,
    fun size row => ⟨if_pos rfl, if_pos rfl, if_pos rfl⟩, fun f r size i key s hf hfind => ?_, fun j line w x s hfill hregion => ?_,
    fun m s hstarts => ?_, fun m s hstarts => ?_⟩
  · exact ⟨if_pos hbank, fun c => ⟨by simp [readReady, hbank], by simp [fillReady, hbank]⟩⟩
  · intro u
    have hu : u = setTag f r (mkTag poison true 0) (storeRow f r bs s) := putRow_of_owned hbank hpow hown
    have htag : rowTag u f r = mkTag poison true 0 := by rw [hu, rowTag_setTag_same _ (mkTag_full_ne_zero poison)]
    refine ⟨?_, ?_, ?_, ?_, fun f' r' hf' hr' hne => ⟨?_, ?_⟩⟩
    · rw [hu]
      exact readRow_storeRow_same hwf f r bs
    · rw [rowFull, htag]
      cases poison <;> decide
    · rw [rowPoison, htag]
      cases poison <;> decide
    · rw [rowAwait, htag]
      cases poison <;> decide
    · rw [hu]
      exact readRow_storeRow_other bs s hr hr' hne
    · rw [hu, rowTag_setTag_other _ _ hr hr' hne]
      rfl
  · intro u
    have hu : u = countSuppressed st p f s := putRow_of_suppressed hbank hpow hforeign
    obtain ⟨hmem, hsp, hcount⟩ := countSuppressed_counts st p f s
    rw [hu, hsp]
    exact ⟨hmem, rfl, hcount⟩
  · refine ⟨?_, accessRow_of_unpowered hbank hpow, by simp [readReady, hbank, hpow]⟩
    intro u
    have hu : u = countDown f s := putRow_of_unpowered hbank hpow
    rw [hu]
    exact ⟨rfl, rfl, by rw [countDown, fld_modFld_same]; rfl⟩
  · show execScratchpadPatrol h s = _
    rw [execScratchpadPatrol, Nat.mod_eq_of_lt hf, Nat.mod_eq_of_lt hr, hins]
    simp [onlyIf]
  · show execScratchpadPatrol h s = _
    rw [execScratchpadPatrol, Nat.mod_eq_of_lt hf, Nat.mod_eq_of_lt hr, hfree, hon, hpatrol, hres]
    rfl
  · exact eccHit_of_corrected hf hfix
  · exact eccHit_of_uncorrected hf hr hbad
  · rw [exec_spDebugAccess_of_open hf hon hopen hidle]
    exact congrArg (fun u => Host.Outcome.next (dbgRowAccess f ctrl u)) (if_neg (by simp [dbgRowNo, hfree]))
  · have hsame := sameSlots_eccIn f [(f, r % 32768)] ecc s
    have hidle' : (fld (eccIn [(f, r % 32768)] ecc s) f).dbgWaits = none := by
      obtain ⟨-, -, hdbg⟩ := hsame
      rw [hdbg, hidle]
    rw [exec_spDebugAccess_of_open hf hon hopen hidle, ← dbgAccess_cc_of_free hidle' (by rw [dbgHeld_of_sameSlots hsame, hfree])]
    exact congrArg (fun u => Host.Outcome.next (dbgAccess f (.cc kind size key r) u)) (if_neg (by simp [dbgRowNo, hfree]))
  · rw [exec_spDebugAccess_of_open hf hon hopen hidle, ← dbgAccess_cc_of_held hidle hheld]
    exact congrArg (fun u => Host.Outcome.next (dbgAccess f (.cc kind size key r) u)) (if_pos hheld)
  · intro rest
    have hexec : exec (.ccInsWrite f r) s = .next (releaseDbg f (rest (if powered s f r then ccWrite f r size i key s else countDown f s))) := by
      show execCcInsWrite f r s = _
      unfold execCcInsWrite
      simp only [Nat.mod_eq_of_lt hf, hfind]
      rfl
    rw [hexec]
    exact ⟨fun hpow => by rw [if_pos hpow]; rfl, fun hpow => by rw [if_neg (by simp [hpow])]⟩
  · intro h r u poison hway
    have hpoison : fillPoison s line = poison := by
      unfold fillPoison
      simp only [poison] <;> generalize place (512 * line) 512 = x <;> cases x <;> rfl
    have hexec := exec_cacheFill_of_awaited hfill hregion hway
    dsimp only at hexec
    rw [hpoison] at hexec
    refine ⟨fun hpow => ?_, fun hpow => ?_⟩
    · have hpow' : powered s (cacheHome s.sp.cacheBanks line).1 (cacheRow s.sp.cacheBanks line w) = false := hpow
      rw [hexec, hpow', Bool.not_false, if_pos rfl]
      rfl
    · have hpow' : powered s (cacheHome s.sp.cacheBanks line).1 (cacheRow s.sp.cacheBanks line w) = true := hpow
      rw [hexec, hpow', Bool.not_true, if_neg Bool.false_ne_true]
      rfl
  · intro c u
    have hexec : exec (.spCacheConfig m) s = .next (answer c (spCacheConfig c u)) := congrArg _ (runCmd_of_starts hstarts)
    rw [hexec, spCacheConfig]
    refine ⟨fun st hst => ?_, fun hsound hbanks htaken => ?_, fun hsound hbanks hfree hsteps => ?_, fun hsound hbanks hadd hdrop hfree hidle => ?_,
      fun hsound hbanks hadd hdrop => ?_⟩
    · rw [hst]
      rfl
    · rw [hsound]
      dsimp only
      rw [if_pos (by simp [hbanks, htaken])]
      rfl
    · have hsteps' : stepping u = true := hsteps
      rw [hsound]
      dsimp only
      rw [if_neg (by simp [hfree]), if_pos (by simp [hbanks, hsteps'])]
      rfl
    · have hidle' : stepping u = false := hidle
      rw [hsound]
      dsimp only
      rw [if_neg (by simp [hfree]), if_neg (by simp [hidle']), applyCache, hsound]
      simp only [hbanks, hadd, hdrop, hfree, Bool.and_false, Bool.false_eq_true, if_false, if_true]
      rfl
    · rw [hsound]
      dsimp only
      rw [if_neg (by simp [hbanks]), if_neg (by simp [hbanks]), applyCache, hsound]
      simp only [hbanks, hadd, hdrop, Bool.false_and, Bool.false_eq_true, if_false, if_true]
      rfl
  · intro c u f r hf hr
    have hexec : exec (.spRetireRow m) s = .next (answer c (spRetireRow c u)) := congrArg _ (runCmd_of_starts hstarts)
    have hrange : ¬(15 < pByte c 0 ∨ 32767 < pNum c 2 2) := by omega
    rw [hexec, spRetireRow, if_neg hrange]
    refine ⟨fun hold => ?_, fun hnew hfull => ?_, fun hnew hroom => ⟨?_, retireRow_retired f r u⟩⟩
    · have hold' : (fld u (pByte c 0)).retired.contains (pNum c 2 2) = true := hold
      rw [if_pos hold']
      rfl
    · have hnew' : ¬(fld u (pByte c 0)).retired.contains (pNum c 2 2) = true := Bool.eq_false_iff.mp hnew
      have hfull' : 64 ≤ (fld u (pByte c 0)).retired.length := hfull
      rw [if_neg hnew', if_pos hfull']
      rfl
    · have hnew' : ¬(fld u (pByte c 0)).retired.contains (pNum c 2 2) = true := Bool.eq_false_iff.mp hnew
      have hroom' : ¬64 ≤ (fld u (pByte c 0)).retired.length := Nat.not_le.mpr hroom
      rw [if_neg hnew', if_neg hroom']
      rfl

end Sys2Proof.Machine
end
section
/-! PROOFS. The sequencer: issue, actions, waits, halt and single step, the horizon, NP_CONFIG. -/
namespace Sys2Proof.Machine

theorem hitchOf_bits (p a k : Nat) : hitchOf p (bits a k 12) = 4096 * (p % 16) + bits a k 12 := by
  have hlt : bits a k 12 < 4096 := Nat.mod_lt _ (by decide)
  rw [hitchOf, Nat.mod_eq_of_lt hlt]

/-! ### Issue and actions -/

section
variable {s : State} {r : SeqRun} (hcur : s.seq.cur = some r)
include hcur

/-- An issue, where the program is not over. -/
theorem issueNow_of_cur (ecc : List EccHit) :
    let p := r.pos.toIssue (runImage s r) r.counts walkFuel
    let t := modCur (fun r => { r with pos := p }) s
    let u := eccHits ecc (passTo r.ready t)
    issueNow ecc s = if p.ended then syncSeq t
      else startKicks 0 (modSeq (fun q => { q with issued := satAdd 64 q.issued 1, pc := ((q.cur.map (storeOff u)).getD 0) }) u) := by
  unfold issueNow
  rw [hcur]

theorem startAction_hitchWait (hop : Gp.seqOp (globalOf s r) = 6) :
    let v := bits (Gp.seqArg (globalOf s r)) 0 12
    startAction s = if hitchReady s (hitchOf r.part v) then startParts (takeHitch (hitchOf r.part v) s)
      else syncSeq (modHch (fun x => { x with waiting := true, onBarrier := false, partition := r.part, object := hitchOf r.part v })
        (setStall (.hitch v) slHitchWait 0 0 s)) := by
  unfold startAction
  simp only [hcur, hop]

theorem startAction_hitchInc (hop : Gp.seqOp (globalOf s r) = 7) :
    let a := Gp.seqArg (globalOf s r)
    startAction s = startParts (incHitch (hitchOf r.part (bits a 0 12)) (bits a 12 12) s) := by
  unfold startAction
  simp only [hcur, hop]

/-- A barrier entered stalls the stream on its release; one that is not entered faults the segment. -/
theorem startAction_barrier (hop : Gp.seqOp (globalOf s r) = 8) :
    let b := bits (Gp.seqArg (globalOf s r)) 0 10
    (∀ v, enterBarrier r.part b 0 true s = (none, v) → startAction s =
      syncSeq (modHch (fun x => { x with waiting := true, onBarrier := true, partition := r.part, object := b }) (setStall (.barrier b) slHitchWait 0 0 v))) ∧
    (∀ st v, enterBarrier r.part b 0 true s = (some st, v) → startAction s = startParts (faultSegment r.part st 4 0 0 v)) := by
  refine ⟨fun v hen => ?_, fun st v hen => ?_⟩
  all_goals
    unfold startAction
    simp only [hcur, hop, hen]

theorem startAction_knot (hop : Gp.seqOp (globalOf s r) = 9) :
    let a := Gp.seqArg (globalOf s r)
    startAction s = startParts (launchKnot r.part (bits a 0 2) (bits a 2 12) s) := by
  unfold startAction
  simp only [hcur, hop]

end

/-! ### Retries and waits -/

section
variable {s : State} {r : SeqRun} (hon : dieOn s = true) (hcur : s.seq.cur = some r)
include hon hcur

/-- A turn later the access that stalls is tried again; a turn under a halt is the halt's. -/
theorem exec_blockedAccessRetry_of_cur (ecc : List EccHit) :
    let u := if s.seq.halt then s else chargeSlack s.seq.stallCause 8 s
    exec (.blockedAccessRetry ecc) s = .next (match r.stall with
      | some (.blocked _ _ _ _) => goOn (eccHits ecc u)
      | some (.queueFull k) => startKicks k u
      | _ => s) := by
  show execBlockedAccessRetry ecc s = _
  unfold execBlockedAccessRetry
  simp only [hon, hcur, Option.bind_some, onlyIf_not, Bool.not_true, Bool.false_eq_true, if_false] <;> rfl

/-- A wait on a hitch that is over, or not. -/
theorem exec_hitchWaitProceed_of_hitch {v : Nat} (hstall : r.stall = some (.hitch v)) :
    exec .hitchWaitProceed s = .next (if hitchReady s (hitchOf r.part v) then
      startParts (endWait (takeHitch (hitchOf r.part v) (chargeElapsed (if s.seq.halt then slDebugHalt else slHitchWait) s))) else s) := by
  show execHitchWaitProceed s = _
  unfold execHitchWaitProceed
  simp only [hon, hcur, Option.bind_some, hstall, Bool.not_true, Bool.false_eq_true, if_false]

/-- A wait on a barrier that has released its waiters, or not. -/
theorem exec_hitchWaitProceed_of_barrier {b : Nat} (hstall : r.stall = some (.barrier b)) :
    let u := endWait (takeRelease 0 (chargeElapsed (if s.seq.halt then slDebugHalt else slHitchWait) s))
    exec .hitchWaitProceed s = .next (match releasedFor s 0 with
      | some broken => startParts (if broken then faultSegment r.part stTimeout 4 0 0 u else u)
      | none => s) := by
  show execHitchWaitProceed s = _
  unfold execHitchWaitProceed
  simp only [hon, hcur, Option.bind_some, hstall, Bool.not_true, Bool.false_eq_true, if_false] <;> rfl

end

/-! ### The horizon -/

/-- What HORIZON does once everything before it has finished (R170 to R174). -/
def horizonDue (r : SeqRun) (i : List Byte) (u : State) : State :=
  if u.np.inReplay then
    let v := chargeSlack slReplay (8 * ceilDiv ((u.seq.cur.map SeqRun.work).getD 0 - r.resume) 8) u
    passHorizon (reportBreaches r.part i (modNp (fun x => { x with inReplay := false })
      (modCur (fun c => { c with work := r.resume, ready := r.resume, goal := r.resume, parts := [] }) v)))
  else
    match r.mark with
    | none => passHorizon (reportBreaches r.part i u)
    | some m =>
      if !(u.np.breaches.any fun b => b.2.2.1 && replayable u i b.1) || u.np.replayedParts.contains r.part then passHorizon (reportBreaches r.part i u)
      else if chainsInFlight u r.part then (if r.stall.isSome then u else syncSeq (setStall .replay slReplay 0 0 u))
      else beginReplay r m (if r.stall.isSome then chargeElapsed (if u.seq.halt then slDebugHalt else slReplay) u else u)

theorem exec_horizon_of_cur {s : State} {r : SeqRun} (hon : dieOn s = true) (hcur : s.seq.cur = some r) :
    let u := if r.stall.isSome then s else finishParts r s
    exec .horizon s = .next (if !r.waitHorizon || heldUp s then s else if heldUp u then u else horizonDue r (runImage s r) u) := by
  show execHorizon s = _
  unfold execHorizon horizonDue
  simp only [hon, hcur, Bool.not_true, Bool.false_eq_true, if_false] <;> rfl

/-- Outside a replay, breaches that are not replayed let issue pass. -/
theorem horizonDue_of_settled {r : SeqRun} {i : List Byte} {u : State} (hfresh : u.np.inReplay = false)
    (hsettled : r.mark = none ∨ (u.np.breaches.any fun b => b.2.2.1 && replayable u i b.1) = false ∨ u.np.replayedParts.contains r.part = true) :
    horizonDue r i u = passHorizon (reportBreaches r.part i u) := by
  rw [horizonDue, hfresh, if_neg Bool.false_ne_true]
  cases hmark : r.mark with
  | none => rfl
  | some m =>
    have hnot : (u.np.breaches.any fun b => b.2.2.1 && replayable u i b.1) = false ∨ u.np.replayedParts.contains r.part = true :=
      hsettled.resolve_left (by simp [hmark])
    dsimp only
    rw [if_pos]
    rcases hnot with h | h
    · rw [h]; rfl
    · rw [h, Bool.or_true]

/-- Outside a replay, a breach that can be replayed is, once no chain is in flight. -/
theorem horizonDue_of_breach {r : SeqRun} {i : List Byte} {u : State} {m : Mark} (hfresh : u.np.inReplay = false) (hmark : r.mark = some m)
    (hbreach : (u.np.breaches.any fun b => b.2.2.1 && replayable u i b.1) = true) (honce : u.np.replayedParts.contains r.part = false) :
    horizonDue r i u =
      if chainsInFlight u r.part then (if r.stall.isSome then u else syncSeq (setStall .replay slReplay 0 0 u))
      else beginReplay r m (if r.stall.isSome then chargeElapsed (if u.seq.halt then slDebugHalt else slReplay) u else u) := by
  rw [horizonDue, hfresh, if_neg Bool.false_ne_true, hmark]
  dsimp only
  rw [hbreach, honce, if_neg (by simp)]

/-- NP_CONFIG of the thresholds alone, while stepping is stopped. -/
theorem npConfig_of_thresholds {c : Cmd} {u : State} (hlayer : isMonitorLayer u (cmdPart c) (pByte c 0) = true) (hidle : stepping u = false)
    (hthresh : pBit c 1 0 = true) (hreplay : pBit c 1 1 = false) (hexp : pBit c 1 2 = false) (hseed : pBit c 1 3 = false) :
    npConfig c u = done (modNpPart (cmdPart c) (fun x => { x with
      cfg := Tbl.set none x.cfg (pByte c 0) (some { Tbl.opt .reset x.cfg (pByte c 0) with nullThresh := pNum c 2 3, clipThresh := pNum c 5 3 }) }) u) := by
  have hnamed : ¬pByte c 1 % 4 = 0 := fun h => by
    have hodd : pByte c 1 / 2 ^ 0 % 2 = 1 := by simpa [pBit, bit] using hthresh
    omega
  unfold npConfig applyNpConfig
  simp only [hlayer, hidle, hthresh, hreplay, hexp, hseed, hnamed, Bool.not_true, Bool.false_eq_true, if_false, if_true]

/-- Settles O40: each event by what the running program stands at. -/
theorem theSequencerIssuesWaitsHaltsAndReplays : Obligations.TheSequencerIssuesWaitsHaltsAndReplays := by
  unfold Obligations.TheSequencerIssuesWaitsHaltsAndReplays
  refine ⟨fun ecc s r hmay hgo hcur => ?_, fun s r hcur => ?_, fun ecc s r hon hcur => ?_, fun s r hon hcur => ?_, fun h s hon hopen => ?_,
    fun s r hon hcur => ?_, fun m s hstarts => ?_⟩
  · intro p at_
    have hexec : exec (.bundleIssue ecc) s = .next (issueNow ecc s) := congrArg _ (if_pos (by rw [hmay, hgo]; rfl))
    rw [hexec, issueNow_of_cur hcur]
    exact ⟨fun hend => congrArg _ (if_pos hend), fun hmore => congrArg _ (if_neg (Bool.eq_false_iff.mp hmore))⟩
  · intro g a h
    have hhitch : hitchOf r.part (bits (Gp.seqArg (globalOf s r)) 0 12) = h := hitchOf_bits ..
    refine ⟨fun hop hready => ?_, fun hop hearly => ?_, fun hop => ?_, fun hop v hen => ?_, fun hop st v hen => ?_, fun hop => startAction_knot hcur hop⟩
    · rw [startAction_hitchWait hcur hop, hhitch]
      exact if_pos (decide_eq_true hready)
    · rw [startAction_hitchWait hcur hop, hhitch]
      exact if_neg (by simp [hitchReady, hearly])
    · rw [startAction_hitchInc hcur hop, hhitch]
    · exact (startAction_barrier hcur hop).1 v hen
    · exact (startAction_barrier hcur hop).2 st v hen
  · intro u
    rw [exec_blockedAccessRetry_of_cur hon hcur]
    refine ⟨fun f x sp fi hstall => by rw [hstall], fun k hstall => by rw [hstall], fun hblocked hfull => ?_⟩
    split
    next f x sp fi hstall => exact absurd hstall (hblocked f x sp fi)
    next k hstall => exact absurd hstall (hfull k)
    next => rfl
  · intro u
    refine ⟨fun v hstall => ?_, fun b hstall => ?_⟩
    · rw [exec_hitchWaitProceed_of_hitch hon hcur hstall]
      exact ⟨fun hready => congrArg _ (if_pos hready), fun hearly => congrArg _ (if_neg (Bool.eq_false_iff.mp hearly))⟩
    · rw [exec_hitchWaitProceed_of_barrier hon hcur hstall]
      exact ⟨fun hrel => by rw [hrel], fun hrel => by rw [hrel]; rfl, fun hrel => by rw [hrel]; rfl⟩
  · have hexec : exec (.seqHalt h) s = .next (setHalt h s) := by
      show execSeqHalt h s = _
      rw [execSeqHalt, hon, hopen]
      rfl
    refine ⟨fun hsame => ?_, fun hother => ?_, fun hhalt hmay => ?_, fun hgo => ?_⟩
    · rw [hexec, setHalt, if_pos hsame]
    · rw [hexec, setHalt, if_neg hother]
      rfl
    · show execSeqSingleStep s = _
      rw [execSeqSingleStep, hopen, hhalt, hmay]
      rfl
    · show execSeqSingleStep s = _
      rw [execSeqSingleStep, hgo, Bool.and_false]
      rfl
  · intro i u
    have hexec : exec .horizon s = .next (if !r.waitHorizon || heldUp s then s else if heldUp u then u else horizonDue r i u) := exec_horizon_of_cur hon hcur
    rw [hexec]
    refine ⟨fun hnot => ?_, fun hwait hfree hheld => ?_, fun hwait hfree hover hfresh => ⟨fun hsettled => ?_, fun m hmark hbreach honce => ?_⟩,
      fun q hwait hfree hover hreplay hq => ?_⟩
    · rw [if_pos (by rcases hnot with h | h <;> simp [h])]
    · rw [if_neg (by simp [hwait, hfree]), if_pos hheld]
    · rw [if_neg (by simp [hwait, hfree]), if_neg (by simp [hover]), horizonDue_of_settled hfresh hsettled]
    · rw [if_neg (by simp [hwait, hfree]), if_neg (by simp [hover]), horizonDue_of_breach hfresh hmark hbreach honce]
      refine ⟨fun hchains hnone => ?_, fun hchains hstall => ?_, fun hchains hnone => ?_, fun hchains hstall => ?_⟩
      · rw [if_pos hchains, if_neg (by simp [hnone])]
      · rw [if_pos hchains, if_pos (Option.isSome_iff_ne_none.mpr hstall)]
      · rw [if_neg (by simp [hchains]), if_neg (by simp [hnone])]
      · rw [if_neg (by simp [hchains]), if_pos (Option.isSome_iff_ne_none.mpr hstall)]
    · rw [if_neg (by simp [hwait, hfree]), if_neg (by simp [hover]), horizonDue, if_pos hreplay, hq]
      rfl
  · intro c u p l
    have hexec : exec (.npConfig m) s = .next (answer c (npConfig c u)) := congrArg _ (runCmd_of_starts hstarts)
    refine ⟨fun hnone => ?_, fun hlayer hsteps => ?_, fun hlayer hidle hthresh hreplay hexp hseed => ?_⟩
    · have hnone' : isMonitorLayer u (cmdPart c) (pByte c 0) = false := hnone
      rw [hexec, npConfig, hnone']
      rfl
    · have hlayer' : isMonitorLayer u (cmdPart c) (pByte c 0) = true := hlayer
      rw [hexec, npConfig, hlayer', if_neg (by simp), if_pos (c := stepping u = true) hsteps]
      rfl
    · rw [hexec, npConfig_of_thresholds (u := u) hlayer hidle hthresh hreplay hexp hseed]
      rfl

end Sys2Proof.Machine
end
section
/-! PROOFS. Programs: loading, verification, activation, counts, reports, unloading. -/
namespace Sys2Proof.Machine

/-! ### PROG_LOAD and VERIFICATION_COMPLETE -/

/-- The formula of a program that has none yet. -/
def noFormula : Formula := { knees := List.replicate 8 0, terms := [], exact := false }

/-- PROG_LOAD of an image that is not shorter than a header, with its report's buffer writable. -/
theorem progLoad_of_gives {c : Cmd} {u : State} {bs : List Byte} (hlen : 96 ≤ pNum c 8 4) (hrep : hostOk u c (pNum c 16 8) 4096 = true)
    (hgives : Safety.HostGives c u (pNum c 0 8) (pNum c 8 4) bs) :
    let n := pNum c 8 4
    let i := padTo n bs
    let v := noteAts c.m.func (((busAddr u c.m.func (pNum c 0 8) n).map fun a => a.2.2).getD 0) n
    let all := u.prog.progs.filter fun p => p.2.isSome
    (pBit c 12 0 = true → ¬(u.isl.lc = 3 ∧ vendorToken u = true) → progLoad c u = (v u, .done stNotPermitted 0x0041 [])) ∧
    (∀ b h, (pBit c 12 0 = false ∨ (u.isl.lc = 3 ∧ vendorToken u = true)) → all.length < 64 →
      (all.filter fun p => p.2.any fun g => g.part == cmdPart c).length < 8 → freeExtent u (storeNeed i) = some b → Tbl.free u.prog.progs 64 = some h →
      progLoad c u = if imageSigned u (Img.signed i) (Img.signature i)
        then later (v (modProg (fun x => { x with progs := Tbl.set none x.progs h (some
          { part := cmdPart c, base := b, image := i, unverified := pBit c 12 0, verified := false,
            formula := noFormula, report := [], hostCounts := Img.minimums i, cmd := some c }) }) u))
        else (v u, .done stBadSignature 0x0050 [])) := by
  intro n i v all
  have hne : ¬pNum c 8 4 = 0 := by omega
  unfold progLoad
  dsimp only
  rw [if_neg hne, hrep, if_neg (by simp), withHost_of_gives hgives]
  refine ⟨fun hunv hclosed => ?_, fun b h hopen hall hmine hext hfree => ?_⟩
  · have hdenied : (pBit c 12 0 && !(u.isl.lc == 3 && vendorToken u)) = true := by
      simp only [hunv, Bool.true_and, Bool.not_eq_true', ← Bool.not_eq_true, Bool.and_eq_true, beq_iff_eq]
      exact hclosed
    rw [if_pos hdenied]
  · have hopen' : ¬(pBit c 12 0 && !(u.isl.lc == 3 && vendorToken u)) = true := by
      rcases hopen with h | ⟨hlc, htok⟩
      · simp [h]
      · simp [hlc, htok]
    have hroom : ¬(64 ≤ all.length ∨ 8 ≤ (all.filter fun p => p.2.any fun g => g.part == cmdPart c).length) := by omega
    rw [if_neg hopen']
    by_cases hsigned : imageSigned u (Img.signed i) (Img.signature i) = true
    · have hgood : ¬(pNum c 8 4 < 96 ∨ (!imageSigned u (Img.signed i) (Img.signature i)) = true) := by simp [hsigned, hlen]
      rw [if_neg hgood, if_pos hsigned, if_neg hroom, hext, hfree]
      rfl
    · rw [if_pos (.inr (by simpa using hsigned)), if_neg hsigned]

/-- What verification finds in a program. -/
def checked (s : State) (g : Prog) : Option VFail × Option Formula :=
  if g.unverified then ((checkUnverified g.image).1, (checkUnverified g.image).2) else ((verifyImage s g.part g.image).1, some (verifyImage s g.part g.image).2)

/-- A finding with the cost of an unverified program held against the limit (R276). -/
def judged (g : Prog) (v : Option VFail × Option Formula) : Option VFail × Option Formula :=
  match v with
  | (none, some f) => if g.unverified && decide (costLimit < f.eval (Img.minimums g.image)) then (some (VFail.whole 0 0x002A), some f) else v
  | _ => v

/-- The verdict on a program. -/
def verdict (s : State) (g : Prog) : Option VFail × Option Formula := judged g (checked s g)

/-- The report written to the command's buffer. -/
def tellReport (c : Cmd) (g : Prog) (st : Nat) (v : Option VFail × Option Formula) (s : State) : State :=
  writeHost c.m.func (pNum c 16 8) (reportBytes g.image st v.1 (v.2.getD noFormula)) false s

/-- The program's handle is free again. -/
def dropProg (h : Nat) (s : State) : State := modProg (fun x => { x with progs := Tbl.set none x.progs h none }) s

/-- What a verdict makes of the program and the command that waits for it. -/
def concluded (h : Nat) (g : Prog) (c : Cmd) (v : Option VFail × Option Formula) (s : State) : State :=
  match v with
  | (some x, _) => complete c x.status x.shown [] (dropProg h (tellReport c g x.status v s))
  | (none, none) => complete c stBadCommand 0 [] (dropProg h (tellReport c g stBadCommand v s))
  | (none, some f) =>
    let u := powerGroups (groupsOf g.part g.image) s
    if !groupsReady (groupsOf g.part g.image) u then u else
    complete c stOk 0 (leBytes 2 h) (modProg (fun x => { x with progs := Tbl.set none x.progs h (some
      { g with verified := true, formula := f, report := reportBytes g.image stOk v.1 (v.2.getD noFormula), cmd := none }) }) (tellReport c g stOk v u))

section
variable {h : Nat} {s : State} {g : Prog} {c : Cmd} (hg : Tbl.get none s.prog.progs h = some g) (hcmd : g.cmd = some c)
include hg hcmd

theorem exec_verificationComplete_of_waiting : exec (.verificationComplete h) s = .next (concluded h g c (verdict s g) s) := by
  show execVerificationComplete h s = _
  unfold execVerificationComplete
  rw [hg]
  dsimp only
  rw [hcmd]
  dsimp only
  rfl

/-- A program that verification refuses. -/
theorem exec_verificationComplete_of_refused {x : VFail} {f : Option Formula} (hv : verdict s g = (some x, f)) :
    exec (.verificationComplete h) s = .next (complete c x.status x.shown [] (dropProg h (tellReport c g x.status (some x, f) s))) := by
  rw [exec_verificationComplete_of_waiting hg hcmd, hv]
  rfl

/-- A program without a formula of its cost. -/
theorem exec_verificationComplete_of_unpriced (hv : verdict s g = (none, none)) :
    exec (.verificationComplete h) s = .next (complete c stBadCommand 0 [] (dropProg h (tellReport c g stBadCommand (none, none) s))) := by
  rw [exec_verificationComplete_of_waiting hg hcmd, hv]
  rfl

/-- A sound program, once what it needs has power. -/
theorem exec_verificationComplete_of_sound {f : Formula} (hv : verdict s g = (none, some f)) :
    let u := powerGroups (groupsOf g.part g.image) s
    exec (.verificationComplete h) s = .next (if !groupsReady (groupsOf g.part g.image) u then u else
      complete c stOk 0 (leBytes 2 h) (modProg (fun x => { x with progs := Tbl.set none x.progs h (some
        { g with verified := true, formula := f, report := reportBytes g.image stOk none f, cmd := none }) }) (tellReport c g stOk (none, some f) u))) := by
  rw [exec_verificationComplete_of_waiting hg hcmd, hv]
  rfl

end

theorem verdict_of_found {s : State} {g : Prog} {x : VFail} (hx : (checked s g).1 = some x) : verdict s g = (some x, (checked s g).2) := by
  unfold verdict judged
  generalize checked s g = v at hx
  obtain ⟨a, b⟩ := v
  obtain rfl : a = some x := hx
  rfl

theorem verdict_of_unpriced {s : State} {g : Prog} (hv : checked s g = (none, none)) : verdict s g = (none, none) := by
  rw [verdict, hv]
  rfl

theorem verdict_of_priced {s : State} {g : Prog} {f : Formula} (hv : checked s g = (none, some f)) :
    verdict s g = if g.unverified && decide (costLimit < f.eval (Img.minimums g.image)) then (some (VFail.whole 0 0x002A), some f) else (none, some f) := by
  rw [verdict, hv]
  rfl

/-! ### Programs of the issuing partition -/

section
variable {c : Cmd} {u : State} {h : Nat} {g : Prog} (hg : Tbl.get none u.prog.progs h = some g)
include hg

theorem progOf_of_own (hverified : g.verified = true) (hown : c.part = some g.part) : progOf u c h = .inr g := by
  unfold progOf
  simp only [hg, hown, hverified, ne_eq, not_true_eq_false, Bool.not_true, Bool.false_eq_true, if_false]

theorem progOf_of_other (hother : c.part ≠ some g.part) : progOf u c h = .inl stNotPermitted := by
  unfold progOf
  simp only [hg, hother, ne_eq, not_false_eq_true, if_true]

end

section
variable {c : Cmd} {u : State} {g : Prog} (hprog : progOf u c (pNum c 0 2) = .inr g)
include hprog

theorem progActivate_of_own : progActivate c u =
    if stepping u then later u
    else if (budgetsOf u g.part).any fun b => decide (b < g.formula.eval (Img.minimums g.image)) then (u, .done stRefusedSchedule 0x002A [])
    else match bindProgram u g.part g.image with
      | none => refuse stRefusedFormat u
      | some rs => done (loadNpTables g.part (modProg (fun x =>
          { x with active := Tbl.set none x.active g.part (some { handle := pNum c 0 2, relocs := rs, counts := [] }) }) u)) := by
  unfold progActivate applyActivate
  simp only [hprog] <;> rfl

theorem progUnload_of_own : progUnload c u =
    if activeHandle u g.part = some (pNum c 0 2) ∨ (u.seq.cur.any fun r => r.handle == pNum c 0 2) = true then refuse stBusy u
    else done (modProg (fun x => { x with progs := Tbl.set none x.progs (pNum c 0 2) none }) u) := by
  unfold progUnload
  simp only [hprog]

theorem progSetCounts_of_own : progSetCounts c u =
    if !Img.hostCounts g.image then refuse stNotPermitted u
    else if stepping u then later u
    else if !countsFit g (countsParam c) (budgetsOf u g.part) then refuse stRefusedSchedule u
    else done (modProg (fun x => { x with progs := Tbl.set none x.progs (pNum c 0 2) (some { g with hostCounts := countsParam c }) }) u) := by
  unfold progSetCounts applyCounts
  simp only [hprog]
  by_cases hcounts : Img.hostCounts g.image = true
  · simp only [hcounts, Bool.not_true, Bool.false_eq_true, if_false]
  · simp only [Bool.eq_false_iff.mpr hcounts, Bool.not_false, if_true]

end

theorem progDeactivate_of_own {c : Cmd} {u : State} (hown : (Tbl.get none u.prog.progs (pNum c 0 2)).any (fun g => c.part != some g.part) = false) :
    progDeactivate c u =
      if activeHandle u (cmdPart c) ≠ some (pNum c 0 2) then refuse stBadCommand u
      else if servedLive u (cmdPart c) (pNum c 0 2) then refuse stBusy u
      else if stepping u then later u else done (modProg (fun x => { x with active := Tbl.set none x.active (cmdPart c) none }) u) := by
  unfold progDeactivate applyDeactivate
  simp only [hown, Bool.false_eq_true, if_false]
  split
  · rfl
  · split
    · rfl
    · rfl

/-- Settles O41: each command by the program that it names, verification by its verdict. -/
theorem programsAreLoadedVerifiedAndActivated : Obligations.ProgramsAreLoadedVerifiedAndActivated := by
  unfold Obligations.ProgramsAreLoadedVerifiedAndActivated
  refine ⟨fun m s bs hstarts => ?_, fun h s g c hg hcmd => ?_, fun m s h g hg hverified =>
    ⟨fun hstarts hh => ?_, fun hstarts hh hown => ?_, fun hstarts hh hown => ?_, fun hstarts hh hown => ?_, fun hstarts hh hown => ?_⟩⟩
  · intro c u n i v all hlen hrep hgives
    have hexec : exec (.progLoad m) s = .next (answer c (progLoad c u)) := congrArg _ (runCmd_of_starts hstarts)
    obtain ⟨hclosed, hopen⟩ := progLoad_of_gives hlen hrep hgives
    rw [hexec]
    refine ⟨fun hunv hno => ?_, fun b h hyes hall hmine hext hfree => ?_⟩
    · rw [hclosed hunv hno]
      rfl
    · have hsigned : imageSigned u (Img.signed i) (Img.signature i) = imageSigned s (Img.signed i) (Img.signature i) := rfl
      rw [hopen b h hyes hall hmine hext hfree, hsigned]
      split <;> rfl
  · intro nil found put drop
    have hfound : found = checked s g := rfl
    clear_value found
    refine ⟨fun x hx => ?_, fun hnone => ?_, fun f hf => ⟨fun hunv hcost => ?_, fun hcheap => ?_⟩⟩
    · rw [exec_verificationComplete_of_refused hg hcmd (verdict_of_found (hfound ▸ hx)), ← hfound]
      rfl
    · rw [exec_verificationComplete_of_unpriced hg hcmd (verdict_of_unpriced (hfound ▸ hnone))]
      rfl
    · have hover : verdict s g = (some (VFail.whole 0 0x002A), some f) := by
        refine (verdict_of_priced (hfound ▸ hf)).trans (if_pos ?_)
        rw [hunv, Bool.true_and]
        exact decide_eq_true hcost
      rw [exec_verificationComplete_of_refused hg hcmd hover]
      rfl
    · have hsound : verdict s g = (none, some f) := by
        refine (verdict_of_priced (hfound ▸ hf)).trans (if_neg ?_)
        rcases hcheap with h | h
        · simp [h]
        · rw [decide_eq_false (show ¬costLimit < f.eval (Img.minimums g.image) from Nat.not_lt.mpr h)]
          simp
      intro u v
      rw [exec_verificationComplete_of_sound hg hcmd hsound]
      refine ⟨fun hcold => ?_, fun hready => ?_⟩
      · have hcold' : groupsReady (groupsOf g.part g.image) (powerGroups (groupsOf g.part g.image) s) = false := hcold
        rw [hcold']
        rfl
      · have hready' : groupsReady (groupsOf g.part g.image) (powerGroups (groupsOf g.part g.image) s) = true := hready
        have hv : tellReport c g stOk (none, some f) (powerGroups (groupsOf g.part g.image) s) = v := rfl
        rw [hready', if_neg (by simp), hv]
        clear_value v
        rfl
  · subst hh
    intro c u
    have hexec : exec (.progActivate m) s = .next (answer c (progActivate c u)) := congrArg _ (runCmd_of_starts hstarts)
    rw [hexec]
    refine ⟨fun hother => ?_, fun hown => ?_⟩
    · rw [progActivate, progOf_of_other (u := u) (c := c) hg hother]
      rfl
    · rw [progActivate_of_own (progOf_of_own (u := u) (c := c) hg hverified hown)]
      have hbudget : ((budgetsOf u g.part).any fun b => decide (b < g.formula.eval (Img.minimums g.image))) = true ↔
          ∃ b ∈ budgetsOf s g.part, b < g.formula.eval (Img.minimums g.image) := by
        simp only [List.any_eq_true, decide_eq_true_eq]
        rfl
      refine ⟨fun hsteps => ?_, fun hidle hover => ?_, fun rs hidle hfits hbind => ?_⟩
      · rw [if_pos (c := stepping u = true) hsteps]
        rfl
      · rw [if_neg (c := stepping u = true) (Bool.eq_false_iff.mp hidle), if_pos (hbudget.mpr hover)]
        rfl
      · rw [if_neg (c := stepping u = true) (Bool.eq_false_iff.mp hidle), if_neg, hbind]
        · rfl
        · rw [hbudget]
          exact fun ⟨b, hb, hover⟩ => Nat.not_lt.mpr (hfits b hb) hover
  · subst hh
    intro c u
    have hexec : exec (.progUnload m) s = .next (answer c (progUnload c u)) := congrArg _ (runCmd_of_starts hstarts)
    rw [hexec, progUnload_of_own (progOf_of_own (u := u) (c := c) hg hverified hown)]
    have hruns : (u.seq.cur.any fun r => r.handle == pNum c 0 2) = true ↔ ∃ r, s.seq.cur = some r ∧ r.handle = pNum c 0 2 := by
      simp only [Option.any_eq_true, beq_iff_eq]
      rfl
    refine ⟨fun hbusy => ?_, fun hinactive hidle => ?_⟩
    · have hbusy' : activeHandle u g.part = some (pNum c 0 2) ∨ (u.seq.cur.any fun r => r.handle == pNum c 0 2) = true :=
        hbusy.imp id hruns.mpr
      rw [if_pos hbusy']
      rfl
    · have hfree : ¬(activeHandle u g.part = some (pNum c 0 2) ∨ (u.seq.cur.any fun r => r.handle == pNum c 0 2) = true) := by
        rintro (h | h)
        · exact hinactive h
        · obtain ⟨r, hr, hrh⟩ := hruns.mp h
          exact hidle r hr hrh
      rw [if_neg hfree]
      rfl
  · subst hh
    intro c u hhost
    have hexec : exec (.progGetReport m) s = .next (answer c (progGetReport c u)) := congrArg _ (runCmd_of_starts hstarts)
    rw [hexec, progGetReport, progOf_of_own (u := u) (c := c) hg hverified hown]
    dsimp only
    rw [intoHost, if_neg (by simp [hhost])]
    rfl
  · subst hh
    intro c u
    have hexec : exec (.progSetCounts m) s = .next (answer c (progSetCounts c u)) := congrArg _ (runCmd_of_starts hstarts)
    rw [hexec, progSetCounts_of_own (progOf_of_own (u := u) (c := c) hg hverified hown)]
    refine ⟨fun hfixed => ?_, fun hcounts hsteps => ?_, fun hcounts hidle => ?_⟩
    · rw [hfixed]
      rfl
    · rw [hcounts, if_neg (by simp), if_pos (c := stepping u = true) hsteps]
      rfl
    · rw [hcounts, if_neg (by simp), if_neg (c := stepping u = true) (Bool.eq_false_iff.mp hidle)]
      refine ⟨fun hunfit => ?_, fun hfit => ?_⟩
      · have hunfit' : countsFit g (countsParam c) (budgetsOf u g.part) = false := hunfit
        rw [hunfit']
        rfl
      · have hfit' : countsFit g (countsParam c) (budgetsOf u g.part) = true := hfit
        rw [hfit']
        rfl
  · subst hh
    intro c u p
    have hexec : exec (.progDeactivate m) s = .next (answer c (progDeactivate c u)) := congrArg _ (runCmd_of_starts hstarts)
    have hmine : (Tbl.get none u.prog.progs (pNum c 0 2)).any (fun g => c.part != some g.part) = false := by
      have hg' : Tbl.get none u.prog.progs (pNum c 0 2) = some g := hg
      have hown' : c.part = some g.part := hown
      simp [hg', hown']
    rw [hexec, progDeactivate_of_own hmine]
    refine ⟨fun hother => ?_, fun hactive hlive => ?_, fun hactive hdead hsteps => ?_, fun hactive hdead hidle => ?_⟩
    · have hother' : activeHandle u (cmdPart c) ≠ some (pNum c 0 2) := hother
      rw [if_pos hother']
      rfl
    · have hactive' : ¬activeHandle u (cmdPart c) ≠ some (pNum c 0 2) := not_not_intro hactive
      have hlive' : servedLive u (cmdPart c) (pNum c 0 2) = true := hlive
      rw [if_neg hactive', if_pos hlive']
      rfl
    · have hactive' : ¬activeHandle u (cmdPart c) ≠ some (pNum c 0 2) := not_not_intro hactive
      have hdead' : ¬servedLive u (cmdPart c) (pNum c 0 2) = true := Bool.eq_false_iff.mp hdead
      rw [if_neg hactive', if_neg hdead', if_pos (c := stepping u = true) hsteps]
      rfl
    · have hactive' : ¬activeHandle u (cmdPart c) ≠ some (pNum c 0 2) := not_not_intro hactive
      have hdead' : ¬servedLive u (cmdPart c) (pNum c 0 2) = true := Bool.eq_false_iff.mp hdead
      rw [if_neg hactive', if_neg hdead', if_neg (c := stepping u = true) (Bool.eq_false_iff.mp hidle)]
      rfl

end Sys2Proof.Machine
end
section
/-! PROOFS. Models: loading, reloading, swapping, updating, unloading, checkpoints, queries. -/
namespace Sys2Proof.Machine

/-- A command that starts does what its group says, under its opcode. -/
theorem exec_of_starts {i : Instr} {sp : CmdSpec} {m : Mbx} {s : State} {op : Nat} {body : Cmd → State → State × Ans} (hstarts : Safety.Starts sp m s)
    (hexec : exec i s = .next (runCmd sp m s)) (hop : sp.op = op) (hbody : sp.body = body) :
    exec i s = .next (answer (newCmd s op m) (body (newCmd s op m) (takeCmd (newCmd s op m) s))) := by
  subst hop hbody
  rw [hexec, runCmd_of_starts hstarts]

/-! ### Commands that bring a manifest -/

/-- What reading a manifest leaves in the port's cache of translations. -/
def noteManifest (c : Cmd) (addr len : Nat) (s : State) : State → State :=
  noteAts c.m.func (((busAddr s c.m.func addr len).map fun b => b.2.2).getD 0) len

section
variable {c : Cmd} {s : State} {addr len : Nat} {bs : List Byte} {k : List Byte → State × Ans}
  (hlo : 96 ≤ len) (hhi : len ≤ 4194304) (hgives : Safety.HostGives c s addr len bs)
include hlo hhi hgives

theorem withManifest_of_gives : withManifest c addr len s k =
    let f := padTo len bs
    let a := if !imageSigned s (Mf.signed f) (Mf.signature f) then refuse stBadSignature s else if !manifestOk f then refuse stRefusedFormat s else k f
    (noteManifest c addr len s a.1, a.2) := by
  have hlen : ¬(len < 96 ∨ 4194304 < len) := by omega
  rw [withManifest, if_neg hlen, withHost_of_gives hgives]
  rfl

/-- A manifest of a bad form is refused, for its signature first. -/
theorem answer_withManifest_of_bad (hbad : manifestOk (padTo len bs) = false) : answer c (withManifest c addr len s k) =
    complete c (if imageSigned s (Mf.signed (padTo len bs)) (Mf.signature (padTo len bs)) then 0x03 else 0x05) 0 [] (noteManifest c addr len s s) := by
  rw [withManifest_of_gives hlo hhi hgives]
  dsimp only
  generalize imageSigned s (Mf.signed (padTo len bs)) (Mf.signature (padTo len bs)) = signed
  rw [hbad]
  cases signed <;> rfl

/-- A manifest of a good form is acted on where its signature is good. -/
theorem answer_withManifest_of_good {t : State} (hgood : manifestOk (padTo len bs) = true)
    (hk : answer c (noteManifest c addr len s (k (padTo len bs)).1, (k (padTo len bs)).2) = t) : answer c (withManifest c addr len s k) =
    if imageSigned s (Mf.signed (padTo len bs)) (Mf.signature (padTo len bs)) then t else complete c 0x05 0 [] (noteManifest c addr len s s) := by
  rw [withManifest_of_gives hlo hhi hgives]
  dsimp only
  generalize imageSigned s (Mf.signed (padTo len bs)) (Mf.signature (padTo len bs)) = signed
  rw [hgood]
  cases signed
  · rfl
  · exact hk

/-- A manifest of a good form with which the command begins what it waits for. -/
theorem answer_withManifest_of_later {w : State} (hgood : manifestOk (padTo len bs) = true) (hk : k (padTo len bs) = later w) :
    answer c (withManifest c addr len s k) = if imageSigned s (Mf.signed (padTo len bs)) (Mf.signature (padTo len bs))
      then noteManifest c addr len s w else complete c 0x05 0 [] (noteManifest c addr len s s) := by
  refine answer_withManifest_of_good hlo hhi hgives hgood ?_
  rw [hk]
  rfl

/-- A manifest of a good form that does not fit the command. -/
theorem answer_withManifest_of_refused {st : Nat} (hgood : manifestOk (padTo len bs) = true) (hk : k (padTo len bs) = refuse st s) :
    answer c (withManifest c addr len s k) =
      complete c (if imageSigned s (Mf.signed (padTo len bs)) (Mf.signature (padTo len bs)) then st else 0x05) 0 [] (noteManifest c addr len s s) := by
  rw [answer_withManifest_of_good hlo hhi hgives hgood rfl, hk]
  split <;> rfl

end

/-! ### MODEL_LOAD -/

/-- The image that a load makes of its manifest. -/
def newImage (c : Cmd) (f : List Byte) : Image :=
  { manifest := f, digest := Config.sha384 f, layers := [], shareMask := pNum c 18 2, loader := cmdPart c }

/-- What MODEL_LOAD does with a sound manifest. -/
def loadManifest (c : Cmd) (s : State) (f : List Byte) : State × Ans :=
  match Tbl.free s.mdl.bindings 256 with
  | none => refuse stRefusedCapacity s
  | some h =>
    match sharedImage s (Config.sha384 f) with
    | some (i, im) =>
      if !bit im.shareMask (cmdPart c) then refuse stNotPermitted s else
      doneWith (leBytes 2 h) (tellBinding evModelReady h (setBinding h (some { newBinding (cmdPart c) i with state := 2 }) (attachHomes (cmdPart c) (imageHomes im) s)))
    | none =>
      if 64 ≤ loadedImages s ∨ nominalMeets s (cmdPart c) f then refuse stRefusedCapacity s else
      match Tbl.free s.mdl.images 512 with
      | none => refuse stRefusedCapacity s
      | some i =>
        match placeLayers (cmdPart c) i f (Mf.shareable f) (List.range (Mf.layers f)) (setImage i (some (newImage c f)) s) with
        | none => refuse stRefusedCapacity s
        | some s => later (setBinding h (some
          { newBinding (cmdPart c) i with retryLimit := pByte c 16, deadline := some (s.now + 1000000 * pNum c 12 4), cmd := some c }) s)

theorem modelLoad_of_permitted {c : Cmd} {s : State} (hdl : deadlineOk (pNum c 12 4) = true) (hshare : pNum c 18 2 = 0 ∨ c.m.func % 32 = 0) :
    modelLoad c s = withManifest c (pNum c 0 8) (pNum c 8 4) s (loadManifest c s) := by
  have hpermitted : ¬(pNum c 18 2 ≠ 0 ∧ c.m.func % 32 ≠ 0) := by omega
  unfold modelLoad
  dsimp only
  rw [hdl, if_neg (by simp), if_neg hpermitted]
  refine congrArg (withManifest c _ _ s) (funext fun f => ?_)
  unfold loadManifest
  generalize Tbl.free s.mdl.bindings 256 = handle, Tbl.free s.mdl.images 512 = slot
  rcases handle with _ | h
  · rfl
  · rcases sharedImage s (Config.sha384 f) with _ | ⟨i, im⟩
    · rcases slot with _ | i
      · rfl
      · rfl
    · rfl

section
variable {c : Cmd} {s : State} {f : List Byte} {h : Nat} (hfree : Tbl.free s.mdl.bindings 256 = some h)
include hfree

theorem loadManifest_of_fresh {i : Nat} {w : State} (hnew : sharedImage s (Config.sha384 f) = none) (hroom : loadedImages s < 64)
    (hapart : nominalMeets s (cmdPart c) f = false) (himage : Tbl.free s.mdl.images 512 = some i)
    (hplaced : placeLayers (cmdPart c) i f (Mf.shareable f) (List.range (Mf.layers f)) (setImage i (some (newImage c f)) s) = some w) :
    loadManifest c s f = later (setBinding h (some
      { newBinding (cmdPart c) i with retryLimit := pByte c 16, deadline := some (w.now + 1000000 * pNum c 12 4), cmd := some c }) w) := by
  have hfits : ¬(64 ≤ loadedImages s ∨ nominalMeets s (cmdPart c) f = true) := by simp [hapart, hroom]
  rw [loadManifest, hfree]
  dsimp only
  rw [hnew]
  dsimp only
  rw [if_neg hfits, himage]
  dsimp only
  rw [hplaced]

theorem loadManifest_of_shared {i : Nat} {im : Image} (hold : sharedImage s (Config.sha384 f) = some (i, im)) (hmask : bit im.shareMask (cmdPart c) = true) :
    loadManifest c s f = doneWith (leBytes 2 h) (tellBinding evModelReady h
      (setBinding h (some { newBinding (cmdPart c) i with state := 2 }) (attachHomes (cmdPart c) (imageHomes im) s))) := by
  unfold loadManifest
  simp only [hfree, hold, hmask, Bool.not_true, Bool.false_eq_true, if_false]

end

/-- MODEL_LOAD, clause by clause. -/
theorem exec_modelLoad_of_starts (m : Mbx) (s : State) (bs : List Byte) (hstarts : Safety.Starts modelLoadSpec m s) :
    let c := newCmd s 0x0301 m
    let a := takeCmd c s
    let f := padTo (pNum c 8 4) bs
    let v := noteManifest c (pNum c 0 8) (pNum c 8 4) a
    let signed := imageSigned a (Mf.signed f) (Mf.signature f)
    (deadlineOk (pNum c 12 4) = false → exec (.modelLoad m) s = .next (complete c 0x16 0 [] a)) ∧
    (deadlineOk (pNum c 12 4) = true → (pNum c 18 2 = 0 ∨ m.func % 32 = 0) → 96 ≤ pNum c 8 4 → pNum c 8 4 ≤ 4194304 →
      Safety.HostGives c a (pNum c 0 8) (pNum c 8 4) bs →
      (manifestOk f = false → exec (.modelLoad m) s = .next (complete c (if signed then 0x03 else 0x05) 0 [] (v a))) ∧
      (∀ t, manifestOk f = true → answer c (v (loadManifest c a f).1, (loadManifest c a f).2) = t →
        exec (.modelLoad m) s = .next (if signed then t else complete c 0x05 0 [] (v a)))) := by
  intro c a f v signed
  have hexec : exec (.modelLoad m) s = .next (answer c (modelLoad c a)) := exec_of_starts hstarts rfl rfl rfl
  rw [hexec]
  refine ⟨fun hdl => ?_, fun hdl hshare hlo hhi hgives => ?_⟩
  · unfold modelLoad
    dsimp only
    rw [hdl]
    rfl
  · rw [modelLoad_of_permitted hdl hshare]
    refine ⟨fun hbad => ?_, fun t hgood ht => ?_⟩
    · rw [answer_withManifest_of_bad hlo hhi hgives hbad]
    · rw [answer_withManifest_of_good hlo hhi hgives hgood ht]

/-! ### MODEL_RELOAD_LAYERS -/

/-- The deadline that a command's milliseconds set. -/
def deadlineAt (s : State) (ms : Nat) : Option Nat := some (s.now + 1000000 * ms)

/-- An image takes another manifest. -/
def takeManifest (i : Nat) (f : List Byte) (s : State) : State := modImage i (fun x => { x with manifest := f, digest := Config.sha384 f }) s

/-- The layers of an image that failed. -/
def failedLayers (s : State) (i : Nat) (f : List Byte) : List Nat :=
  (List.range (Mf.layers f)).filter fun l => (layer? s i l).any fun y => y.status == 2

/-- What MODEL_RELOAD_LAYERS does with a sound manifest. -/
def reloadManifest (c : Cmd) (b : Binding) (s : State) (f : List Byte) : State × Ans :=
  if !sameButSources f (manifestOf s b.image) then refuse stRefusedFormat s
  else if b.repair ≠ [] ∨ b.rowRepair ≠ [] then
    later (modBinding (pNum c 0 2) (fun b => { b with state := 5, retryLimit := pByte c 24, deadline := deadlineAt s (pNum c 20 4), cmd := some c })
      (takeManifest b.image f s))
  else match placeLayers b.part b.image f (Mf.shareable f) (failedLayers s b.image f) (takeManifest b.image f s) with
    | none => refuse stRefusedCapacity s
    | some w => later (modBinding (pNum c 0 2) (fun x => { x with
        state := 0, placed := failedLayers s b.image f, retries := [], retryLimit := pByte c 24, deadline := deadlineAt s (pNum c 20 4), cmd := some c }) w)

section
variable {c : Cmd} {b : Binding} {s : State} {f : List Byte} (hsame : sameButSources f (manifestOf s b.image) = true)
include hsame

theorem reloadManifest_of_repairs (hrepairs : b.repair ≠ [] ∨ b.rowRepair ≠ []) : reloadManifest c b s f =
    later (modBinding (pNum c 0 2) (fun b => { b with state := 5, retryLimit := pByte c 24, deadline := deadlineAt s (pNum c 20 4), cmd := some c })
      (takeManifest b.image f s)) := by
  rw [reloadManifest, if_neg (by simp [hsame]), if_pos hrepairs]

theorem reloadManifest_of_failed {w : State} (hrepair : b.repair = []) (hrows : b.rowRepair = [])
    (hplaced : placeLayers b.part b.image f (Mf.shareable f) (failedLayers s b.image f) (takeManifest b.image f s) = some w) : reloadManifest c b s f =
    later (modBinding (pNum c 0 2) (fun x => { x with
      state := 0, placed := failedLayers s b.image f, retries := [], retryLimit := pByte c 24, deadline := deadlineAt s (pNum c 20 4), cmd := some c }) w) := by
  have hquiet : ¬(b.repair ≠ [] ∨ b.rowRepair ≠ []) := by simp [hrepair, hrows]
  rw [reloadManifest, if_neg (by simp [hsame]), if_neg hquiet, hplaced]

end

theorem modelReload_of_incomplete {c : Cmd} {s : State} {b : Binding} (hb : myBinding s c (pNum c 0 2) = some b) (hstate : b.state = 1)
    (hdl : deadlineOk (pNum c 20 4) = true) : modelReload c s = withManifest c (pNum c 8 8) (pNum c 16 4) s (reloadManifest c b s) := by
  unfold modelReload
  dsimp only
  rw [hdl, if_neg (by simp), hb]
  dsimp only
  rw [if_neg (not_not_intro hstate)]
  refine congrArg (withManifest c _ _ s) (funext fun f => ?_)
  unfold reloadManifest
  congr 2

/-! ### MODEL_SWAP, MODEL_SWAP_RESUME and MODEL_SWAP_REVERT -/

/-- What MODEL_SWAP does with a sound manifest. -/
def swapManifest (c : Cmd) (b : Binding) (s : State) (f : List Byte) : State × Ans :=
  if !swapOk (manifestOf s b.image) f then refuse stRefusedFormat s
  else if sharedResident s b.image (List.range (Mf.layers f)) ∧ c.m.func % 32 ≠ 0 then refuse stNotPermitted s
  else if !quotaHolds s b.part f (List.range (Mf.layers f)) then refuse stRefusedCapacity s
  else match Tbl.free s.mdl.images 512 with
    | none => refuse stRefusedCapacity s
    | some i => later (modBinding (pNum c 0 2) (fun b => { b with
        state := 3
        swap := some { newSwap 0 i 0 (Mf.layers f) false c with
          flush := pBit c 2 0, window := pNum c 28 4, retryLimit := pByte c 24, deadline := deadlineAt s (pNum c 20 4) } })
        (setImage i (some { manifest := f, digest := Config.sha384 f, layers := [], shareMask := 0, loader := b.part }) s))

theorem swapManifest_of_fit {c : Cmd} {b : Binding} {s : State} {f : List Byte} {i : Nat} (hfit : swapOk (manifestOf s b.image) f = true)
    (hshared : sharedResident s b.image (List.range (Mf.layers f)) = false ∨ c.m.func % 32 = 0)
    (hquota : quotaHolds s b.part f (List.range (Mf.layers f)) = true) (hslot : Tbl.free s.mdl.images 512 = some i) :
    swapManifest c b s f = later (modBinding (pNum c 0 2) (fun b => { b with
      state := 3
      swap := some { newSwap 0 i 0 (Mf.layers f) false c with
        flush := pBit c 2 0, window := pNum c 28 4, retryLimit := pByte c 24, deadline := deadlineAt s (pNum c 20 4) } })
      (setImage i (some { manifest := f, digest := Config.sha384 f, layers := [], shareMask := 0, loader := b.part }) s)) := by
  have hshared' : ¬(sharedResident s b.image (List.range (Mf.layers f)) = true ∧ c.m.func % 32 ≠ 0) := by
    rintro ⟨hyes, hfn⟩
    exact hshared.elim (fun hno => Bool.false_ne_true (hno.symm.trans hyes)) hfn
  rw [swapManifest, if_neg (by simp [hfit]), if_neg hshared', if_neg (by simp [hquota]), hslot]

theorem modelSwap_of_ready {c : Cmd} {s : State} {b : Binding} (hb : myBinding s c (pNum c 0 2) = some b) (hstate : b.state = 2)
    (hdl : deadlineOk (pNum c 20 4) = true) : modelSwap c s = withManifest c (pNum c 8 8) (pNum c 16 4) s (swapManifest c b s) := by
  have hidle : ¬swapBusy b = true := by simp [swapBusy, hstate]
  unfold modelSwap
  dsimp only
  rw [hdl, if_neg (by simp), hb]
  dsimp only
  rw [if_neg hidle, if_neg (not_not_intro hstate)]
  refine congrArg (withManifest c _ _ s) (funext fun f => ?_)
  unfold swapManifest
  generalize Tbl.free s.mdl.images 512 = slot
  cases slot <;> rfl

/-- What going on with a mixed model does with a sound manifest. -/
def continueManifest (back : Bool) (new old k : Nat) (c : Cmd) (b : Binding) (s : State) (f : List Byte) : State × Ans :=
  let i := if back then old else new
  let ls := if back then List.range k else (List.range (Mf.layers f)).drop k
  if (image? s i).map Image.digest ≠ some (Config.sha384 f) then refuse stBadCommand s
  else if sharedResident s i ls ∧ c.m.func % 32 ≠ 0 then refuse stNotPermitted s
  else if !quotaHolds s b.part f ls then refuse stRefusedCapacity s
  else later (modBinding (pNum c 0 2) (fun b => { b with
    state := 3
    swap := some { newSwap (if back then 4 else 3) i (if back then k - 1 else k) ls.length back c with
      flush := pBit c 2 0, window := pNum c 28 4, retryLimit := pByte c 24, deadline := deadlineAt s (pNum c 20 4) } }) s)

section
variable {c : Cmd} {s : State} {b : Binding} (back : Bool) (hb : myBinding s c (pNum c 0 2) = some b) (hdl : deadlineOk (pNum c 20 4) = true)
include hb hdl

theorem continueSwap_of_unmixed (hjournal : b.journal = none) : continueSwap back c s = refuse (if swapBusy b then 0x15 else 0x16) s := by
  unfold continueSwap
  dsimp only
  rw [hdl, if_neg (by simp), hb]
  dsimp only
  rw [hjournal]
  dsimp only
  split <;> rfl

theorem continueSwap_of_moving {new old k : Nat} (hjournal : b.journal = some (new, old, k)) (hstate : b.state ≠ 4) :
    continueSwap back c s = refuse stBusy s := by
  unfold continueSwap
  dsimp only
  rw [hdl, if_neg (by simp), hb]
  dsimp only
  rw [hjournal]
  dsimp only
  rw [if_pos hstate]

theorem continueSwap_of_mixed {new old k : Nat} (hjournal : b.journal = some (new, old, k)) (hstate : b.state = 4) :
    continueSwap back c s = withManifest c (pNum c 8 8) (pNum c 16 4) s (continueManifest back new old k c b s) := by
  unfold continueSwap
  dsimp only
  rw [hdl, if_neg (by simp), hb]
  dsimp only
  rw [hjournal]
  dsimp only
  rw [if_neg (not_not_intro hstate)]
  rfl

end

/-! ### MODEL_UPDATE and MODEL_CHECKPOINT -/

/-- The bytes that an update of some layers takes from its staging place. -/
def stagedTotal (f : List Byte) (ls : List Nat) : Nat := (((ls.flatMap (Mf.layerTensors f)).filter (updated f)).map fun t => Ts.stored (Mf.tensor f t)).sum

theorem modelUpdate_of_own {c : Cmd} {s : State} {b : Binding} {first n t off : Nat} (hb : myBinding s c (pNum c 0 2) = some b) (hstate : b.state = 2)
    (htrain : Mf.trainable (manifestOf s b.image) = true) (halone : (s.mdl.bindings.filter fun x => x.2.any fun y => y.refersTo b.image).length ≤ 1)
    (hnamed : layersNamed c (manifestOf s b.image) = some (first, n)) {ls : List Nat} (hls : (List.range n).map (first + ·) = ls)
    (hplace : place (pNum c 8 8) (max 1 (stagedTotal (manifestOf s b.image) ls)) = .tier t off)
    (hown : ownsExtent s b.part t off (max 1 (stagedTotal (manifestOf s b.image) ls)) = true)
    (hquota : quotaHolds s b.part (manifestOf s b.image) ls = true) :
    modelUpdate c s = later (modBinding (pNum c 0 2) (fun b => { b with
      state := 3, swap := some { newSwap 1 b.image first n false c with source := pNum c 8 8 } }) s) := by
  have hidle : ¬swapBusy b = true := by simp [swapBusy, hstate]
  have hfree : ¬((!Mf.trainable (manifestOf s b.image)) = true ∨ 1 < (s.mdl.bindings.filter fun x => x.2.any fun y => y.refersTo b.image).length) := by
    simp [htrain, halone]
  unfold modelUpdate
  dsimp only
  rw [hb]
  dsimp only
  rw [if_neg hidle, if_neg (not_not_intro hstate), if_neg hfree, hnamed]
  dsimp only
  rw [hls]
  unfold stagedTotal at hplace hown
  rw [hplace]
  dsimp only
  rw [if_neg (by simp [hown]), if_neg (by simp [hquota])]

/-- The checkpointed forms of some layers' tensors. -/
def checkpointForms (s : State) (b : Binding) (first n form : Nat) : List (Nat × List Byte × Nat) :=
  (List.range n).flatMap fun i => (Mf.layerTensors (manifestOf s b.image) (first + i)).map fun t =>
    (t, checkpointForm s (manifestOf s b.image) ((layer? s (b.imageOf (first + i)) (first + i)).getD .empty) form t)

theorem modelCheckpoint_of_tier1 {c : Cmd} {s : State} {b : Binding} {first n off : Nat} (hb : myBinding s c (pNum c 0 2) = some b) (hstate : b.state = 2)
    (hidle : stepping s = false) (hform : pByte c 6 ≤ 2) (hnamed : layersNamed c (manifestOf s b.image) = some (first, n))
    {forms : List (Nat × List Byte × Nat)} (hforms : checkpointForms s b first n (pByte c 6) = forms)
    {data : List Byte} (hdata : (forms.flatMap fun x => x.2.1) = data)
    (hplace : place (pNum c 8 8) (max 1 data.length) = .tier 1 off) (hsource : place (pNum c 8 8) 1 = .tier 1 off)
    (hown : ownsWritable s b.part 1 off (max 1 data.length) = true)
    {mf : List Byte} (hmf : checkpointManifest (manifestOf s b.image) first n 2 s.fab.chip (pNum c 8 8) forms = mf)
    (hhost : hostOk s c (pNum c 16 8) mf.length = true) :
    modelCheckpoint c s = done (releaseBinding (pNum c 0 2)
      (writeHost c.m.func (pNum c 16 8) mf false (tierWrite 1 off data false 0 (holdBinding (pNum c 0 2) s)))) := by
  have hquiet : ¬swapBusy b = true := by simp [swapBusy, hstate]
  unfold modelCheckpoint applyCheckpoint
  simp only [hb]
  rw [if_neg hquiet, hidle, if_neg (by simp), if_neg hquiet, if_pos ⟨hstate, hform⟩, hnamed]
  dsimp only
  unfold checkpointForms at hforms
  rw [hforms, hdata, hplace, hsource]
  dsimp only
  rw [if_pos rfl, hmf, if_neg (by simp [hown, hhost])]
  rfl

/-- Settles O42: each command by the binding that it names, and by what its manifest is. -/
theorem modelCommandsLoadRepairSwapAndUnload : Obligations.ModelCommandsLoadRepairSwapAndUnload := by
  unfold Obligations.ModelCommandsLoadRepairSwapAndUnload
  refine ⟨fun m s bs hstarts => ?_, fun m s bs b hstarts => ?_, fun m s bs b hstarts => ?_, fun back m s bs b new old k => ?_,
    fun m s b hstarts => ?_, fun m s b hstarts => ?_, fun m s b hstarts => ?_, fun m s b hstarts => ?_⟩
  · intro c n a v f p signed im
    obtain ⟨hlate, hrest⟩ := exec_modelLoad_of_starts m s bs hstarts
    refine ⟨hlate, fun hdl hshare hlo hhi hgives => ?_⟩
    obtain ⟨hbad, hgood⟩ := hrest hdl hshare hlo hhi hgives
    refine ⟨hbad, fun h i w hok hfree hnew hroom hapart himage hplaced => hgood _ hok ?_, fun h i x hok hfree hold hmask => hgood _ hok ?_⟩
    · have hload := loadManifest_of_fresh (c := c) (s := a) hfree hnew hroom hapart himage hplaced
      rw [hload]
      rfl
    · have hload := loadManifest_of_shared (c := c) (s := a) hfree hold hmask
      rw [hload]
      rfl
  · intro c h n a v f signed u failed
    have hexec : exec (.modelReloadLayers m) s = .next (answer c (modelReload c a)) := exec_of_starts hstarts rfl rfl rfl
    rw [hexec]
    refine ⟨fun hnone => ?_, fun hb hstate => ?_, fun hb hstate hdl hlo hhi hgives hok => ?_⟩
    · have hnone' : myBinding a c (pNum c 0 2) = none := hnone
      unfold modelReload
      dsimp only
      rw [hnone']
      split <;> rfl
    · have hb' : myBinding a c (pNum c 0 2) = some b := hb
      unfold modelReload
      dsimp only
      rw [hb']
      dsimp only
      rw [if_pos hstate]
      split <;> rfl
    · have hb' : myBinding a c (pNum c 0 2) = some b := hb
      rw [modelReload_of_incomplete hb' hstate hdl]
      refine ⟨fun hother => ?_, fun hsame hrepairs => ?_, fun w hsame hrep hrow hplaced => ?_⟩
      · rw [answer_withManifest_of_refused hlo hhi hgives hok (st := 0x03)]
        · rfl
        · have hother' : sameButSources f (manifestOf a b.image) = false := hother
          rw [reloadManifest, hother']
          rfl
      · have hgo := reloadManifest_of_repairs (c := c) (s := a) hsame hrepairs
        rw [answer_withManifest_of_later hlo hhi hgives hok hgo]
        rfl
      · have hgo := reloadManifest_of_failed (c := c) (s := a) hsame hrep hrow hplaced
        rw [answer_withManifest_of_later hlo hhi hgives hok hgo]
        rfl
  · intro c h n a v f signed hdl hb
    have hexec : exec (.modelSwap m) s = .next (answer c (modelSwap c a)) := exec_of_starts hstarts rfl rfl rfl
    have hb' : myBinding a c (pNum c 0 2) = some b := hb
    rw [hexec]
    refine ⟨fun hbusy => ?_, fun hstate hlo hhi hgives hok => ?_⟩
    · unfold modelSwap
      dsimp only
      rw [hdl, if_neg (by simp), hb']
      dsimp only
      rw [if_pos hbusy]
      rfl
    · rw [modelSwap_of_ready hb' hstate hdl]
      refine ⟨fun hother => ?_, fun i hsame hshared hquota hslot => ?_⟩
      · rw [answer_withManifest_of_refused hlo hhi hgives hok (st := 0x03)]
        · rfl
        · have hother' : swapOk (manifestOf a b.image) f = false := hother
          rw [swapManifest, hother']
          rfl
      · have hgo := swapManifest_of_fit (c := c) (s := a) hsame hshared hquota hslot
        rw [answer_withManifest_of_later hlo hhi hgives hok hgo]
        rfl
  · intro c i h n a v f goal ls signed hstarts hdl hb
    have hb' : myBinding a c (pNum c 0 2) = some b := hb
    have hexec : exec i s = .next (answer c (continueSwap back c a)) := by
      cases back
      · exact exec_of_starts hstarts rfl rfl rfl
      · exact exec_of_starts hstarts rfl rfl rfl
    rw [hexec]
    refine ⟨fun hjournal => ?_, fun hjournal hstate => ?_, fun hjournal hstate hlo hhi hgives hok => ?_⟩
    · rw [continueSwap_of_unmixed back hb' hdl hjournal]
      rfl
    · rw [continueSwap_of_moving back hb' hdl hjournal hstate]
      rfl
    · rw [continueSwap_of_mixed back hb' hdl hjournal hstate]
      rw [continueSwap_of_mixed back hb' hdl hjournal hstate] at hexec
      refine ⟨fun hother => ?_, fun hdigest hshared hquota => ?_⟩
      · rw [answer_withManifest_of_refused hlo hhi hgives hok (st := 0x16)]
        · rfl
        · have hother' : (image? a goal).map Image.digest ≠ some (Config.sha384 f) := hother
          rw [continueManifest]
          exact if_pos hother'
      · intro t
        have ht : exec i s = .next t := by
          have hdigest' : ¬(image? a goal).map Image.digest ≠ some (Config.sha384 f) := not_not_intro hdigest
          have hquota' : quotaHolds a b.part f ls = true := hquota
          have hshared' : ¬(sharedResident a goal ls = true ∧ c.m.func % 32 ≠ 0) := by
            rintro ⟨hyes, hfn⟩
            exact hshared.elim (fun hno => Bool.false_ne_true (hno.symm.trans hyes)) hfn
          have hgo : continueManifest back new old k c b a f = later (modBinding h (fun b => { b with
              state := 3
              swap := some { newSwap (if back then 4 else 3) goal (if back then k - 1 else k) ls.length back c with
                flush := pBit c 2 0, window := pNum c 28 4, retryLimit := pByte c 24, deadline := deadlineAt a (pNum c 20 4) } }) a) := by
            rw [continueManifest]
            refine (if_neg hdigest').trans ((if_neg hshared').trans (if_neg ?_))
            exact fun hno => Bool.false_ne_true ((Bool.not_eq_true' _ ▸ hno).symm.trans hquota')
          rw [hexec, answer_withManifest_of_later hlo hhi hgives hok hgo]
          rfl
        cases back
        · exact ⟨fun _ => ht, nofun⟩
        · exact ⟨nofun, fun _ => ht⟩
  · intro c h f a hb
    have hexec : exec (.modelUpdate m) s = .next (answer c (modelUpdate c a)) := exec_of_starts hstarts rfl rfl rfl
    have hb' : myBinding a c (pNum c 0 2) = some b := hb
    rw [hexec]
    refine ⟨fun hbusy => ?_, fun hstate htrain => ?_, fun first n t off hstate htrain halone hnamed => ?_⟩
    · unfold modelUpdate
      dsimp only
      rw [hb']
      dsimp only
      rw [if_pos hbusy]
      rfl
    · have hidle : ¬swapBusy b = true := by simp [swapBusy, hstate]
      have htrain' : Mf.trainable (manifestOf a b.image) = false := htrain
      unfold modelUpdate
      dsimp only
      rw [hb']
      dsimp only
      rw [if_neg hidle, if_neg (not_not_intro hstate), htrain', if_pos (.inl rfl)]
      rfl
    · intro ls total hplace hown hquota
      rw [modelUpdate_of_own (s := a) hb' hstate htrain halone hnamed rfl hplace hown hquota]
      rfl
  · intro c h hb
    have hexec : exec (.modelUnload m) s = .next (answer c (modelUnload c (takeCmd c s))) := exec_of_starts hstarts rfl rfl rfl
    have hb' : myBinding (takeCmd c s) c (pNum c 0 2) = some b := hb
    have hunload : modelUnload c (takeCmd c s) =
        if (swapBusy b || boundActive (takeCmd c s) b || bindingLive (takeCmd c s) h) = true then refuse stBusy (takeCmd c s) else done (unbind h (takeCmd c s)) := by
      unfold modelUnload
      dsimp only
      rw [hb']
    rw [hexec, hunload]
    refine ⟨fun hbusy => ?_, fun hidle hpassive hdead => ?_⟩
    · have hbusy' : (swapBusy b || boundActive (takeCmd c s) b || bindingLive (takeCmd c s) h) = true := by
        rw [Bool.or_eq_true, Bool.or_eq_true]
        exact hbusy.elim (fun x => .inl (.inl x)) fun hbusy => hbusy.elim (fun x => .inl (.inr x)) .inr
      rw [if_pos hbusy']
      rfl
    · have hpassive' : boundActive (takeCmd c s) b = false := hpassive
      have hdead' : bindingLive (takeCmd c s) h = false := hdead
      rw [hidle, hpassive', hdead']
      rfl
  · intro c h a f hb
    have hexec : exec (.modelCheckpoint m) s = .next (answer c (modelCheckpoint c a)) := exec_of_starts hstarts rfl rfl rfl
    have hb' : myBinding a c (pNum c 0 2) = some b := hb
    rw [hexec]
    refine ⟨fun hbusy => ?_, fun hquiet hsteps => ?_, fun first n off hstate hidle hform hnamed => ?_⟩
    · rw [modelCheckpoint, hb']
      dsimp only
      rw [if_pos hbusy]
      rfl
    · rw [modelCheckpoint, hb']
      dsimp only
      rw [if_neg (Bool.eq_false_iff.mp hquiet), if_pos (c := stepping a = true) hsteps]
      rfl
    · intro forms data mf hplace hsource hown hhost
      rw [modelCheckpoint_of_tier1 (s := a) hb' hstate hidle hform hnamed rfl rfl hplace hsource hown rfl hhost]
      rfl
  · intro c a dg hhost
    have hexec : exec (.modelQuery m) s = .next (answer c (modelQuery c a)) := exec_of_starts hstarts rfl rfl rfl
    rw [hexec]
    refine ⟨fun hnone => ?_, fun hb hjournal => ?_, fun new old k hb hjournal => ?_⟩
    · have hnone' : myBinding a c (pNum c 0 2) = none := hnone
      rw [modelQuery, hnone']
      rfl
    · have hb' : myBinding a c (pNum c 0 2) = some b := hb
      rw [modelQuery, hb']
      dsimp only
      rw [hjournal, intoHost, if_neg (by simp [hhost])]
      rfl
    · have hb' : myBinding a c (pNum c 0 2) = some b := hb
      rw [modelQuery, hb']
      dsimp only
      rw [hjournal, intoHost, if_neg (by simp [hhost])]
      rfl

end Sys2Proof.Machine
end
section
/-! PROOFS. Shards and staged layers. -/
namespace Sys2Proof.Machine

/-! ### A shard that arrives -/

/-- Pieces are put at a layer's homes. -/
def putPieces (ps : List (Nat × Nat × List Byte)) (a : LayerSt × State) : LayerSt × State := ps.foldl (fun a x => putTensor x.1 x.2.1 x.2.2 a) a

/-- The headers of the tiles that a shard's rows reach are put too. -/
def putHeads (t first n : Nat) (r : List Byte) (a : LayerSt × State) : LayerSt × State :=
  if n = 0 then a else putPieces ((tileHeads r (tensorBytes a.2 a.1 t (Ts.stored r)) first n).map fun z => (t, z.1, z.2)) a

/-- What the pieces of a shard make of the layer that is fetched, and of the state. -/
def placedShard (m : List Byte) (k : Nat) (x : List (Nat × Nat × List Byte) × Nat × Nat) (a : LayerSt × State) : LayerSt × State :=
  let t := Sh.tensor (Mf.shard m k)
  let y := putHeads t x.2.1 x.2.2 (Mf.tensor m t) (putPieces x.1 a)
  ({ y.1 with arrived := y.1.arrived ++ [k] }, y.2)

section
variable {h k i : Nat} {data : List Byte} {s : State} {staging : Bool} {ls : List Nat} (hfetch : fetchOf s h = some (i, staging, ls))
include hfetch

theorem shardIn_of_none_left (hls : ls = []) : shardIn h k data s = finishLoad h s := by
  subst hls
  rw [shardIn, hfetch]
  rfl

variable {l : Nat} (hl : Mf.layerOf (manifestOf s i) (Sh.tensor (Mf.shard (manifestOf s i) k)) = l)
include hl

theorem shardIn_of_foreign (hne : ls ≠ []) (hforeign : Mf.shards (manifestOf s i) ≤ k ∨ ls.contains l = false) : shardIn h k data s = s := by
  subst hl
  have hnot : Mf.shards (manifestOf s i) ≤ k ∨ (!ls.contains (Mf.layerOf (manifestOf s i) (Sh.tensor (Mf.shard (manifestOf s i) k)))) = true :=
    hforeign.imp_right fun h => by rw [h]; rfl
  rw [shardIn, hfetch]
  dsimp only
  rw [if_neg (by simpa using hne), if_pos hnot]

variable {ly : LayerSt} (hk : k < Mf.shards (manifestOf s i)) (hmine : ls.contains l = true) (hly : fetched s h i staging l = some ly)
  (hfresh : ly.status = 0) (hnew : ly.arrived.contains k = false) (hhome : ly.home (Sh.tensor (Mf.shard (manifestOf s i) k)) ≠ none)
include hk hmine hly hfresh hnew hhome

theorem shardIn_of_fetched : shardIn h k data s = match shardPieces (manifestOf s i) k data with
    | none => failMetadata h s
    | some x =>
      let y := placedShard (manifestOf s i) k x (ly, s)
      let w := setFetched h i staging l (some y.1) y.2
      if !staging && (Mf.layerShards (manifestOf s i) l).all (fun z => y.1.arrived.contains z) then layerArrived h i l w else w := by
  subst hl
  have hne : ls ≠ [] := by rintro rfl; simp at hmine
  have hwanted : ¬(Mf.shards (manifestOf s i) ≤ k ∨ (!ls.contains (Mf.layerOf (manifestOf s i) (Sh.tensor (Mf.shard (manifestOf s i) k)))) = true) := by
    rw [hmine]
    simpa using hk
  have hopen : ¬(ly.status ≠ 0 ∨ ly.arrived.contains k = true ∨ (ly.home (Sh.tensor (Mf.shard (manifestOf s i) k))).isNone = true) := by
    rw [hnew, Option.isNone_iff_eq_none]
    simp [hfresh, hhome]
  have hstaged : ¬(staging && (fetched s h i true (Mf.layerOf (manifestOf s i) (Sh.tensor (Mf.shard (manifestOf s i) k)))).isNone) = true := by
    cases staging
    · simp
    · simp [hly]
  rw [shardIn, hfetch]
  dsimp only
  rw [if_neg (by simpa using hne), if_neg hwanted, if_neg hstaged, hly]
  dsimp only
  rw [if_neg hopen]
  rcases shardPieces (manifestOf s i) k data with _ | ⟨ps, first, n⟩
  · rfl
  · simp only [placedShard, putHeads, putPieces, List.foldl_map]

end

theorem layerArrived_of_layer {h i l : Nat} {ly : LayerSt} {s : State} (hly : layer? s i l = some ly) : layerArrived h i l s =
    if layerTilesSound s (manifestOf s i) ly l
    then finishLoad h (setLayer i l (some { ly with status := 1, rowData := [] }) (writeRows (fun _ _ => true) (manifestOf s i) ly l s))
    else failMetadata h s := by
  have hf : fetched s h i false l = some ly := hly
  rw [layerArrived, hf]
  dsimp only
  cases layerTilesSound s (manifestOf s i) ly l <;> rfl

/-! ### A shard that is lost -/

theorem ReportsOnly.mdl_eq {s t : State} (h : ReportsOnly s t) : t.mdl = s.mdl := by rw [h]

theorem foldl_mdl {α : Type} {f : State → α → State} (hf : ∀ v a, (f v a).mdl = v.mdl) (l : List α) (s : State) : (l.foldl f s).mdl = s.mdl :=
  List.foldlRecOn (motive := fun v : State => v.mdl = s.mdl) l f rfl fun v hv a _ => (hf v a).trans hv

theorem abandonInbound_mdl (i : Inbound) (s : State) : (abandonInbound i s).mdl = s.mdl := by
  unfold abandonInbound
  refine (raiseError_reportsOnly ..).mdl_eq.trans ?_
  show (List.foldl _ (modHch _ s) i.awaiting).mdl = s.mdl
  rw [foldl_mdl (fun _ _ => modSp_mdl _ _)]
  rfl

/-- Renewing the window of peers changes no model. -/
theorem renewShardWindow_mdl (s : State) : (renewShardWindow s).mdl = s.mdl := by
  show (closeWindow 240 s).mdl = s.mdl
  unfold closeWindow
  split
  · rfl
  · exact foldl_mdl (fun v i => abandonInbound_mdl i v) _ _

/-- A binding's change depends on what it makes of the binding alone. -/
theorem modBinding_congr {h : Nat} {u : State} {b : Binding} {f g : Binding → Binding} (hb : binding? u h = some b) (hfg : f b = g b) :
    modBinding h f u = modBinding h g u := by
  rw [modBinding, modBinding, hb]
  exact congrArg (fun x => setBinding h (some x) u) hfg

section
variable {h k st i : Nat} {s : State} {staging : Bool} {ls : List Nat} {b : Binding} (hhost : s.host.state = 2) (hb : binding? s h = some b)
  (hfetch : fetchOf s h = some (i, staging, ls)) (hk : k < Mf.shards (manifestOf s i))
  (hmine : ls.contains (Mf.layerOf (manifestOf s i) (Sh.tensor (Mf.shard (manifestOf s i) k))) = true) (hst : st = 0x0B ∨ st = 0x0C)
  (hnew : ∀ y, fetched s h i staging (Mf.layerOf (manifestOf s i) (Sh.tensor (Mf.shard (manifestOf s i) k))) = some y → y.arrived.contains k = false)
include hhost hb hfetch hk hmine hst hnew

theorem exec_shardTransferFail_of_fetched : exec (.shardTransferFail h k st) s = .next
    (let l := Mf.layerOf (manifestOf s i) (Sh.tensor (Mf.shard (manifestOf s i) k))
     let u := if Sh.source (Mf.shard (manifestOf s i) k) = 2 then renewShardWindow s else s
     let n := match b.swap with | some w => Tbl.get 0 w.retries k | none => Tbl.get 0 b.retries k
     let lim := match b.swap with | some w => w.retryLimit | none => b.retryLimit
     if lim ≤ n then shardLost h l staging u
     else if staging then modSwap h (fun w => { w with retries := Tbl.set 0 w.retries k (n + 1) }) u
     else modBinding h (fun b => { b with retries := Tbl.set 0 b.retries k (n + 1) }) u) := by
  have hgot : ((fetched s h i staging (Mf.layerOf (manifestOf s i) (Sh.tensor (Mf.shard (manifestOf s i) k)))).any fun y => y.arrived.contains k) = false := by
    rw [Option.any_eq_false]
    exact fun y hy => by simpa using hnew y hy
  have hkind : (st == stPoisoned || st == stTimeout) = true := by
    rcases hst with rfl | rfl <;> rfl
  have hwanted : ¬(s.host.state ≠ 2 ∨ Mf.shards (manifestOf s i) ≤ k ∨
      (!ls.contains (Mf.layerOf (manifestOf s i) (Sh.tensor (Mf.shard (manifestOf s i) k)))) = true ∨
      ((fetched s h i staging (Mf.layerOf (manifestOf s i) (Sh.tensor (Mf.shard (manifestOf s i) k)))).any fun y => y.arrived.contains k) = true ∨
      (!(st == stPoisoned || st == stTimeout)) = true) := by
    rw [hmine, hgot, hkind]
    simp [hhost, hk]
  show execShardTransferFail h k st s = _
  unfold execShardTransferFail
  rw [hfetch, hb]
  exact congrArg Host.Outcome.next (if_neg hwanted)

end

/-! ### Deadlines -/

theorem exec_modelDeadlineExpiry_of_load {h : Nat} {s : State} {b : Binding} (hb : binding? s h = some b) (hswap : b.swap = none) :
    exec (.modelDeadlineExpiry h) s = .next (if b.state ≠ 0 ∨ !b.deadline.any (fun t => decide (t ≤ s.now)) then s else
      let ls := ((fetchOf s h).map fun x => x.2.2).getD []
      if ls.isEmpty then finishLoad h s else ls.foldl (fun s l => failLayer h l s) s) := by
  show execModelDeadlineExpiry h s = _
  unfold execModelDeadlineExpiry
  rw [hb]
  dsimp only
  rw [hswap]

theorem exec_modelDeadlineExpiry_of_swap {h : Nat} {s : State} {b : Binding} {w : Swap} (hb : binding? s h = some b) (hswap : b.swap = some w) :
    exec (.modelDeadlineExpiry h) s = .next (if (w.deadline <|> b.deadline).any fun t => decide (t ≤ s.now) then
      (if w.order.drop w.flipped |>.all fun l => (Tbl.get none w.staged l).any fun y => y.status == 3 then s else failSwap h stShardFailed s) else s) := by
  show execModelDeadlineExpiry h s = _
  unfold execModelDeadlineExpiry
  rw [hb]
  dsimp only
  rw [hswap]

/-! ### A staged layer -/

section
variable {h l : Nat} {s : State} {b : Binding} {w : Swap} {ly : LayerSt} (hb : binding? s h = some b) (hswap : b.swap = some w)
  (hhost : s.host.state = 2) (hleft : (w.order.drop w.flipped).contains l = true) (hly : Tbl.get none w.staged l = some ly) (hfresh : ly.status = 0)
include hb hswap hhost hleft hly hfresh

theorem layerStaged_of_update (hkind : w.kind = 1) : layerStaged h l s = commitLayer h l s := by
  have hopen : ¬(s.host.state ≠ 2 ∨ (!(w.order.drop w.flipped).contains l) = true) := by rw [hleft]; simp [hhost]
  rw [layerStaged, hb]
  dsimp only
  rw [hswap]
  dsimp only
  rw [if_neg hopen, if_pos hkind, hly]
  simp only [Option.isNone_some, Bool.false_eq_true, if_false, hb, hswap, Option.bind_some, Option.any_some, hly, hfresh, beq_self_eq_true, if_true]

variable (hkind : w.kind ≠ 1)
include hkind

/-- The zeros of a staged layer stand where the layer that runs has them, where the swap asks for it. -/
def zerosAgree (s : State) (b : Binding) (w : Swap) (ly : LayerSt) (l : Nat) : Bool :=
  let m := manifestOf s w.image
  (fetchedTensors m (w.kind == 5) l).all fun t => w.repairs || !(tiled (Mf.tensor m t) && Ts.masked (Mf.tensor m t)) || (layer? s (b.imageOf l) l).all fun o =>
    zeroPattern (Mf.tensor m t) (tensorBytes s ly t (Ts.stored (Mf.tensor m t))) == zeroPattern (Mf.tensor m t) (storedForm s (manifestOf s (b.imageOf l)) o t)

theorem layerStaged_of_swap : layerStaged h l s =
    if (fetchedShards (manifestOf s w.image) (w.kind == 5) l).all (fun k => ly.arrived.contains k) then
      if layerTilesSound s (manifestOf s w.image) ly l && zerosAgree s b w ly l
      then modSwap h (fun w => { w with staged := Tbl.set none w.staged l (some { ly with status := 3 }) }) s else failSwap h stMetadataFault s
    else s := by
  have hopen : ¬(s.host.state ≠ 2 ∨ (!(w.order.drop w.flipped).contains l) = true) := by rw [hleft]; simp [hhost]
  rw [layerStaged, hb]
  dsimp only
  rw [hswap]
  dsimp only
  rw [if_neg hopen, if_neg hkind, hly]
  dsimp only
  by_cases hall : (fetchedShards (manifestOf s w.image) (w.kind == 5) l).all (fun k => ly.arrived.contains k) = true
  · have hin : ¬(ly.status ≠ 0 ∨ (!(fetchedShards (manifestOf s w.image) (w.kind == 5) l).all (fun k => ly.arrived.contains k)) = true) := by
      rw [hall]
      simp [hfresh]
    rw [if_pos hall, if_neg hin]
    have hsame : ∀ x : Bool, ((!x || !zerosAgree s b w ly l) = true) = ¬(x && zerosAgree s b w ly l) = true := fun x => by
      cases x <;> cases zerosAgree s b w ly l <;> simp
    refine (if_congr (iff_of_eq (hsame _)) rfl rfl).trans ?_
    rw [ite_not]
  · rw [if_neg hall, if_pos (.inr (by simpa using hall))]

end

/-- Settles O43: a shard by what is fetched, a lost one by its retries, a deadline by what waits, a staged layer by what it holds. -/
theorem shardsAndStagedLayersArriveRetryOrFail : Obligations.ShardsAndStagedLayersArriveRetryOrFail := by
  unfold Obligations.ShardsAndStagedLayersArriveRetryOrFail
  refine ⟨fun h k data s i staging ls hhost => ?_, fun h i l ly s hly => ?_, fun h k st s i staging ls b hhost hb => ?_, fun h s b t hb => ?_,
    fun h l s b w ly => ?_⟩
  · intro u m t l r
    have hexec : exec (.shardArrived h k data) s = .next (shardIn h k data u) := congrArg Host.Outcome.next (if_pos hhost)
    rw [hexec]
    refine ⟨fun hnone => ?_, fun hfetch => ⟨fun hls => ?_, fun hne hforeign => ?_, fun ly hk hmine hly hfresh hnew hhome => ?_⟩⟩
    · rw [shardIn, hnone]
    · rw [shardIn_of_none_left hfetch hls]
    · rw [shardIn_of_foreign hfetch rfl hne hforeign]
    · rw [shardIn_of_fetched hfetch rfl hk hmine hly hfresh hnew hhome]
      refine ⟨fun hbad => ?_, fun ps first n hpieces => ?_⟩
      · have hbad' : shardPieces (manifestOf u i) k data = none := hbad
        rw [hbad']
      · have hpieces' : shardPieces (manifestOf u i) k data = some (ps, first, n) := hpieces
        rw [hpieces']
        intro put x y now w
        refine ⟨fun hmore => congrArg Host.Outcome.next (if_neg ?_), fun hdirect hwhole => congrArg Host.Outcome.next (if_pos ?_)⟩
        · rw [Bool.and_eq_true, List.all_eq_true, Bool.not_eq_true']
          rintro ⟨hdirect, hall⟩
          rcases hmore with hstaging | ⟨z, hz, hmissing⟩
          · exact Bool.false_ne_true (hdirect.symm.trans hstaging)
          · exact Bool.false_ne_true (hmissing.symm.trans (hall z hz))
        · rw [hdirect, Bool.not_false, Bool.true_and, List.all_eq_true]
          exact hwhole
  · rw [layerArrived_of_layer hly]
    exact ⟨fun hsound => if_pos hsound, fun hunsound => if_neg (by simp [hunsound])⟩
  · intro m l u hfetch hk hmine hst hnew
    have hu : binding? u h = some b := by
      have hmdl : u.mdl = s.mdl := by
        show (if Sh.source (Mf.shard m k) = 2 then renewShardWindow s else s).mdl = s.mdl
        split
        · exact renewShardWindow_mdl s
        · rfl
      rw [binding?, hmdl]
      exact hb
    rw [exec_shardTransferFail_of_fetched hhost hb hfetch hk hmine hst hnew]
    refine ⟨fun hswap hleft hdirect => ?_, fun hswap hover hdirect => ?_, fun w hswap hleft hstaging => ?_, fun w hswap hover hstaging => ?_⟩
    · subst hdirect
      rw [hswap]
      exact congrArg Host.Outcome.next ((if_neg (Nat.not_le.mpr hleft)).trans (modBinding_congr hu rfl))
    · subst hdirect
      rw [hswap]
      exact congrArg Host.Outcome.next (if_pos hover)
    · subst hstaging
      rw [hswap]
      refine congrArg Host.Outcome.next ((if_neg (Nat.not_le.mpr hleft)).trans (modBinding_congr hu ?_))
      rw [hswap]
      rfl
    · subst hstaging
      rw [hswap]
      exact congrArg Host.Outcome.next (if_pos hover)
  · refine ⟨fun hswap hidle => ?_, fun hswap hstate hdl hdue i ls hfetch => ?_, fun w hswap hdl => ⟨fun hearly => ?_, fun hdue hmissing => ?_, fun hdue hall => ?_⟩⟩
    · rw [exec_modelDeadlineExpiry_of_load hb hswap, if_pos (hidle.imp_right fun hnone => by rw [hnone]; rfl)]
    · have hover : ¬(b.state ≠ 0 ∨ (!b.deadline.any fun t => decide (t ≤ s.now)) = true) := by
        rw [hdl]
        simp [hstate, hdue]
      rw [exec_modelDeadlineExpiry_of_load hb hswap, if_neg hover, hfetch]
      cases ls <;> rfl
    · have hearly' : ¬((some t).any fun t => decide (t ≤ s.now)) = true := by simpa using hearly
      rw [exec_modelDeadlineExpiry_of_swap hb hswap, hdl, if_neg hearly']
    · have hdue' : ((some t).any fun t => decide (t ≤ s.now)) = true := by simpa using hdue
      have hnot : ¬((w.order.drop w.flipped).all fun l => (Tbl.get none w.staged l).any fun y => y.status == 3) = true := by
        rw [List.all_eq_true]
        intro hall
        obtain ⟨l, hl, hnone⟩ := hmissing
        have := hall l hl
        rw [hnone] at this
        exact Bool.false_ne_true this
      rw [exec_modelDeadlineExpiry_of_swap hb hswap, hdl, if_pos hdue', if_neg hnot]
    · have hdue' : ((some t).any fun t => decide (t ≤ s.now)) = true := by simpa using hdue
      have hready : ((w.order.drop w.flipped).all fun l => (Tbl.get none w.staged l).any fun y => y.status == 3) = true := by
        rw [List.all_eq_true]
        intro l hl
        obtain ⟨y, hy, hstatus⟩ := hall l hl
        rw [hy]
        simpa using hstatus
      rw [exec_modelDeadlineExpiry_of_swap hb hswap, hdl, if_pos hdue', if_pos hready]
  · intro u m run same hb hswap hhost hleft hly hfresh
    have hexec : exec (.layerStaged h l) s = .next (idleModels (layerStaged h l u)) := rfl
    rw [hexec]
    refine ⟨fun hkind => ?_, fun hkind hmissing => ?_, fun hkind hall => ⟨fun hsound hsame => ?_, fun hbad => ?_⟩⟩
    · rw [layerStaged_of_update hb hswap hhost hleft hly hfresh hkind]
    · have hnot : ¬((fetchedShards (manifestOf u w.image) (w.kind == 5) l).all fun k => ly.arrived.contains k) = true := by
        rw [List.all_eq_true]
        intro hall
        obtain ⟨k, hk, hno⟩ := hmissing
        exact Bool.false_ne_true (hno.symm.trans (hall k hk))
      rw [layerStaged_of_swap hb hswap hhost hleft hly hfresh hkind, if_neg hnot]
    · have hsound' : (layerTilesSound u (manifestOf u w.image) ly l && zerosAgree u b w ly l) = true := Bool.and_eq_true_iff.mpr ⟨hsound, hsame⟩
      rw [layerStaged_of_swap hb hswap hhost hleft hly hfresh hkind, if_pos (List.all_eq_true.mpr hall), if_pos hsound']
    · have hbad' : ¬(layerTilesSound u (manifestOf u w.image) ly l && zerosAgree u b w ly l) = true := by
        rw [Bool.and_eq_true]
        rintro ⟨hsound, hsame⟩
        exact hbad.elim (fun hno => Bool.false_ne_true (hno.symm.trans hsound)) fun hno => Bool.false_ne_true (hno.symm.trans hsame)
      rw [layerStaged_of_swap hb hswap hhost hleft hly hfresh hkind, if_pos (List.all_eq_true.mpr hall), if_neg hbad']

end Sys2Proof.Machine
end
section
/-! PROOFS. Paged caches: pools, sequences, copies. -/
namespace Sys2Proof.Machine

/-! ### KV_POOL_CONFIG -/

/-- What KV_POOL_CONFIG does with its block. -/
def poolBlock (c : Cmd) (s : State) (bs : List Byte) : State × Ans :=
  let p := poolOf (bindingManifest s (pNum c 0 2)) bs
  if !poolFormOk s (cmdPart c) (bindingManifest s (pNum c 0 2)) bs then refuse stBadCommand s
  else if !geometryOk p then refuse stRefusedFormat s
  else if p.base % p.payload ≠ 0 ∨ !areasInTier p ∨ (pool? s (pNum c 0 2)).isNone && decide (256 ≤ (s.kv.pools.filter fun q => q.2.isSome).length)
  then refuse stRefusedCapacity s
  else match claimAreas (cmdPart c) (poolAreas p) (releasePool (pNum c 0 2) (cmdPart c) s) with
    | none => refuse stRefusedCapacity s
    | some w => done (wrLocal p.base (List.replicate p.payload 0) (modKv (fun k => { k with pools := Tbl.set none k.pools (pNum c 0 2) (some p) }) w))

section
variable {c : Cmd} {s : State} {b : Binding} (hb : myBinding s c (pNum c 0 2) = some b)
include hb

theorem kvPoolConfig_of_own : kvPoolConfig c s = if poolLive s (pNum c 0 2) then refuse stBusy s
    else if pBit c 2 0 then done (releasePool (pNum c 0 2) (cmdPart c) s) else withHost c (pNum c 8 8) 8192 s (poolBlock c s) := by
  unfold kvPoolConfig
  dsimp only
  rw [hb]
  exact if_congr Iff.rfl rfl (if_congr Iff.rfl rfl (congrArg (withHost c (pNum c 8 8) 8192 s) (funext fun bs => by
    unfold poolBlock
    rfl)))

end

theorem poolBlock_of_bad {c : Cmd} {s : State} {bs : List Byte} (hform : poolFormOk s (cmdPart c) (bindingManifest s (pNum c 0 2)) bs = false) : poolBlock c s bs = refuse stBadCommand s := by
  rw [poolBlock, hform]
  rfl

section
variable {c : Cmd} {s : State} {bs : List Byte} {p : Pool} (hp : poolOf (bindingManifest s (pNum c 0 2)) bs = p)
include hp

variable (hform : poolFormOk s (cmdPart c) (bindingManifest s (pNum c 0 2)) bs = true)
include hform

theorem poolBlock_of_geometry (hgeo : geometryOk p = false) : poolBlock c s bs = refuse stRefusedFormat s := by
  subst hp
  rw [poolBlock, if_neg (by simp [hform])]
  exact if_pos (by simp [hgeo])

variable (hgeo : geometryOk p = true)
include hgeo

theorem poolBlock_of_outside (hout : p.base % p.payload ≠ 0 ∨ areasInTier p = false) : poolBlock c s bs = refuse stRefusedCapacity s := by
  subst hp
  rw [poolBlock, if_neg (by simp [hform])]
  refine (if_neg (by simp [hgeo])).trans (if_pos ?_)
  exact hout.imp_right fun h => .inl (by rw [h]; rfl)

theorem poolBlock_of_inside (hbase : p.base % p.payload = 0) (harea : areasInTier p = true)
    (hroom : (∃ q, pool? s (pNum c 0 2) = some q) ∨ (s.kv.pools.filter fun q => q.2.isSome).length < 256) :
    poolBlock c s bs = match claimAreas (cmdPart c) (poolAreas p) (releasePool (pNum c 0 2) (cmdPart c) s) with
      | none => refuse stRefusedCapacity s
      | some w => done (wrLocal p.base (List.replicate p.payload 0) (modKv (fun k => { k with pools := Tbl.set none k.pools (pNum c 0 2) (some p) }) w)) := by
  subst hp
  rw [poolBlock, if_neg (by simp [hform])]
  refine (if_neg (by simp [hgeo])).trans (if_neg ?_)
  rintro (hoff | hout | hfull)
  · exact hoff hbase
  · rw [harea] at hout
    exact Bool.false_ne_true hout
  · rw [Bool.and_eq_true, decide_eq_true_eq] at hfull
    rcases hroom with ⟨q, hq⟩ | hroom
    · rw [hq] at hfull
      exact Bool.false_ne_true hfull.1
    · exact absurd hfull.2 (Nat.not_le.mpr hroom)

end

/-- Settles O45: the pool by its binding and its block, a sequence by whose it is, a copy by the entry that it stands for. -/
theorem pagedCachesAreConfiguredCopiedAndDropped : Obligations.PagedCachesAreConfiguredCopiedAndDropped := by
  unfold Obligations.PagedCachesAreConfiguredCopiedAndDropped
  refine ⟨fun m s b hstarts => ?_, fun m s r q hstarts => ?_, fun m s b p hstarts => ?_, fun m s r q hstarts => ?_, fun k s q => ?_⟩
  · intro c h part a
    have hexec : exec (.kvPoolConfig m) s = .next (answer c (kvPoolConfig c a)) := exec_of_starts hstarts rfl rfl rfl
    rw [hexec]
    refine ⟨fun hnone => ?_, fun hb hlive => ?_, fun hb hdead hrelease => ?_, fun bs hb hdead hblock hgives => ?_⟩
    · have hnone' : myBinding a c (pNum c 0 2) = none := hnone
      rw [kvPoolConfig, hnone']
      rfl
    · have hlive' : poolLive a (pNum c 0 2) = true := hlive
      rw [kvPoolConfig_of_own (s := a) hb, if_pos hlive']
      rfl
    · have hdead' : ¬poolLive a (pNum c 0 2) = true := Bool.eq_false_iff.mp hdead
      rw [kvPoolConfig_of_own (s := a) hb, if_neg hdead', if_pos hrelease]
      rfl
    · intro v f x p
      have hdead' : ¬poolLive a (pNum c 0 2) = true := Bool.eq_false_iff.mp hdead
      rw [kvPoolConfig_of_own (s := a) hb, if_neg hdead', if_neg (Bool.eq_false_iff.mp hblock), withHost_of_gives hgives]
      have hp : poolOf (bindingManifest a (pNum c 0 2)) x = p := rfl
      refine ⟨fun hform => ?_, fun hform hgeo => ?_, fun hform hgeo hout => ?_, fun hform hgeo hbase harea hroom => ⟨fun hnone => ?_, fun w hsome => ?_⟩⟩
      · rw [poolBlock_of_bad (s := a) hform]
        rfl
      · rw [poolBlock_of_geometry hp hform hgeo]
        rfl
      · rw [poolBlock_of_outside hp hform hgeo hout]
        rfl
      · have hnone' : claimAreas (cmdPart c) (poolAreas p) (releasePool (pNum c 0 2) (cmdPart c) a) = none := hnone
        rw [poolBlock_of_inside hp hform hgeo hbase harea hroom, hnone']
        rfl
      · have hsome' : claimAreas (cmdPart c) (poolAreas p) (releasePool (pNum c 0 2) (cmdPart c) a) = some w := hsome
        rw [poolBlock_of_inside hp hform hgeo hbase harea hroom, hsome']
        rfl
  · intro c k a
    have hexec : exec (.kvSeqQuery m) s = .next (answer c (kvSeqQuery c a)) := exec_of_starts hstarts rfl rfl rfl
    rw [hexec]
    refine ⟨fun hnone => ?_, fun hr hq hstate => ⟨fun hother => ?_, fun hown hhost => ?_⟩⟩
    · unfold kvSeqQuery
      rcases hnone with hnone | hnone
      · have hnone' : Tbl.get none a.srv.requests (pNum c 0 4) = none := hnone
        simp only [hnone']
        rfl
      · have hnone' : seqp? a (pNum c 0 4) = none := hnone
        simp only [hnone']
        rcases Tbl.get none a.srv.requests (pNum c 0 4) with _ | r <;> rfl
    · have hr' : Tbl.get none a.srv.requests (pNum c 0 4) = some r := hr
      have hq' : seqp? a (pNum c 0 4) = some q := hq
      have hlive : ¬(r.state == .free) = true := by simpa using hstate
      unfold kvSeqQuery
      simp only [hr', hq', if_neg hlive, if_pos hother]
      rfl
    · have hr' : Tbl.get none a.srv.requests (pNum c 0 4) = some r := hr
      have hq' : seqp? a (pNum c 0 4) = some q := hq
      have hlive : ¬(r.state == .free) = true := by simpa using hstate
      unfold kvSeqQuery
      simp only [hr', hq', if_neg hlive, if_neg (not_not_intro hown)]
      rw [intoHost, if_neg (by simp [hhost])]
      rfl
  · intro c h a
    have hexec : exec (.kvPoolStatus m) s = .next (answer c (kvPoolStatus c a)) := exec_of_starts hstarts rfl rfl rfl
    rw [hexec]
    refine ⟨fun hnone => ?_, fun hb hp hhost => ?_⟩
    · unfold kvPoolStatus
      rcases hnone with hnone | hnone
      · have hnone' : myBinding a c (pNum c 0 2) = none := hnone
        simp only [hnone']
        rfl
      · have hnone' : pool? a (pNum c 0 2) = none := hnone
        simp only [hnone']
        rcases myBinding a c (pNum c 0 2) with _ | x <;> rfl
    · have hb' : myBinding a c (pNum c 0 2) = some b := hb
      have hp' : pool? a (pNum c 0 2) = some p := hp
      unfold kvPoolStatus
      simp only [hb', hp']
      rw [intoHost, if_neg (by simp [hhost])]
      rfl
  · intro c k a
    have hexec : exec (.kvDrop m) s = .next (answer c (kvDrop c a)) := exec_of_starts hstarts rfl rfl rfl
    rw [hexec]
    refine ⟨fun hnone => ?_, fun hr hq hbusy => ?_, fun hr hq hidle => ?_⟩
    · unfold kvDrop
      rcases hnone with hnone | hnone
      · have hnone' : myRequest a c (pNum c 0 4) = none := hnone
        simp only [hnone']
        rfl
      · have hnone' : seqp? a (pNum c 0 4) = none := hnone
        simp only [hnone']
        rcases myRequest a c (pNum c 0 4) with _ | x <;> rfl
    · have hr' : myRequest a c (pNum c 0 4) = some r := hr
      have hq' : seqp? a (pNum c 0 4) = some q := hq
      have hbusy' : inBatch a (pNum c 0 4) = true := hbusy
      unfold kvDrop
      simp only [hr', hq', if_pos hbusy']
      rfl
    · have hr' : myRequest a c (pNum c 0 4) = some r := hr
      have hq' : seqp? a (pNum c 0 4) = some q := hq
      have hidle' : ¬inBatch a (pNum c 0 4) = true := Bool.eq_false_iff.mp hidle
      unfold kvDrop
      simp only [hr', hq', if_neg hidle']
      rfl
  · refine ⟨fun hnone => ?_, fun hq => ?_, fun c e p hq he hp hcopy => ?_⟩
    · show execCowCopyComplete k s = _
      rw [execCowCopyComplete, hnone]
    · show execCowCopyComplete k s = _
      rw [execCowCopyComplete, hq]
    · show execCowCopyComplete k s = _
      rw [execCowCopyComplete, hq]
      dsimp only
      rw [hcopy, List.foldl_cons, List.foldl_nil, copyShared, he, hp]

end Sys2Proof.Machine
end
section
/-! PROOFS. Requests: configuration, classes, submission, input, cancellation, delivery, queries. -/
namespace Sys2Proof.Machine

/-! ### SRV_CONFIG -/

/-- What SRV_CONFIG does with its block. -/
def srvBlock (c : Cmd) (s : State) (bs : List Byte) : State × Ans :=
  if !srvFormOk s (cmdPart c) bs then refuse stBadCommand s
  else if !srvAreasInTier bs ∨ 8388608 < Sc.dedupRows bs * 80 * Sc.pitch bs then refuse stRefusedCapacity s
  else match claimAreas (cmdPart c) (srvAreas bs) (releaseSrv (pNum c 0 2) (cmdPart c) s) with
    | none => refuse stRefusedCapacity s
    | some w => done (modSrv (fun x => { x with configs := Tbl.set none x.configs (pNum c 0 2) (some { block := bs }) }) w)

theorem srvConfig_of_own {c : Cmd} {s : State} {b : Binding} (hb : myBinding s c (pNum c 0 2) = some b) : srvConfig c s =
    if bindingLive s (pNum c 0 2) then refuse stBusy s
    else if pBit c 2 0 then done (releaseSrv (pNum c 0 2) (cmdPart c) s) else withHost c (pNum c 8 8) 4096 s (srvBlock c s) := by
  unfold srvConfig
  dsimp only
  rw [hb]
  refine if_congr Iff.rfl rfl (if_congr Iff.rfl rfl (congrArg (withHost c (pNum c 8 8) 4096 s) (funext fun bs => ?_)))
  unfold srvBlock
  refine if_congr Iff.rfl rfl (if_congr Iff.rfl rfl ?_)
  cases claimAreas (cmdPart c) (srvAreas bs) (releaseSrv (pNum c 0 2) (cmdPart c) s) <;> rfl

theorem srvBlock_of_bad {c : Cmd} {s : State} {bs : List Byte} (hform : srvFormOk s (cmdPart c) bs = false) : srvBlock c s bs = refuse stBadCommand s := by
  rw [srvBlock, hform]
  rfl

section
variable {c : Cmd} {s : State} {bs : List Byte} (hform : srvFormOk s (cmdPart c) bs = true)
include hform

theorem srvBlock_of_outside (hout : srvAreasInTier bs = false ∨ 8388608 < Sc.dedupRows bs * 80 * Sc.pitch bs) :
    srvBlock c s bs = refuse stRefusedCapacity s := by
  have hout' : (!srvAreasInTier bs) = true ∨ 8388608 < Sc.dedupRows bs * 80 * Sc.pitch bs := hout.imp_left fun h => by rw [h]; rfl
  rw [srvBlock, if_neg (by simp [hform]), if_pos hout']

theorem srvBlock_of_inside (harea : srvAreasInTier bs = true) (hrows : Sc.dedupRows bs * 80 * Sc.pitch bs ≤ 8388608) :
    srvBlock c s bs = match claimAreas (cmdPart c) (srvAreas bs) (releaseSrv (pNum c 0 2) (cmdPart c) s) with
      | none => refuse stRefusedCapacity s
      | some w => done (modSrv (fun x => { x with configs := Tbl.set none x.configs (pNum c 0 2) (some { block := bs }) }) w) := by
  have hin : ¬((!srvAreasInTier bs) = true ∨ 8388608 < Sc.dedupRows bs * 80 * Sc.pitch bs) := by
    rw [harea]
    rintro (h | h)
    · exact Bool.false_ne_true h
    · exact absurd h (Nat.not_lt.mpr hrows)
  rw [srvBlock, if_neg (by simp [hform]), if_neg hin]

end

/-! ### SRV_SUBMIT -/

/-- A submission that is refused counts as such. -/
def countRejected (s : State) : State := modSrv (fun x => { x with rejected := satAdd 32 x.rejected 1 }) s

theorem rejectSubmit_eq (st : Nat) (s : State) : rejectSubmit st s = (countRejected s, .done st 0 []) := rfl

/-- A command that starts carries no reserved bit. -/
theorem firstReserved_of_starts {sp : CmdSpec} {m : Mbx} {s : State} (h : Safety.Starts sp m s) : firstReserved sp.allow 48 m.params = none := by
  obtain ⟨-, href⟩ := h
  unfold refusal at href
  split at href
  · cases href
  · assumption

/-- A submission that starts is not counted before it runs. -/
theorem exec_srvSubmit_of_starts {m : Mbx} {s : State} (h : Safety.Starts srvSubmitSpec m s) :
    exec (.srvSubmit m) s = .next (answer (newCmd s 0x0503 m) (srvSubmit (newCmd s 0x0503 m) (takeCmd (newCmd s 0x0503 m) s))) := by
  refine exec_of_starts h ?_ rfl rfl
  have hclean : countReserved m s = s := by
    unfold countReserved
    rw [firstReserved_of_starts h, Option.isSome_none, Bool.and_false]
    rfl
  show Host.Outcome.next (runCmd srvSubmitSpec m (countReserved m s)) = _
  rw [hclean]

section
variable {c : Cmd} {s : State} {b : Binding} {cfg : List Byte} (hb : myBinding s c (pNum c 0 2) = some b) (hcfg : srvOf s (pNum c 0 2) = some cfg)
include hb hcfg

theorem srvSubmit_of_class (hclass : 16 ≤ pByte c 2) : srvSubmit c s = rejectSubmit stBadCommand s := by
  unfold srvSubmit
  simp only [hb, hcfg, if_pos hclass]

variable (hclass : pByte c 2 < 16)
include hclass

theorem srvSubmit_of_buffers (hbuf : hostOk s c (pNum c 16 8) (pNum c 12 4 * recUnit cfg) = false ∨ hostOk s c (pNum c 24 8) (pNum c 32 4) = false) :
    srvSubmit c s = rejectSubmit stNotPermitted s := by
  have hbad : (!hostOk s c (pNum c 16 8) (pNum c 12 4 * recUnit cfg) || !hostOk s c (pNum c 24 8) (pNum c 32 4)) = true := by
    rcases hbuf with h | h <;> simp [h]
  unfold srvSubmit
  simp only [hb, hcfg, if_neg (Nat.not_le.mpr hclass), if_pos hbad]

variable (hin : hostOk s c (pNum c 16 8) (pNum c 12 4 * recUnit cfg) = true) (hout : hostOk s c (pNum c 24 8) (pNum c 32 4) = true)
include hin hout

theorem srvSubmit_of_decoding (hsingle : Sc.single cfg = false) : srvSubmit c s = admitSubmit c (pNum c 0 2) b cfg [] s := by
  unfold srvSubmit
  simp only [hb, hcfg, if_neg (Nat.not_le.mpr hclass), hin, hout, hsingle, Bool.not_true, Bool.or_self, Bool.false_eq_true, if_false, Bool.not_false, if_true]

theorem srvSubmit_of_bags {bs : List Byte} (hsingle : Sc.single cfg = true) (hhost : c.m.host = .ok bs) : srvSubmit c s =
    if (bagsOf (padTo (pNum c 12 4 * recUnit cfg) bs)).all (bagOk cfg)
    then admitSubmit c (pNum c 0 2) b cfg (bagsOf (padTo (pNum c 12 4 * recUnit cfg) bs)) s else rejectSubmit stBadCommand s := by
  unfold srvSubmit
  simp only [hb, hcfg, if_neg (Nat.not_le.mpr hclass), hin, hout, hsingle, hhost, Bool.not_true, Bool.or_self, Bool.false_eq_true, if_false]

theorem srvSubmit_of_unread {st : Nat} (hsingle : Sc.single cfg = true) (hhost : hostStatus c.m.host = some st) :
    srvSubmit c s = rejectSubmit st (countRead st s) := by
  unfold srvSubmit
  simp only [hb, hcfg, if_neg (Nat.not_le.mpr hclass), hin, hout, hsingle, Bool.not_true, Bool.or_self, Bool.false_eq_true, if_false]
  cases hread : c.m.host with
  | ok bs => rw [hread] at hhost; cases hhost
  | error => rw [hread] at hhost; cases hhost; rfl
  | timeout => rw [hread] at hhost; cases hhost; rfl
  | refused => rw [hread] at hhost; cases hhost; rfl

end

theorem req_modReq_same (k : Nat) (g : Request → Request) (s : State) : req (modReq k g s) k = g (req s k) := Tbl.opt_set_same ..

/-- Beginning a turn leaves a request in its state. -/
theorem state_beginTurn (k : Nat) (c : Cmd) (n : Nat) (bags : List Bag) (s : State) : (req (beginTurn k c n bags s) k).state = (req s k).state := by
  rw [beginTurn, req_modReq_same]
  rfl

/-- The names that a submission gives of a request and of a prefix. -/
def namedReq (c : Cmd) (s : State) : Nat ⊕ Option Nat :=
  if pNum c 4 4 = 0xFFFFFFFF then .inr none else match findReq s (cmdPart c) (pNum c 4 4) with
    | .inl st => .inl st
    | .inr k => if (req s k).binding = pNum c 0 2 then .inr (some k) else .inl stBadCommand

def namedPrefix (c : Cmd) (cfg : List Byte) (s : State) : Nat ⊕ Option Prefix :=
  if pNum c 8 4 = 0xFFFFFFFF then .inr none else match findPrefix s (cmdPart c) (pNum c 8 4) with
    | .inl st => .inl st
    | .inr x => if x.binding = pNum c 0 2 ∧ pNum c 4 4 = 0xFFFFFFFF ∧ !Sc.single cfg then .inr (some x) else .inl stBadCommand

/-- The positions that a submission builds on. -/
def heldPositions (slot : Option Nat) (pre : Option Prefix) (s : State) : Nat :=
  match slot, pre with
  | some k, _ => (req s k).inputs
  | none, some x => x.positions
  | none, none => 0

/-- A request that is in a turn, or parked and to be restored already. -/
def turnBusy (s : State) (k : Nat) : Bool := !((req s k).state == .idle || ((req s k).state == .parked && !(req s k).wantUnpark))

/-- A submission that nothing refuses begins its turn, or finds no slot. -/
def admitTurn (c : Cmd) (bags : List Bag) (slot : Option Nat) (pre : Option Prefix) (s : State) : State × Ans :=
  match slot with
  | some k =>
    let s := beginTurn k c (pNum c 12 4) [] s
    let s := if (req s k).state == .parked then (startUnpark k s).getD (countDeferred (modReq k (fun r => { r with wantUnpark := true }) s))
      else modReq k (fun r => { r with state := .waiting }) s
    doneWith (leBytes 4 (reqId s k)) s
  | none =>
    if 262144 ≤ (liveSlots s).length ∨ ((part? s (cmdPart c)).map Part.reqLimit).getD 0 ≤ partLive s (cmdPart c) then rejectSubmit stNoResource s
    else
      let k := firstGap (liveSlots s) 0
      let s := beginTurn k c (pNum c 12 4) bags (newReq k (pNum c 0 2) c pre s)
      doneWith (leBytes 4 (reqId s k)) s

/-- A submission whose request and prefix are what they should be. -/
def admitNamed (c : Cmd) (b : Binding) (cfg : List Byte) (bags : List Bag) (slot : Option Nat) (pre : Option Prefix) (s : State) : State × Ans :=
  if slot.any (turnBusy s) then rejectSubmit stBusy s
  else if b.state = 0 then rejectSubmit stBusy s
  else if b.state = 1 then rejectSubmit stShardFailed s
  else if b.state = 4 then rejectSubmit stModelMixed s
  else if pre.any Prefix.poisoned then rejectSubmit stPoisoned s
  else if !Sc.single cfg && decide (16777215 < heldPositions slot pre s + pNum c 12 4 + pNum c 36 4) then rejectSubmit stLengthLimit s
  else admitTurn c bags slot pre s

theorem admitSubmit_eq (c : Cmd) (b : Binding) (cfg : List Byte) (bags : List Bag) (s : State) : admitSubmit c (pNum c 0 2) b cfg bags s =
    match namedReq c s, namedPrefix c cfg s with
    | .inl st, _ => rejectSubmit st s
    | _, .inl st => rejectSubmit st s
    | .inr slot, .inr pre => admitNamed c b cfg bags slot pre s := by
  unfold admitSubmit namedReq namedPrefix
  dsimp only
  rfl

section
variable {c : Cmd} {b : Binding} {cfg : List Byte} {bags : List Bag} {s : State}

theorem admitSubmit_of_unnamed {st : Nat} (hid : pNum c 4 4 ≠ 0xFFFFFFFF) (hfind : findReq s (cmdPart c) (pNum c 4 4) = .inl st) :
    admitSubmit c (pNum c 0 2) b cfg bags s = rejectSubmit st s := by
  have hslot : namedReq c s = .inl st := by rw [namedReq, if_neg hid, hfind]
  rw [admitSubmit_eq, hslot]

theorem admitSubmit_of_named {slot : Option Nat} {pre : Option Prefix} (hslot : namedReq c s = .inr slot) (hpre : namedPrefix c cfg s = .inr pre) :
    admitSubmit c (pNum c 0 2) b cfg bags s = admitNamed c b cfg bags slot pre s := by
  rw [admitSubmit_eq, hslot, hpre]

theorem namedReq_none (hid : pNum c 4 4 = 0xFFFFFFFF) : namedReq c s = .inr none := if_pos hid

theorem namedReq_of_own {k : Nat} (hid : pNum c 4 4 ≠ 0xFFFFFFFF) (hfind : findReq s (cmdPart c) (pNum c 4 4) = .inr k)
    (hbound : (req s k).binding = pNum c 0 2) : namedReq c s = .inr (some k) := by
  rw [namedReq, if_neg hid, hfind]
  exact if_pos hbound

theorem namedPrefix_none (hpre : pNum c 8 4 = 0xFFFFFFFF) : namedPrefix c cfg s = .inr none := if_pos hpre

theorem namedPrefix_of_own {x : Prefix} (hid : pNum c 4 4 = 0xFFFFFFFF) (hpre : pNum c 8 4 ≠ 0xFFFFFFFF)
    (hfind : findPrefix s (cmdPart c) (pNum c 8 4) = .inr x) (hbound : x.binding = pNum c 0 2) (hsingle : Sc.single cfg = false) :
    namedPrefix c cfg s = .inr (some x) := by
  rw [namedPrefix, if_neg hpre, hfind]
  exact if_pos ⟨hbound, hid, by rw [hsingle]; rfl⟩

variable {slot : Option Nat} {pre : Option Prefix}

theorem admitNamed_of_busy (hbusy : slot.any (turnBusy s) = true) : admitNamed c b cfg bags slot pre s = rejectSubmit stBusy s := by
  rw [admitNamed, if_pos hbusy]

variable (hidle : slot.any (turnBusy s) = false)
include hidle

theorem admitNamed_of_loading (hstate : b.state = 0) : admitNamed c b cfg bags slot pre s = rejectSubmit stBusy s := by
  rw [admitNamed, if_neg (Bool.eq_false_iff.mp hidle), if_pos hstate]

theorem admitNamed_of_incomplete (hstate : b.state = 1) : admitNamed c b cfg bags slot pre s = rejectSubmit stShardFailed s := by
  rw [admitNamed, if_neg (Bool.eq_false_iff.mp hidle), if_neg (by omega), if_pos hstate]

theorem admitNamed_of_mixed (hstate : b.state = 4) : admitNamed c b cfg bags slot pre s = rejectSubmit stModelMixed s := by
  rw [admitNamed, if_neg (Bool.eq_false_iff.mp hidle), if_neg (by omega), if_neg (by omega), if_pos hstate]

variable (h0 : b.state ≠ 0) (h1 : b.state ≠ 1) (h4 : b.state ≠ 4)
include h0 h1 h4

theorem admitNamed_of_poisoned (hpoison : pre.any Prefix.poisoned = true) : admitNamed c b cfg bags slot pre s = rejectSubmit stPoisoned s := by
  rw [admitNamed, if_neg (Bool.eq_false_iff.mp hidle), if_neg h0, if_neg h1, if_neg h4, if_pos hpoison]

variable (hclean : pre.any Prefix.poisoned = false)
include hclean

theorem admitNamed_of_long (hsingle : Sc.single cfg = false) (hlong : 16777215 < heldPositions slot pre s + pNum c 12 4 + pNum c 36 4) :
    admitNamed c b cfg bags slot pre s = rejectSubmit stLengthLimit s := by
  rw [admitNamed, if_neg (Bool.eq_false_iff.mp hidle), if_neg h0, if_neg h1, if_neg h4, if_neg (Bool.eq_false_iff.mp hclean), if_pos]
  rw [hsingle, decide_eq_true hlong]
  rfl

theorem admitNamed_of_fit (hfit : heldPositions slot pre s + pNum c 12 4 + pNum c 36 4 ≤ 16777215) :
    admitNamed c b cfg bags slot pre s = admitTurn c bags slot pre s := by
  rw [admitNamed, if_neg (Bool.eq_false_iff.mp hidle), if_neg h0, if_neg h1, if_neg h4, if_neg (Bool.eq_false_iff.mp hclean), if_neg]
  rw [decide_eq_false (Nat.not_lt.mpr hfit), Bool.and_false]
  exact Bool.false_ne_true

end

section
variable {c : Cmd} {bags : List Bag} {s : State} {pre : Option Prefix}

theorem admitTurn_of_full (hfull : 262144 ≤ (liveSlots s).length ∨ ((part? s (cmdPart c)).map Part.reqLimit).getD 0 ≤ partLive s (cmdPart c)) :
    admitTurn c bags none pre s = rejectSubmit stNoResource s := if_pos hfull

theorem admitTurn_of_room (hslots : (liveSlots s).length < 262144) (hlimit : partLive s (cmdPart c) < ((part? s (cmdPart c)).map Part.reqLimit).getD 0) :
    admitTurn c bags none pre s =
      let k := firstGap (liveSlots s) 0
      let u := beginTurn k c (pNum c 12 4) bags (newReq k (pNum c 0 2) c pre s)
      doneWith (leBytes 4 (reqId u k)) u :=
  if_neg (by omega)

theorem admitTurn_of_parked {k : Nat} (hstate : (req s k).state = .parked) : admitTurn c bags (some k) pre s =
    let t := beginTurn k c (pNum c 12 4) [] s
    let u := (startUnpark k t).getD (countDeferred (modReq k (fun r => { r with wantUnpark := true }) t))
    doneWith (leBytes 4 (reqId u k)) u := by
  have hparked : ((req (beginTurn k c (pNum c 12 4) [] s) k).state == .parked) = true := by rw [state_beginTurn, hstate]; rfl
  unfold admitTurn
  dsimp only
  rw [if_pos hparked]

theorem admitTurn_of_idle {k : Nat} (hstate : (req s k).state = .idle) : admitTurn c bags (some k) pre s =
    let u := modReq k (fun r => { r with state := .waiting }) (beginTurn k c (pNum c 12 4) [] s)
    doneWith (leBytes 4 (reqId u k)) u := by
  have hidle : ¬((req (beginTurn k c (pNum c 12 4) [] s) k).state == .parked) = true := by rw [state_beginTurn, hstate]; decide
  unfold admitTurn
  dsimp only
  rw [if_neg hidle]

end

/-! ### Input, cancellation, delivery -/

section
variable {k : Nat} {data : HostRead} {s : State} (hlive : (req s k).live = true) (hfresh : (req s k).copied = false) (hstate : (req s k).state ≠ .ending)
include hlive hfresh hstate

theorem inputCopied_of_failed {st : Nat} (hfail : enabled s (req s k).turnFunc = false ∧ st = 0x0A ∨ enabled s (req s k).turnFunc = true ∧ hostStatus data = some st) :
    inputCopied k data s = if (req s k).state == .waiting then endTurn k st (countRead st s) else endReq k st (countRead st s) := by
  have hopen : ¬(!(req s k).live || (req s k).copied || (req s k).state == .ending) = true := by
    rw [hlive, hfresh]
    simpa using hstate
  unfold inputCopied
  dsimp only
  rw [if_neg hopen]
  rcases hfail with ⟨hoff, rfl⟩ | ⟨hon, hstatus⟩
  · rw [hoff]
    rfl
  · rw [hon, if_pos rfl, hstatus]
    rfl

theorem inputCopied_of_read {bs : List Byte} {t : Option State} (hon : enabled s (req s k).turnFunc = true)
    (hext : extendRecord k (padTo ((req s k).inputs * recUnit (reqCfg s k) - (req s k).record.length) bs) s = t) :
    inputCopied k (.ok bs) s = (t.map (modReq k fun r => { r with copied := true })).getD (countDeferred s) := by
  have hopen : ¬(!(req s k).live || (req s k).copied || (req s k).state == .ending) = true := by
    rw [hlive, hfresh]
    simpa using hstate
  have hnone : ((none : Option Nat) <|> hostStatus (.ok bs)) = none := rfl
  unfold inputCopied
  dsimp only
  rw [if_neg hopen, hon, if_pos rfl, hnone]
  dsimp only
  rw [hext]
  cases t <;> rfl

end

theorem srvCancel_of_own {c : Cmd} {s : State} {k : Nat} (hfind : findReq s (cmdPart c) (pNum c 0 4) = .inr k) : srvCancel c s =
    if (req s k).state == .ending then done s
    else if stepping s then later s
    else
      let n := modSrv (fun x => { x with cancelled := satAdd 32 x.cancelled 1 }) s
      done (endReq k (if (req s k).inTurn then stAbortedCancel else stOk)
        (if (req s k).inTurn then modClassStat k (fun x => { x with turns := satAdd 32 x.turns 1 }) n else n)) := by
  unfold srvCancel applyCancel
  simp only [hfind]
  by_cases hending : ((req s k).state == .ending) = true
  · simp only [if_pos hending]
  · simp only [if_neg hending]

theorem exec_outputDelivery_of_cons {k : Nat} {s : State} {d : List Byte × Nat} {ds : List (List Byte × Nat)} (hd : (req s k).deliveries = d :: ds) :
    exec (.outputDelivery k) s = .next (
      let r := req s k
      let put := writeHost r.turnFunc (r.outAddr + (r.outUsed - (ds.map fun x => x.1.length).sum - d.1.length)) d.1 false s
      let on := enabled s r.turnFunc
      let w := modReq k (fun r => { r with deliveries := ds, delivered := r.delivered + d.2 }) (if on then put else countDropped 1 put)
      checkFree k (if r.progress && on then raiseTo 0x0502 r.part [.func r.func] (fields4 [reqId w k, r.delivered + d.2]) w else w)) := by
  show execOutputDelivery k s = _
  unfold execOutputDelivery
  dsimp only
  rw [hd]

/-- Settles O46: each command and event by what it names, a submission by the order of its checks. -/
theorem requestsAreConfiguredSubmittedCancelledAndDelivered : Obligations.RequestsAreConfiguredSubmittedCancelledAndDelivered := by
  unfold Obligations.RequestsAreConfiguredSubmittedCancelledAndDelivered
  refine ⟨fun m s b bs hstarts => ?_, fun m s hstarts => ?_, fun m s i hcan hres => ?_, fun m s b cfg hstarts => ?_, fun k data s => ?_,
    fun m s k st hstarts => ?_, fun k s d ds => ?_, fun m s k st hstarts => ?_⟩
  · intro c h part a x v
    have hexec : exec (.srvConfig m) s = .next (answer c (srvConfig c a)) := exec_of_starts hstarts rfl rfl rfl
    rw [hexec]
    refine ⟨fun hnone => ?_, fun hb hlive => ?_, fun hb hdead hrelease => ?_, fun hb hdead hblock hgives => ?_⟩
    · have hnone' : myBinding a c (pNum c 0 2) = none := hnone
      rw [srvConfig, hnone']
      rfl
    · have hlive' : bindingLive a (pNum c 0 2) = true := hlive
      rw [srvConfig_of_own (s := a) hb, if_pos hlive']
      rfl
    · have hdead' : ¬bindingLive a (pNum c 0 2) = true := Bool.eq_false_iff.mp hdead
      rw [srvConfig_of_own (s := a) hb, if_neg hdead', if_pos hrelease]
      rfl
    · have hdead' : ¬bindingLive a (pNum c 0 2) = true := Bool.eq_false_iff.mp hdead
      rw [srvConfig_of_own (s := a) hb, if_neg hdead', if_neg (Bool.eq_false_iff.mp hblock), withHost_of_gives hgives]
      refine ⟨fun hform => ?_, fun hform hout => ?_, fun hform harea hrows => ⟨fun hnone => ?_, fun w hsome => ?_⟩⟩
      · rw [srvBlock_of_bad (s := a) hform]
        rfl
      · rw [srvBlock_of_outside (s := a) hform hout]
        rfl
      · have hnone' : claimAreas (cmdPart c) (srvAreas (padTo 4096 bs)) (releaseSrv (pNum c 0 2) (cmdPart c) a) = none := hnone
        rw [srvBlock_of_inside (s := a) hform harea hrows, hnone']
        rfl
      · have hsome' : claimAreas (cmdPart c) (srvAreas (padTo 4096 bs)) (releaseSrv (pNum c 0 2) (cmdPart c) a) = some w := hsome
        rw [srvBlock_of_inside (s := a) hform harea hrows, hsome']
        rfl
  · intro c a
    have hexec : exec (.srvClass m) s = .next (answer c (srvClass c a)) := exec_of_starts hstarts rfl rfl rfl
    rw [hexec, srvClass]
    refine ⟨fun hbad => ?_, fun hok hsteps => ?_, fun hok hidle => ?_⟩
    · rw [hbad]
      rfl
    · rw [hok, if_neg (by simp), if_pos (c := stepping a = true) hsteps]
      rfl
    · rw [hok, if_neg (by simp), if_neg (c := stepping a = true) (Bool.eq_false_iff.mp hidle)]
      rfl
  · have hcount : countReserved m s = countRejected s := by
      unfold countReserved
      rw [hcan, hres]
      rfl
    show Host.Outcome.next (runCmd srvSubmitSpec m (countReserved m s)) = _
    rw [hcount]
    rfl
  · intro c h p n a rej
    have hexec : exec (.srvSubmit m) s = .next (answer c (srvSubmit c a)) := exec_srvSubmit_of_starts hstarts
    rw [hexec]
    refine ⟨fun hnone => ?_, fun hb hcfg hclass => ?_, fun hb hcfg hclass => ⟨fun hbuf => ?_, fun hin hout => ?_⟩⟩
    · unfold srvSubmit
      rcases hnone with hnone | hnone
      · have hnone' : myBinding a c (pNum c 0 2) = none := hnone
        simp only [hnone']
        rfl
      · have hnone' : srvOf a (pNum c 0 2) = none := hnone
        simp only [hnone']
        rcases myBinding a c (pNum c 0 2) with _ | x <;> rfl
    · rw [srvSubmit_of_class (s := a) hb hcfg hclass]
      rfl
    · rw [srvSubmit_of_buffers (s := a) hb hcfg hclass hbuf]
      rfl
    · refine ⟨fun bs hsingle hhost => ?_, fun st hsingle hhost => ?_, fun hsingle => ?_⟩
      · rw [srvSubmit_of_bags (s := a) hb hcfg hclass hin hout hsingle hhost]
        intro bags
        show Host.Outcome.next (answer c (if bags.all (bagOk cfg) = true then _ else _)) = _
        split <;> rfl
      · rw [srvSubmit_of_unread (s := a) hb hcfg hclass hin hout hsingle hhost]
        rfl
      · rw [srvSubmit_of_decoding (s := a) hb hcfg hclass hin hout hsingle]
        intro id
        refine ⟨fun st hid hfind => ?_, fun hid hpre => ⟨fun h0 => ?_, fun h1 => ?_, fun h4 => ?_, fun h0 h1 h4 hlong => ?_, fun h0 h1 h4 hfit =>
            ⟨fun hfull => ?_, fun hslots hlimit => ?_⟩⟩,
          fun x hid hpre hfind hbound h0 h1 h4 => ⟨fun hpoison => ?_, fun hclean hfit hslots hlimit => ?_⟩,
          fun k hid hfind hbound hpre => ⟨fun hidle hparked => ?_, fun hparked hwant h0 h1 h4 hfit => ?_, fun hidle h0 h1 h4 hfit => ?_⟩⟩
        · rw [admitSubmit_of_unnamed (s := a) hid hfind]
          rfl
        · rw [admitSubmit_of_named (s := a) (namedReq_none hid) (namedPrefix_none hpre), admitNamed_of_loading rfl h0]
          rfl
        · rw [admitSubmit_of_named (s := a) (namedReq_none hid) (namedPrefix_none hpre), admitNamed_of_incomplete rfl h1]
          rfl
        · rw [admitSubmit_of_named (s := a) (namedReq_none hid) (namedPrefix_none hpre), admitNamed_of_mixed rfl h4]
          rfl
        · have hlong' : 16777215 < heldPositions none none a + pNum c 12 4 + pNum c 36 4 := by
            rw [heldPositions, Nat.zero_add]
            exact hlong
          rw [admitSubmit_of_named (s := a) (namedReq_none hid) (namedPrefix_none hpre), admitNamed_of_long rfl h0 h1 h4 rfl hsingle hlong']
          rfl
        · have hfit' : heldPositions none none a + pNum c 12 4 + pNum c 36 4 ≤ 16777215 := by
            rw [heldPositions, Nat.zero_add]
            exact hfit
          rw [admitSubmit_of_named (s := a) (namedReq_none hid) (namedPrefix_none hpre), admitNamed_of_fit rfl h0 h1 h4 rfl hfit', admitTurn_of_full (s := a) hfull]
          rfl
        · have hfit' : heldPositions none none a + pNum c 12 4 + pNum c 36 4 ≤ 16777215 := by
            rw [heldPositions, Nat.zero_add]
            exact hfit
          rw [admitSubmit_of_named (s := a) (namedReq_none hid) (namedPrefix_none hpre), admitNamed_of_fit rfl h0 h1 h4 rfl hfit', admitTurn_of_room (s := a) hslots hlimit]
          rfl
        · rw [admitSubmit_of_named (s := a) (namedReq_none hid) (namedPrefix_of_own hid hpre hfind hbound hsingle), admitNamed_of_poisoned (pre := some x) (slot := none) rfl h0 h1 h4 hpoison]
          rfl
        · rw [admitSubmit_of_named (s := a) (namedReq_none hid) (namedPrefix_of_own hid hpre hfind hbound hsingle), admitNamed_of_fit (s := a) (pre := some x) (slot := none) rfl h0 h1 h4 hclean hfit,
            admitTurn_of_room (s := a) hslots hlimit]
          rfl
        · have hbusy : (some k).any (turnBusy a) = true := by
            have hstate : ((req a k).state == .idle) = false := beq_eq_false_iff_ne.mpr hidle
            rw [Option.any_some, turnBusy, hstate, Bool.false_or, Bool.not_eq_true']
            rcases hparked with hstate | hwant
            · rw [beq_eq_false_iff_ne.mpr (show (req a k).state ≠ .parked from hstate), Bool.false_and]
            · rw [show (req a k).wantUnpark = true from hwant, Bool.not_true, Bool.and_false]
          rw [admitSubmit_of_named (s := a) (namedReq_of_own hid hfind hbound) (namedPrefix_none hpre), admitNamed_of_busy hbusy]
          rfl
        · have hfree : (some k).any (turnBusy a) = false := by
            rw [Option.any_some, turnBusy, show (req a k).state = .parked from hparked, show (req a k).wantUnpark = false from hwant]
            rfl
          rw [admitSubmit_of_named (s := a) (namedReq_of_own hid hfind hbound) (namedPrefix_none hpre), admitNamed_of_fit (s := a) hfree h0 h1 h4 rfl hfit,
            admitTurn_of_parked (s := a) hparked]
          rfl
        · have hfree : (some k).any (turnBusy a) = false := by
            rw [Option.any_some, turnBusy, show (req a k).state = .idle from hidle]
            rfl
          rw [admitSubmit_of_named (s := a) (namedReq_of_own hid hfind hbound) (namedPrefix_none hpre), admitNamed_of_fit (s := a) hfree h0 h1 h4 rfl hfit,
            admitTurn_of_idle (s := a) hidle]
          rfl
  · intro r
    have hexec : exec (.inputCopyComplete k data) s = .next (inputCopied k data s) := rfl
    rw [hexec]
    refine ⟨fun hover => ?_, fun hlive hfresh hstate => ⟨fun st hfail => ⟨fun hwaiting => ?_, fun hmoving => ?_⟩, fun bs t hon hdata hext => ?_,
      fun bs hon hdata hext => ?_⟩⟩
    · have hshut : (!(req s k).live || (req s k).copied || (req s k).state == .ending) = true := by
        rcases hover with hdead | hcopied | hending
        · rw [show (req s k).live = false from hdead]
          rfl
        · rw [show (req s k).copied = true from hcopied, Bool.or_true]
          rfl
        · rw [show (req s k).state = .ending from hending, beq_self_eq_true, Bool.or_true]
      unfold inputCopied
      dsimp only
      rw [if_pos hshut]
    · rw [inputCopied_of_failed hlive hfresh hstate hfail, if_pos (beq_iff_eq.mpr hwaiting)]
    · have hmoving' : ¬((req s k).state == .waiting) = true := by simpa using hmoving
      rw [inputCopied_of_failed hlive hfresh hstate hfail, if_neg hmoving']
    · subst hdata
      rw [inputCopied_of_read hlive hfresh hstate hon hext]
      rfl
    · subst hdata
      rw [inputCopied_of_read hlive hfresh hstate hon hext]
      rfl
  · intro c a p r n
    have hexec : exec (.srvCancel m) s = .next (answer c (srvCancel c a)) := exec_of_starts hstarts rfl rfl rfl
    rw [hexec]
    refine ⟨fun hnone => ?_, fun hfind => ?_⟩
    · have hnone' : findReq a (cmdPart c) (pNum c 0 4) = .inl st := hnone
      rw [srvCancel, hnone']
      rfl
    · rw [srvCancel_of_own (s := a) hfind]
      refine ⟨fun hending => ?_, fun hgoing hsteps => ?_, fun hgoing hidle => ⟨fun hturn => ?_, fun hturn => ?_⟩⟩
      · have hending' : ((req a k).state == .ending) = true := beq_iff_eq.mpr hending
        rw [if_pos hending']
        rfl
      · have hgoing' : ¬((req a k).state == .ending) = true := fun hending => hgoing (beq_iff_eq.mp hending)
        rw [if_neg hgoing', if_pos (c := stepping a = true) hsteps]
        rfl
      · have hgoing' : ¬((req a k).state == .ending) = true := fun hending => hgoing (beq_iff_eq.mp hending)
        have hturn' : (req a k).inTurn = true := hturn
        rw [if_neg hgoing', if_neg (c := stepping a = true) (Bool.eq_false_iff.mp hidle), hturn']
        rfl
      · have hgoing' : ¬((req a k).state == .ending) = true := fun hending => hgoing (beq_iff_eq.mp hending)
        have hturn' : (req a k).inTurn = false := hturn
        rw [if_neg hgoing', if_neg (c := stepping a = true) (Bool.eq_false_iff.mp hidle), hturn']
        rfl
  · intro r
    refine ⟨fun hnil => ?_, fun hd => ?_⟩
    · have hnil' : (req s k).deliveries = [] := hnil
      show execOutputDelivery k s = _
      unfold execOutputDelivery
      dsimp only
      rw [hnil']
    · intro put note
      rw [exec_outputDelivery_of_cons hd]
      refine ⟨fun hoff => ?_, fun hon hquiet => ?_, fun hon hprogress => ?_⟩
      · have hoff' : enabled s (req s k).turnFunc = false := hoff
        dsimp only
        rw [hoff', Bool.and_false]
        rfl
      · have hon' : enabled s (req s k).turnFunc = true := hon
        have hquiet' : (req s k).progress = false := hquiet
        dsimp only
        rw [hon', hquiet']
        rfl
      · have hon' : enabled s (req s k).turnFunc = true := hon
        have hprogress' : (req s k).progress = true := hprogress
        dsimp only
        rw [hon', hprogress']
        rfl
  · intro c a r
    have hexec : exec (.srvQuery m) s = .next (answer c (srvQuery c a)) := exec_of_starts hstarts rfl rfl rfl
    rw [hexec]
    refine ⟨fun hnone => ?_, fun hfind hhost => ?_⟩
    · have hnone' : findReq a (cmdPart c) (pNum c 0 4) = .inl st := hnone
      rw [srvQuery, hnone']
      rfl
    · have hfind' : findReq a (cmdPart c) (pNum c 0 4) = .inr k := hfind
      rw [srvQuery, hfind']
      dsimp only
      rw [intoHost, if_neg (by simp [hhost])]
      rfl

end Sys2Proof.Machine
end
section
/-! PROOFS. Requests that park, come back and expire; prefixes. -/
namespace Sys2Proof.Machine

/-! ### Parking and restoring -/

theorem srvPark_of_idle {c : Cmd} {s : State} {k : Nat} (hfind : findReq s (cmdPart c) (pNum c 0 4) = .inr k) (htier : pByte c 4 ≤ 1)
    (hlo : 1 ≤ pNum c 8 4) (hhi : pNum c 8 4 ≤ 1000000) : srvPark c s =
    if (req s k).state != .idle then refuse stBusy s
    else if stepping s then later s
    else match takeParks (req s k).binding (pByte c 4 == 1) (Sc.parkBlocks (reqCfg s k)) (parkKeys s k) s with
      | none => refuse stNoResource s
      | some a => done (modReq k (fun r =>
          { r with state := .parking, moves := a.1, moved := false, parkDest := pByte c 4, parkStart := rack s, parkTtl := pNum c 8 4 }) a.2) := by
  have hgood : ¬(1 < pByte c 4 ∨ pNum c 8 4 = 0 ∨ 1000000 < pNum c 8 4) := by omega
  unfold srvPark applyPark
  simp only [hfind, if_neg hgood]
  generalize takeParks (req s k).binding (pByte c 4 == 1) (Sc.parkBlocks (reqCfg s k)) (parkKeys s k) s = got
  by_cases hbusy : ((req s k).state != .idle) = true
  · simp only [if_pos hbusy]
  · cases got <;> simp only [if_neg hbusy]

section
variable {k : Nat} {s : State} {q : SeqPages} {p : Pool} (hq : seqp? s k = some q) (hp : pool? s (req s k).binding = some p)
include hq hp

theorem exec_parkMoveComplete_of_pages : exec (.parkMoveComplete k) s = .next
    (if (req s k).state != .parking || (req s k).moved then s else movesDone k ((req s k).moves.foldl (fun s m => parkOne k q p m s) s)) := by
  show execParkMoveComplete k s = _
  unfold execParkMoveComplete
  simp only [hq, hp]

theorem exec_unparkComplete_of_pages (data : HostRead) : exec (.unparkComplete k data) s = .next
    (if (req s k).state != .unparking || (req s k).moved then s else
      let moves := (req s k).moves.mapIdx fun i m => (i, m)
      if (req s k).parkDest != 1 then movesDone k (moves.foldl (fun s x => unparkOne k q p none x s) s)
      else match data with
        | .ok bs => movesDone k (moves.foldl (fun s x => unparkOne k q p (some bs) x s) s)
        | h => dropReq k (countRead ((hostStatus h).getD stOk) s)) := by
  show execUnparkComplete k data s = _
  unfold execUnparkComplete
  cases data <;> simp only [hq, hp]

end

/-! ### Prefixes -/

theorem srvPrefixCreate_of_own {c : Cmd} {s : State} {k : Nat} {q : SeqPages} {p : Pool} (hfind : findReq s (cmdPart c) (pNum c 0 4) = .inr k)
    (hq : seqp? s k = some q) (hp : pool? s (req s k).binding = some p) : srvPrefixCreate c s =
    if !((req s k).state == .idle || (req s k).state == .decode) || pNum c 4 4 % 64 != 0 || decide (q.watermark < pNum c 4 4) then refuse stBadCommand s
    else if stepping s then later s
    else match prefixPages q p (pNum c 4 4), (if (livePrefixes s).length < 65536 then some (firstGap (livePrefixes s) 0) else none) with
      | some ps, some i =>
        let r := req s k
        let gen := ((Tbl.get none s.srv.prefixes i).map fun x => (x.gen + 1) % 65535).getD 0
        let u := ps.foldl (fun s g => addCount r.binding g.2 true s) s
        doneWith (leBytes 2 i ++ leBytes 2 gen) (modSrv (fun v => { v with prefixes := Tbl.set none v.prefixes i (some
          { gen := gen, live := true, part := r.part, binding := r.binding, positions := pNum c 4 4, pages := ps,
            record := r.record.take (pNum c 4 4 * Sc.tokenBytes (reqCfg u k)),
            poisoned := ps.any fun g => (Tbl.get none q.entries g.1).any PageEntry.poisoned, flushed := false }) }) u)
      | _, _ => refuse stNoResource s := by
  unfold srvPrefixCreate applyPrefixCreate
  simp only [hfind, hq, hp, Option.map_some, Option.getD_some]
  by_cases hbad : (!((req s k).state == .idle || (req s k).state == .decode) || pNum c 4 4 % 64 != 0 || decide (q.watermark < pNum c 4 4)) = true
  · simp only [if_pos hbad]
  · generalize (if (livePrefixes s).length < 65536 then some (firstGap (livePrefixes s) 0) else none) = slot
    rcases prefixPages q p (pNum c 4 4) with _ | ps
    · simp only [if_neg hbad]
    · cases slot <;> simp only [if_neg hbad]

theorem srvPrefixRelease_of_own {c : Cmd} {s : State} {x : Prefix} (hfind : findPrefix s (cmdPart c) (pNum c 0 4) = .inr x) : srvPrefixRelease c s =
    if stepping s then later s else done (freePrefix (pNum c 0 4 % 65536) false s) := by
  unfold srvPrefixRelease applyPrefixRelease
  simp only [hfind]

/-- Settles O47: each command and event by the request's state, and by what it finds to take. -/
theorem requestsParkRestoreExpireAndShareTheirPages : Obligations.RequestsParkRestoreExpireAndShareTheirPages := by
  unfold Obligations.RequestsParkRestoreExpireAndShareTheirPages
  refine ⟨fun m s k st hstarts => ?_, fun k s hnone => ?_, fun k s q p hq hp => ?_, fun k s q p m e he hdest => ?_, fun k data s q p hq hp => ?_,
    fun k s => ?_, fun k s => ?_, fun m s k st q p hstarts => ?_, fun m s x st hstarts => ?_⟩
  · intro c a p r
    have hexec : exec (.srvPark m) s = .next (answer c (srvPark c a)) := exec_of_starts hstarts rfl rfl rfl
    rw [hexec]
    refine ⟨fun hnone => ?_, fun hfind => ⟨fun hbad => ?_, fun htier hlo hhi => ⟨fun hbusy => ?_, fun hidle hsteps => ?_, fun hidle hstopped => ?_⟩⟩⟩
    · have hnone' : findReq a (cmdPart c) (pNum c 0 4) = .inl st := hnone
      rw [srvPark, hnone']
      rfl
    · have hfind' : findReq a (cmdPart c) (pNum c 0 4) = .inr k := hfind
      rw [srvPark, hfind']
      dsimp only
      rw [if_pos hbad]
      rfl
    · have hbusy' : ((req a k).state != .idle) = true := bne_iff_ne.mpr hbusy
      rw [srvPark_of_idle (s := a) hfind htier hlo hhi, if_pos hbusy']
      rfl
    · have hidle' : ¬((req a k).state != .idle) = true := fun hne => bne_iff_ne.mp hne hidle
      rw [srvPark_of_idle (s := a) hfind htier hlo hhi, if_neg hidle', if_pos (c := stepping a = true) hsteps]
      rfl
    · have hidle' : ¬((req a k).state != .idle) = true := fun hne => bne_iff_ne.mp hne hidle
      rw [srvPark_of_idle (s := a) hfind htier hlo hhi, if_neg hidle', if_neg (c := stepping a = true) (Bool.eq_false_iff.mp hstopped)]
      intro got
      refine ⟨fun hfull => ?_, fun x hgot => ?_⟩
      · have hfull' : takeParks (req a k).binding (pByte c 4 == 1) (Sc.parkBlocks (reqCfg a k)) (parkKeys a k) a = none := hfull
        rw [hfull']
        rfl
      · have hgot' : takeParks (req a k).binding (pByte c 4 == 1) (Sc.parkBlocks (reqCfg a k)) (parkKeys a k) a = some x := hgot
        rw [hgot']
        rfl
  · rw [hnone]
    rfl
  · rw [exec_parkMoveComplete_of_pages hq hp]
    refine ⟨fun hother => ?_, fun hparking hfresh => ?_⟩
    · rw [if_pos (by rw [bne_iff_ne.mpr hother, Bool.true_or])]
    · rw [if_neg (by rw [hparking, hfresh]; decide)]
  · have hpool : ((req s k).parkDest == 1) = false := beq_eq_false_iff_ne.mpr hdest
    refine ⟨?_, fun i page => ?_⟩
    · rw [parkOne, he]
      dsimp only
      rw [hpool]
      rfl
    · rw [unparkOne, he]
  · intro moves
    rw [exec_unparkComplete_of_pages hq hp]
    refine ⟨fun hother => ?_, fun hunparking hfresh => ?_⟩
    · rw [if_pos (by rw [bne_iff_ne.mpr hother, Bool.true_or])]
    · rw [if_neg (by rw [hunparking, hfresh]; decide)]
      refine ⟨fun hdest => ?_, fun bs hdest hdata => ?_, fun st hdest hstatus => ?_⟩
      · have hdest' : ((req s k).parkDest != 1) = true := bne_iff_ne.mpr hdest
        dsimp only
        rw [if_pos hdest']
      · subst hdata
        have hdest' : ¬((req s k).parkDest != 1) = true := fun hne => bne_iff_ne.mp hne hdest
        dsimp only
        rw [if_neg hdest']
      · have hdest' : ¬((req s k).parkDest != 1) = true := fun hne => bne_iff_ne.mp hne hdest
        dsimp only
        rw [if_neg hdest']
        cases data with
        | ok bs => cases hstatus
        | error => cases hstatus; rfl
        | timeout => cases hstatus; rfl
        | refused => cases hstatus; rfl
  · exact ⟨fun hsteps => if_pos hsteps, fun hidle => if_neg (Bool.eq_false_iff.mp hidle)⟩
  · have hexec : exec (.parkExpiry k) s = .next
        (if s.step.inReserve || !stepping s then expireReq (if stepping s then s.step.lastTick.getD (rack s) else rack s) k s else s) := rfl
    rw [hexec]
    refine ⟨fun hshut => ?_, fun hopen => ?_⟩
    · obtain ⟨hsteps, hout⟩ := hshut
      rw [hsteps, hout]
      rfl
    · intro t
      have hopen' : (s.step.inReserve || !stepping s) = true := by
        rcases hopen with h | h <;> simp [h]
      rw [if_pos hopen']
      refine ⟨fun hnot => ?_, fun hparked hover => ?_⟩
      · have hlives : parkExpired s t k = false := by
          rw [parkExpired]
          rcases hnot with hstate | hearly
          · rw [beq_eq_false_iff_ne.mpr hstate, Bool.false_and]
          · rw [decide_eq_false (Nat.not_le.mpr hearly), Bool.and_false]
        exact congrArg Host.Outcome.next (if_pos (by rw [hlives]; rfl))
      · have hends : parkExpired s t k = true := by
          rw [parkExpired, beq_iff_eq.mpr hparked, decide_eq_true hover]
          rfl
        exact congrArg Host.Outcome.next (if_neg (by rw [hends]; decide))
  · intro c a n r
    have hexec : exec (.srvPrefixCreate m) s = .next (answer c (srvPrefixCreate c a)) := exec_of_starts hstarts rfl rfl rfl
    rw [hexec]
    refine ⟨fun hnone => ?_, fun hfind hq hp => ?_⟩
    · have hnone' : findReq a (cmdPart c) (pNum c 0 4) = .inl st := hnone
      rw [srvPrefixCreate, hnone']
      rfl
    · rw [srvPrefixCreate_of_own (s := a) hfind hq hp]
      refine ⟨fun hbad => ?_, fun hstate hwhole hmark => ⟨fun hsteps => ?_, fun hidle => ⟨fun hfull => ?_, fun ps hps hroom => ?_⟩⟩⟩
      · have hbad' : (!((req a k).state == .idle || (req a k).state == .decode) || pNum c 4 4 % 64 != 0 || decide (q.watermark < pNum c 4 4)) = true := by
          rcases hbad with hpart | hover | ⟨hidle, hdecode⟩
          · rw [bne_iff_ne.mpr hpart, Bool.or_true, Bool.true_or]
          · rw [decide_eq_true hover, Bool.or_true]
          · rw [beq_eq_false_iff_ne.mpr (show (req a k).state ≠ .idle from hidle), beq_eq_false_iff_ne.mpr (show (req a k).state ≠ .decode from hdecode)]
            rfl
        rw [if_pos hbad']
        rfl
      all_goals
        have hgood : ¬(!((req a k).state == .idle || (req a k).state == .decode) || pNum c 4 4 % 64 != 0 || decide (q.watermark < pNum c 4 4)) = true := by
          have hwhole' : (pNum c 4 4 % 64 != 0) = false := by rw [show pNum c 4 4 % 64 = 0 from hwhole]; rfl
          rw [hwhole', decide_eq_false (Nat.not_lt.mpr hmark)]
          rcases hstate with h | h
          · rw [show (req a k).state = .idle from h]
            decide
          · rw [show (req a k).state = .decode from h]
            decide
        rw [if_neg hgood]
      · rw [if_pos (c := stepping a = true) hsteps]
        rfl
      · rw [if_neg (c := stepping a = true) (Bool.eq_false_iff.mp hidle)]
        rcases hfull with hnone | hfull
        · have hnone' : prefixPages q p (pNum c 4 4) = none := hnone
          rw [hnone']
          rfl
        · have hfull' : ¬(livePrefixes a).length < 65536 := Nat.not_lt.mpr hfull
          rw [if_neg hfull']
          rcases prefixPages q p (pNum c 4 4) with _ | ps <;> rfl
      · have hps' : prefixPages q p (pNum c 4 4) = some ps := hps
        have hroom' : (livePrefixes a).length < 65536 := hroom
        rw [if_neg (c := stepping a = true) (Bool.eq_false_iff.mp hidle), hps', if_pos hroom']
        rfl
  · intro c a p
    have hexec : exec (.srvPrefixRelease m) s = .next (answer c (srvPrefixRelease c a)) := exec_of_starts hstarts rfl rfl rfl
    rw [hexec]
    refine ⟨fun hnone => ?_, fun hfind hsteps => ?_, fun hfind hidle => ?_⟩
    · have hnone' : findPrefix a (cmdPart c) (pNum c 0 4) = .inl st := hnone
      rw [srvPrefixRelease, hnone']
      rfl
    · rw [srvPrefixRelease_of_own (s := a) hfind, if_pos (c := stepping a = true) hsteps]
      rfl
    · rw [srvPrefixRelease_of_own (s := a) hfind, if_neg (c := stepping a = true) (Bool.eq_false_iff.mp hidle)]
      rfl

end Sys2Proof.Machine
end
section
/-! PROOFS. Batches from cut-off to finalising, and the gather engine. -/
namespace Sys2Proof.Machine

/-! ### The cut-off -/

/-- The waiting classes of a partition are in force. -/
def classesApplied (p : Nat) (s : State) : State :=
  ((waitingCmds s 0x0502).filter fun c => cmdPart c == p).foldl (fun s c => answer c (applyClass c s)) s

/-- The batches that a partition's cut-off builds. -/
def cutBatches (p : Nat) (u : State) : State :=
  let t := u.step.nextTick
  let P := (u.step.active.map StepCfg.period).getD 0
  let all := (liveSlots u).filter (eligible u (servedBindings u p))
  let v := beginCopies all (all.foldl (fun s k => noteRisk t P k s) u)
  let left := all.filter (copiesShort v)
  buildAll p t P (((nextSegs v).mapIdx fun i e => (i, e)).filter fun x => x.2.valid && x.2.partition == p)
    (sortBy (runBefore v t P) (all.filter fun k => eligible v (servedBindings u p) k && copiesDone v k)) (!left.isEmpty) (left.foldl (fun s _ => countDeferred s) v)

theorem cutoff_eq (p : Nat) (s : State) : cutoff p s =
    if (servedBindings (classesApplied p s) p).isEmpty || !(Tbl.get [] (classesApplied p s).srv.nextBatches p).isEmpty then classesApplied p s
    else cutBatches p (classesApplied p s) := rfl

theorem exec_batchCutoff_of_early {p : Nat} {s : State}
    (h : dieOn s = false ∨ s.step.run = false ∨ rack s + cutoffOf s p < s.step.nextTick ∨ 16 ≤ p) : exec (.batchCutoff p) s = .next s := by
  have hnot : ¬(dieOn s && s.step.run && decide (s.step.nextTick ≤ rack s + cutoffOf s p) && decide (p < 16)) = true := by
    simp only [Bool.and_eq_true, decide_eq_true_eq]
    rintro ⟨⟨⟨hon, hrun⟩, hdue⟩, hp⟩
    rcases h with h | h | h | h
    · exact Bool.false_ne_true (h.symm.trans hon)
    · exact Bool.false_ne_true (h.symm.trans hrun)
    · omega
    · omega
  exact congrArg Host.Outcome.next (if_neg hnot)

theorem exec_batchCutoff_of_due {p : Nat} {s : State} (hon : dieOn s = true) (hrun : s.step.run = true)
    (hdue : s.step.nextTick ≤ rack s + cutoffOf s p) (hp : p < 16) : exec (.batchCutoff p) s = .next (cutoff p s) := by
  have hyes : (dieOn s && s.step.run && decide (s.step.nextTick ≤ rack s + cutoffOf s p) && decide (p < 16)) = true := by
    rw [hon, hrun, decide_eq_true hdue, decide_eq_true hp]
    rfl
  exact congrArg Host.Outcome.next (if_pos hyes)

/-- A request that may displace none finds a batch as it is. -/
theorem makeRoom_of_modest (s : State) (fits : List BatchSlot → Bool) (t P : Nat) (u : BatchSlot) (n : Nat) (b : Build) :
    makeRoom s fits t P u false n b = b := by
  cases n with
  | zero => rfl
  | succ n => rw [makeRoom, if_pos (by simp)]

theorem consider_of_modest {s : State} {fits pages : List BatchSlot → Bool} {t P k : Nat} {b : Build}
    (hmodest : (boosted s t P k && bit (reqClass s k).policy 1) = false) : consider s fits pages t P b k =
    if !fits (b.slots ++ [slotFor s k]) then b
    else if !pages (b.slots ++ [slotFor s k]) then { b with short := b.short + 1 } else { b with slots := b.slots ++ [slotFor s k] } := by
  unfold consider
  dsimp only
  rw [hmodest, makeRoom_of_modest]

section
variable {s : State} {k : Nat} (hsingle : Sc.single (reqCfg s k) = false)
include hsingle

theorem slotFor_of_decoding (h : decodes s k = true) : slotFor s k =
    { req := k, gen := (req s k).gen, kind := 1, k := min (specDepth s k) (16777215 - projFirst s k),
      positions := 1 + min (specDepth s k) (16777215 - projFirst s k), lastChunk := false, first := projFirst s k, bag0 := 0, bags := (req s k).bags.length } := by
  unfold slotFor
  dsimp only
  rw [if_neg (Bool.eq_false_iff.mp hsingle), if_pos h]

theorem slotFor_of_prefilling (h : decodes s k = false) : slotFor s k =
    { req := k, gen := (req s k).gen, kind := 0, k := 0, positions := min (reqClass s k).prefillChunk (remaining s k),
      lastChunk := min (reqClass s k).prefillChunk (remaining s k) == remaining s k, first := projFirst s k, bag0 := 0, bags := (req s k).bags.length } := by
  unfold slotFor
  dsimp only
  rw [if_neg (Bool.eq_false_iff.mp hsingle), if_neg (Bool.eq_false_iff.mp h)]

end

/-- A count is at least its declared minimum. -/
theorem cmin_le_countVec {s : State} {cfg i : List Byte} {us : List BatchSlot} {v : Nat} (hv : v < 8) (hrole : Sc.role cfg v ≠ 0) :
    Img.cmin i v ≤ (countVec s cfg i us).getD v 0 := by
  simp only [countVec, List.getD_eq_getElem?_getD, List.getElem?_map, List.getElem?_range hv, Option.map_some, Option.getD_some, if_neg hrole]
  exact le_max_left _ _

/-! ### Finalising -/

/-- A slot's request is gone, over, ending or to be cancelled. -/
def slotOver (s : State) (u : BatchSlot) : Bool :=
  !slotLive s u || (req s u.req).state == .ending || endingSoon s u.req || cancelWaits s u.req

theorem slotOver_iff {s : State} {u : BatchSlot} : slotOver s u = true ↔
    slotLive s u = false ∨ (req s u.req).state = .ending ∨ endingSoon s u.req = true ∨ cancelWaits s u.req = true := by
  simp only [slotOver, Bool.or_eq_true, Bool.not_eq_true', beq_iff_eq, or_assoc]

theorem slots_voidOver {s : State} {b : Batch} {i : Nat} {u : BatchSlot} (hu : b.slots[i]? = some u) :
    (voidOver s b).slots[i]? = some (if u.kind != 3 && slotOver s u then { u with kind := 3 } else u) := by
  have hmap : (voidOver s b).slots = b.slots.map fun u => if u.kind != 3 && slotOver s u then { u with kind := 3 } else u := rfl
  rw [hmap, List.getElem?_map, hu]
  rfl

/-! ### The gather engine -/

section
variable {s : State} {j : GthJob} (hjob : s.gth.job = some j)
include hjob

theorem exec_gatherWave_of_pooling (h : j.ready ≠ [] ∨ j.bags.length ≤ j.next) : exec .gatherWave s = .next s := by
  have hstop : (!j.ready.isEmpty || (j.bags.drop j.next).isEmpty) = true := by
    rw [Bool.or_eq_true, Bool.not_eq_true', List.isEmpty_iff, List.isEmpty_eq_false_iff, List.drop_eq_nil_iff]
    exact h
  show execGatherWave s = _
  unfold execGatherWave
  rw [hjob]
  dsimp only
  rw [if_pos hstop]

variable (hready : j.ready = []) (hleft : j.next < j.bags.length)
include hready hleft

theorem exec_gatherWave_of_left : exec .gatherWave s = .next (
    let cfg := (srvOf s j.binding).getD []
    let held := dedupHeld s cfg
    if !held.isEmpty then held.eraseDups.foldl (fun s f => countBlocked f s) s else
    let at_ := (List.range (Sc.dedupRows cfg)).map fun q => (q % 16, Sc.dedupBase cfg + q / 16)
    let w := if j.next = 0 then 0 else j.wave + 1
    let u := modGth (fun g => { g with wave := w % 65536, waves := satAdd 32 g.waves 1, job := g.job.map fun j => { j with wave := w, buffer := [] } })
      (tierCorrected (Config.blocksFound s.freeCount) (eccIn at_ (Config.eccFound s.freeCount) { s with freeCount := s.freeCount + 1 }))
    if Sc.dedupRows cfg = 0 then plainBags j.part cfg (8388608 / max 1 (jobPitch cfg j.bags)) (j.bags.drop j.next) j.next 0 u
    else dedupBags j.part cfg (j.bags.drop j.next) j.next true (clearDedup cfg u)) := by
  have hgo : ¬(!j.ready.isEmpty || (j.bags.drop j.next).isEmpty) = true := by
    rw [Bool.or_eq_true, Bool.not_eq_true', List.isEmpty_iff, List.isEmpty_eq_false_iff, List.drop_eq_nil_iff]
    rintro (h | h)
    · exact h hready
    · omega
  show execGatherWave s = _
  unfold execGatherWave
  rw [hjob]
  dsimp only
  rw [if_neg hgo]
  rfl

end

theorem badBlockFaults_gth (part unit field n : Nat) (s : State) : (badBlockFaults part unit field n s).gth = s.gth := by
  unfold badBlockFaults
  split <;> rfl

theorem putRow_gth (stream : Bool) (part f r : Nat) (bs : List Byte) (poison full : Bool) (s : State) : (putRow stream part f r bs poison full s).gth = s.gth := by
  unfold putRow
  split
  · rfl
  · split
    · rfl
    · split
      · cases stream <;> rfl
      · rfl

theorem poisonBag_gth (j : GthJob) (b : Nat) (s : State) : (poisonBag j b s).gth = s.gth := by
  unfold poisonBag
  split <;> rfl

theorem foldl_gth {α : Type} {f : State → α → State} (hf : ∀ v a, (f v a).gth = v.gth) (l : List α) (s : State) : (l.foldl f s).gth = s.gth :=
  List.foldlRecOn (motive := fun v : State => v.gth = s.gth) l f rfl fun v hv a _ => (hf v a).trans hv

/-- A change of the gather engine depends on what it makes of it alone. -/
theorem modGth_congr {f g : GthSt → GthSt} {v : State} (h : f v.gth = g v.gth) : modGth f v = modGth g v := by
  unfold modGth
  rw [h]

/-- The rows and counts of a pooled bag, before the job goes on. -/
def pooledRows (j : GthJob) (b : Nat) (slots : List Nat) (s : State) : State :=
  let cfg := (srvOf s j.binding).getD []
  let bag := j.bags.getD b { table := 0, op := 0, ids := [] }
  let got := slots.map fun i => Tbl.get ([], false) j.buffer i
  let bad := got.any Prod.snd
  let r := poolBag bag.op (got.map fun g => rowCodes cfg bag.table g.1) { sat := 0, flush := 0, nan := 0, ovf := 0 }
  let out := poolRows (Sc.goutFmt cfg) r.1
  let at_ := bagRow cfg b
  let u := (List.range (Sc.goutRpt cfg)).foldl (fun s i => putRow false j.part at_.1 (at_.2 + i) (padTo 640 (out.1.getD i [])) bad true s)
    (badBlockFaults j.part 1 at_.1 (got.map fun g => rowBadBlocks cfg bag.table g.1).sum (addLvu at_.1 (ceilDiv r.1.length 32) { r.2 with nan := r.2.nan + out.2 } s))
  if bad then poisonBag j b u else u

theorem pooledRows_gth (j : GthJob) (b : Nat) (slots : List Nat) (s : State) : (pooledRows j b slots s).gth = s.gth := by
  have hrows : ∀ (bad : Bool) (u : State), u.gth = s.gth → (if bad then poisonBag j b u else u).gth = s.gth := fun bad u hu => by
    cases bad
    · exact hu
    · exact (poisonBag_gth j b u).trans hu
  unfold pooledRows
  exact hrows _ _ ((foldl_gth (fun v i => putRow_gth ..) _ _).trans (badBlockFaults_gth ..))

theorem exec_bagPool_of_ready {b : Nat} {s : State} {j : GthJob} {slots : List Nat} (hjob : s.gth.job = some j)
    (hbag : j.ready.find? (fun x => x.1 == b) = some (b, slots)) :
    exec (.bagPool b) s = .next (modGth (fun g =>
      let left := g.job.map fun j => { j with ready := j.ready.filter fun x => x.1 != b }
      let last := left.any fun j => j.ready.isEmpty && decide (j.bags.length ≤ j.next)
      { g with busy := !last, job := if last then none else left }) (pooledRows j b slots s)) := by
  show execBagPool b s = _
  unfold execBagPool
  rw [hjob]
  dsimp only
  rw [hbag]
  rfl

/-- Settles O48: the cut-off by its time and what stands, a slot by its request, a wave and a bag by what the job has left. -/
theorem batchesAreCutFinalisedAndTheirBagsGathered : Obligations.BatchesAreCutFinalisedAndTheirBagsGathered := by
  unfold Obligations.BatchesAreCutFinalisedAndTheirBagsGathered
  refine ⟨fun p s => ⟨exec_batchCutoff_of_early, fun hon hrun hdue hp => ?_⟩, fun s fits pages t P k b hmodest => ?_, fun s k hsingle => ?_,
    fun s cfg i us v hv hrole => cmin_le_countVec hv hrole, fun p s => ⟨fun hrest => ?_, fun hdone => ?_⟩, fun s b i u hu => ?_, fun s j => ?_,
    fun p cfg t id slot s => ?_, fun b s j slots => ?_⟩
  · intro u bs t P all v left
    rw [exec_batchCutoff_of_due hon hrun hdue hp, cutoff_eq]
    refine ⟨fun hstands => ?_, fun hserves hfresh => ?_⟩
    · have hstands' : ((servedBindings (classesApplied p s) p).isEmpty || !(Tbl.get [] (classesApplied p s).srv.nextBatches p).isEmpty) = true := by
        rw [Bool.or_eq_true, Bool.not_eq_true', List.isEmpty_iff, List.isEmpty_eq_false_iff]
        exact hstands
      rw [if_pos hstands']
      rfl
    · have hopen : ¬((servedBindings (classesApplied p s) p).isEmpty || !(Tbl.get [] (classesApplied p s).srv.nextBatches p).isEmpty) = true := by
        rw [Bool.or_eq_true, Bool.not_eq_true', List.isEmpty_iff, List.isEmpty_eq_false_iff]
        rintro (h | h)
        · exact hserves h
        · exact h hfresh
      rw [if_neg hopen]
      rfl
  · intro u
    rw [consider_of_modest hmodest]
    refine ⟨fun hover => ?_, fun hfits hshort => ?_, fun hfits hcover => ?_⟩
    · rw [if_pos (by rw [hover]; rfl)]
    · rw [if_neg (by rw [hfits]; decide), if_pos (by rw [hshort]; rfl)]
    · rw [if_neg (by rw [hfits]; decide), if_neg (by rw [hcover]; decide)]
  · by_cases hdecodes : decodes s k = true
    · rw [slotFor_of_decoding hsingle hdecodes]
      exact ⟨rfl, rfl, fun _ => ⟨rfl, rfl, rfl⟩, fun hno => absurd (hno.symm.trans hdecodes) Bool.false_ne_true⟩
    · rw [slotFor_of_prefilling hsingle (Bool.eq_false_iff.mpr hdecodes)]
      refine ⟨rfl, rfl, fun hyes => absurd hyes hdecodes, fun _ => ⟨rfl, rfl, ?_⟩⟩
      rw [beq_iff_eq]
      exact min_eq_right_iff
  · exact congrArg Host.Outcome.next (if_neg (Bool.eq_false_iff.mp hrest))
  · exact congrArg Host.Outcome.next (if_pos hdone)
  · intro gone
    refine ⟨rfl, rfl, fun hgone => ?_, fun hlives => ?_⟩
    · rw [slots_voidOver hu, slotOver_iff.mpr hgone]
      by_cases hkind : u.kind = 3
      · rw [if_neg (by simp [hkind]), ← hkind]
      · rw [if_pos (by simp [hkind])]
    · have hlives' : slotOver s u = false := Bool.eq_false_iff.mpr fun h => hlives (slotOver_iff.mp h)
      rw [slots_voidOver hu, hlives', if_neg (by simp)]
  · intro cfg
    refine ⟨fun hnone => ?_, fun hjob hbusy => exec_gatherWave_of_pooling hjob hbusy, fun hjob hready hleft hheld => ?_, fun hjob hready hleft hfree => ?_⟩
    · show execGatherWave s = _
      unfold execGatherWave
      rw [hnone]
    · have hheld' : (!(dedupHeld s cfg).isEmpty) = true := by rw [Bool.not_eq_true', List.isEmpty_eq_false_iff]; exact hheld
      rw [exec_gatherWave_of_left hjob hready hleft]
      exact congrArg Host.Outcome.next (if_pos hheld')
    · have hfree' : ¬(!(dedupHeld s cfg).isEmpty) = true := by rw [Bool.not_eq_true', List.isEmpty_eq_false_iff]; exact not_not_intro hfree
      intro at_ w u
      rw [exec_gatherWave_of_left hjob hready hleft]
      exact ⟨fun hplain => congrArg Host.Outcome.next ((if_neg hfree').trans (if_pos hplain)),
        fun hdedup => congrArg Host.Outcome.next ((if_neg hfree').trans (if_neg hdedup))⟩
  · intro keep
    refine ⟨fun hbad => ?_, fun hok => ?_⟩
    · rw [fetchId, if_pos (by rw [hbad]; rfl)]
    · rw [fetchId, if_neg (by rw [hok]; decide)]
  · refine ⟨fun hnone => ?_, fun hjob hother => ?_, fun hjob hbag => ?_⟩
    · show execBagPool b s = _
      unfold execBagPool
      rw [hnone]
    · show execBagPool b s = _
      unfold execBagPool
      rw [hjob]
      dsimp only
      rw [hother]
    · intro cfg bag got bad r out at_ u left done v
      have hv : pooledRows j b slots s = v := rfl
      have hkeep : v.gth.job = some j := (congrArg GthSt.job (pooledRows_gth j b slots s)).trans hjob
      rw [exec_bagPool_of_ready hjob hbag, hv]
      clear_value v
      refine ⟨fun hlast => ?_, fun hmore => ?_⟩
      · obtain ⟨hnil, hall⟩ := hlast
        have hempty : left.isEmpty = true := List.isEmpty_iff.mpr hnil
        have hover : (some { j with ready := left }).any (fun j => j.ready.isEmpty && decide (j.bags.length ≤ j.next)) = true := by
          rw [Option.any_some, hempty, decide_eq_true hall]
          rfl
        refine congrArg Host.Outcome.next (modGth_congr ?_)
        rw [hkeep, Option.map_some]
        dsimp only
        rw [hover]
        rfl
      · have hgoes : (some { j with ready := left }).any (fun j => j.ready.isEmpty && decide (j.bags.length ≤ j.next)) = false := by
          rw [Option.any_some, Bool.and_eq_false_iff, decide_eq_false_iff_not, List.isEmpty_eq_false_iff]
          exact Classical.not_and_iff_not_or_not.mp hmore
        refine congrArg Host.Outcome.next (modGth_congr ?_)
        rw [hkeep, Option.map_some]
        dsimp only
        rw [hgoes]
        rfl

end Sys2Proof.Machine
end
section
/-! PROOFS. The power sequence. -/
namespace Sys2Proof.Machine

/-! ### Holds and falls -/

theorem tryStart_of_held {s : State} (h : s.pwr.tripHold = true ∨ s.pwr.supplyHold = true) : tryStart s = modPwr (fun p => { p with heldStart := true }) s := by
  have hheld : (s.pwr.tripHold || s.pwr.supplyHold) = true := Bool.or_eq_true_iff.mpr h
  rw [tryStart, if_pos hheld]

theorem tryStart_of_free {s : State} (htrip : s.pwr.tripHold = false) (hsupply : s.pwr.supplyHold = false) : tryStart s = startDie s := by
  rw [tryStart, htrip, hsupply]
  rfl

theorem fallFast_of_off {c : Nat} {s : State} (h : s.pwr.phase < 4) : fallFast c s = s := if_pos h

theorem fallFast_of_on {c : Nat} {s : State} (h : 4 ≤ s.pwr.phase) : fallFast c s = modPwr (fun p =>
    { p with phase := 3, rails := 0, pgOut := false, downCause := c, offAt := s.now, restartDue := false, heldReset := false }) (dieLost s) :=
  if_neg (Nat.not_lt.mpr h)

theorem onlyIf_of_true {b : Bool} {f : State → State} {s : State} (h : b = true) : onlyIf b f s = f s := by rw [h]; rfl

theorem onlyIf_of_false {b : Bool} {f : State → State} {s : State} (h : b = false) : onlyIf b f s = s := by rw [h]; rfl

/-- The phases in which the die is powered. -/
theorem powered_phase {n : Nat} (hlo : 4 ≤ n) (hhi : n ≤ 8) : (decide (4 ≤ n) && decide (n ≤ 8)) = true := by
  rw [decide_eq_true hlo, decide_eq_true hhi]
  rfl

theorem unpowered_phase {n : Nat} (h : n < 4 ∨ 8 < n) : (decide (4 ≤ n) && decide (n ≤ 8)) = false := by
  rw [Bool.and_eq_false_iff, decide_eq_false_iff_not, decide_eq_false_iff_not]
  omega

theorem captureHang_pwr (c : Nat) (s : State) : (captureHang c s).pwr = s.pwr := by
  unfold captureHang
  refine Eq.trans (raiseError_reportsOnly _ _ _ _ _ _).pwr_eq ?_
  show (setAlert 2 s).pwr = s.pwr
  unfold setAlert
  cases mgtAlert s == 0 <;> rfl

/-! ### The lifeline's cold reset -/

section
variable {q : Nat} {r : List Byte} {s : State}

theorem exec_llColdReset_of_deaf (h : s.pwr.phase < 3) : exec (.llColdReset q r) s = .next s := by
  have hdown : (!busUp s) = true := by rw [busUp, decide_eq_false (Nat.not_le.mpr h)]; rfl
  exact congrArg Host.Outcome.next (if_pos hdown)

variable (hup : 3 ≤ s.pwr.phase)
include hup

theorem busUp_of_phase : ¬(!busUp s) = true := by
  rw [busUp, decide_eq_true hup]
  decide

theorem exec_llColdReset_of_busy (hphase : s.pwr.phase = 3) (hheld : s.pwr.tripHold = true ∨ s.pwr.supplyHold = true) :
    exec (.llColdReset q r) s = .next (llAnswer 0x03 q 0x15 [] s) :=
  congrArg Host.Outcome.next ((if_neg (busUp_of_phase hup)).trans (if_pos ⟨hphase, hheld⟩))

variable (hfree : ¬(s.pwr.phase = 3 ∧ (s.pwr.tripHold = true ∨ s.pwr.supplyHold = true)))
include hfree

theorem exec_llColdReset_of_erasing (herase : s.isl.erasing = true) (hmailbox : s.host.state = 1) :
    exec (.llColdReset q r) s = .next (modPwr (fun p => { p with heldReset := true }) (llAnswer 0x03 q 0x00 [] s)) :=
  congrArg Host.Outcome.next ((if_neg (busUp_of_phase hup)).trans ((if_neg hfree).trans (if_pos ⟨herase, hmailbox⟩)))

theorem exec_llColdReset_of_phase (hopen : s.isl.erasing = false ∨ s.host.state ≠ 1) : exec (.llColdReset q r) s = .next (match s.pwr.phase with
    | 3 => startDie (captureHang 3 (llAnswer 0x03 q 0x00 [] s))
    | 4 | 5 | 9 => modPwr (fun p => { p with heldReset := true }) (llAnswer 0x03 q 0x00 [] s)
    | _ => lifelineReset (llAnswer 0x03 q 0x00 [] s)) := by
  have hgo : ¬(s.isl.erasing = true ∧ s.host.state = 1) := by
    rintro ⟨herase, hmailbox⟩
    exact hopen.elim (fun h => Bool.false_ne_true (h.symm.trans herase)) fun h => h hmailbox
  exact congrArg Host.Outcome.next ((if_neg (busUp_of_phase hup)).trans ((if_neg hfree).trans (if_neg hgo)))

end

/-- Settles O49: each event by the phase of the power sequence, and by what holds the die. -/
theorem thePowerSequenceStartsStopsAndHoldsTheDie : Obligations.ThePowerSequenceStartsStopsAndHoldsTheDie := by
  unfold Obligations.ThePowerSequenceStartsStopsAndHoldsTheDie
  refine ⟨fun s => ⟨fun h => congrArg Host.Outcome.next (if_neg (not_not_intro h)), fun h => congrArg Host.Outcome.next (if_pos h)⟩, fun a b s => ?_,
    fun a s => ?_, fun s => rfl, fun v k s => ?_, fun s => ?_, fun s => ?_, fun rows ok av s => ?_, fun a b s => ?_, fun s => ?_, fun q r s => ?_⟩
  · refine ⟨fun h => congrArg Host.Outcome.next (if_neg (not_not_intro h)), fun h => congrArg Host.Outcome.next (if_pos h), ?_⟩
    intro t
    refine ⟨fun hnone => ?_, fun k f hsome => ?_⟩
    · have ht : bootIsland a b s = match bootSlot t a b with
          | some (k, f) => setMeas 0 (flashOf t k).islandDigest (modIsl (fun i => { i with slot := k, fallback := f, runningSvn := (flashOf t k).svn }) t)
          | none => setDeviceState 3 3 (setMeas 0 0 t) := rfl
      rw [ht, hnone]
    · have ht : bootIsland a b s = match bootSlot t a b with
          | some (k, f) => setMeas 0 (flashOf t k).islandDigest (modIsl (fun i => { i with slot := k, fallback := f, runningSvn := (flashOf t k).svn }) t)
          | none => setDeviceState 3 3 (setMeas 0 0 t) := rfl
      rw [ht, hsome]
  · refine ⟨fun hphase hstate hen => ?_, fun hphase hstate hen => ?_, fun hnot => congrArg Host.Outcome.next (if_pos ?_), tryStart_of_held, tryStart_of_free⟩
    · have hgo : ¬(s.pwr.phase ≠ 2 ∨ s.host.state = 3) := by tauto
      exact congrArg Host.Outcome.next ((if_neg hgo).trans (onlyIf_of_false hen))
    · have hgo : ¬(s.pwr.phase ≠ 2 ∨ s.host.state = 3) := by tauto
      exact congrArg Host.Outcome.next ((if_neg hgo).trans (onlyIf_of_true hen))
    · exact hnot
  · refine ⟨fun hoff => ⟨congrArg Host.Outcome.next (if_pos hoff), congrArg Host.Outcome.next (if_pos (.inl hoff)), congrArg Host.Outcome.next (if_pos hoff)⟩,
      fun hon => ⟨congrArg Host.Outcome.next (if_neg (Nat.not_lt.mpr hon)), fun hlo hhi => ?_, fun hkind => congrArg Host.Outcome.next (if_pos (.inr hkind)), ?_⟩, ?_⟩
    · have hgo : ¬(s.pwr.phase < 2 ∨ k < 1 ∨ 3 < k) := by omega
      exact congrArg Host.Outcome.next (if_neg hgo)
    · intro t
      refine ⟨fun hheld htrip hphase => congrArg Host.Outcome.next ((if_neg (Nat.not_lt.mpr hon)).trans (onlyIf_of_true ?_)),
        fun hnot => congrArg Host.Outcome.next ((if_neg (Nat.not_lt.mpr hon)).trans (onlyIf_of_false ?_))⟩
      · show (s.pwr.heldStart && !s.pwr.tripHold && !false && decide (s.pwr.phase = 3)) = true
        rw [hheld, htrip, decide_eq_true hphase]
        rfl
      · show (s.pwr.heldStart && !s.pwr.tripHold && !false && decide (s.pwr.phase = 3)) = false
        rcases hnot with h | h | h
        · rw [h]
          rfl
        · rw [h, Bool.not_true, Bool.and_false]
          rfl
        · rw [decide_eq_false h, Bool.and_false]
    · intro t
      exact ⟨fun hoff => fallFast_of_off (s := t) hoff, fun hon => fallFast_of_on (s := t) hon⟩
  · refine ⟨fun hhigh => congrArg Host.Outcome.next (if_pos hhigh), fun hlow => ?_, fun hlow => congrArg Host.Outcome.next (if_pos (by rw [hlow]; rfl)), fun hhigh => ?_⟩
    · intro t
      refine ⟨fun hphase hlong => congrArg Host.Outcome.next ((if_neg (Bool.eq_false_iff.mp hlow)).trans (onlyIf_of_true ?_)),
        fun hnot => congrArg Host.Outcome.next ((if_neg (Bool.eq_false_iff.mp hlow)).trans (onlyIf_of_false ?_))⟩
      · show (s.pwr.phase == 3 && (s.pwr.downCause == 0 || decide (10000000 ≤ s.now - s.pwr.pwrEnSince))) = true
        rw [Bool.and_eq_true, Bool.or_eq_true, beq_iff_eq, beq_iff_eq, decide_eq_true_eq]
        exact ⟨hphase, hlong⟩
      · show (s.pwr.phase == 3 && (s.pwr.downCause == 0 || decide (10000000 ≤ s.now - s.pwr.pwrEnSince))) = false
        rw [Bool.and_eq_false_iff, Bool.or_eq_false_iff, beq_eq_false_iff_ne, beq_eq_false_iff_ne, decide_eq_false_iff_not, Nat.not_le]
        exact hnot
    · intro t
      have hgo : ¬(!s.pwr.pwrEn) = true := by rw [hhigh]; decide
      exact ⟨fun hlo hhi => congrArg Host.Outcome.next ((if_neg hgo).trans (onlyIf_of_true (powered_phase hlo hhi))),
        fun hout => congrArg Host.Outcome.next ((if_neg hgo).trans (onlyIf_of_false (unpowered_phase hout)))⟩
  · refine ⟨fun hphase hdue => ?_, fun hnot => congrArg Host.Outcome.next (if_pos hnot), fun hphase hlate => ?_, fun hnot => congrArg Host.Outcome.next (if_pos hnot),
      fun hnot => congrArg Host.Outcome.next (if_pos hnot), fun hphase hdue => ?_⟩
    · have hgo : ¬(s.pwr.phase ≠ 4 ∨ (s.pwr.rails ≠ 0 ∧ s.now < s.pwr.railAt + 500000)) := by omega
      exact congrArg Host.Outcome.next (if_neg hgo)
    · have hgo : ¬(s.pwr.phase ≠ 4 ∨ s.now < s.pwr.railAt + (if s.pwr.rails = 0 then 0 else 500000) + 5000000) := by omega
      exact congrArg Host.Outcome.next (if_neg hgo)
    · have hgo : ¬(s.pwr.phase ≠ 5 ∨ s.now < s.pwr.railAt + 1000000) := by omega
      intro t
      exact ⟨fun hheld => congrArg Host.Outcome.next ((if_neg hgo).trans (if_pos hheld)),
        fun hfree => congrArg Host.Outcome.next ((if_neg hgo).trans (if_neg (Bool.eq_false_iff.mp hfree)))⟩
  · refine ⟨fun hnot => congrArg Host.Outcome.next (if_pos hnot), fun hphase hstate => ?_⟩
    have hgo : ¬(s.pwr.phase ≠ 6 ∨ s.host.state ≠ 0) := by tauto
    refine ⟨fun hbad => ?_, fun hgood hrefused => ?_, fun hgood hsigned => ?_⟩
    · subst hbad
      exact congrArg Host.Outcome.next (if_neg hgo)
    · subst hgood hrefused
      exact congrArg Host.Outcome.next (if_neg hgo)
    · subst hgood hsigned
      exact congrArg Host.Outcome.next (if_neg hgo)
  · refine ⟨fun hnot => congrArg Host.Outcome.next (if_pos hnot), fun hphase hstate => ?_⟩
    have hgo : ¬(s.pwr.phase ≠ 7 ∨ s.host.state ≠ 1) := by tauto
    intro train t
    have herase : t.isl.erasing = s.isl.erasing := by
      show (modTier 1 _ (modTier 0 _ s)).isl.erasing = s.isl.erasing
      rw [modTier_isl, modTier_isl]
    refine ⟨fun hbad => ?_, fun hgood hbad => ?_, fun ha hb herasing => ?_, fun ha hb herasing => ?_⟩
    · subst hbad
      exact congrArg Host.Outcome.next (if_neg hgo)
    · subst hgood hbad
      exact congrArg Host.Outcome.next (if_neg hgo)
    · subst ha hb
      refine congrArg Host.Outcome.next ((if_neg hgo).trans (onlyIf_of_true ?_))
      show (!t.isl.erasing) = true
      rw [herase, herasing]
      rfl
    · subst ha hb
      refine congrArg Host.Outcome.next ((if_neg hgo).trans (onlyIf_of_false ?_))
      show (!t.isl.erasing) = false
      rw [herase, herasing]
      rfl
  · refine ⟨fun hnot => congrArg Host.Outcome.next (if_pos hnot), fun hphase => ?_, fun hnot => congrArg Host.Outcome.next (if_pos ?_),
      fun hphase hdue hlate => congrArg Host.Outcome.next (if_neg ?_)⟩
    · intro t
      exact ⟨fun hheld => congrArg Host.Outcome.next ((if_neg (not_not_intro hphase)).trans (onlyIf_of_true hheld)),
        fun hfree => congrArg Host.Outcome.next ((if_neg (not_not_intro hphase)).trans (onlyIf_of_false hfree))⟩
    · rw [Bool.not_eq_true']
      exact hnot
    · rw [hdue, Bool.not_true]
      exact not_or_intro (not_not_intro hphase) (not_or_intro Bool.false_ne_true (Nat.not_lt.mpr hlate))
  · refine ⟨fun hdeaf => ⟨?_, exec_llColdReset_of_deaf hdeaf⟩, fun hup => ?_⟩
    · have hdown : (!busUp s) = true := by rw [busUp, decide_eq_false (Nat.not_le.mpr hdeaf)]; rfl
      exact congrArg Host.Outcome.next (if_pos hdown)
    · intro u t hold
      have hphase : u.pwr.phase = s.pwr.phase := congrArg PwrSt.phase (captureHang_pwr ..)
      refine ⟨fun hlo hhi => ?_, fun hout => ?_, fun hphase hheld => exec_llColdReset_of_busy hup hphase hheld, fun hphase htrip hsupply hopen => ?_,
        fun hbring => ?_, fun hother herase hmailbox => ?_, fun hruns hopen => ?_⟩
      · refine congrArg Host.Outcome.next ((if_neg (busUp_of_phase hup)).trans (onlyIf_of_true ?_))
        show (decide (4 ≤ u.pwr.phase) && decide (u.pwr.phase ≤ 8)) = true
        rw [hphase]
        exact powered_phase hlo hhi
      · refine congrArg Host.Outcome.next ((if_neg (busUp_of_phase hup)).trans (onlyIf_of_false ?_))
        show (decide (4 ≤ u.pwr.phase) && decide (u.pwr.phase ≤ 8)) = false
        rw [hphase]
        exact unpowered_phase (by omega)
      · have hfree : ¬(s.pwr.phase = 3 ∧ (s.pwr.tripHold = true ∨ s.pwr.supplyHold = true)) := by simp [htrip, hsupply]
        rw [exec_llColdReset_of_phase hup hfree hopen, hphase]
        rfl
      · have hfree : ¬(s.pwr.phase = 3 ∧ (s.pwr.tripHold = true ∨ s.pwr.supplyHold = true)) := by omega
        by_cases hshut : s.isl.erasing = true ∧ s.host.state = 1
        · exact exec_llColdReset_of_erasing hup hfree hshut.1 hshut.2
        · have hopen : s.isl.erasing = false ∨ s.host.state ≠ 1 := by
            cases herase : s.isl.erasing
            · exact .inl rfl
            · exact .inr fun hmailbox => hshut ⟨herase, hmailbox⟩
          rw [exec_llColdReset_of_phase hup hfree hopen]
          rcases hbring with h | h | h <;> rw [h] <;> rfl
      · exact exec_llColdReset_of_erasing hup (fun h => hother h.1) herase hmailbox
      · have hfree : ¬(s.pwr.phase = 3 ∧ (s.pwr.tripHold = true ∨ s.pwr.supplyHold = true)) := by omega
        rw [exec_llColdReset_of_phase hup hfree hopen]
        rcases hruns with h | h | h <;> rw [h] <;> rfl

end Sys2Proof.Machine
end
section
/-! PROOFS. Errors and hangs. -/
namespace Sys2Proof.Machine

/-! ### Raising an event leaves the hang record -/

/-- Of the error block, the counts by class alone differ. -/
def CountsErrorsOnly (s t : State) : Prop := t.err = { s.err with classCount := t.err.classCount }

namespace CountsErrorsOnly
variable {s t u : State}

theorem of_eq (h : t.err = s.err) : CountsErrorsOnly s t := by rw [CountsErrorsOnly, h]

theorem trans (h : CountsErrorsOnly s t) (h' : CountsErrorsOnly t u) : CountsErrorsOnly s u := by
  unfold CountsErrorsOnly at *
  rw [h', h]

theorem foldl {α : Type} {f : State → α → State} (hf : ∀ v a, CountsErrorsOnly v (f v a)) (l : List α) (s : State) : CountsErrorsOnly s (l.foldl f s) :=
  List.foldlRecOn (motive := fun v : State => CountsErrorsOnly s v) l f (of_eq rfl) fun v hv a _ => hv.trans (hf v a)

theorem hang_eq (h : CountsErrorsOnly s t) : t.err.hang = s.err.hang := by rw [h]
theorem hangCaptures_eq (h : CountsErrorsOnly s t) : t.err.hangCaptures = s.err.hangCaptures := by rw [h]

end CountsErrorsOnly

theorem reportRing_err (f k : Nat) (s : State) : (reportRing f k s).err = s.err := by
  unfold reportRing sendVector
  dsimp only
  split <;> rfl

theorem checkReport_err (f k : Nat) (s : State) : (checkReport f k s).err = s.err := by
  unfold checkReport onlyIf
  dsimp only
  split
  · exact reportRing_err f k s
  · rfl

theorem writeEvent_countsErrorsOnly (code part : Nat) (bs : List Byte) (f : Nat) (s : State) : CountsErrorsOnly s (writeEvent code part bs f s) := by
  unfold writeEvent
  dsimp only
  split
  · exact .of_eq rfl
  · split
    · exact rfl
    · exact .of_eq (checkReport_err ..)

theorem countUnheard_err (s : State) (r : Recip) : (countUnheard s r).err = s.err := by
  cases r with
  | prims p =>
    unfold countUnheard onlyIf
    dsimp only
    split <;> rfl
  | func f => rfl
  | pfs => rfl
  | primaryPf => rfl

theorem raiseTo_countsErrorsOnly (code part : Nat) (whom : List Recip) (bs : List Byte) (s : State) : CountsErrorsOnly s (raiseTo code part whom bs s) :=
  (CountsErrorsOnly.foldl (fun v r => .of_eq (countUnheard_err v r)) whom s).trans (.foldl (fun _ _ => writeEvent_countsErrorsOnly ..) _ _)

theorem raiseError_hang (cls code part : Nat) (whom : List Recip) (bs : List Byte) (s : State) : (raiseError cls code part whom bs s).err.hang = s.err.hang :=
  (raiseTo_countsErrorsOnly ..).hang_eq

theorem raiseError_hangCaptures (cls code part : Nat) (whom : List Recip) (bs : List Byte) (s : State) :
    (raiseError cls code part whom bs s).err.hangCaptures = s.err.hangCaptures :=
  (raiseTo_countsErrorsOnly ..).hangCaptures_eq

/-! ### What a capture leaves -/

theorem setAlert_isl (b : Nat) (s : State) : (setAlert b s).isl = { s.isl with alert := s.isl.alert ||| 2 ^ b } := by
  unfold setAlert
  cases mgtAlert s == 0 <;> rfl

theorem setAlert_err (b : Nat) (s : State) : (setAlert b s).err = s.err := by
  unfold setAlert
  cases mgtAlert s == 0 <;> rfl

theorem captureHang_isl (c : Nat) (s : State) : (captureHang c s).isl = { s.isl with alert := s.isl.alert ||| 4 } := by
  have hrep : (captureHang c s).isl = (setAlert 2 s).isl := by
    unfold captureHang
    dsimp only
    rw [raiseError_reportsOnly 9 evHangCaptured 0xFF [.pfs] _ _]
    rfl
  exact hrep.trans (setAlert_isl 2 s)

theorem captureHang_hang (c : Nat) (s : State) :
    (captureHang c s).err.hang = if keepHang c s then s.err.hang else some { cause := c, at_ := s.now, bytes := hangBytes c s } := by
  unfold captureHang
  exact raiseError_hang ..

theorem captureHang_hangCaptures (c : Nat) (s : State) : (captureHang c s).err.hangCaptures = satAdd 32 s.err.hangCaptures 1 := by
  have hrep : (captureHang c s).err.hangCaptures = satAdd 32 (setAlert 2 s).err.hangCaptures 1 := by
    unfold captureHang
    exact raiseError_hangCaptures ..
  rw [hrep, setAlert_err]

theorem keepHang_iff {c : Nat} {s : State} : keepHang c s = true ↔
    (c = 3 ∨ c = 5) ∧ ∃ h, s.err.hang = some h ∧ (h.cause = 1 ∨ h.cause = 2 ∨ h.cause = 4) ∧ s.now < h.at_ + 60000000000 := by
  unfold keepHang
  cases s.err.hang <;> simp [or_assoc]

theorem captureHang_of_kept {c : Nat} {s : State} (h : keepHang c s = true) : (captureHang c s).err.hang = s.err.hang :=
  (captureHang_hang c s).trans (if_pos h)

theorem captureHang_of_replaced {c : Nat} {s : State} (h : ¬keepHang c s = true) :
    (captureHang c s).err.hang = some { cause := c, at_ := s.now, bytes := hangBytes c s } :=
  (captureHang_hang c s).trans (if_neg h)

/-- A number with a bit set has it. -/
theorem bit_or_two_pow (n b : Nat) : bit (n ||| 2 ^ b) b = true := by
  unfold bit
  simp [Nat.testBit_or]

/-! ### The commands -/

theorem errCounterClear_of_outside {c : Cmd} {s : State} (h : 0x10 < pByte c 0 ∨ (15 < pByte c 2 ∧ pByte c 2 ≠ 0xFF)) :
    errCounterClear c s = refuse stBadCommand s := by
  unfold errCounterClear
  exact if_pos h

theorem errCounterClear_of_block {c : Cmd} {s : State} (hblk : pByte c 0 ≤ 0x10) (hall : pByte c 2 = 0xFF) : errCounterClear c s =
    if !byPrimary s c then refuse stNotPermitted s
    else done (onlyIf (pBit c 1 1) (clearRecords (pByte c 0)) (onlyIf (pBit c 1 0) (clearBlock (pByte c 0)) s)) := by
  have hin : ¬(0x10 < pByte c 0 ∨ (15 < pByte c 2 ∧ pByte c 2 ≠ 0xFF)) := by omega
  unfold errCounterClear
  exact (if_neg hin).trans (if_pos hall)

theorem errCounterClear_of_part {c : Cmd} {s : State} (hblk : pByte c 0 ≤ 0x10) (hpart : pByte c 2 < 16) : errCounterClear c s =
    if !byPrimary s c && c.part != some (pByte c 2) then refuse stNotPermitted s
    else done (onlyIf (pBit c 1 0) (clearPart (pByte c 0) (pByte c 2)) s) := by
  have hin : ¬(0x10 < pByte c 0 ∨ (15 < pByte c 2 ∧ pByte c 2 ≠ 0xFF)) := by omega
  have hall : ¬pByte c 2 = 0xFF := by omega
  unfold errCounterClear
  exact (if_neg hin).trans (if_neg hall)

/-- Settles O50: a capture keeps or replaces the record by `keepHang_iff`; events and commands by their conditions. -/
theorem errorsAreLoggedReadClearedAndHangsCaptured : Obligations.ErrorsAreLoggedReadClearedAndHangsCaptured := by
  unfold Obligations.ErrorsAreLoggedReadClearedAndHangsCaptured
  refine ⟨fun c s => ?_, fun code cls p pay s hlen => ?_, fun s => ?_, fun core pc s => ?_, fun m s hstarts => ?_, fun m s => ?_⟩
  · refine ⟨fun h hhang hc hcause hnow => ?_, fun hfree => captureHang_of_replaced fun hkeep => ?_, fun h hhang hold => captureHang_of_replaced fun hkeep => ?_,
      ?_, captureHang_hangCaptures c s⟩
    · rw [captureHang_of_kept (keepHang_iff.mpr ⟨hc, h, hhang, hcause, hnow⟩), hhang]
    · obtain ⟨hc, h, hhang, -⟩ := keepHang_iff.mp hkeep
      rcases hfree with hfree | hnone
      · omega
      · rw [hnone] at hhang
        cases hhang
    · obtain ⟨-, h', hhang', hcause, hnow⟩ := keepHang_iff.mp hkeep
      obtain rfl : h = h' := Option.some.inj (hhang.symm.trans hhang')
      omega
    · rw [captureHang_isl]
      exact bit_or_two_pow s.isl.alert 2
  · intro t new
    by_cases hfull : 4096 ≤ s.err.log.length
    · have hlog : t.err.log = s.err.log.drop 1 ++ [{ seq := s.err.logSeq, bytes := new }] :=
        congrArg (fun l => l ++ [({ seq := s.err.logSeq, bytes := new } : LogEntry)]) (if_pos (decide_eq_true hfull))
      refine ⟨s.err.log.drop 1, hlog, ?_, fun hroom => absurd hroom (Nat.not_lt.mpr hfull), fun _ => ⟨rfl, if_pos (decide_eq_true hfull)⟩⟩
      rw [hlog, List.length_append, List.length_drop, List.length_singleton]
      omega
    · have hlog : t.err.log = s.err.log ++ [{ seq := s.err.logSeq, bytes := new }] :=
        congrArg (fun l => l ++ [({ seq := s.err.logSeq, bytes := new } : LogEntry)]) (if_neg (by rw [decide_eq_true_eq]; exact hfull))
      refine ⟨s.err.log, hlog, ?_, fun _ => rfl, fun hexact => absurd (Nat.le_of_eq hexact.symm) hfull⟩
      rw [hlog, List.length_append, List.length_singleton]
      omega
  · refine ⟨fun r st hon hcur hstall hnew hlong => congrArg Host.Outcome.next (if_pos ?_), fun hnot => congrArg Host.Outcome.next (if_neg ?_)⟩
    · rw [hon, hcur, hnew, decide_eq_true hlong]
      show (r.stall.isSome && true && true) = true
      rw [hstall]
      rfl
    · intro hgo
      simp only [Bool.and_eq_true, Bool.not_eq_true', decide_eq_true_eq] at hgo
      obtain ⟨⟨⟨hon, hstall⟩, hnew⟩, hlong⟩ := hgo
      rcases hnot with h | h | h | h
      · exact Bool.false_ne_true (h.symm.trans hon)
      · obtain ⟨st, hst⟩ := Option.isSome_iff_exists.mp hstall
        obtain ⟨r, hr, hrs⟩ := Option.bind_eq_some_iff.mp hst
        rw [h r hr] at hrs
        cases hrs
      · exact Bool.false_ne_true (hnew.symm.trans h)
      · omega
  · refine ⟨fun hcore hon => congrArg Host.Outcome.next (if_neg ?_), fun hnot => congrArg Host.Outcome.next (if_pos ?_),
      fun hcore hlo hhi hnew hlate => congrArg Host.Outcome.next (if_neg ?_), fun hnot => congrArg Host.Outcome.next (if_pos hnot)⟩
    · rw [hon]
      exact not_or_intro (Nat.not_le.mpr hcore) Bool.false_ne_true
    · rw [Bool.not_eq_true']
      exact hnot
    · rw [hnew]
      refine not_or_intro (Nat.not_le.mpr hcore) (not_or_intro (Nat.not_lt.mpr hlo) (not_or_intro (Nat.not_lt.mpr hhi) ?_))
      exact not_or_intro Bool.false_ne_true (Nat.not_lt.mpr hlate)
  · intro c a blk p
    have hexec : exec (.errCounterClear m) s = .next (answer c (errCounterClear c a)) := exec_of_starts hstarts rfl rfl rfl
    refine ⟨fun hout => ?_, fun hblk hall hother => ?_, fun hblk hall hprim => ?_, fun hblk hp hother hpart => ?_, fun hblk hp hmay => ?_⟩
    · rw [hexec, errCounterClear_of_outside hout]
      rfl
    · have hno : (!byPrimary a c) = true := by rw [show byPrimary a c = false from hother]; rfl
      rw [hexec, errCounterClear_of_block hblk hall, if_pos hno]
      rfl
    · have hyes : ¬(!byPrimary a c) = true := by rw [show byPrimary a c = true from hprim]; decide
      rw [hexec, errCounterClear_of_block hblk hall, if_neg hyes]
      rfl
    · have hno : (!byPrimary a c && c.part != some p) = true := by
        rw [show byPrimary a c = false from hother, bne_iff_ne.mpr hpart]
        rfl
      rw [hexec, errCounterClear_of_part hblk hp, if_pos hno]
      rfl
    · have hyes : ¬(!byPrimary a c && c.part != some p) = true := by
        rw [Bool.and_eq_true, Bool.not_eq_true', bne_iff_ne]
        rintro ⟨hother, hpart⟩
        exact hmay.elim (fun h => Bool.false_ne_true (hother.symm.trans h)) hpart
      rw [hexec, errCounterClear_of_part hblk hp, if_neg hyes]
      rfl
  · refine ⟨fun hstarts => ?_, fun hstarts => ?_, fun hstarts => exec_of_starts hstarts rfl rfl rfl, fun hstarts => ?_⟩
    · intro c a n
      have hexec : exec (.errLogRead m) s = .next (answer c (errLogRead c a)) := exec_of_starts hstarts rfl rfl rfl
      refine ⟨fun hout => ?_, fun hlo hhi hhost => ?_⟩
      · rw [hexec, errLogRead, if_pos hout]
        rfl
      · have hin : ¬(pNum c 4 2 = 0 ∨ 4096 < pNum c 4 2) := by omega
        rw [hexec, errLogRead, if_neg hin, intoHost, if_neg (by simp [hhost, n])]
        rfl
    · intro c a
      have hexec : exec (.errHangRead m) s = .next (answer c (errHangRead c a)) := exec_of_starts hstarts rfl rfl rfl
      refine ⟨fun hnone => ?_, fun h hsome hhost => ?_⟩
      · have hnone' : a.err.hang = none := hnone
        rw [hexec, errHangRead, hnone']
        rfl
      · have hsome' : a.err.hang = some h := hsome
        have hbody : errHangRead c a = intoHost c (pNum c 8 8) 8192 h.bytes a := by
          rw [errHangRead, hsome']
        rw [hexec, hbody, intoHost, if_neg (by simp [hhost])]
        rfl
    · intro c a ms
      have hexec : exec (.errCfgSet m) s = .next (answer c (errCfgSet c a)) := exec_of_starts hstarts rfl rfl rfl
      refine ⟨fun hout => ?_, fun hlo hhi => ?_⟩
      · rw [hexec, errCfgSet, if_pos hout]
        rfl
      · have hin : ¬(pNum c 0 2 < 10 ∨ 60000 < pNum c 0 2) := by omega
        rw [hexec, errCfgSet, if_neg hin]
        rfl

end Sys2Proof.Machine
end
section
/-! PROOFS. Security commands. -/
namespace Sys2Proof.Machine

/-! ### What raising an event leaves of the fabric -/

theorem reportRing_fab (f k : Nat) (s : State) : (reportRing f k s).fab = s.fab := by
  unfold reportRing sendVector
  dsimp only
  split <;> rfl

theorem checkReport_fab (f k : Nat) (s : State) : (checkReport f k s).fab = s.fab := by
  unfold checkReport onlyIf
  dsimp only
  split
  · exact reportRing_fab f k s
  · rfl

theorem writeEvent_fab (code part : Nat) (bs : List Byte) (f : Nat) (s : State) : (writeEvent code part bs f s).fab = s.fab := by
  unfold writeEvent
  dsimp only
  split
  · rfl
  · split
    · rfl
    · exact checkReport_fab ..

theorem countUnheard_fab (s : State) (r : Recip) : (countUnheard s r).fab = s.fab := by
  cases r with
  | prims p =>
    unfold countUnheard onlyIf
    dsimp only
    split <;> rfl
  | func f => rfl
  | pfs => rfl
  | primaryPf => rfl

theorem foldl_fab {α : Type} {f : State → α → State} (hf : ∀ v a, (f v a).fab = v.fab) (l : List α) (s : State) : (l.foldl f s).fab = s.fab :=
  List.foldlRecOn (motive := fun v : State => v.fab = s.fab) l f rfl fun v hv a _ => (hf v a).trans hv

theorem raiseTo_fab (code part : Nat) (whom : List Recip) (bs : List Byte) (s : State) : (raiseTo code part whom bs s).fab = s.fab :=
  (foldl_fab (fun _ _ => writeEvent_fab ..) _ _).trans (foldl_fab countUnheard_fab whom s)

theorem raiseTo_isl (code part : Nat) (whom : List Recip) (bs : List Byte) (s : State) : (raiseTo code part whom bs s).isl = s.isl := by
  rw [raiseTo_reportsOnly code part whom bs s]

theorem raiseTo_seq (code part : Nat) (whom : List Recip) (bs : List Byte) (s : State) : (raiseTo code part whom bs s).seq = s.seq := by
  rw [raiseTo_reportsOnly code part whom bs s]

theorem setAlert_fab (b : Nat) (s : State) : (setAlert b s).fab = s.fab := by
  unfold setAlert
  cases mgtAlert s == 0 <;> rfl

theorem setAlert_seq (b : Nat) (s : State) : (setAlert b s).seq = s.seq := by
  unfold setAlert
  cases mgtAlert s == 0 <;> rfl

/-! ### Halting -/

theorem syncSeq_halt (s : State) : (syncSeq s).seq.halt = s.seq.halt := by
  unfold syncSeq
  cases hcur : s.seq.cur <;> simp [hcur]

theorem setHalt_halt (h : Bool) (s : State) : (setHalt h s).seq.halt = h := by
  unfold setHalt
  split
  case isTrue heq => exact heq
  case isFalse => exact syncSeq_halt _

theorem chargeSlack_isl (cause cycles : Nat) (s : State) : (chargeSlack cause cycles s).isl = s.isl := by
  unfold chargeSlack
  dsimp only
  split
  · rfl
  · split <;> rfl

theorem settleHalt_isl (s : State) : (settleHalt s).isl = s.isl := by
  unfold settleHalt
  split
  · rfl
  · split
    · rfl
    · split
      · exact chargeSlack_isl ..
      · split
        · exact chargeSlack_isl ..
        · exact chargeSlack_isl ..
        · exact chargeSlack_isl ..
        · rfl

theorem noteHalt_isl (s : State) : (noteHalt s).isl = s.isl := by
  unfold noteHalt onlyIf
  split <;> rfl

theorem setHalt_isl (h : Bool) (s : State) : (setHalt h s).isl = s.isl := by
  unfold setHalt
  split
  · rfl
  · split
    · exact settleHalt_isl s
    · exact (noteHalt_isl _).trans (settleHalt_isl s)

/-! ### The end of a token -/

section
variable {c : Nat} {s : State} {t : Token}

/-- What the loss of a token is, but for the event that tells of it. -/
def tokenLost (s : State) : State :=
  setMeas 3 0 (setAlert 3 (modFab (fun f => { f with inject := f.inject.map fun j => (j.1, j.2.map fun x => { x with enable := false }) })
    (setHalt false (modIsl (fun i => { i with token := none }) s))))

theorem endToken_of_some (h : s.isl.token = some t) : endToken c s = raiseTo evTokenEnded 0xFF [.pfs] (fields4 [c]) (tokenLost s) := by
  have hsome : ¬s.isl.token.isNone = true := by rw [h]; exact Bool.false_ne_true
  exact if_neg hsome

theorem tokenLost_token (s : State) : (tokenLost s).isl.token = none := by
  show (setAlert 3 _).isl.token = none
  rw [setAlert_isl]
  show (setHalt false _).isl.token = none
  rw [setHalt_isl]
  rfl

theorem tokenLost_halt (s : State) : (tokenLost s).seq.halt = false := by
  show (setAlert 3 _).seq.halt = false
  rw [setAlert_seq]
  exact setHalt_halt ..

theorem tokenLost_inject (s : State) : ∀ j ∈ (tokenLost s).fab.inject, ∀ x, j.2 = some x → x.enable = false := by
  intro j hj x hx
  have hfab : (tokenLost s).fab.inject = (setHalt false (modIsl (fun i => { i with token := none }) s)).fab.inject.map
      fun j => (j.1, j.2.map fun x => { x with enable := false }) := congrArg FabSt.inject (setAlert_fab 3 _)
  rw [hfab] at hj
  obtain ⟨k, -, rfl⟩ := List.mem_map.mp hj
  obtain ⟨y, -, rfl⟩ := Option.map_eq_some_iff.mp hx
  rfl

end

/-! ### What the operations answer -/

theorem if_bnot {α : Type} {b : Bool} {x y : α} : (if !b then x else y) = if b then y else x := by cases b <;> rfl

section
variable {s : State} {a : List Byte} {as_ : List (List Byte)}

theorem secTransitionOp_of_dirty (h : as_.all Auth.clean = false) : secTransitionOp as_ s = secRefuse stBadCommand s := by
  have hdirty : (!as_.all Auth.clean) = true := by rw [h]; rfl
  exact if_pos hdirty

variable (hclean : as_.all Auth.clean = true)
include hclean

theorem secTransitionOp_of_clean : secTransitionOp as_ s =
    if !lcStep s.isl.lc (Auth.target (as_.headD [])) then secRefuse stNotPermitted (useChallenge s)
    else if !as_.all (fun a => authFresh s 1 a && Auth.target a == Auth.target (as_.headD [])) || !lcSigned s (Auth.target (as_.headD [])) as_ then
      secRefuse stBadSignature (useChallenge s)
    else (enterLc (Auth.target (as_.headD [])) (useChallenge s), { status := stOk, results := [], output := [], reset := true }) := by
  have hgo : ¬(!as_.all Auth.clean) = true := by rw [hclean]; decide
  exact if_neg hgo

theorem secTransitionOp_of_illegal (h : lcStep s.isl.lc (Auth.target (as_.headD [])) = false) :
    secTransitionOp as_ s = secRefuse stNotPermitted (useChallenge s) := by
  rw [secTransitionOp_of_clean hclean, if_pos (by rw [h]; rfl)]

theorem secTransitionOp_of_legal (h : lcStep s.isl.lc (Auth.target (as_.headD [])) = true) : secTransitionOp as_ s =
    if (as_.all fun a => authFresh s 1 a && Auth.target a == Auth.target (as_.headD [])) && lcSigned s (Auth.target (as_.headD [])) as_ then
      (enterLc (Auth.target (as_.headD [])) (useChallenge s), { status := stOk, results := [], output := [], reset := true })
    else secRefuse stBadSignature (useChallenge s) := by
  have hgo : ¬(!lcStep s.isl.lc (Auth.target (as_.headD []))) = true := by rw [h]; decide
  rw [secTransitionOp_of_clean hclean, if_neg hgo, ← Bool.not_and]
  exact if_bnot

end

theorem lcStep_iff {old new : Nat} : lcStep old new = true ↔ (old = 0 ∧ new = 1) ∨ (old = 1 ∧ (new = 2 ∨ new = 3)) ∨ (old = 2 ∧ new = 3) := by
  unfold lcStep
  simp only [Bool.or_eq_true, Bool.and_eq_true, beq_iff_eq, or_assoc]

section
variable {s : State} {a : List Byte}

theorem secOwnerKeysOp_of_return (h : s.isl.lc = 3) : secOwnerKeysOp a s = secRefuse stNotPermitted s := if_pos h

theorem secOwnerKeysOp_of_sound (hlc : s.isl.lc ≠ 3) (hclean : Auth.clean a = true) (hslot : Auth.slot a ≤ 3) (hop : Auth.op a ≤ 1)
    (hown : Auth.op a = 0 ∨ Auth.signer a ≠ 0x10 + Auth.slot a) : secOwnerKeysOp a s = if authFresh s 2 a && keyAuth s a then
      secOk (measureKeys (modIsl (fun i => { i with ownerKeys := Tbl.set none i.ownerKeys (Auth.slot a) (if Auth.op a = 0 then some (Auth.key a) else none) })
        (useChallenge s)))
    else secRefuse stBadSignature (useChallenge s) := by
  have hform : ¬((!Auth.clean a) = true ∨ 3 < Auth.slot a ∨ 1 < Auth.op a) := by
    rw [hclean]
    exact not_or_intro Bool.false_ne_true (not_or_intro (Nat.not_lt.mpr hslot) (Nat.not_lt.mpr hop))
  have hother : ¬(Auth.op a = 1 ∧ Auth.signer a = 0x10 + Auth.slot a) := by omega
  rw [secOwnerKeysOp, if_neg hlc, if_neg hform]
  dsimp only
  rw [if_neg hother, ← Bool.not_and]
  exact if_bnot

theorem secTokenOp_of_clean (herase : s.isl.erasing = false) (hclean : Auth.clean a = true) : secTokenOp a s =
    if authFresh s 0 a && tokenAuth s a && decide (1 ≤ Auth.lifetime a) && decide (Auth.lifetime a ≤ 86400) then secOk (setToken a (useChallenge s))
    else secRefuse stBadSignature (useChallenge s) := by
  have hgo : ¬(!Auth.clean a) = true := by rw [hclean]; decide
  have hlife : (!authFresh s 0 a || !tokenAuth s a || Auth.lifetime a == 0 || decide (86400 < Auth.lifetime a)) =
      !(authFresh s 0 a && tokenAuth s a && decide (1 ≤ Auth.lifetime a) && decide (Auth.lifetime a ≤ 86400)) := by
    have hzero : (Auth.lifetime a == 0) = !decide (1 ≤ Auth.lifetime a) := by cases Auth.lifetime a <;> rfl
    have hlong : decide (86400 < Auth.lifetime a) = !decide (Auth.lifetime a ≤ 86400) :=
      (decide_eq_decide.mpr Nat.not_le.symm).trans decide_not
    rw [hzero, hlong, Bool.not_and, Bool.not_and, Bool.not_and]
  rw [secTokenOp, if_neg (Bool.eq_false_iff.mp herase), if_neg hgo]
  dsimp only
  rw [hlife]
  exact if_bnot

/-- What a firmware image leaves in the slot that is idle. -/
def stagedFlash (i : List Byte) : Flash :=
  let x := Config.fwImage i
  { islandDigest := Config.sha384 x.1, avporDigest := Config.sha384 x.2.1, version := x.2.2.1 % 2 ^ 24, svn := x.2.2.2.1 }

theorem secFwUpdateOp_eq (s : State) (i : List Byte) : secFwUpdateOp i s = if fwSound s i then
      secOk (raiseTo evFwStaged 0xFF [.pfs] (fields4 [idleSlot s, (stagedFlash i).version, (stagedFlash i).svn])
        (modIsl (fun x => { x with flash := Tbl.set none x.flash (idleSlot s) (some (stagedFlash i)) }) s))
    else secRefuse stBadSignature s := if_bnot

end

/-! ### The power command -/

theorem pByte_eq_leAt (c : Cmd) (i : Nat) : leAt c.m.params i 1 = pByte c i := by
  unfold leAt sliceBytes
  simp [leNat, pByte]

theorem thresholdParam_of_clear {ps : List Byte} (h : bit (leAt ps 3 1) 0 = false) : thresholdParam ps = none := if_neg (Bool.eq_false_iff.mp h)

theorem thresholdParam_of_set {ps : List Byte} (h : bit (leAt ps 3 1) 0 = true) : thresholdParam ps = some (leAt ps 2 1, toSigned 16 (leAt ps 4 2)) := if_pos h

theorem secPowerCfgOp_of_bad {cap : Nat} {th : Option (Nat × Int)} {s : State} (h : cap < 300 ∨ 750 < cap ∨ th.any (fun x => !thresholdOk x.1 x.2) = true) :
    secPowerCfgOp cap th s = secRefuse stBadCommand s := if_pos h

theorem secPowerCfgOp_of_cap {cap : Nat} {s : State} (hlo : 300 ≤ cap) (hhi : cap ≤ 750) :
    secPowerCfgOp cap none s = secOk (modIsl (fun i => { i with cap := cap }) s) :=
  if_neg (not_or_intro (Nat.not_lt.mpr hlo) (not_or_intro (Nat.not_lt.mpr hhi) Bool.false_ne_true))

theorem secPowerCfgOp_of_threshold {cap i : Nat} {v : Int} {s : State} (hlo : 300 ≤ cap) (hhi : cap ≤ 750) (hok : thresholdOk i v = true) :
    secPowerCfgOp cap (some (i, v)) s = secOk (setThreshold i v (modIsl (fun i => { i with cap := cap }) s)) := by
  have hgood : ¬(!thresholdOk i v) = true := by rw [hok]; decide
  exact if_neg (not_or_intro (Nat.not_lt.mpr hlo) (not_or_intro (Nat.not_lt.mpr hhi) hgood))

/-! ### Attestation -/

section
variable {f scope part : Nat} {nonce : List Byte} {s : State}

/-- Whether a function may have a report of a scope. -/
def mayAttest (s : State) (f scope part : Nat) : Bool := if scope = 0 then f % 32 == 0 else funcPart s f == some part

theorem mayAttest_iff (hscope : scope ≤ 1) :
    mayAttest s f scope part = true ↔ (scope = 0 ∧ f % 32 = 0) ∨ (scope = 1 ∧ funcPart s f = some part) := by
  unfold mayAttest
  rcases Nat.le_one_iff_eq_zero_or_eq_one.mp hscope with rfl | rfl <;> simp

theorem secAttestOp_of_malformed (h : 1 < scope ∨ (scope = 1 ∧ 15 < part)) : secAttestOp (some f) scope part nonce s = secRefuse stBadCommand s := if_pos h

theorem secAttestOp_of_formed (h : ¬(1 < scope ∨ (scope = 1 ∧ 15 < part))) : secAttestOp (some f) scope part nonce s =
    if mayAttest s f scope part then secOut (attestReport s scope part nonce) s else secRefuse stNotPermitted s := if_neg h

end

/-- Settles O51: each command by what its operation answers. -/
theorem securityCommandsAnswerAndAuthorise : Obligations.SecurityCommandsAnswerAndAuthorise := by
  unfold Obligations.SecurityCommandsAnswerAndAuthorise
  refine ⟨fun m s => ⟨fun hstarts => ?_, fun hstarts => ?_, fun hstarts => ?_, fun hstarts => ?_⟩, fun m s bs hstarts => ?_, fun old new => lcStep_iff,
    fun m s bs hstarts => ?_, fun m s bs hstarts => ?_, fun m s bs hstarts => ?_, fun m s => ⟨fun hstarts => ?_, fun hstarts => ?_, fun hstarts => ?_⟩,
    fun s t cause htoken => ?_, fun s => ?_, fun q k r s => ?_⟩
  · intro c hhost
    have hexec : exec (.secIdentity m) s = .next (answer c (intoHost c (pNum c 8 8) 16384 (secIdentityOp (takeCmd c s)).2.output (takeCmd c s))) :=
      exec_of_starts (body := fun c s => intoHost c (pNum c 8 8) 16384 (secIdentityOp s).2.output s) hstarts rfl rfl rfl
    rw [hexec, intoHost, if_neg (by simp [hhost])]
    rfl
  · intro c a scope p
    have hexec : exec (.secAttest m) s = .next (answer c (secAttest c a)) := exec_of_starts hstarts rfl rfl rfl
    have hbody : secAttest c a = (let x := secAttestOp (some c.m.func) scope p (sliceBytes c.m.params 8 32) a
      if x.2.status = stOk then intoHost c (pNum c 40 8) 4096 x.2.output x.1 else refuse x.2.status x.1) := rfl
    refine ⟨fun hbad => ?_, fun hother => ?_, fun hmay hhost => ?_⟩
    · rw [hexec, hbody, secAttestOp_of_malformed hbad]
      rfl
    · have hno : ¬mayAttest a c.m.func scope p = true := by
        rw [mayAttest_iff (by omega)]
        have hother' : (scope = 0 ∧ m.func % 32 ≠ 0) ∨ (scope = 1 ∧ p < 16 ∧ funcPart a m.func ≠ some p) := hother
        rintro (⟨h0, hpf⟩ | ⟨h1, hown⟩)
        · exact hother'.elim (fun h => h.2 hpf) fun h => by omega
        · exact hother'.elim (fun h => by omega) fun h => h.2.2 hown
      rw [hexec, hbody, secAttestOp_of_formed (by omega), if_neg hno]
      rfl
    · have hmay' : (scope = 0 ∧ m.func % 32 = 0) ∨ (scope = 1 ∧ p < 16 ∧ funcPart a m.func = some p) := hmay
      have hyes : mayAttest a c.m.func scope p = true := (mayAttest_iff (by omega)).mpr (hmay'.imp id fun h => ⟨h.1, h.2.2⟩)
      have hout : secAttest c a = intoHost c (pNum c 40 8) 4096 (attestReport a scope p (sliceBytes c.m.params 8 32)) a := by
        rw [hbody, secAttestOp_of_formed (by omega), if_pos hyes]
        rfl
      rw [hexec, hout, intoHost, if_neg (by simp [hhost])]
      rfl
  · intro c a n
    exact exec_of_starts (body := fun c s => secAnswer c (secChallengeOp s)) hstarts rfl rfl rfl
  · intro c
    exact exec_of_starts (body := fun _ s => doneWith (lcBytes s) s) hstarts rfl rfl rfl
  · intro c a n v as_ new t
    have hexec : exec (.secLcTransition m) s = .next (answer c (secLcTransition c a)) := exec_of_starts hstarts rfl rfl rfl
    refine ⟨fun hout => ?_, fun hlo hhi hgives => ?_⟩
    · rw [hexec, secLcTransition, if_pos hout]
      rfl
    · have hin : ¬(pByte c 0 < 1 ∨ 2 < pByte c 0) := by omega
      have hbody : secLcTransition c a = (v (secAnswer c (secTransitionOp as_ a)).1, (secAnswer c (secTransitionOp as_ a)).2) := by
        rw [secLcTransition, if_neg hin, withHost_of_gives hgives]
        rfl
      refine ⟨fun hdirty => ?_, fun hclean hillegal => ?_, fun hclean hlegal => ?_⟩
      · rw [hexec, hbody, secTransitionOp_of_dirty hdirty]
        rfl
      · rw [hexec, hbody, secTransitionOp_of_illegal (s := a) hclean hillegal]
        rfl
      · rw [hexec, hbody, secTransitionOp_of_legal (s := a) hclean hlegal]
        by_cases hsigned : ((as_.all fun x => authFresh a 1 x && Auth.target x == new) && lcSigned a new as_) = true
        · rw [if_pos hsigned, if_pos hsigned]
          rfl
        · rw [if_neg hsigned, if_neg hsigned]
          rfl
  · intro c a v x t hgives
    have hexec : exec (.secOwnerKeys m) s = .next (answer c (secOwnerKeys c a)) := exec_of_starts hstarts rfl rfl rfl
    have hbody : secOwnerKeys c a = (v (secAnswer c (secOwnerKeysOp x a)).1, (secAnswer c (secOwnerKeysOp x a)).2) := by
      rw [secOwnerKeys, withHost_of_gives hgives]
      rfl
    refine ⟨fun hlc => ?_, fun hlc hclean hslot hop hown => ?_⟩
    · rw [hexec, hbody, secOwnerKeysOp_of_return (s := a) hlc]
      rfl
    · rw [hexec, hbody, secOwnerKeysOp_of_sound (s := a) hlc hclean hslot hop hown]
      by_cases hsigned : (authFresh a 2 x && keyAuth a x) = true
      · rw [if_pos hsigned, if_pos hsigned]
        rfl
      · rw [if_neg hsigned, if_neg hsigned]
        rfl
  · intro c a v x t
    have hexec : exec (.secToken m) s = .next (answer c (secToken c a)) := exec_of_starts hstarts rfl rfl rfl
    refine ⟨fun herase => ?_, fun herase hrevoke => ?_, fun herase hgive hgives hclean => ?_⟩
    · have herase' : a.isl.erasing = true := herase
      rw [hexec, secToken, if_pos herase']
      rfl
    · have hgo : ¬a.isl.erasing = true := Bool.eq_false_iff.mp herase
      have hbody : secToken c a = secAnswer c (secRevokeOp a) := by
        rw [secToken, if_neg hgo, if_pos hrevoke]
      rw [hexec, hbody, secRevokeOp, if_neg hgo]
      rfl
    · have hgo : ¬a.isl.erasing = true := Bool.eq_false_iff.mp herase
      have hbody : secToken c a = (v (secAnswer c (secTokenOp x a)).1, (secAnswer c (secTokenOp x a)).2) := by
        rw [secToken, if_neg hgo, if_neg (Bool.eq_false_iff.mp hgive), withHost_of_gives hgives]
        rfl
      rw [hexec, hbody, secTokenOp_of_clean (s := a) herase hclean]
      by_cases hsigned : (authFresh a 0 x && tokenAuth a x && decide (1 ≤ Auth.lifetime x) && decide (Auth.lifetime x ≤ 86400)) = true
      · rw [if_pos hsigned, if_pos hsigned]
        rfl
      · rw [if_neg hsigned, if_neg hsigned]
        rfl
  · intro c a n v x f
    have hexec : exec (.secFwUpdate m) s = .next (answer c (secFwUpdate c a)) := exec_of_starts hstarts rfl rfl rfl
    refine ⟨fun hout => ?_, fun hlo hhi hgives => ?_⟩
    · rw [hexec, secFwUpdate, if_pos hout]
      rfl
    · have hin : ¬(pNum c 16 4 = 0 ∨ 16777216 < pNum c 16 4) := by omega
      have hbody : secFwUpdate c a = (v (secAnswer c (secFwUpdateOp (padTo n bs) a)).1, (secAnswer c (secFwUpdateOp (padTo n bs) a)).2) := by
        rw [secFwUpdate, if_neg hin, withHost_of_gives hgives]
        rfl
      rw [hexec, hbody, secFwUpdateOp_eq]
      by_cases hsound : fwSound a (padTo n bs) = true
      · rw [if_pos hsound, if_pos (show fwSound s (padTo n bs) = true from hsound)]
        rfl
      · rw [if_neg hsound, if_neg (show ¬fwSound s (padTo n bs) = true from hsound)]
        rfl
  · intro c
    have hexec : exec (.secFwActivate m) s = .next (answer c (secAnswer c (secFwActivateOp (takeCmd c s)))) :=
      exec_of_starts (body := fun c s => secAnswer c (secFwActivateOp s)) hstarts rfl rfl rfl
    refine ⟨fun hbelow => ?_, fun hfloor => ?_⟩
    · have hop : secFwActivateOp (takeCmd c s) = secRefuse stBadSignature (takeCmd c s) := if_pos hbelow
      rw [hexec, hop]
      rfl
    · have hop : secFwActivateOp (takeCmd c s) = secOk (modIsl (fun i => { i with nextSlot := some (idleSlot s) }) (takeCmd c s)) :=
        if_neg (Nat.not_lt.mpr hfloor)
      rw [hexec, hop]
      rfl
  · intro c
    have hexec : exec (.secSvnCommit m) s = .next (answer c (secAnswer c (secSvnCommitOp (takeCmd c s)))) :=
      exec_of_starts (body := fun c s => secAnswer c (secSvnCommitOp s)) hstarts rfl rfl rfl
    refine ⟨fun hbeyond => ?_, fun hin => ?_⟩
    · have hop : secSvnCommitOp (takeCmd c s) = secRefuse stNoResource (takeCmd c s) := if_pos hbeyond
      rw [hexec, hop]
      rfl
    · have hop : secSvnCommitOp (takeCmd c s) = secOk (modIsl (fun i => { i with fwSvn := max i.fwSvn i.runningSvn }) (takeCmd c s)) :=
        if_neg (Nat.not_lt.mpr hin)
      rw [hexec, hop]
      rfl
  · intro c cap i t
    have hexec : exec (.secPowerCfg m) s = .next (answer c (secAnswer c (secPowerCfgOp cap (thresholdParam c.m.params) (takeCmd c s)))) :=
      exec_of_starts (body := fun c s => secAnswer c (secPowerCfgOp (pNum c 0 2) (thresholdParam c.m.params) s)) hstarts rfl rfl rfl
    have hclear : bit (pByte c 3) 0 = false → thresholdParam c.m.params = none := fun h => thresholdParam_of_clear (by rw [pByte_eq_leAt, h])
    have hset : bit (pByte c 3) 0 = true → thresholdParam c.m.params = some (i, t) := fun h =>
      (thresholdParam_of_set (by rw [pByte_eq_leAt, h])).trans (congrArg (fun x => some (x, t)) (pByte_eq_leAt c 2))
    refine ⟨fun hbad => ?_, fun hlo hhi => ?_⟩
    · have hbad' : cap < 300 ∨ 750 < cap ∨ (thresholdParam c.m.params).any (fun x => !thresholdOk x.1 x.2) = true := by
        refine hbad.imp id (Or.imp id ?_)
        rintro ⟨hsome, hout⟩
        rw [hset hsome]
        show (!thresholdOk i t) = true
        rw [hout]
        rfl
      rw [hexec, secPowerCfgOp_of_bad hbad']
      rfl
    · intro u
      refine ⟨fun hnone => ?_, fun hsome hok => ?_⟩
      · rw [hexec, hclear hnone, secPowerCfgOp_of_cap hlo hhi]
        rfl
      · rw [hexec, hset hsome, secPowerCfgOp_of_threshold hlo hhi hok]
        rfl
  · refine ⟨fun hearly => congrArg Host.Outcome.next (if_neg ?_), fun hdue => congrArg Host.Outcome.next (if_pos ?_), ?_, ?_, ?_⟩
    · rw [htoken]
      exact fun h => absurd (of_decide_eq_true h) (Nat.not_le.mpr hearly)
    · rw [htoken]
      exact decide_eq_true hdue
    · rw [endToken_of_some htoken, raiseTo_isl]
      exact tokenLost_token s
    · rw [endToken_of_some htoken, raiseTo_seq]
      exact tokenLost_halt s
    · rw [endToken_of_some htoken, raiseTo_fab]
      exact tokenLost_inject s
  · refine ⟨fun hnone => congrArg Host.Outcome.next (if_neg ?_), fun hnot => congrArg Host.Outcome.next (if_pos ?_), fun herase hphase hstate => ?_⟩
    · rw [hnone]
      exact Bool.false_ne_true
    · rw [Bool.not_eq_true']
      exact hnot
    · have hgo : ¬((!s.isl.erasing) = true ∨ s.pwr.phase ≠ 8 ∨ s.host.state ≠ 1) := by
        rw [herase]
        exact not_or_intro Bool.false_ne_true (not_or_intro (not_not_intro hphase) (not_not_intro hstate))
      intro t
      exact ⟨fun hheld => congrArg Host.Outcome.next ((if_neg hgo).trans (if_pos hheld)),
        fun hfree => congrArg Host.Outcome.next ((if_neg hgo).trans (if_neg (Bool.eq_false_iff.mp hfree)))⟩
  · refine ⟨fun hdeaf => ?_, fun hup => ⟨congrArg Host.Outcome.next (if_neg (busUp_of_phase hup)), ?_⟩⟩
    · have hdown : (!busUp s) = true := by rw [busUp, decide_eq_false (Nat.not_le.mpr hdeaf)]; rfl
      exact ⟨congrArg Host.Outcome.next (if_pos hdown), congrArg Host.Outcome.next (if_pos hdown)⟩
    · intro x u
      exact ⟨fun hstays => congrArg Host.Outcome.next ((if_neg (busUp_of_phase hup)).trans (if_neg (Bool.eq_false_iff.mp hstays))),
        fun hresets => congrArg Host.Outcome.next ((if_neg (busUp_of_phase hup)).trans (if_pos hresets))⟩

end Sys2Proof.Machine
end
section
/-! PROOFS. The island's reports, sensors and gate. -/
namespace Sys2Proof.Machine

/-! ### The lifeline -/

section
variable {q : Nat} {r : List Byte} {s : State}

theorem not_busUp_of_phase (h : s.pwr.phase < 3) : (!busUp s) = true := by
  rw [busUp, decide_eq_false (Nat.not_le.mpr h)]
  rfl

variable (hup : 3 ≤ s.pwr.phase)
include hup

theorem exec_llTelemetry_of_unknown {c : Nat} (h : c ∉ llCodes) : exec (.llTelemetry c q r) s = .next (llAnswer c q 0x16 [] s) :=
  congrArg Host.Outcome.next ((if_neg (busUp_of_phase hup)).trans (if_pos h))

theorem exec_llTelemetry_sensors : exec (.llTelemetry 0x01 q r) s = .next (if r.length < 2 ∨ leAt r 1 1 < 1 ∨ 24 < leAt r 0 1 + leAt r 1 1 then
      llAnswer 0x01 q stBadCommand [] s
    else llAnswer 0x01 q stOk (((List.range (leAt r 1 1)).flatMap fun i => leBytes 4 (mgtTemp s (leAt r 0 1 + i))) ++ leBytes 4 (mgtPower s)) s) := by
  have hknown : ¬0x01 ∉ llCodes := by decide
  exact congrArg Host.Outcome.next ((if_neg (busUp_of_phase hup)).trans ((if_neg hknown).trans (if_neg (not_not_intro rfl))))

theorem exec_llHangRecord_of_short (h : r.length < 2) : exec (.llHangRecord q r) s = .next (llAnswer 0x04 q 0x16 [] s) :=
  congrArg Host.Outcome.next ((if_neg (busUp_of_phase hup)).trans (if_pos h))

theorem exec_llHangRecord_of_beyond {h : HangRec} (hlen : 2 ≤ r.length) (hk : 101 < leAt r 0 2) (hrec : s.err.hang = some h) :
    exec (.llHangRecord q r) s = .next (llAnswer 0x04 q 0x16 (leBytes 2 h.bytes.length) s) := by
  show execLlHangRecord q r s = _
  unfold execLlHangRecord
  dsimp only
  rw [if_neg (busUp_of_phase hup), if_neg (Nat.not_lt.mpr hlen), if_pos hk, hrec]
  rfl

theorem exec_llHangRecord_of_none (hlen : 2 ≤ r.length) (hk : leAt r 0 2 ≤ 101) (hrec : s.err.hang = none) :
    exec (.llHangRecord q r) s = .next (llAnswer 0x04 q 0x07 [0, 0] s) := by
  show execLlHangRecord q r s = _
  unfold execLlHangRecord
  dsimp only
  rw [if_neg (busUp_of_phase hup), if_neg (Nat.not_lt.mpr hlen), if_neg (Nat.not_lt.mpr hk), hrec]
  rfl

theorem exec_llHangRecord_of_some {h : HangRec} (hlen : 2 ≤ r.length) (hk : leAt r 0 2 ≤ 101) (hrec : s.err.hang = some h) : exec (.llHangRecord q r) s =
    .next (llAnswer 0x04 q 0x00 (leBytes 2 h.bytes.length ++ (h.bytes.drop (48 * leAt r 0 2)).take 48) s) := by
  show execLlHangRecord q r s = _
  unfold execLlHangRecord
  dsimp only
  rw [if_neg (busUp_of_phase hup), if_neg (Nat.not_lt.mpr hlen), if_neg (Nat.not_lt.mpr hk), hrec]
  rfl

theorem exec_llHitchSet_of_up : exec (.llHitchSet q r) s = .next (if r.length < 12 ∨ 15 < leAt r 0 1 ∨ 4095 < leAt r 2 2 ∨ 1 < leAt r 1 1 then
      llAnswer 0x06 q stBadCommand [] s
    else if !handPermitted s (leAt r 0 1) then llAnswer 0x06 q stNotPermitted [] s
    else llAnswer 0x06 q stOk []
      (handSet (leAt r 0 1) (leAt r 2 2) (leAt r 4 4) (if bit (leAt r 1 1) 0 then some (leAt r 8 4) else none) s)) :=
  congrArg Host.Outcome.next (if_neg (busUp_of_phase hup))

end

/-- Of 0 and 1, bit 0 says which. -/
theorem bit_zero_iff_of_le_one {n : Nat} (h : n ≤ 1) : bit n 0 = true ↔ n = 1 := by
  rcases Nat.le_one_iff_eq_zero_or_eq_one.mp h with rfl | rfl <;> decide

/-! ### PLDM -/

theorem exec_pldmRequest_of_down {x : PldmReq} {s : State} (h : s.pwr.phase < 3) : exec (.pldmRequest x) s = .next s := by
  have hdown : ¬busUp s = true := fun hup => absurd (of_decide_eq_true hup) (Nat.not_le.mpr h)
  exact congrArg Host.Outcome.next (if_neg hdown)

theorem exec_pldmRequest_of_up {x : PldmReq} {s : State} (h : 3 ≤ s.pwr.phase) : exec (.pldmRequest x) s = .next (pldm x s) :=
  congrArg Host.Outcome.next (if_pos (decide_eq_true h))

theorem secFwUpdateOp_status (x : List Byte) (s : State) : (secFwUpdateOp x s).2.status = if fwSound s x then 0x00 else 0x05 := by
  rw [secFwUpdateOp_eq]
  cases fwSound s x <;> rfl

/-! ### Sensors and the gate -/

section
variable {s : State} {w : Nat}

theorem hotSensors_eq (s : State) : hotSensors s = (List.range 24).filter fun i => (threshold s i).any fun t : Nat => decide ((t : Int) < temp s i) :=
  List.filter_congr fun i _ => by cases threshold s i <;> rfl

theorem gateCooled_eq (s : State) : gateCooled s = (List.range 24).all fun i => (threshold s i).all fun t : Nat => decide (temp s i + 32 ≤ (t : Int)) :=
  congrArg (List.all (List.range 24)) (funext fun i => by cases threshold s i <;> rfl)

theorem hotSensors_nonempty_iff : (!(hotSensors s).isEmpty) = true ↔ ∃ i t, i < 24 ∧ threshold s i = some t ∧ (t : Int) < temp s i := by
  rw [Bool.not_eq_true', List.isEmpty_eq_false_iff_exists_mem, hotSensors_eq]
  simp only [List.mem_filter, List.mem_range, Option.any_eq_true, decide_eq_true_eq, ← exists_and_left]

theorem gateCooled_iff : gateCooled s = true ↔ ∀ i t, i < 24 → threshold s i = some t → temp s i + 32 ≤ (t : Int) := by
  rw [gateCooled_eq]
  simp only [List.all_eq_true, List.mem_range, Option.all_eq_true, decide_eq_true_eq]
  exact ⟨fun h i t hi => h i hi t, fun h i hi t => h i t hi⟩

theorem nextGate_of_off (h : dieOn s = false) : (nextGate s w).1 = 0 := by
  have hoff : (!dieOn s) = true := by rw [h]; rfl
  exact congrArg Prod.fst (if_pos hoff)

variable (hon : dieOn s = true)
include hon

theorem nextGate_of_on : nextGate s w =
    if !(hotSensors s).isEmpty || decide (powerCap s < w) then (min 63 (s.isl.gate + 1), if !(hotSensors s).isEmpty then slThermal else slPowerCap)
    else if decide (100 * w < 98 * powerCap s) && gateCooled s then (s.isl.gate - 1, slPowerCap)
    else (s.isl.gate, if gateCooled s then slPowerCap else slThermal) := by
  have hrun : ¬(!dieOn s) = true := by rw [hon]; decide
  exact if_neg hrun

theorem nextGate_of_over (h : powerCap s < w ∨ (!(hotSensors s).isEmpty) = true) : (nextGate s w).1 = min 63 (s.isl.gate + 1) := by
  have hover : (!(hotSensors s).isEmpty || decide (powerCap s < w)) = true := by
    rw [Bool.or_eq_true, decide_eq_true_eq]
    exact h.symm
  rw [nextGate_of_on hon, if_pos hover]

variable (hcap : w ≤ powerCap s) (hcool : ¬(!(hotSensors s).isEmpty) = true)
include hcap hcool

theorem nextGate_of_within : nextGate s w = if decide (100 * w < 98 * powerCap s) && gateCooled s then (s.isl.gate - 1, slPowerCap)
    else (s.isl.gate, if gateCooled s then slPowerCap else slThermal) := by
  have hin : ¬(!(hotSensors s).isEmpty || decide (powerCap s < w)) = true := by
    rw [Bool.or_eq_true, decide_eq_true_eq]
    exact not_or_intro hcool (Nat.not_lt.mpr hcap)
  rw [nextGate_of_on hon, if_neg hin]

theorem nextGate_of_below (hlow : 100 * w < 98 * powerCap s) (hcold : gateCooled s = true) : (nextGate s w).1 = s.isl.gate - 1 := by
  have hbelow : (decide (100 * w < 98 * powerCap s) && gateCooled s) = true := by rw [decide_eq_true hlow, hcold]; rfl
  rw [nextGate_of_within hon hcap hcool, if_pos hbelow]

theorem nextGate_of_between (h : 98 * powerCap s ≤ 100 * w ∨ ¬gateCooled s = true) : (nextGate s w).1 = s.isl.gate := by
  have hbetween : ¬(decide (100 * w < 98 * powerCap s) && gateCooled s) = true := by
    rw [Bool.and_eq_true, decide_eq_true_eq]
    rintro ⟨hlow, hcold⟩
    exact h.elim (fun hhigh => absurd hlow (Nat.not_lt.mpr hhigh)) fun hwarm => hwarm hcold
  rw [nextGate_of_within hon hcap hcool, if_neg hbetween]

end

/-- The state once a gate is set, before the event that may tell of it. -/
def setGate (w : Nat) (s : State) : State :=
  modIsl (fun i => { i with gate := (nextGate s w).1, gateReason := (nextGate s w).2, powerAvg := w }) (onlyIf (decide (0 < (nextGate s w).1)) (setAlert 0) s)

theorem setGate_isl (w : Nat) (s : State) : ∃ a, (setGate w s).isl =
    { s.isl with alert := a, gate := (nextGate s w).1, gateReason := (nextGate s w).2, powerAvg := w } := by
  unfold setGate
  cases decide (0 < (nextGate s w).1)
  · exact ⟨_, rfl⟩
  · refine ⟨s.isl.alert ||| 2 ^ 0, ?_⟩
    rw [modIsl_isl, onlyIf_true, setAlert_isl]

theorem exec_gateRecompute_of_up {w : Nat} {s : State} (h : 2 ≤ s.pwr.phase) : ∃ u, exec (.gateRecompute w) s = .next u ∧ u.isl = (setGate w s).isl := by
  refine ⟨_, congrArg Host.Outcome.next (if_neg (Nat.not_lt.mpr h)), ?_⟩
  dsimp only
  split
  · split
    · exact raiseTo_isl ..
    · exact raiseTo_isl ..
  · rfl

/-- Settles O52: the lifeline and PLDM by request, samples by what holds the die, the gate by `nextGate`. -/
theorem theIslandReportsAndGatesPowerAndHeat : Obligations.TheIslandReportsAndGatesPowerAndHeat := by
  unfold Obligations.TheIslandReportsAndGatesPowerAndHeat
  refine ⟨fun q r s hdown => ?_, fun q r s hup => ?_, fun s hup => ?_, fun i v s => ?_, fun w s => ?_, fun s => ?_⟩
  · have hdeaf := not_busUp_of_phase hdown
    exact ⟨fun c => congrArg Host.Outcome.next (if_pos hdeaf), congrArg Host.Outcome.next (if_pos hdeaf), congrArg Host.Outcome.next (if_pos hdeaf),
      congrArg Host.Outcome.next (if_pos hdeaf), fun x => exec_pldmRequest_of_down hdown⟩
  · intro i n k
    refine ⟨fun hbad => ?_, fun c hc => exec_llTelemetry_of_unknown hup hc, fun hlen hlo hhi => ?_, exec_llHangRecord_of_short hup,
      exec_llHangRecord_of_none hup, fun h => exec_llHangRecord_of_some hup, fun h hlen hk hrec => exec_llHangRecord_of_beyond hup hlen hk hrec,
      congrArg Host.Outcome.next (if_neg (busUp_of_phase hup)), fun hbad => ?_, fun hlen hp hn hv => ⟨fun hno => ?_, fun hyes => ?_⟩⟩
    · rw [exec_llTelemetry_sensors hup, if_pos hbad]
    · rw [exec_llTelemetry_sensors hup, if_neg (by omega)]
    · rw [exec_llHitchSet_of_up hup, if_pos (by omega)]
    · have hrefused : (!handPermitted s (leAt r 0 1)) = true := by rw [hno]; rfl
      rw [exec_llHitchSet_of_up hup, if_neg (by omega), if_pos hrefused]
    · have hallowed : ¬(!handPermitted s (leAt r 0 1)) = true := by rw [hyes]; decide
      have htarget : (if bit (leAt r 1 1) 0 = true then some (leAt r 8 4) else none) = if n = 1 then some (leAt r 8 4) else none :=
        if_congr (bit_zero_iff_of_le_one hn) rfl rfl
      rw [exec_llHitchSet_of_up hup, if_neg (by omega), if_neg hallowed, htarget]
  · have hexec := fun x => exec_pldmRequest_of_up (x := x) hup
    refine ⟨fun r => hexec _, fun i hi => (hexec _).trans ?_, fun i hi => (hexec _).trans ?_, fun w hlo hhi => (hexec _).trans ?_,
      fun w hout => (hexec _).trans ?_, fun i v hok => (hexec _).trans (congrArg Host.Outcome.next (if_pos hok)),
      fun i v hbad => (hexec _).trans (congrArg Host.Outcome.next (if_neg (Bool.eq_false_iff.mp hbad))), fun x hbad => (hexec _).trans ?_,
      fun x hlo hhi => (hexec _).trans ?_, fun hfloor => (hexec _).trans ?_, fun hbelow => (hexec _).trans ?_⟩
    · rw [pldm, if_pos hi]
    · rw [pldm, if_neg (Nat.not_lt.mpr hi)]
    · rw [pldm, secPowerCfgOp_of_cap hlo hhi]
      rfl
    · rw [pldm, secPowerCfgOp_of_bad (hout.imp id .inl)]
      rfl
    · rw [pldm, if_pos hbad]
      rfl
    · have hin : ¬(x.length = 0 ∨ 16777216 < x.length) := by omega
      rw [pldm, if_neg hin, secFwUpdateOp_status]
    · have hop : secFwActivateOp s = secOk (modIsl (fun i => { i with nextSlot := some (idleSlot s) }) s) := if_neg (Nat.not_lt.mpr hfloor)
      rw [pldm, hop]
      rfl
    · have hop : secFwActivateOp s = secRefuse stBadSignature s := if_pos hbelow
      rw [pldm, hop]
      rfl
  · refine ⟨fun hdown => congrArg Host.Outcome.next (if_pos hdown), fun hup => ?_⟩
    have hrun : ¬s.pwr.phase < 2 := Nat.not_lt.mpr hup
    refine ⟨fun h24 => congrArg Host.Outcome.next ((if_neg hrun).trans (if_pos h24)), fun h25 => ?_, fun hbeyond => ?_, fun hi => ?_⟩
    · exact congrArg Host.Outcome.next ((if_neg hrun).trans ((if_neg (by omega)).trans (if_pos h25)))
    · exact congrArg Host.Outcome.next ((if_neg hrun).trans ((if_neg (by omega)).trans ((if_neg (by omega)).trans (if_pos hbeyond))))
    · intro t
      have hexec : exec (.sensorSample i v) s = .next (if ((tripAt i).any (fun lim => decide (lim ≤ temp t i)) && !t.pwr.tripHold) = true then thermalTrip i t
          else if (t.pwr.tripHold && tripCooled t) = true then releaseHold (modPwr (fun p => { p with tripHold := false }) t) else t) :=
        congrArg Host.Outcome.next ((if_neg hrun).trans ((if_neg (by omega)).trans ((if_neg (by omega)).trans (if_neg (by omega)))))
      have hhold : t.pwr.tripHold = s.pwr.tripHold := rfl
      clear_value t
      rw [hexec, hhold]
      refine ⟨fun lim hlim hhot hfree => ?_, fun hfree hcool => ?_, fun hheld hcooled => ?_, fun hheld hwarm => ?_⟩
      · rw [hlim, hfree, Option.any_some, decide_eq_true hhot]
        rfl
      · have hbelow : (tripAt i).any (fun lim => decide (lim ≤ temp t i)) = false := by
          cases hlim : tripAt i with
          | none => rfl
          | some lim => exact decide_eq_false (Int.not_le.mpr (hcool lim hlim))
        rw [hbelow, hfree]
        rfl
      · rw [hheld, hcooled, Bool.not_true, Bool.and_false]
        rfl
      · rw [hheld, hwarm, Bool.not_true, Bool.and_false]
        rfl
  · intro hot cooled
    refine ⟨fun hdown => congrArg Host.Outcome.next (if_pos hdown), fun hup => ?_⟩
    obtain ⟨u, hexec, hgate⟩ := exec_gateRecompute_of_up (w := w) hup
    obtain ⟨a, hset⟩ := setGate_isl w s
    have hisl := hgate.trans hset
    have hhot : (!(hotSensors s).isEmpty) = true ↔ hot := hotSensors_nonempty_iff
    have hcooled : gateCooled s = true ↔ cooled := gateCooled_iff
    refine ⟨u, hexec, by rw [hisl], by rw [hisl], by rw [hisl], fun hoff => ?_, fun hon hover => ?_, fun hon hcap hcool hlow hcold => ?_,
      fun hon hcap hcool hbetween => ?_⟩
    · rw [hisl]
      exact nextGate_of_off hoff
    · rw [hisl]
      exact nextGate_of_over hon (hover.imp id hhot.mpr)
    · rw [hisl]
      exact nextGate_of_below hon hcap (fun h => hcool (hhot.mp h)) hlow (hcooled.mpr hcold)
    · rw [hisl]
      exact nextGate_of_between hon hcap (fun h => hcool (hhot.mp h)) (hbetween.imp id fun hwarm h => hwarm (hcooled.mp h))
  · unfold powerCap
    refine ⟨fun h => ?_, fun hlo hhi => ?_, fun h => ?_⟩ <;> omega

end Sys2Proof.Machine
end
